-- ==== Sys2Proof/Word.lean ====
section
/-! DEFINITION. The word types of the P7: bytes, 32-bit and 64-bit words, the 64-byte flit and the 16-bit source number. -/

namespace Sys2Proof

/-- One byte. -/
abbrev Byte := BitVec 8
/-- A 32-bit register or lane. -/
abbrev Word := BitVec 32
/-- An 8-byte word (R104), an instruction word (R130, R155). -/
abbrev DWord := BitVec 64
/-- The payload of one data-plane flit, 64 bytes, byte 0 in bits 7..0 (R61, R5). -/
abbrev Flit := BitVec 512
/-- A source number (R48). -/
abbrev Src := BitVec 16
/-- A status value (R311). -/
abbrev Status := BitVec 16

end Sys2Proof
end

