-- ==== Sys2Proof/Syntax.lean ====
section
/-! DEFINITION. The commands of the block: one constructor of `Instr` per row of spec/opcode_table.json, with the row's
operands.  An operand is a place (a site, a port, a ring), the number of an item that the state already holds (a started
command, a packet in flight), or an input from outside (what the host, the board, a link peer or a physical upset
brings at that instant). -/

namespace Sys2Proof

/-- A tenant slot, 0 to 15. -/
abbrev Tenant := Fin 16
/-- A field die FD0 to FD15. -/
abbrev FieldDie := Fin 16
/-- Any die index of Table PK-1. -/
abbrev Die := Fin 40

/-- A tile coordinate die.column.row (R6). -/
structure Site where
  die : FieldDie
  col : Fin 34
  row : Fin 16
deriving DecidableEq, Repr

/-- A submission ring: the ASQ or a context's CSQ (Table HL-5). -/
inductive SubRing where
  | admin
  | ctx (t : Tenant)
deriving DecidableEq, Repr

/-- A ring group (Table HL-5). -/
inductive RingSel where
  | asq | acq | log | iq
  | csq (t : Tenant) | ccq (t : Tenant) | fault (t : Tenant)
deriving DecidableEq, Repr

/-- A PCIe function: PF0, PF1 or VFn, named by its tenant n - 1 (R297). -/
inductive Fn where
  | pf0 | pf1
  | vf (t : Tenant)
deriving DecidableEq, Repr

/-- How bad a found error is: one that the code corrects, or one it cannot (R124, R125, R208). -/
inductive EccKind where
  | ce | ue
deriving DecidableEq, Repr

/-- An upset of stored bits that comes about before the access: a byte offset and its kind. -/
structure Upset where
  off : Nat
  kind : EccKind
deriving DecidableEq, Repr

/-- A bad parity bit in what the instruction reads: REGISTER and ROW as Table IG-5 numbers them. -/
structure ParityHit where
  reg : Fin 75
  row : Fin 64
deriving DecidableEq, Repr

/-- One issue of a tile's sequencer: the tile, the cycles its instruction was ready and waited (timing, from outside the
model), and a parity error met at its reads, if any (R369). -/
structure Issue where
  site : Site
  stalls : Nat
  parity : Option ParityHit
deriving DecidableEq, Repr

/-- The steward works on a started command: its number, and whether the host takes the result write (R306). -/
structure Serve where
  id : Nat
  resultOk : Bool
deriving DecidableEq, Repr

/-- What the host answers to a read that the P7 issued (R300, R308). -/
inductive HostAnswer where
  | entry (w : Flit)
  | timeout | abort | unsupported
deriving DecidableEq, Repr

/-- Which error a host read met (Table IG-5, HOST_LINK_ERR KIND 2 to 4). -/
inductive HostError where
  | timeout | abort | unsupported
deriving DecidableEq, Repr

/-- The space a host register access reaches: a function's BAR0, or a device physical address through BAR4 (R298, R302). -/
inductive RegSpace where
  | bar0 (f : Fn)
  | bar4 (f : Fn)
deriving DecidableEq, Repr

/-- The space of a host memory read: BAR2 (R225), or a register read through BAR0 or BAR4. -/
inductive BarSel where
  | bar0 | bar2 | bar4
deriving DecidableEq, Repr

/-- A configuration request of a PCIe port (R408): the read of a function's vendor and device ID, of its class code and revision ID (R296),
the write of VF Enable for one VF, or any other read or write. -/
inductive CfgRequest where
  | other
  | ids (f : Fn)
  | classRev (f : Fn)
  | enableVf (t : Tenant)
deriving DecidableEq, Repr

/-- The straps as the board ties them (R394). -/
structure Straps where
  hostBif : Bool
  smbAddr1 : Bool
  smbAddr0 : Bool
  testModeN : Bool
deriving DecidableEq, Repr

/-- What a start's clocks and assay find: nothing, no lock or alignment, or a failing class with its location (R374, R375). -/
inductive AssayResult where
  | pass (micros : BitVec 32)
  | clockFail
  | fail (cls : Fin 9) (source : Src)
deriving DecidableEq, Repr

/-- A port of an I/O die: the XD number and the first lane (R323). -/
structure PortRef where
  xd : Fin 8
  lane : Fin 8
deriving DecidableEq, Repr

/-- A media session by die MD0 to MD3 and session-table index (R319). -/
structure SessRef where
  md : Fin 4
  idx : Fin 512
deriving DecidableEq, Repr

/-- A received Karex Link message: header bytes 0-31 by field and the data flits (Tables LK-5, DR-7). `badReserved` says that
a reserved byte of the header was not zero. -/
structure LinkMsg where
  op : BitVec 8
  tenant : BitVec 8
  handle : BitVec 16
  status : BitVec 16
  offset : DWord
  srcId : DWord
  tag : Word
  reqCredits : BitVec 16
  rspCredits : BitVec 16
  body : BitVec 256
  badReserved : Bool
  data : List Flit
deriving DecidableEq, Repr

/-- A received Karex Link codeword (Table LK-4) and the messages that it completes, or one that the RS decoder cannot
correct (R334). -/
structure Codeword where
  correctable : Bool
  corrected : Bool
  seq : BitVec 9
  ackSeq : BitVec 9
  replay : Bool
  isNull : Bool
  msgs : List LinkMsg
deriving DecidableEq, Repr

/-- An IDENT flit (Table LK-6). -/
structure IdentFlit where
  magic : Word
  version : BitVec 8
  mode : BitVec 8
  resume : Bool
  reservedZero : Bool
  packageId : DWord
  reqCredits : BitVec 16
  rspCredits : BitVec 16
  ackSeq : BitVec 9
  nextSeq : BitVec 9
  oldestSeq : BitVec 9
deriving DecidableEq, Repr

/-- What a PTP message brings about in the Sync and Delay exchange (R342, R343): a Sync of the selected master, a message that
completes an exchange with the measured offset and the master's time, or another message. -/
inductive PtpEvent where
  | sync
  | exchange (masterTime : Int) (offset : Int)
  | other
deriving DecidableEq, Repr

/-- Why a lane loses the link (R335, LINK_RETRAIN REASON 1 or 2). -/
inductive LaneLoss where
  | signal | clockLock
deriving DecidableEq, Repr

/-- Which lock is lost (R34): a PLL of the locked group whose loss is a cause of the safe state, the TCLK PLL, or the KCLK PLL of an I/O
die, whose loss is a fault of that die's links. -/
inductive PllSel where
  | locked (domain : Fin 6)
  | kclk (xd : Fin 8)
  | tclk
deriving DecidableEq, Repr

/-- The direction in which an Ethernet ring moves frames (Table LK-2). -/
inductive EthDir where
  | rx | tx
deriving DecidableEq, Repr

/-- One SMBus transaction: whether the write's PEC was right, and the data byte of a write (R404). -/
structure SmbXfer where
  pecOk : Bool
  data : Byte
deriving DecidableEq, Repr

/-- The commands of the P7: one constructor per row of spec/opcode_table.json, in the table's order, but for the last seven. -/
inductive Instr where
  -- steward commands (Table HL-10)
  | identify (c : Serve)
  | getGradeMap (c : Serve)
  | openContext (c : Serve)
  | closeContext (c : Serve)
  | setShares (c : Serve)
  | loadLayout (c : Serve)
  | unloadLayout (c : Serve)
  | step (c : Serve)
  | yield (c : Serve)
  | evict (c : Serve)
  | resume (c : Serve)
  | setBudget (c : Serve)
  | memMap (c : Serve)
  | memUnmap (c : Serve)
  | faultResolveResume (c : Serve)
  | faultResolveAbort (c : Serve)
  | mapWindowExport (c : Serve)
  | mapWindowImport (c : Serve)
  | unmapWindow (c : Serve)
  | openStream (c : Serve)
  | closeStream (c : Serve)
  | streamInput (c : Serve)
  | streamQuery (c : Serve)
  | ledgerBind (c : Serve)
  | setPlacement (c : Serve)
  | beaconConfig (c : Serve)
  | mediaSessionOpen (c : Serve)
  | mediaSessionClose (c : Serve)
  | recordStart (c : Serve)
  | recordStop (c : Serve)
  | replayStart (c : Serve)
  | twinBind (c : Serve)
  | twinUnbind (c : Serve)
  | assayRun (c : Serve) (failing : BitVec 9) (source : Src)
  | domainDown (c : Serve)
  | domainUp (c : Serve) (failing : BitVec 9)
  | setPowerStateP0 (c : Serve)
  | setPowerStateP2 (c : Serve)
  | setPowerStateP3 (c : Serve)
  | setFclk (c : Serve)
  | setTimeSource (c : Serve)
  | gpioGrant (c : Serve)
  | revoke (c : Serve)
  | gpioConfig (c : Serve)
  | linkConfig (c : Serve)
  | nopCommand (c : Serve)
  | commandFetch (r : SubRing) (answer : HostAnswer)
  -- host writes, reads and resets
  | adbWrite (f : Fn) (size : Nat) (value : Word)
  | cdbWrite (f : Fn) (t : Tenant) (size : Nat) (value : Word)
  | doorbellSignal (f : Fn) (t : Tenant) (size : Nat) (value : DWord)
  | doorbellTake (f : Fn) (t : Tenant) (size : Nat) (value : DWord)
  | ringEnable (f : Fn) (r : RingSel) (value : Word)
  | ringDisable (f : Fn) (r : RingSel) (value : Word)
  | ethRingEnable (t : Tenant) (p : PortRef) (d : EthDir) (value : Word)
  | apertureBaseWrite (f : Fn) (hi : Word)
  | gtsLoRead (f : Fn) (size : Nat)
  | cfgHostRo (f : Fn) (t : Tenant) (offset : BitVec 16) (value : Word)
  | registerWrite (space : RegSpace) (offset : BitVec 26) (size : Nat) (value : DWord)
  | activeViewWrite (s : Site) (writer : Src) (offset : BitVec 14) (value : Word)
  | shadowViewWrite (s : Site) (writer : Src) (offset : BitVec 14) (value : Word)
  | debugHaltSet (s : Site)
  | debugHaltClear (s : Site)
  | bar2Read (f : Fn) (bar : BarSel) (offset : BitVec 36) (len : Fin 4097) (upsets : List Upset)
  | bar2Write (f : Fn) (offset : BitVec 36) (bytes : List (Byte × Bool)) (upsets : List Upset)
  | configRequest (port : Fin 2) (req : CfgRequest)
  | completionTimeout (f : Fn) (err : HostError) (addr : DWord)
  | flr (f : Fn)
  | vfEnableClear (t : Tenant)
  | hostLinkDown (port : Fin 2)
  | coldReset (straps : Straps)
  | warmReset (held100us : Bool)
  | pwrGoodDeassert
  | startAssay (r : AssayResult)
  | pllLock (p : PllSel)
  | thermtripN
  | thermalReport (d : Die) (sixteenths : Int)
  | sidebandLimit
  | heartbeat
  | lockstep
  | descentEnd
  | twinSync
  -- time events
  | ppsInEdge
  | timeHoldover
  | ptpSyncTimeout
  | timeRate
  | gtsSync (d : Die) (drift : DWord)
  | ppsOut
  -- merger, log and queues
  | eventArrival (d : Die)
  | watermark (d : Die)
  | commitTimeout
  | feederSilent (d : Die)
  | logWrite
  | iqCopy
  | pendingNotification (t : Tenant)
  -- M-tile
  | tld (i : Issue) (upsets : List Upset)
  | tst (i : Issue)
  | tldw (i : Issue)
  | tldwFault (s : Site)
  | tmma (i : Issue)
  | tcvt (i : Issue)
  | tlda (i : Issue)
  | trel (i : Issue)
  | tdma (i : Issue)
  | tsend (i : Issue)
  | wcinv (i : Issue)
  -- V-tile
  | vop (i : Issue)
  | vfma (i : Issue)
  | vcmp (i : Issue)
  | vsf (i : Issue)
  | vred (i : Issue)
  | vperm (i : Issue)
  | vcvt (i : Issue)
  | vld (i : Issue) (upsets : List Upset)
  | vst (i : Issue)
  | vprd (i : Issue)
  | vsend (i : Issue)
  | vmovs (i : Issue)
  | mop (i : Issue)
  | dmapost (i : Issue)
  -- common control subset
  | nop (i : Issue)
  | secend (i : Issue)
  | loop (i : Issue)
  | br (i : Issue)
  | jmp (i : Issue)
  | call (i : Issue)
  | ret (i : Issue)
  | sli (i : Issue)
  | sop (i : Issue)
  | imw (i : Issue)
  | ifence (i : Issue)
  | openCh (i : Issue)
  | closeCh (i : Issue)
  | bsig (i : Issue)
  | bwait (i : Issue)
  | gtsr (i : Issue)
  -- DMA
  | copyLocal (s : Site) (upsets : List Upset)
  | fill (s : Site)
  | gridWrite (s : Site) (upsets : List Upset)
  | hbmRead (s : Site)
  | hbmWrite (s : Site) (upsets : List Upset)
  | windowRead (s : Site)
  | windowWrite (s : Site) (upsets : List Upset)
  | dmaCompletion (s : Site)
  | gridWriteFlit (pkt : Nat)
  | gridWriteAck (pkt : Nat)
  | readResponse (pkt : Nat)
  | hbmWriteAck (pkt : Nat)
  -- network
  | nakPacket (pkt : Nat)
  | flowPacketHop (pkt : Nat) (badParity : Bool)
  | scheduledFlit (flit : Nat) (parity : Option (Fin 7))
  -- channels and beacons
  | openRequest (pkt : Nat)
  | openReply (pkt : Nat)
  | closeMarker (pkt : Nat)
  | portFlit (pkt : Nat)
  | ringFlit (pkt : Nat)
  | tallyFlit (pkt : Nat)
  | tallyEmit (s : Site) (ep : Fin 8) (upsets : List Upset)
  | beaconSignal (op : Nat)
  | beaconWait (op : Nat)
  | beaconGrant (op : Nat)
  -- configuration load
  | shadowLoad (s : Site)
  | shadowLoadEnd (s : Site) (crcGood : Bool)
  | preloadWrite (s : Site)
  | eccWriteBack (s : Site)
  | bankClearDone (s : Site)
  -- front and seal
  | frontInject (layout : BitVec 8)
  | frontTokenArrival (tok : Nat)
  | tileSwap (s : Site)
  | frontExit (tok : Nat)
  | sealOrigin (layout : BitVec 8)
  | sealCheck (s : Site)
  | sealStallRelease (layout : BitVec 8)
  -- pacer and power
  | pacerTick (d : FieldDie) (first second base : Bool)
  | powerStep (d : Die)
  | drainEnd (d : Die)
  | domainOff (d : Die)
  -- steps and ledger
  | budgetExpiry (layout : BitVec 8)
  | stepAbort (layout : BitVec 8)
  | yieldLimit (t : Tenant)
  | compose (layout : BitVec 8)
  | mediaRecordInput (rec : Nat)
  -- media
  | decodeAu (s : SessRef) (busy : BitVec 16)
  | decodeFlush (s : SessRef) (busy : BitVec 16)
  | encodeFrame (s : SessRef) (busy : BitVec 8)
  | encodeFlush (s : SessRef) (busy : BitVec 8)
  | audioPacket (s : SessRef) (busy : BitVec 8)
  | audioConfig (s : SessRef) (busy : BitVec 8)
  | scale (s : SessRef) (busy : BitVec 16)
  | mediaOutput (s : SessRef)
  | tapScale (s : SessRef)
  -- HBM
  | hbmRequest (req : Nat) (upset : Option EccKind)
  | patrolScrub (stack : Fin 12) (upset : Option EccKind)
  | refresh (stack : Fin 12)
  | translation (req : Nat)
  -- links
  | windowRequest (pkt : Nat)
  | ethFrameRx (p : PortRef) (bytes : List Byte) (fcsOk : Bool)
  | rxEntryWrite (p : PortRef)
  | pauseFrame (p : PortRef) (quanta : BitVec 16)
  | ethTx (p : PortRef)
  | ethTxDone (p : PortRef)
  | ptpMessage (p : PortRef) (e : PtpEvent)
  | codewordRx (p : PortRef) (c : Codeword)
  | retryTimeout (p : PortRef)
  | laneSignalLoss (p : PortRef) (why : LaneLoss)
  | ident (p : PortRef) (f : IdentFlit)
  | trainingTimeout (p : PortRef)
  | trainingRetry (p : PortRef)
  | write (p : PortRef)
  | read (p : PortRef)
  | readData (p : PortRef)
  | writeAck (p : PortRef)
  | nak (p : PortRef)
  | credit (p : PortRef)
  -- twin
  | bind
  | bindAck
  | record
  | signature
  | safe
  | unbind
  | twinCompare
  | twinSignatureLost
  -- GPIO
  | gpioTick (pin : Fin 24) (pad : Bool)
  | gpioOutWrite (value : Word)
  -- SMBus
  | smbusIdent (x : SmbXfer)
  | smbusState (x : SmbXfer)
  | smbusFault (x : SmbXfer)
  | faultClear (x : SmbXfer)
  | temp (x : SmbXfer)
  | tempDie (x : SmbXfer)
  | power (x : SmbXfer) (watts : Option (BitVec 16))
  | startCount (x : SmbXfer)
  | shutdown (x : SmbXfer)
  | alertResponse
  -- JTAG
  | tapReset
  | extest (outputs : List Bool)
  | samplePreload (captured shifted : List Bool)
  | idcode
  | extestPulse (outputs : List Bool)
  | extestTrain (outputs : List Bool)
  | bypass (code : BitVec 8)
  -- supplies and returns
  | vddAoPowerOn (stored : Word)
  | autoNegotiationDone (p : PortRef)
  | pauseExpiry (p : PortRef)
  | vdd1v8Removal
  | timeSourceReturn
  | twinPeerTimeout
  | clamp
  | highz
deriving DecidableEq, Repr

end Sys2Proof
end

