-- ==== Sys2Proof/Config.lean ====
section
/-! DEFINITION. What the spec leaves open as a value: opaque constants, so that no proof can see what they are (log entries 8, 9).
A function whose first argument is a number takes the model's free-value counter. -/

namespace Sys2Proof

/-- What a session's codec has taken: the OP of a job (0 for data that was lost), FORCE_KEY, PTS, the frame size, and the coded bytes, or the
samples of a source frame (R253, R259). -/
structure MediaTake where
  op : Nat
  forceKey : Bool := false
  pts : DWord := 0
  width : Nat := 0
  height : Nat := 0
  bytes : List Byte := []
  samples : List Nat := []
deriving DecidableEq, Repr, Inhabited

/-- A decoded or source frame: its size, whether its samples have 10 bits, its planes row by row, whether it is a key frame, the place of the job
it comes from among those that the session took, and its place in display order. -/
structure VideoFrame where
  width : Nat := 0
  height : Nat := 0
  deep : Bool := false
  luma : List Nat := []
  cb : List Nat := []
  cr : List Nat := []
  key : Bool := false
  job : Nat := 0
  order : Nat := 0
deriving DecidableEq, Repr, Inhabited

/-- The profiles that Table MD-2 names, and any other. -/
inductive VideoProfile where
  | high | high10 | main | main10 | vp9Profile0 | vp9Profile2 | av1Main | other
deriving DecidableEq, Repr, Inhabited

/-- A frame as its standard's decoding process reconstructs it, without film grain or deinterlacing, with its conformance window or render size;
a frame of 4:0:0 content has no chroma (R255, R256). -/
structure DecodedFrame where
  full : VideoFrame := {}
  cropX : Nat := 0
  cropY : Nat := 0
  cropW : Nat := 0
  cropH : Nat := 0
  mono : Bool := false
deriving DecidableEq, Repr, Inhabited

/-- What a decoder finds in an access unit: why it fails (1 undecodable, 2 a frame references a lost one), whether it is a random-access point, the
profile, tier, bit depth and level (times 10) that the bitstream has, the frames in decoding order, and how many of the frames that await display
are then due. -/
structure DecodeResult where
  fault : Fin 3 := 0
  rap : Bool := false
  profile : VideoProfile := .other
  highTier : Bool := false
  bits : Nat := 0
  level : Nat := 0
  frames : List DecodedFrame := []
  ready : Nat := 0
deriving DecidableEq, Repr, Inhabited

/-- A NAL unit or OBU that an encoder makes: its header bytes, its payload, and whether a NAL unit's start code has a leading zero byte. -/
structure CodedNal where
  header : List Byte := []
  payload : List Byte := []
  zeroByte : Bool := false
deriving DecidableEq, Repr, Inhabited

/-- A coded access unit of an encoder, whether it is a key frame, and the number of the source frame it holds. -/
structure CodedUnit where
  bytes : List Byte := []
  key : Bool := false
  frame : Nat := 0
deriving DecidableEq, Repr, Inhabited

/-- An audio decoder's block: why it fails, if it does (1 undecodable), the stream's channels, sampling rate and Opus mapping family, and its
samples, interleaved, in both forms. -/
structure AudioResult where
  fault : Fin 2 := 0
  channels : Nat := 0
  rate : Nat := 0
  family : Nat := 0
  s16 : List (BitVec 16) := []
  f32 : List Word := []
deriving DecidableEq, Repr, Inhabited

end Sys2Proof

namespace Sys2Proof.Config

open Sys2Proof

/-- The video decoders of Table MD-2: what the last of the jobs a session took gives, by the session's parameter block (R256, log entry 8). -/
opaque decodeVideo : BitVec 1024 → List MediaTake → DecodeResult

/-- The numbers of the source frames whose access units become ready with the last of the frames taken, in decode order (R259, log entry 8). -/
opaque encodePlan : BitVec 1024 → List MediaTake → List Nat

/-- The NAL units or OBUs of a source frame's access unit, by the parameter block, the level signalled and the source frames so far; the flag
says that it is a key frame (R257, log entry 8). -/
opaque encodeUnit : BitVec 1024 → Nat → List MediaTake → Nat → Bool → List CodedNal

/-- The lowest level, times 10, of a codec whose limits cover a frame size, a frame rate and a bit rate, by the codec's standard; beyond every
level where none does (R257, log entry 8). -/
opaque levelNeed : Nat → Nat → Nat → Nat → Nat → Nat → Nat

/-- The audio decoders: the block of the last of the packets (R270, log entry 8). -/
opaque decodeAudio : BitVec 1024 → List MediaTake → AudioResult

/-- A free 64-bit value, one per count (log entry 9). -/
opaque freeWord : Nat → BitVec 64

/-- Word `i` of an unpredictable configuration bank (R85, log entry 9). -/
opaque freeBankWord : Nat → Nat → BitVec 64

/-- Byte `a` of a read that a word without data answers (R125, log entries 9, 87). -/
opaque freeByte : Nat → Nat → BitVec 8

/-- Byte `a` of HBM after a warm reset (R407, log entry 9). -/
opaque freeHbm : Nat → Nat → BitVec 8

end Sys2Proof.Config
end

