-- ==== Sys2Proof/Machine/State.lean ====
section
/-! DEFINITION. The state of the P7 as plain data: every register, memory, queue, counter and mode that spec/ names, grouped
by unit, and the queue of waiting commands.  `State.reset` is the package right after a cold reset
(log entries 1, 3, 4, 5).  Marks: a default that the spec does not give is DESIGN CHOICE, log entry 4. -/

namespace Sys2Proof.Machine

open Sys2Proof

/-- A sparse store: pairs of a key and a value, keys strictly rising, no entry equal to the store's default. -/
abbrev Map (α : Type) := List (Nat × α)

/-- A byte memory: a sparse store of bytes whose default is zero (log entry 5). -/
abbrev Memory := List Host.Cell

/-! ## Fabrication facts, clocks and time -/

/-- Variant letter (R3, R11). -/
inductive Variant where
  | m40 | n40 | l36
deriving DecidableEq, Repr

/-- Grade letter (R3, R20). -/
inductive Grade where
  | a | b | c
deriving DecidableEq, Repr

/-- What fuses and fabrication fix (R3, R4, R20 to R28), and what the other ends of port 0 and port 1 support: the highest PCIe
generation and log2 of the widest link (R295). No command changes it. The values at reset are log entry 3. -/
structure Package where
  variant : Variant := .m40
  grade : Grade := .a
  packageId : DWord := 0x0123456789ABCDEF
  fused : List Site := []
  pcieGen : BitVec 4 × BitVec 4 := (6, 6)
  pcieWidth : BitVec 3 × BitVec 3 := (4, 4)
deriving DecidableEq, Repr

/-- The locked group's time since beat alignment (R30) and the GTS (R39). One unit is 1/480 of a 20 ns beat; `gtsAcc` is the
part of a GTS count not yet completed, in units of 2^-32 unit (log entry 2). -/
structure Clock where
  running : Bool := false
  units : Nat := 0
  fclk : Nat := 0
  point : Fin 3 := 0
  gts : DWord := 0
  gtsAcc : Nat := 0
deriving DecidableEq, Repr

/-- The selected discipline source (R43). -/
inductive TimeSource where
  | none | gtsRef | ppsIn | ptp
deriving DecidableEq, Repr

/-- Discipline of the GTS (R43 to R47), the copies' slips (R40) and PPS_OUT. `nearest` says that PPS_IN was selected with TAI_OFFSET already
set, so that an edge marks the nearest whole second (R45). `phaseTarget` is the disciplined time that the last edge marked, `phaseError`
how far GTS + TAI_OFFSET stood from it, which the loop of R44 removes by slewing. -/
structure TimeState where
  source : TimeSource := .none
  xd : Byte := 0
  taiSeconds : DWord := 0
  ppsEdges : Nat := 0
  taiSet : Bool := false
  taiOffset : DWord := 0
  nearest : Bool := false
  phaseTarget : DWord := 0
  phaseError : DWord := 0
  locked : Bool := false
  holdover : Bool := false
  rateOffset : DWord := 0
  lastRate : DWord := 0
  lastSync : DWord := 0
  slips : Map DWord := []
  ppsOutEdges : Nat := 0
  lastPpsOut : DWord := 0
deriving DecidableEq, Repr

/-! ## Events, log and interrupt queue -/

/-- The body of a scrivener record: KIND of Table DR-5 and its payload bytes. -/
structure ScrivBody where
  kind : Byte
  layout : Byte
  step : DWord
  payload : List Byte
deriving DecidableEq, Repr

/-- What an event is for (R51, R52): a log entry, an MSI-X raise, a scrivener record, the grant of a REPORT_BEACON wait, a host doorbell,
an edge of PPS_IN that does not discipline the GTS. -/
inductive EventBody where
  | log (code : BitVec 16) (sev : Byte) (tenant : Byte) (payload : List Byte)
  | irq (f : Fn) (vector : BitVec 11) (cause : Byte)
  | scriv (t : Tenant) (r : ScrivBody)
  | report (layout : BitVec 8)
  | doorbell
  | ppsEdge
deriving DecidableEq, Repr

/-- An event with its stamp and source number (R51). -/
structure Event where
  stamp : DWord
  src : Src
  body : EventBody
deriving DecidableEq, Repr

/-- A die's event port (R52, R414): the events it has not yet delivered, the highest stamp or watermark it has sent, when the
merger last received an item of it, and whether its silence was logged. -/
structure Feeder where
  live : Bool := false
  queue : List Event := []
  reached : DWord := 0
  lastMark : DWord := 0
  lastItem : DWord := 0
  silentLogged : Bool := false
deriving DecidableEq, Repr

/-- The event merger (R52, R53). -/
structure Merger where
  feeders : Map Feeder := []
  waiting : List Event := []
  lastKey : Option (DWord × Src) := none
deriving DecidableEq, Repr

/-- A log entry in the buffer (Table IG-3). -/
structure LogEntry where
  code : BitVec 16
  src : Src
  late : Bool
  sev : Byte
  tenant : Byte
  gts : DWord
  seq : Word
  payload : List Byte
deriving DecidableEq, Repr

/-- The log buffer and its counters (R378, R379). -/
structure Log where
  seq : Word := 0
  buffer : List LogEntry := []
  lostFlag : Bool := false
  lost : Word := 0
deriving DecidableEq, Repr

/-- An MSI-X raise (R381, Table IG-6). -/
structure IqEntry where
  gts : DWord
  src : Src
  vector : BitVec 11
  fn : Fn
  cause : Byte
  late : Bool
deriving DecidableEq, Repr

/-- The on-die interrupt queue (R381) and the raises made, newest first. -/
structure Iq where
  queue : List IqEntry := []
  lostFlag : Bool := false
  lost : Word := 0
  raised : List IqEntry := []
deriving DecidableEq, Repr

/-! ## Host link -/

/-- A ring group (Table HL-4). -/
structure Ring where
  baseLo : Word := 0
  baseHi : Word := 0
  enable : Bool := false
  stopped : Bool := false
  vector : BitVec 11 := 0
  sizeLog2 : BitVec 5 := 0
  prod : Word := 0
  cons : Word := 0
deriving DecidableEq, Repr

/-- A function's own registers (R302): APERTURE_BASE words and the base in effect, the GTS high latch (R42), its MSI-X table by words and the
vectors whose pending bit is set. The mask bit of a vector is stored inverted, so that an unwritten one is masked (log entry 51). -/
structure FnRegs where
  apLo : Word := 0
  apHi : Word := 0
  apBase : DWord := 0
  gtsLatch : Word := 0
  msix : Map Word := []
  pba : List Nat := []
deriving DecidableEq, Repr

/-- A command that the steward has started (R307, R310): its number, ring, entry index, the CONS after the fetch and its 64 bytes.
`accepted` marks a command whose checks passed and whose effect goes on over several steps. -/
structure Started where
  id : Nat
  ring : SubRing
  consAfter : Word
  w : Flit
  accepted : Bool := false
  muted : Bool := false
deriving DecidableEq, Repr

/-- What the last host read or configuration request was answered. -/
inductive Reply where
  | none
  | data (bytes : List Byte) (poisoned : Bool)
  | unsupported
  | retry
  | ok
deriving DecidableEq, Repr

/-- The host link and the admin block (R294 to R310). `mem` is host memory as the P7 has written it. -/
structure HostLink where
  straps : Straps := { hostBif := false, smbAddr1 := false, smbAddr0 := false, testModeN := true }
  asq : Ring := {}
  acq : Ring := {}
  log : Ring := {}
  iq : Ring := {}
  pf0 : FnRegs := {}
  pf1 : FnRegs := {}
  vfs : Map FnRegs := []
  dbgBase : DWord := 0
  vfEnabled : BitVec 16 := 0
  linkUp : BitVec 2 := 0
  configReady : BitVec 2 := 0
  ready : Bool := false
  safePending : Bool := false
  started : List Started := []
  nextId : Nat := 0
  lastServed : Option SubRing := none
  mem : Memory := []
  aer : List (Fn × Byte) := []
  reply : Reply := .none
deriving DecidableEq, Repr

/-! ## Beacons and contexts -/

/-- Who waits on a beacon (Table CH-7, R259, R262, R328, R329). -/
inductive Waiter where
  | tile (s : Site)
  | ledger (layout : BitVec 8)
  | eth (p : PortRef) (d : EthDir)
  | job (s : SessRef)
  | slot (s : SessRef)
  | tap (s : SessRef)
deriving DecidableEq, Repr

/-- A beacon (R196, R200): VALUE, the FIFO of waiters with their COUNT, and the notification setting. -/
structure Beacon where
  value : Word := 0
  waiters : List (Waiter × BitVec 16) := []
  thresh : Word := 0
  mode : BitVec 2 := 0
  vector : BitVec 11 := 0
deriving DecidableEq, Repr

/-- A notification waiting for a free completion entry (R310). -/
structure Note where
  beacon : BitVec 12
  value : Word
  gts : DWord
deriving DecidableEq, Repr

/-- A window table entry (Table MM-6); `closing` carries the UNMAP_WINDOW that waits. -/
structure Window where
  isOpen : Bool := false
  closing : Option Nat := none
  btile : Bool := false
  permR : Bool := false
  permW : Bool := false
  tenant : Byte := 0
  peerTenant : Byte := 0
  peerHandle : BitVec 16 := 0
  base : DWord := 0
  size : DWord := 0
  peerId : DWord := 0
  port : BitVec 16 := 0
deriving DecidableEq, Repr

/-- Recording of a context (R353 to R356). -/
structure Recorder where
  ringVa : DWord
  ringBytes : Nat
  stopWhenFull : Bool
  written : Nat
  oldest : Nat
  sizes : List Nat
  records : Nat
  startGts : DWord
  wrapped : Bool
  armed : List (BitVec 8)
deriving DecidableEq, Repr

/-- One record read back from a ring for replay (R358, R359). -/
structure ReplayRec where
  kind : Byte
  layout : Byte
  step : DWord
  src : Src
  seq : Word
  gts : DWord
  payload : List Byte
  applied : Bool := false
deriving DecidableEq, Repr

/-- A replay in progress (R358 to R360), or a FOLLOW's run on the LEAD's records (R364) with its own events not yet matched. -/
structure Replay where
  layout : BitVec 8
  cmd : Option Nat
  recs : List ReplayRec
  diverged : Bool := false
  follow : Bool := false
  own : List Src := []
deriving DecidableEq, Repr

/-- Placement policy (R286). -/
inductive Placement where
  | firstFree
  | affinity (steps : Byte)
deriving DecidableEq, Repr

/-- A weigh-house setting: the share and BORROW in force, the next ones, and the frame at which they apply (R74, R77). -/
structure Shares where
  share : Nat := 0
  borrow : Bool := false
  nextShare : Nat := 0
  nextBorrow : Bool := false
  fromFrame : Nat := 0
deriving DecidableEq, Repr

/-! ## Layouts -/

/-- A record of a section (Tables LY-4, LY-5). -/
structure Rec where
  kind : Byte
  die : Byte
  col : Byte
  row : Byte
  off : Nat
  payload : List Byte
deriving DecidableEq, Repr

/-- A section (Table LY-2) with its count table (Table LY-3) and records. -/
structure Section where
  index : Nat
  isSealed : Bool
  fold : Bool
  foldPart : Bool
  foldOf : Nat
  period : Nat
  rampSteps : Nat
  counts : List (Nat × Nat × Nat × Nat × Nat)
  recs : List Rec
deriving DecidableEq, Repr

/-- A ledger binding block (Table SL-3). -/
structure Binding where
  model : Byte
  batchMax : Nat
  reportBeacon : BitVec 12
  eventBeacon : BitVec 12
  descDpas : List DWord
  reportDpa : DWord
  eventVa : DWord
  eventEntries : Nat
deriving DecidableEq, Repr

/-- A batch slot: the stream record index, and the input attached to its entry, if any (R282). -/
structure Slot where
  stream : Nat
  handle : Word
  input : Option (BitVec 128)
deriving DecidableEq, Repr

/-- A step-ending cause (R384). -/
structure Cause where
  status : Status
  gts : DWord
  src : Src
deriving DecidableEq, Repr

/-- A front token (Table LY-7). -/
structure Token where
  tenant : Tenant
  layout : BitVec 8
  sectionNext : Nat
  stepLo : BitVec 16
  sealBreak : Bool
  holdMax : BitVec 16
  holder : Src
deriving DecidableEq, Repr

/-- The steps that an instance runs (R78, R79, R287, R345 to R351): whether a step runs, its start and budget and those of a step that
overlaps it, the causes that end it and whether its abort has begun, the section behind the last front that left by every exit, the section a front is bound for, the exits seen, the seal state of the running section, the signature sums of
the oldest step and the one that overlaps it, and the section whose ramp is in force with the cycle in which it began (R236). -/
structure Run where
  running : Bool := false
  current : Option Nat := none
  frontTo : Option Nat := none
  exitsSeen : List (Site × Token) := []
  startGts : DWord := 0
  nextStart : Option DWord := none
  budget : Option Nat := none
  nextBudget : Option Nat := none
  pausedGts : Nat := 0
  nextPaused : Nat := 0
  aborting : Bool := false
  causes : List Cause := []
  released : Bool := false
  freezeAt : Option Nat := none
  frozenSince : Option Nat := none
  releaseAt : Option Nat := none
  frozenTotal : Nat := 0
  sealCauses : Map (BitVec 6) := []
  sealFrozen : Map Nat := []
  sigSum : BitVec 128 := 0
  nextSum : BitVec 128 := 0
  ramp : Option (Nat × Nat) := none
deriving DecidableEq, Repr

/-- A loaded layout (R80 to R102, R278 to R284, R316, R317). -/
structure Instance where
  id : BitVec 8
  tenant : Tenant
  crc : Word
  dieMask : BitVec 16
  sections : List Section
  loadCmd : Option Nat := none
  loaded : Bool := false
  stepNo : Nat := 0
  stepCmd : Option Nat := none
  stepsLeft : Option Nat := none
  normal : Nat := 0
  firstAbort : Status := 0
  unloadCmd : Option Nat := none
  binding : Option Binding := none
  nextBinding : Option Binding := none
  eventCount : Nat := 0
  batch : Map Slot := []
  slotHolders : Map Nat := []
  stepBatches : Map (Map Slot) := []
  composedFor : Nat := 0
  cutoff : Option (DWord × Src) := none
  composing : Bool := false
  run : Run := {}
deriving DecidableEq, Repr

/-! ## Tiles -/

/-- A configuration bank (R85): whether a TILE_CFG has been loaded into it, its 64 bytes, the instruction memory, the router word and the
slot tables. A bank that has exchanged roles is unpredictable where nothing has been written since: `unpredictable` numbers its free values. -/
structure Bank where
  configured : Bool := false
  sect : Nat := 0
  cfg : Flit := 0
  imem : Map DWord := []
  routerWord : DWord := 0
  period : Nat := 1
  slots : Map Byte := []
  pins : List Word := []
  unpredictable : Option Nat := none
deriving DecidableEq, Repr

/-- An active hardware loop (R171): first and last word address and the iterations left. -/
structure HwLoop where
  first : Nat
  last : Nat
  count : Word
deriving DecidableEq, Repr

/-- A tile's sequencer (R131, R171 to R175): IP, the words held with their addresses (the one to issue first), loops with the
innermost first, the call stack, what stops issue, and the replay slot: words with their addresses (R150). -/
structure Seq where
  ip : Nat := 0
  held : List (Nat × DWord) := []
  loops : List HwLoop := []
  stack : List Nat := []
  secend : Bool := false
  stopped : Bool := false
  waiting : Bool := false
  imemWritten : Bool := false
  replay : List (Nat × DWord) := []
deriving DecidableEq, Repr

/-- State of an outbound endpoint (R183, R185); `down` is closed with E_PEER_DOWN (R249). -/
inductive OutState where
  | closed | pending | opened | down
deriving DecidableEq, Repr

/-- An outbound endpoint: its state, the target, the scalar that takes the status, the flits sent (R182 to R185), whether a parity error cut
the channel, so that no later flit is delivered (R370), and whether a swap has closed it while its OPEN was pending. -/
structure OutEp where
  state : OutState := .closed
  target : Word := 0
  sd : Nat := 0
  flits : Nat := 0
  cut : Bool := false
  swapped : Bool := false
deriving DecidableEq, Repr

/-- An OPEN request as it travels and as a target holds it (R182). -/
structure OpenReq where
  rank : BitVec 16
  sect : Nat
  ring : Bool
  ep : Fin 8
  src : Src
  tag : BitVec 16
  tenant : Tenant
  spine : Bool
deriving DecidableEq, Repr

/-- Ring pointer state (R188 to R190). -/
structure RingLatch where
  sig : Bool
  beacon : BitVec 12
  base : Nat
  size : Nat
  wr : Word
  rd : Word
deriving DecidableEq, Repr

/-- Tally pointer state (R192 to R194): the contributors in order of arrival until all are there, then in slot order, with the
64-byte flits each has delivered; `start` is the round their first contribution belongs to, `closed` counts close markers. -/
structure TallyLatch where
  sig : Bool
  beacon : BitVec 12
  base : Nat
  vbytes : Nat
  nc : Nat
  ty : Byte
  result : Nat
  emitted : Word
  taken : Word
  held : List OpenReq
  slots : List (OpenReq × Nat)
  start : Word
  closed : Nat
deriving DecidableEq, Repr

/-- An inbound endpoint: the sender of its open channel, its pending slot, and ring or tally state (R182, R186, R188, R192). -/
structure InEp where
  openFrom : Option Src := none
  pending : Option OpenReq := none
  ring : Option RingLatch := none
  tally : Option TallyLatch := none
deriving DecidableEq, Repr

/-- A line of the window cache (R140): its tag and 64 bytes; the newest used stands first in its set. -/
structure CacheLine where
  set : Fin 256
  tag : Nat
  data : Flit
deriving DecidableEq, Repr

/-- A TLDW in progress (R140, R141): its word, its address, rows written, and the lowest faulting row. -/
structure TldwRun where
  w : DWord
  ip : Nat
  va : Nat
  done : List Nat
  sent : List Nat
  fault : Option (Nat × Nat)
  waiting : Bool
deriving DecidableEq, Repr

/-- A TMMA in the matrix unit (R144, R150): its word and address, the last of its compute cycles, the destination's old contents, and whether
the TLDW in flight was issued before it. -/
structure MmaRun where
  w : DWord
  ip : Nat
  until_ : Nat
  ad : Nat
  oldAcc : Map Word
  oldFull : Bool
  behind : Bool
deriving DecidableEq, Repr

/-- The state of an M-tile (Table MT-1, Live registers). t and scale bytes are keyed reg * 4096 + row * 64 + byte and
reg * 512 + row * 8 + byte, accumulators acc * 512 + row * 32 + column; latch A is register 8 and latch B register 9 of t and scale. -/
structure MState where
  t : Memory := []
  scale : Memory := []
  acc : Map Word := []
  full : BitVec 14 := 0
  q : Map Word := []
  cache : List CacheLine := []
  tldw : Option TldwRun := none
  mma : List MmaRun := []
  intOvf : Bool := false
  sealedClass : Bool := false
  illegal : Bool := false
  tldwFault : Bool := false
  faultIp : Nat := 0
  faultRow : Nat := 0
  tmmaDone : Word := 0
  tmmaRestarts : Word := 0
  wcHits : Word := 0
  wcMisses : Word := 0
deriving DecidableEq, Repr

/-- The state of a V-tile (Table VT-1, Live registers). Lanes are keyed reg * 64 + lane. Its ALU, FMA, SFU and RED units are empty from the
cycle unitsUntil on (R169, R233). -/
structure VState where
  v : Map Word := []
  m : Map (BitVec 128) := []
  s : Map Word := []
  queues : Map (List DWord) := []
  sealedClass : Bool := false
  view : Bool := false
  illegal : Bool := false
  branches : Word := 0
  unitsUntil : Nat := 0
deriving DecidableEq, Repr

/-- Where a DMA descriptor stands (R115, R120). -/
inductive DmaPhase where
  | queued | started | finished
deriving DecidableEq, Repr

/-- A DMA descriptor in flight (R115 to R121): SEQ, the 32 bytes, its poster, how far its 64-byte units were sent and answered; the units of a
read written, in their order, and the data that waits for an earlier unit's; the row and status with which it fails once what it sent is
answered. -/
structure Dma where
  seq : BitVec 16
  desc : BitVec 256
  poster : Src
  phase : DmaPhase := .queued
  status : Status := 0
  failRow : BitVec 16 := 0xFFFF
  sent : Nat := 0
  answered : List Nat := []
  moved : Nat := 0
  held : List (Nat × Flit) := []
  failing : Option (Nat × Status) := none
  noWord : Bool := false
deriving DecidableEq, Repr

/-- A bank access waiting at a port (R105 to R110): the 16-bit bank enable. -/
abbrev BankMask := BitVec 16

/-- The accesses presented at the five ports, how many at the DMA port's head are the tally engine's (R194), the crossing state of R110 and the
age of NV (R108). -/
structure Ports where
  inb : List BankMask := []
  mw : List BankMask := []
  me : List BankMask := []
  dma : List BankMask := []
  tally : Nat := 0
  nv : List BankMask := []
  crossWide : Option (Fin 4) := none
  crossNarrow : Bool := false
  nvAge : Nat := 0
deriving DecidableEq, Repr

/-- The state of a B-tile (chapter Buffer Tiles). `idleUse` holds the FCLK cycle, counted from 1, in which idle bank cycles were last used by
write-backs and preload writes, and the banks they used in it (R107). -/
structure BState where
  mem : Memory := []
  clearing : Map Nat := []
  clearAgain : BitVec 16 := 0
  bad : Map EccKind := []
  writeBacks : List Nat := []
  idleUse : Nat × BankMask := (0, 0)
  ports : Ports := {}
  bankConflict : Map Word := []
  wn : Word := 0
  nw : Word := 0
  ww : Word := 0
  clearWaits : Word := 0
  inboundFull : Word := 0
  eccUe : Bool := false
  eccCe : Bool := false
  ceCount : Word := 0
  ueOffset : BitVec 20 := 0
  dmas : List Dma := []
  nextSeq : BitVec 16 := 0
deriving DecidableEq, Repr

/-- A tile site: router, configuration banks, live registers, sequencer, endpoints and the state of its kind. A parked tile is
the default (R84). preload holds the bytes of images that wait for bank cycles, descDue those of batch descriptors (R87, R284). -/
structure Tile where
  active : Bank := {}
  shadow : Bank := {}
  parked : Bool := true
  rws : Map Word := []
  traceEn : Bool := false
  debugHalt : Bool := false
  shadowComplete : Bool := false
  keepNext : Bool := false
  shadowSection : Nat := 0
  due : List Rec := []
  loading : Bool := false
  loadTries : Nat := 0
  preload : List (Nat × Byte) := []
  descDue : List (Nat × Byte) := []
  frontHolds : Word := 0
  holdCycles : Word := 0
  liveWrites : Word := 0
  chOrphans : Word := 0
  issueStalls : Word := 0
  ueCount : Nat := 0
  swapAt : Nat := 0
  holding : Option Nat := none
  stepLo : BitVec 16 := 0
  tokens : List (Fin 5 × Token) := []
  sealAsserted : BitVec 6 := 0
  sealBroke : Bool := false
  parityStop : Bool := false
  rng : DWord := 0
  sealedSignals : List (BitVec 12 × BitVec 16) := []
  gtsrs : Nat := 0
  seq : Seq := {}
  outs : Map OutEp := []
  ins : Map InEp := []
  m : MState := {}
  v : VState := {}
  b : BState := {}
deriving DecidableEq, Repr

/-! ## Networks -/

/-- Where a flow packet stands (R68): at a router input, beyond a tile's local output, at a spine port of a group, at a unit of
another die. -/
inductive Place where
  | router (s : Site) (port : Fin 5)
  | arrived (s : Site)
  | spine (half : Fin 2) (group : Fin 16)
  | unit (die : Die) (unit : BitVec 10)
deriving DecidableEq, Repr

/-- The head sideband (Table GR-2). -/
structure Head where
  tenant : Tenant
  spine : Bool
  vc : Bool
  destDie : BitVec 6
  destUnit : BitVec 10
  ep : Fin 8
  kind : BitVec 3
  src : Src
  tag : BitVec 16
deriving DecidableEq, Repr

/-- A memory request (R418, R336): address, row and byte count for a read, the data for a write. -/
structure MemReq where
  write : Bool
  va : DWord
  handle : BitVec 16
  window : Bool
  bytes : Nat
  row : Nat
  data : Flit
deriving DecidableEq, Repr

/-- A translated memory request on its way from a translation unit to a controller (R418). -/
structure HbmCall where
  req : MemReq
  dpa : DWord
deriving DecidableEq, Repr

/-- What a KIND 4 packet tells its receiver: the status, the KIND, the TAG kind and the die of the packet it answers, the row of a memory
request, and the FAULT_ID of a translation fault. -/
structure Nak where
  code : Status
  ofKind : BitVec 3
  tagKind : BitVec 2
  die : BitVec 6
  unit : BitVec 10 := 0
  mem : Bool := false
  row : Nat := 0
  faultId : Nat := 0
deriving DecidableEq, Repr

/-- The body of a flow packet. -/
inductive Body where
  | chan (flits : List Flit)
  | openReq (r : OpenReq)
  | openRsp (status : Status)
  | close
  | gridWrite (data : Flit)
  | gridAck
  | memReq (r : MemReq)
  | hbmCall (c : HbmCall)
  | readRsp (row : Nat) (data : Flit) (status : Status)
  | writeAck (row : Nat) (status : Status)
  | nak (n : Nak)
deriving DecidableEq, Repr

/-- A flow packet on its way, how many of its flits have already crossed the spine link that it is on (R72, R76), and whether it had passed the
local output of its receiver, on an open channel, before the receiver's swap (Corners of chapter 08). -/
structure Packet where
  place : Place
  head : Head
  body : Body
  crossed : Nat := 0
  accepted : Bool := false
deriving DecidableEq, Repr

/-- A flit at a scheduled router input (R66): it carries a one-flit packet and arrived in run cycle `at_`. -/
structure SchedFlit where
  site : Site
  port : Fin 5
  at_ : Nat
  head : Head
  body : Body
deriving DecidableEq, Repr

/-- A front token at a router input, or at the steward when it left by an exit (R88, R89). -/
structure TokenAt where
  site : Site
  port : Fin 5
  exit : Bool
  token : Token
deriving DecidableEq, Repr

/-- A beacon operation on its way to the store (R197, R198), stamped where and when it arose (R51). -/
structure BeaconOp where
  tenant : Tenant
  gen : Byte
  beacon : BitVec 12
  count : BitVec 16
  src : Src
  wait : Option Waiter
  stamp : DWord := 0
deriving DecidableEq, Repr

/-- A grant on its way to a tile (R199), with the beacon and COUNT that a report of a stale one names (R202, R203). -/
structure Grant where
  tenant : Tenant
  gen : Byte
  site : Site
  beacon : BitVec 12
  count : BitVec 16
deriving DecidableEq, Repr

/-- All that travels inside the package. downRsps counts, for each sender, the responses that a die refused (R249). -/
structure Net where
  flow : List Packet := []
  sched : List SchedFlit := []
  tokens : List TokenAt := []
  ops : List BeaconOp := []
  grants : List Grant := []
  borrower : Map Nat := []
  slotMiss : Map Word := []
  slotMissLast : Map Word := []
  downRsps : Map Word := []
deriving DecidableEq, Repr

/-! ## Memory -/

/-- A translation cached by a unit (R215). -/
structure TlbEntry where
  half : Fin 2
  tenant : Tenant
  gen : Byte
  big : Bool
  page : Nat
  entry : DWord
deriving DecidableEq, Repr

/-- A cached non-leaf entry of a translation unit (R215): its level and the part of the VA that indexes it and the levels above. -/
structure WalkEntry where
  half : Fin 2
  tenant : Tenant
  gen : Byte
  level : Nat
  key : Nat
  entry : DWord
deriving DecidableEq, Repr

/-- A request at an HBM controller (R207, R418). -/
structure HbmReq where
  dpa : DWord
  write : Bool
  bytes : Nat
  data : Flit
  head : Head
  row : Nat
deriving DecidableEq, Repr

/-- A range of HBM whose bytes the spec leaves open, with the number of their free values: a save area, a codec's work area (R253, R292). -/
structure FreeRange where
  lo : Nat
  n : Nat
  epoch : Nat
deriving DecidableEq, Repr

/-- HBM, its error state, and translation (R205 to R227). `bad` is keyed by burst DPA / 64. After a warm reset the contents are
unpredictable (R407): `epoch` numbers their free values, `fresh` those of ranges, newest first, and `hbm` holds what differs from them
(log entries 5, 9). -/
structure MemState where
  hbm : Memory := []
  epoch : Option Nat := none
  fresh : List FreeRange := []
  bad : Map EccKind := []
  patrol : Map Nat := []
  refresh : Map Nat := []
  reqs : List HbmReq := []
  tlb : List TlbEntry := []
  walks : List WalkEntry := []
  selfRefresh : Bool := false
  exports : Map Window := []
deriving DecidableEq, Repr

/-- A page that a context's save image holds, or any saved tile (R291, R292). -/
structure SavedTile where
  site : Nat
  tile : Tile
deriving DecidableEq, Repr

/-- The image of a pre-empted context (R290 to R293): its regions, what its tiles and its grid held, its beacons, the stamp and cycle of
the save, and the 64 KiB frames of the save area that hold it; `crcBad` says that something has written one of them since. -/
structure Saved where
  evicted : Bool
  regions : Map Byte
  tiles : List SavedTile
  beacons : Map Beacon
  flow : List Packet
  sched : List SchedFlit
  tokens : List TokenAt
  savedAt : DWord
  savedCycle : Nat
  frames : List Nat
  crcBad : Bool
deriving DecidableEq, Repr

/-- A pre-emption in progress (R290). -/
structure Preempting where
  cmd : Nat
  evict : Bool
  since : DWord
  limit : Nat
deriving DecidableEq, Repr

/-- A tenant's context (R203, R287 to R293, R313 to R318). -/
structure Context where
  isOpen : Bool := false
  closing : Bool := false
  muted : Bool := false
  preempted : Bool := false
  quarantined : Bool := false
  gen : Byte := 0
  regions : Map Byte := []
  hbmQuota : Nat := 0
  streamQuota : Nat := 0
  saveVa : DWord := 0
  saveBytes : Nat := 0
  lastStack : Nat := 0
  shares : Shares := {}
  budget : Option Nat := none
  overruns : Nat := 0
  placement : Placement := .firstFree
  ptRoot : Option Nat := none
  pt : Map DWord := []
  faultId : BitVec 16 := 0
  faultLost : Bool := false
  csq : Ring := {}
  ccq : Ring := {}
  fault : Ring := {}
  beacons : Map Beacon := []
  opSeqs : Map Nat := []
  notes : List Note := []
  imports : Map Window := []
  recorder : Option Recorder := none
  replay : Option Replay := none
  preempting : Option Preempting := none
  saved : Option Saved := none
deriving DecidableEq, Repr

/-! ## Power -/

/-- Package power state (R243); `off` is the package without PWR_GOOD. -/
inductive PState where
  | off | p0 | p2 | p3
deriving DecidableEq, Repr

/-- State of a die (PACER_DIE.STATE). -/
inductive DieState where
  | off | on | gated | closing
deriving DecidableEq, Repr

/-- A die's power (R242, R244, R247, R248): its state, clock-tree eighths on, switch stages closed, the command that closes it, the
stamp of CLOSING, the GTS since which it is gated, the GTS of its last step. -/
structure DiePower where
  state : DieState := .off
  steps : Nat := 0
  stages : Nat := 0
  cmd : Option Nat := none
  force : Bool := false
  closingAt : DWord := 0
  drained : Bool := false
  gatedSince : Option DWord := none
  lastStep : Option DWord := none
deriving DecidableEq, Repr

/-- What the pacer keeps of one region on one die (R238 to R241): the last 31 tick weights, newest first, the sum of the weights of the
current tick's cycles, the cycle the tick began in, the allowance of the last tick, whether it holds, and whether it holds all issue. Its
counters of ticks are keyed by die; key 64 + die numbers the tick last counted. -/
structure PaceRegion where
  weights : List Nat := []
  sum : Nat := 0
  since : Nat := 0
  allow : Nat := 160
  holding : Bool := false
  holdAll : Bool := false
  heldTicks : Nat := 0
deriving DecidableEq, Repr

/-- Power, supplies and thermal state. -/
structure Power where
  pstate : PState := .off
  pwrGood : Bool := false
  dies : Map DiePower := []
  pace : Map PaceRegion := []
  ballast : Map Word := []
  hold : Map Word := []
  descent : Bool := false
  bleeders : Bool := false
  limiterOpen : Bool := false
  faultN : Bool := false
  twinSyncOut : Bool := false
  temps : Map Int := []
  warned : BitVec 40 := 0
  reloading : Bool := false
deriving DecidableEq, Repr

/-- The always-on domain (R39, R390). -/
structure AlwaysOn where
  startCount : Word := 0
  confirmed : Bool := false
  valid : Bool := false
  more : Bool := false
  cause : BitVec 16 := 0
  detail : Word := 0
  source : Word := 0
  gts : DWord := 0
  start : Word := 0
deriving DecidableEq, Repr

/-! ## Media -/

/-- An output that is due (R262): the decoded frame, or the PCM block, what its record holds, the number that counts it among the session's
outputs, and how far its writing has come: the slot, the taps, the profile read for the tap in hand, the address that the ledger is told. -/
structure MediaOut where
  frame : VideoFrame := {}
  block : List Byte := []
  op : Byte := 0
  tag : Word := 0
  pts : DWord := 0
  size : Word := 0
  last : Bool := false
  number : Nat := 0
  written : Bool := false
  tapsDone : Nat := 0
  profile : BitVec 1024 := 0
  status : Status := 0
  inputVa : DWord := 0
deriving DecidableEq, Repr

/-- A media session (R253, R258 to R263): its 128-byte parameter block, generation, owner, counts of jobs, outputs and records, what its codec
has taken (the state that the work area holds follows from it, log entry 8), the decoded frames that await display, the source frames that
await coding with those that become key frames, the frames until the next key frame, coded data that waits, the profiles read for its taps, the
outputs that are due, the ranges that the job in progress covers, the engine used last, and what it waits for. -/
structure Session where
  isOpen : Bool := false
  gen : Byte := 0
  tenant : Tenant := 0
  params : BitVec 1024 := 0
  jobs : Nat := 0
  outs : Nat := 0
  recs : Nat := 0
  history : List MediaTake := []
  configured : Bool := false
  refsLost : Bool := false
  awaiting : List VideoFrame := []
  uncoded : List (Nat × Bool) := []
  toKey : Nat := 0
  coded : List CodedUnit := []
  tapProfiles : List (BitVec 1024) := []
  due : List MediaOut := []
  covers : List (Nat × Nat) := []
  engine : Nat := 0
  closingCmd : Option Nat := none
  jobGranted : Bool := false
  slotGranted : Bool := false
  tapGranted : Bool := false
deriving DecidableEq, Repr

/-- A media completion record that goes to the ledger (R263, R276). -/
structure MediaInput where
  handle : Word
  status : Status
  output : Bool
  va : DWord
  size : Word
  tag : Word
  slot : BitVec 16
  src : Src
  stamp : DWord
deriving DecidableEq, Repr

/-- The media dies (R252 to R272). Sessions are keyed die * 512 + index. -/
structure Media where
  sessions : Map Session := []
  lastServed : Map Nat := []
  inputs : List MediaInput := []
deriving DecidableEq, Repr

/-- A stream record (Table SL-1) less its index. -/
structure Stream where
  state : Byte := 0
  tenant : Byte := 0
  gen : Byte := 0
  closePending : Bool := false
  readyAtOpen : Bool := false
  model : Byte := 0
  lastLayout : Byte := 0xFF
  lastSlot : BitVec 16 := 0xFFFF
  position : Word := 0
  steps : Word := 0
  stepLimit : Word := 0
  failStatus : Status := 0
  failCode : BitVec 16 := 0
  deadline : DWord := 0
  readyGts : DWord := 0
  readySource : Src := 0
  aborts : Byte := 0
  inHead : Nat := 0
  inputs : List (BitVec 128) := []
  user : Word := 0
  waited : Word := 0
  openGts : DWord := 0
  sameSlot : Bool := false
  closeCmd : Option Nat := none
deriving DecidableEq, Repr

/-! ## Links -/

/-- Port state (PORT_STATE.STATE). -/
inductive LinkState where
  | off | training | up | retrain | failed
deriving DecidableEq, Repr

/-- A window request that the importer has sent and that is not answered (R336, R339). -/
structure OutReq where
  tag : Word
  head : Head
  row : Nat
  read : Bool
deriving DecidableEq, Repr

/-- A port (R323 to R335): its configuration, registers (PORT_STATE and its slot) and training state; on a Karex Link port the credits in
hand, the next SEQ expected and whether a REPLAY was asked for, the next SEQ to send, the codewords sent and not acknowledged, messages that
wait for credits or for room in the retry buffer, messages sent, messages received and not yet taken (with a mark on a request that found its
window closing), the window requests that are not answered, and the IDENT flit that it sent in its last exchange. -/
structure Port where
  mode : Byte := 0
  tenant : Tenant := 0
  noAn : Bool := false
  pause : Bool := false
  state : LinkState := .off
  peerId : DWord := 0
  retries : Word := 0
  retrains : Word := 0
  fecCorrected : Word := 0
  fecUncorrected : Word := 0
  cmd : Option Nat := none
  trainSince : DWord := 0
  between : Bool := false
  attempts : Nat := 0
  reqCredits : Nat := 0
  rspCredits : Nat := 0
  rxExpect : BitVec 9 := 0
  askedReplay : Bool := false
  txNext : BitVec 9 := 0
  unacked : List (BitVec 9) := []
  lastAdvance : DWord := 0
  replaysNoAdvance : Nat := 0
  rx : List (LinkMsg × Bool) := []
  txWait : List LinkMsg := []
  tx : List LinkMsg := []
  outReqs : List OutReq := []
  nextTag : Word := 0
  sentIdent : Option IdentFlit := none
deriving DecidableEq, Repr

/-- A frame in the receive buffer with its reception stamp (R328, R341). -/
structure Frame where
  bytes : List Byte
  gts : DWord
deriving DecidableEq, Repr

/-- An Ethernet ring's registers (Table LK-2). -/
structure EthRing where
  baseLo : Word := 0
  baseHi : Word := 0
  enable : Bool := false
  sizeLog2 : BitVec 5 := 0
  beaconA : BitVec 12 := 0
  beaconB : BitVec 12 := 0
  next : Word := 0
  waiting : Bool := false
  granted : Bool := false
deriving DecidableEq, Repr

/-- An Ethernet port slot (Table LK-2, R327 to R330). -/
structure EthPort where
  rx : EthRing := {}
  tx : EthRing := {}
  paused : Bool := false
  pauseSent : Bool := false
  rxFrames : Word := 0
  rxDrops : Word := 0
  rxErrors : Word := 0
  txFrames : Word := 0
  pausesOut : List (BitVec 16) := []
  buffer : List Frame := []
  sending : Option (List Byte) := none
  wire : List (List Byte) := []
deriving DecidableEq, Repr

/-- A signature of a step (R365, R366). -/
structure StepSig where
  sig : BitVec 128
  crc : Word
  step : DWord
  gts : DWord
deriving DecidableEq, Repr

/-- The twin binding (R362 to R367). -/
structure Twin where
  cmd : Option Nat := none
  since : DWord := 0
  tenant : Option Tenant := none
  bound : Bool := false
  safeMode : Bool := false
  follow : Bool := false
  sentAck : Bool := false
  gotAck : Bool := false
  sentCount : Word := 0
  gotCount : Word := 0
  own : List StepSig := []
  peer : List StepSig := []
  unbindCmd : Option Nat := none
  unbindSteps : Map Nat := []
deriving DecidableEq, Repr

/-- The links of the package. Ports and Ethernet slots are keyed xd * 8 + lane. -/
structure Links where
  ports : Map Port := []
  eth : Map EthPort := []
  twin : Twin := {}
deriving DecidableEq, Repr

/-! ## Pins, SMBus and JTAG -/

/-- Who owns a pin (R395). -/
inductive PinOwner where
  | steward
  | granted (t : Tenant)
  | driven (t : Tenant)
deriving DecidableEq, Repr

/-- A GPIO pin (R395 to R402): its owner, what GPIO_CONFIG set, the debounce count, LEVEL, PEND, GPIO_EDGES, its GPIO_PAD bit, the steward's
latch, and the level and kind of output of the P-tile that drives it. -/
structure Pin where
  owner : PinOwner := .steward
  debounce : Byte := 0
  mode : Byte := 0
  vector : BitVec 11 := 0x7FF
  tick : BitVec 16 := 1
  count : Nat := 0
  level : Bool := false
  pend : Bool := false
  edges : Word := 0
  pad : Bool := false
  out : Bool := false
  drive : Bool := false
  openDrain : Bool := false
deriving DecidableEq, Repr

/-- What an SMBus transaction was answered (R404). -/
inductive SmbReply where
  | none
  | byte (b : Byte)
  | word (w : BitVec 16)
  | block (bs : List Byte)
  | ack
  | nack
deriving DecidableEq, Repr

/-- The test access port (R405): instruction register, boundary register, and the last value shifted out. -/
structure Jtag where
  ir : Byte := 0x02
  boundary : List Bool := []
  pins : Option (List Bool) := none
  hiZ : Bool := false
  out : List Bool := []
deriving DecidableEq, Repr

/-- Pins and sideband targets. -/
structure Pins where
  gpio : Map Pin := []
  smb : SmbReply := .none
  jtag : Jtag := {}
deriving DecidableEq, Repr

/-! ## The whole state -/

/-- Faults. The block never stops: every error that the spec names is a status, a log entry, a refusal packet, a step abort or the
safe state, so there is no constructor. -/
inductive Fault where
deriving DecidableEq, Repr

/-- Refusals. `notModelled` is raised by an arm of exec whose command has no meaning yet (none is left); it is safe. -/
inductive Refusal where
  | notModelled (mnemonic : String)
deriving DecidableEq, Repr

/-- The state of the block: what the spec gives it, and the queue of waiting commands. Tiles are keyed by
die * 544 + column * 16 + row, instances by LAYOUT_ID, contexts by tenant, streams by record index. `freeCount` is the model's own
counter of free values (log entry 9). -/
structure State where
  pkg : Package := {}
  clk : Clock := {}
  time : TimeState := {}
  merger : Merger := {}
  log : Log := {}
  iq : Iq := {}
  host : HostLink := {}
  ctxs : Map Context := []
  insts : Map Instance := []
  lastLayout : Option (BitVec 8) := none
  tiles : Map Tile := []
  net : Net := {}
  mem : MemState := {}
  power : Power := {}
  ao : AlwaysOn := {}
  media : Media := {}
  streams : Map Stream := []
  links : Links := {}
  pins : Pins := {}
  freeCount : Nat := 0
  pending : List Instr := []
deriving DecidableEq, Repr

/-- Whether a die index of P7-40M has a feeder (R52, R414): every die but the HBM stacks. -/
def hasFeeder40M (d : Nat) : Bool := d < 28

/-- The state right after a cold reset (R407) of a P7-40M, before the start assay: clocks aligned and running from zero, GTS 0, one
start counted, every die powered, every tile parked, READY clear, nothing listed in any memory, the queue empty
(log entries 1, 3, 4, 5). -/
def State.reset : State :=
  { clk := { running := true }
    merger := { feeders := ((List.range 40).filter hasFeeder40M).map fun d => (d, { live := true }) }
    power :=
      { pstate := .p0, pwrGood := true
        dies := (List.range 40).map fun d => (d, { state := .on, steps := 8, stages := 2 }) }
    ao := { startCount := 1 } }

end Sys2Proof.Machine
end

