-- ==== Sys2Proof/Machine/Store.lean ====
section
/-! DEFINITION. Sparse stores and byte memories: read, write, and the canonical form (keys strictly rising, no entry equal to the
default). -/

namespace Sys2Proof.Machine

open Sys2Proof

variable {α : Type}

/-- The value at a key; the default where the key is not listed. -/
def Map.get (d : α) : Map α → Nat → α
  | [], _ => d
  | (k, v) :: m, i => if i = k then v else Map.get d m i

/-- Drops a key. -/
def Map.del : Map α → Nat → Map α
  | [], _ => []
  | (k, v) :: m, i => if i = k then Map.del m i else (k, v) :: Map.del m i

/-- Puts a pair before the first larger key. -/
def Map.ins : Map α → Nat → α → Map α
  | [], i, v => [(i, v)]
  | (k, w) :: m, i, v => if i < k then (i, v) :: (k, w) :: m else (k, w) :: Map.ins m i v

/-- Writes a key; writing the default removes its entry. -/
def Map.set [DecidableEq α] (d : α) (m : Map α) (i : Nat) (v : α) : Map α :=
  if v = d then Map.del m i else Map.ins (Map.del m i) i v

/-- Changes the value at a key. -/
def Map.upd [DecidableEq α] (d : α) (m : Map α) (i : Nat) (f : α → α) : Map α :=
  Map.set d m i (f (Map.get d m i))

/-- The listed keys. -/
def Map.keys (m : Map α) : List Nat := m.map (·.1)

/-- Keeps the entries whose key satisfies a test. -/
def Map.keep (m : Map α) (p : Nat → Bool) : Map α := m.filter fun e => p e.1

/-- Keys strictly rising above a bound, no entry equal to the default. -/
def Map.wfFrom [DecidableEq α] (d : α) : Option Nat → Map α → Bool
  | _, [] => true
  | b, (k, v) :: m => (match b with | none => true | some x => decide (x < k)) && decide (v ≠ d) && Map.wfFrom d (some k) m

/-- The canonical form of a store. -/
def Map.wf [DecidableEq α] (d : α) (m : Map α) : Bool := Map.wfFrom d none m

/-- The canonical form of a byte memory. -/
def Memory.wf (m : Memory) : Bool := Map.wf (0 : Byte) m

/-- One byte of a memory; an unlisted address reads 0 (log entry 5). -/
def Memory.byte (m : Memory) (a : Nat) : Byte := Map.get (0 : Byte) m a

/-- Writes one byte. -/
def Memory.put (m : Memory) (a : Nat) (b : Byte) : Memory := Map.set (0 : Byte) m a b

/-- `n` bytes from an address, lowest first. -/
def Memory.read (m : Memory) (a : Nat) : Nat → List Byte
  | 0 => []
  | n + 1 => m.byte a :: Memory.read m (a + 1) n

/-- Writes bytes at rising addresses. -/
def Memory.write (m : Memory) (a : Nat) : List Byte → Memory
  | [] => m
  | b :: bs => Memory.write (Memory.put m a b) (a + 1) bs

/-- A little-endian number of `n` bytes (R5). -/
def Memory.num (m : Memory) (a n : Nat) : Nat :=
  match n with
  | 0 => 0
  | n + 1 => (m.byte a).toNat + 256 * Memory.num m (a + 1) n

end Sys2Proof.Machine
end

