-- ==== Sys2Proof/Machine/Bits.lean ====
section
/-! DEFINITION. Fields and byte order (R5), checksums (R80, R365), tile geometry and source numbers (R6, R11 to R18, R48), and the
numbers of statuses and log codes (Tables HL-8, IG-4, PN-10). -/

namespace Sys2Proof.Machine

open Sys2Proof

/-! ## Bytes and fields -/

/-- The lowest `n` bytes of a number, lowest first. -/
def leBytes : Nat → Nat → List Byte
  | 0, _ => []
  | n + 1, v => BitVec.ofNat 8 v :: leBytes n (v / 256)

/-- The number that bytes give, lowest first. -/
def leNat : List Byte → Nat
  | [] => 0
  | b :: bs => b.toNat + 256 * leNat bs

/-- Field of `size` bytes at byte offset `off` of a record held as a bit vector. -/
def byteField {w : Nat} (x : BitVec w) (off size : Nat) : Nat := (x.toNat >>> (8 * off)) % 2 ^ (8 * size)

/-- Bits `lo + len - 1` to `lo` as a number. -/
def bitsOf {w : Nat} (x : BitVec w) (lo len : Nat) : Nat := (x.toNat >>> lo) % 2 ^ len

/-- One bit. -/
def bitAt {w : Nat} (x : BitVec w) (i : Nat) : Bool := x.getLsbD i

/-- A 64-byte flit from bytes, zero beyond them. -/
def flitOf (bs : List Byte) : Flit := BitVec.ofNat 512 (leNat (bs.take 64))

/-- The bytes of a flit. -/
def flitBytes (f : Flit) : List Byte := leBytes 64 f.toNat

/-- Pads with zero bytes to `n`. -/
def padTo (n : Nat) (bs : List Byte) : List Byte := bs ++ List.replicate (n - bs.length) 0

/-- A number rounded up to a multiple. -/
def roundUp (x m : Nat) : Nat := ((x + m - 1) / m) * m

/-- Replaces one 32-bit word of a 64-byte record. -/
def setWord (x : Flit) (off : Nat) (v : Word) : Flit :=
  (x &&& ~~~((0xFFFFFFFF : Flit) <<< (8 * off))) ||| ((v.setWidth 512) <<< (8 * off))

/-- A counter of 32 bits that holds its maximum (R9). -/
def addSat (c : Word) (n : Nat) : Word := BitVec.ofNat 32 (min (c.toNat + n) 0xFFFFFFFF)

/-- The signed value of the low `w` bits. -/
def signed (w x : Nat) : Int := if x % 2 ^ w < 2 ^ (w - 1) then (x % 2 ^ w : Nat) else ((x % 2 ^ w : Nat) : Int) - ((2 ^ w : Nat) : Int)

/-- bitrev6 of R75. -/
def bitrev6 (p : Nat) : Nat :=
  (p % 2) * 32 + (p / 2 % 2) * 16 + (p / 4 % 2) * 8 + (p / 8 % 2) * 4 + (p / 16 % 2) * 2 + p / 32 % 2

/-- One bit step of a reflected CRC. -/
def crcStep (poly : Nat) (c : Nat) : Nat := if c % 2 = 1 then (c / 2) ^^^ poly else c / 2

/-- One byte of a reflected CRC. -/
def crcByte (poly : Nat) (c : Nat) (b : Byte) : Nat :=
  let s := crcStep poly
  s (s (s (s (s (s (s (s (c ^^^ b.toNat))))))))

/-- A reflected CRC's register after some bytes; the match makes the kernel evaluate it at each byte. -/
def crcRun (poly : Nat) : Nat → List Byte → Nat
  | c, [] => c
  | c, b :: bs =>
    match crcByte poly c b with
    | 0 => crcRun poly 0 bs
    | n + 1 => crcRun poly (n + 1) bs

/-- CRC-32C of bytes (R80, R81). -/
def crc32c (bs : List Byte) : Word := BitVec.ofNat 32 (crcRun 0x82F63B78 0xFFFFFFFF bs ^^^ 0xFFFFFFFF)

/-- CRC-64/XZ of bytes (R365): the polynomial 0x42F0E1EBA9EA3693 reflected. -/
def crc64 (bs : List Byte) : DWord :=
  BitVec.ofNat 64 (crcRun 0xC96C5795D7870F42 0xFFFFFFFFFFFFFFFF bs ^^^ 0xFFFFFFFFFFFFFFFF)

/-- H(m) of R365. -/
def sigHash (m : List Byte) : BitVec 128 := (crc64 m) ++ (crc64 m.reverse)

/-! ## Geometry and source numbers -/

/-- Tile kinds (R16). -/
inductive TileKind where
  | m | b | v | p
deriving DecidableEq, Repr

/-- The kind of a column (R16). -/
def kindOf (col : Nat) : TileKind :=
  if col = 0 ∨ col = 33 then .p
  else match (col - 1) % 4 with
    | 0 => .m
    | 1 => .m
    | 2 => .b
    | _ => .v

/-- The kind at a site. -/
def siteKind (s : Site) : TileKind := kindOf s.col.val

/-- c * 16 + r (R27, R48). -/
def siteUnit (s : Site) : Nat := s.col.val * 16 + s.row.val

/-- The key of a site in the tile store. -/
def siteKey (s : Site) : Nat := s.die.val * 544 + siteUnit s

/-- The site of a key. -/
def siteOfKey (k : Nat) : Site :=
  { die := Fin.ofNat 16 (k / 544), col := Fin.ofNat 34 (k % 544 / 16), row := Fin.ofNat 16 (k % 16) }

/-- The site of a die and unit number, where they name one. -/
def siteOf (die unit : Nat) : Option Site :=
  if die < 16 ∧ unit < 544 then some (siteOfKey (die * 544 + unit)) else none

/-- The source number of a unit (R48). -/
def srcOf (die unit : Nat) : Src := BitVec.ofNat 16 (die * 1024 + unit)

/-- The source number of a tile. -/
def siteSrc (s : Site) : Src := srcOf s.die.val (siteUnit s)

/-- The host's source number (R48). -/
def hostSrc : Src := 0xFFFF

/-- The steward firmware (R48, R49). -/
def stewardSrc : Src := 0x6000

/-- A site with another column, when it exists. -/
def atCol (s : Site) (c : Nat) : Site := { s with col := Fin.ofNat 34 c }

/-- The home B-tile of an M-tile (R129) and the paired B-tile of a V-tile (R17). -/
def homeB (s : Site) : Site :=
  match siteKind s with
  | .m => if (s.col.val - 1) % 4 = 0 then atCol s (s.col.val + 2) else atCol s (s.col.val + 1)
  | _ => atCol s (s.col.val - 1)

/-- The B-tile site of a die and a B-tile index. -/
def btSite (die : Nat) (b : Nat) : Site :=
  { die := Fin.ofNat 16 die, col := Fin.ofNat 34 (3 + 4 * (b / 16)), row := Fin.ofNat 16 (b % 16) }

/-- Bytes of a B-tile (R103). -/
def btBytes : Nat := 786432

/-- Every site of a field die in ascending unit number. -/
def dieSites (d : Nat) : List Site := (List.range 544).map fun u => siteOfKey (d * 544 + u)

/-- Opposite router port: 0 north, 1 east, 2 south, 3 west (Table GR-1). -/
def oppositePort (p : Nat) : Fin 5 :=
  match p with
  | 0 => 2
  | 1 => 3
  | 2 => 0
  | 3 => 1
  | _ => 4

/-- The router that an edge port leads to (R61, R62): a neighbour on the die, or the far end of a field-bridge lane; none where the
port is absent. -/
def neighbour (s : Site) (p : Nat) : Option Site :=
  let d := s.die.val
  match p with
  | 0 =>
    if 0 < s.row.val then some { s with row := Fin.ofNat 16 (s.row.val - 1) }
    else if s.col.val % 2 = 1 ∧ s.col.val < 32 ∧ 4 ≤ d then
      some { s with die := Fin.ofNat 16 (d - 4), row := 15 }
    else none
  | 1 =>
    if s.col.val < 33 then some (atCol s (s.col.val + 1))
    else if d % 4 < 3 then some { s with die := Fin.ofNat 16 (d + 1), col := 0 } else none
  | 2 =>
    if s.row.val < 15 then some { s with row := Fin.ofNat 16 (s.row.val + 1) }
    else if s.col.val % 2 = 1 ∧ s.col.val < 32 ∧ d < 12 then
      some { s with die := Fin.ofNat 16 (d + 4), row := 0 }
    else none
  | 3 =>
    if 0 < s.col.val then some (atCol s (s.col.val - 1))
    else if 0 < d % 4 then some { s with die := Fin.ofNat 16 (d - 1), col := 33 } else none
  | _ => none

/-- Die kinds (Table PK-1). -/
inductive DieKind where
  | field | xd | md | sd | bd | hbm
deriving DecidableEq, Repr

/-- The kind of a die index on a variant; none where R11 marks it absent. -/
def dieKind (v : Variant) (d : Nat) : Option DieKind :=
  if d < 16 then some .field else if d < 20 then some .xd else if d < 24 then some .md
  else if d < 26 then some .sd else if d < 28 then some .bd else if d < 32 then some .hbm
  else if d < 36 then (match v with | .n40 => some .xd | _ => some .hbm)
  else if d < 40 then (match v with | .l36 => none | _ => some .hbm) else none

/-- The XD number of an I/O die. -/
def xdNumber (d : Nat) : Nat := if d < 20 then d - 16 else d - 28

/-- The die index of an XD number. -/
def xdDie (x : Nat) : Nat := if x < 4 then 16 + x else 28 + x

/-- Whether XDx exists on a variant. -/
def xdPresent (v : Variant) (x : Nat) : Bool := x < 4 || (x < 8 && v == .n40)

/-- How many HBM stacks a variant has (Table PK-3). -/
def stackCount (v : Variant) : Nat := match v with | .m40 => 12 | _ => 8

/-- The die index of stack H k (Table PK-1). -/
def stackDie (v : Variant) (k : Nat) : Nat :=
  match v with
  | .n40 => if k < 4 then 28 + k else 32 + k
  | _ => 28 + k

/-- Bytes of one stack (R205). -/
def stackBytes (v : Variant) : Nat := match v with | .l36 => 0x600000000 | _ => 0x900000000

/-- Bytes that the steward reserves at the top of every stack (R415). -/
def stackReserve : Nat := 0x10000000

/-- HBM_BYTES of IDENTIFY (R415). -/
def hbmTotal (v : Variant) : Nat := stackCount v * (stackBytes v - stackReserve)

/-- The spine half of a die (Table PK-2). -/
def halfOf (v : Variant) (d : Nat) : Fin 2 :=
  match dieKind v d with
  | some .field => if d < 8 then 0 else 1
  | some .xd => if (d < 18) ∨ (d = 32 ∨ d = 33) then 0 else 1
  | some .md => if d < 22 then 0 else 1
  | some .sd => if d = 24 then 0 else 1
  | some .bd => if d = 26 then 0 else 1
  | _ =>
    let k := match v with | .n40 => if d < 32 then d - 28 else d - 32 | _ => d - 28
    if k < stackCount v / 2 then 0 else 1

/-- Whether the die has an event port (R414). -/
def hasFeeder (v : Variant) (d : Nat) : Bool :=
  match dieKind v d with
  | some .hbm => false
  | some _ => true
  | none => false

/-- The die that carries the host link's port: XD0 or XD1. -/
def portDie (port : Nat) : Nat := 16 + port

/-- A unit number that Table TM-4 gives for a die. -/
def unitExists (v : Variant) (d u : Nat) : Bool :=
  match dieKind v d with
  | some .field => u < 550
  | some .xd => u ≤ 16 || (32 ≤ u && u ≤ 39) || u == 48 || u == 64 || (u == 80 && d == 19)
  | some .md => u ≤ 47
  | some .sd => u ≤ 7 || (64 ≤ u && u ≤ 87) || u == 96 || u == 97
  | some .bd => u ≤ 18 || (32 ≤ u && u < 32 + stackCount v / 2)
  | some .hbm => u < 32
  | none => false

/-! ## Statuses (Table HL-8) -/

def OK : Status := 0x0000
def E_BAD_OPCODE : Status := 0x0001
def E_BAD_FIELD : Status := 0x0002
def E_NOT_PERMITTED : Status := 0x0003
def E_NO_CONTEXT : Status := 0x0004
def E_CONTEXT_STATE : Status := 0x0005
def E_RESULT_SMALL : Status := 0x0006
def E_HOST_FAULT : Status := 0x0007
def E_ABORTED : Status := 0x0008
def E_SHARES : Status := 0x0009
def E_PIN_BUSY : Status := 0x000A
def E_BAD_LAYOUT : Status := 0x0101
def E_TOO_LARGE : Status := 0x0102
def E_FIT_STALE : Status := 0x0103
def E_REGION : Status := 0x0104
def E_FUSED_SITE : Status := 0x0105
def E_BAD_ROUTE : Status := 0x0106
def E_RAMP_ENVELOPE : Status := 0x0107
def E_CFG_CRC : Status := 0x0108
def E_SEALED_CLASS : Status := 0x0109
def E_ILLEGAL_INSN : Status := 0x010A
def E_LAYOUT_ID : Status := 0x010B
def E_LAYOUT_LIMIT : Status := 0x010C
def E_LAYOUT_BUSY : Status := 0x010D
def NAK_REGION : Status := 0x0180
def NAK_SEALED : Status := 0x0181
def E_RANK : Status := 0x0201
def E_EP_BUSY : Status := 0x0202
def E_EP_KIND : Status := 0x0203
def E_SECTION : Status := 0x0204
def E_TALLY_FULL : Status := 0x0205
def E_EP_CLOSED : Status := 0x0206
def E_PEER_DOWN : Status := 0x0207
def E_DOMAIN_CLOSED : Status := 0x0208
def E_NO_TARGET : Status := 0x0301
def E_DMA_FAULT : Status := 0x0302
def E_TLDW_FAULT : Status := 0x0303
def E_VIEW : Status := 0x0304
def E_WINDOW_PERM : Status := 0x0305
def E_WINDOW_LIMIT : Status := 0x0306
def E_HBM_QUOTA : Status := 0x0307
def E_FAULT_FINAL : Status := 0x0308
def NAK_NO_TARGET : Status := 0x0380
def NAK_WINDOW : Status := 0x0381
def E_LINK_DOWN : Status := 0x0401
def E_LINK_MODE : Status := 0x0402
def E_LINK_BUSY : Status := 0x0403
def E_TWIN_STATE : Status := 0x0404
def E_TWIN_PEER : Status := 0x0405
def E_ECC_UNCORRECTED : Status := 0x0501
def E_OVERRUN : Status := 0x0502
def E_ASSAY : Status := 0x0503
def E_ASSAY_BUSY : Status := 0x0504
def E_RECORD_STATE : Status := 0x0505
def E_REPLAY_DIVERGE : Status := 0x0506
def E_TWIN_MISMATCH : Status := 0x0507
def E_POWER_BUSY : Status := 0x0601
def E_DOMAIN_STATE : Status := 0x0602
def E_DOMAIN_IN_USE : Status := 0x0603
def E_DOMAIN_DOWN : Status := 0x0604
def NAK_DOWN : Status := 0x0680
def E_MEDIA_UNSUPPORTED : Status := 0x0701
def E_MEDIA_PARAM : Status := 0x0702
def E_MEDIA_WORK : Status := 0x0703
def E_MEDIA_CAPACITY : Status := 0x0704
def E_MEDIA_BITSTREAM : Status := 0x0705
def E_MEDIA_REF_LOST : Status := 0x0706
def E_MEDIA_OUT_SMALL : Status := 0x0707
def E_MEDIA_FAULT : Status := 0x0708
def E_MEDIA_SESSION : Status := 0x0709
def E_STREAM_HANDLE : Status := 0x0801
def E_STREAM_QUOTA : Status := 0x0802
def E_STREAM_STATE : Status := 0x0803
def E_STREAM_INPUT_FULL : Status := 0x0804
def E_STREAM_FAIL : Status := 0x0805
def E_STREAM_REPORT : Status := 0x0806
def E_STREAM_STEP_LIMIT : Status := 0x0807
def E_STREAM_DEADLINE : Status := 0x0808
def E_STREAM_OVERFLOW : Status := 0x0809
def E_NO_BUDGET : Status := 0x080A
def E_QUARANTINED : Status := 0x080B
def E_SAVE_SPACE : Status := 0x080C
def E_SAVE_FAULT : Status := 0x080D
def E_SAVE_CRC : Status := 0x080E
def E_REGION_BUSY : Status := 0x080F
def E_PREEMPTED : Status := 0x0810

/-! ## Log codes (Tables IG-4, PN-10) -/

def HOST_LINK_ERR : BitVec 16 := 0x0001
def CFG_HOST_RO : BitVec 16 := 0x0002
def RING_FAULT : BitVec 16 := 0x0003
def DOORBELL_BAD : BitVec 16 := 0x0004
def CFG_LIVE_WRITE : BitVec 16 := 0x0101
def CFG_CRC : BitVec 16 := 0x0102
def FRONT_STRAY : BitVec 16 := 0x0103
def SEAL_LEN_MISMATCH : BitVec 16 := 0x0104
def SLOT_MISS : BitVec 16 := 0x0105
def REGION_VIOLATION : BitVec 16 := 0x0106
def M_ILLEGAL : BitVec 16 := 0x0107
def V_ILLEGAL : BitVec 16 := 0x0108
def M_CLASS : BitVec 16 := 0x0109
def V_CLASS : BitVec 16 := 0x010A
def DMA_CLASS : BitVec 16 := 0x010B
def V_VIEW : BitVec 16 := 0x010C
def SEAL_BREAK : BitVec 16 := 0x010D
def STEP_ABORT : BitVec 16 := 0x010E
def DMA_STATUS_ADDR : BitVec 16 := 0x010F
def CH_NOT_OPEN : BitVec 16 := 0x0201
def CH_ORPHAN : BitVec 16 := 0x0202
def BEACON_SAT : BitVec 16 := 0x0203
def BEACON_TAKE_MISS : BitVec 16 := 0x0204
def BEACON_STALE : BitVec 16 := 0x0205
def NAK_DOWN_RSP : BitVec 16 := 0x0206
def BT_ECC_CE : BitVec 16 := 0x0301
def BT_ECC_UE : BitVec 16 := 0x0302
def HBM_ECC_CE : BitVec 16 := 0x0303
def HBM_ECC_UE : BitVec 16 := 0x0304
def MEM_FAULT : BitVec 16 := 0x0305
def LINK_RETRY : BitVec 16 := 0x0401
def LINK_RETRAIN : BitVec 16 := 0x0402
def LINK_DOWN : BitVec 16 := 0x0403
def WINDOW_PEER : BitVec 16 := 0x0404
def TWIN_MISMATCH : BitVec 16 := 0x0405
def TWIN_LOST : BitVec 16 := 0x0406
def ASSAY_PASS : BitVec 16 := 0x0501
def ASSAY_FAIL : BitVec 16 := 0x0502
def REG_PARITY : BitVec 16 := 0x0503
def ROUTE_PARITY : BitVec 16 := 0x0504
def SITE_SUSPECT : BitVec 16 := 0x0505
def SAFE_ENTRY : BitVec 16 := 0x0506
def TENANT_QUARANTINE : BitVec 16 := 0x0507
def RECORD_FULL : BitVec 16 := 0x0508
def REPLAY_DIVERGE : BitVec 16 := 0x0509
def REPLAY_SUPPRESSED : BitVec 16 := 0x050A
def PACER_SEAL : BitVec 16 := 0x0601
def DOMAIN_CLOSING : BitVec 16 := 0x0602
def DOMAIN_OFF : BitVec 16 := 0x0603
def LEDGER_OVERFLOW : BitVec 16 := 0x0801
def LEDGER_STALE : BitVec 16 := 0x0802
def LEDGER_REPORT : BitVec 16 := 0x0803
def GTS_SLIP : BitVec 16 := 0x0901
def TIME_HOLDOVER : BitVec 16 := 0x0902
def TIME_LOCKED : BitVec 16 := 0x0903
def TIME_RATE : BitVec 16 := 0x0904
def FEEDER_SILENT : BitVec 16 := 0x0905
def THERMAL_WARN : BitVec 16 := 0x0A01
def THERMAL_CLEAR : BitVec 16 := 0x0A02
def SIDEBAND_LIMIT : BitVec 16 := 0x0A03
def SMBUS_PEC : BitVec 16 := 0x0A04
def SMBUS_BAD : BitVec 16 := 0x0A05
def HOST_LINK_DOWN : BitVec 16 := 0x0A06
def PIN_WRITE_IGNORED : BitVec 16 := 0x0A07

/-- The severity of a code (Tables IG-4, PN-10); REG_PARITY is given its severity where it is logged (R369). -/
def severityOf (code : BitVec 16) : Byte :=
  match code.toNat with
  | 0x0001 => 2 | 0x0002 => 0 | 0x0003 => 3 | 0x0004 => 0
  | 0x0101 => 0 | 0x0102 => 2 | 0x0103 => 0 | 0x0104 => 0 | 0x0105 => 0 | 0x0106 => 0 | 0x0107 => 2 | 0x0108 => 2
  | 0x0109 => 2 | 0x010A => 2 | 0x010B => 0 | 0x010C => 2 | 0x010D => 0 | 0x010E => 2 | 0x010F => 0
  | 0x0201 => 2 | 0x0202 => 2 | 0x0203 => 0 | 0x0204 => 0 | 0x0205 => 0 | 0x0206 => 0
  | 0x0301 => 1 | 0x0302 => 2 | 0x0303 => 1 | 0x0304 => 2 | 0x0305 => 0
  | 0x0401 => 1 | 0x0402 => 1 | 0x0403 => 3 | 0x0404 => 0 | 0x0405 => 3 | 0x0406 => 3
  | 0x0501 => 0 | 0x0502 => 4 | 0x0503 => 2 | 0x0504 => 2 | 0x0505 => 3 | 0x0506 => 4 | 0x0507 => 3 | 0x0508 => 0
  | 0x0509 => 2 | 0x050A => 0 | 0x050B => 1 | 0x050C => 2
  | 0x0601 => 0 | 0x0602 => 0 | 0x0603 => 0
  | 0x0801 => 2 | 0x0802 => 0 | 0x0803 => 2
  | 0x0901 => 1 | 0x0902 => 1 | 0x0903 => 0 | 0x0904 => 0 | 0x0905 => 1
  | 0x0A01 => 1 | 0x0A02 => 0 | 0x0A03 => 3 | 0x0A04 => 0 | 0x0A05 => 0 | 0x0A06 => 3 | 0x0A07 => 0
  | _ => 0

end Sys2Proof.Machine
end

