-- ==== Sys2Proof/Machine/Float.lean ====
section
/-! DEFINITION. Numbers: the formats of Table MT-2, exact values, rounding (R135, R136, R158), the special functions (R160), and the
stochastic-rounding generator (R137). -/

namespace Sys2Proof.Machine

open Sys2Proof

/-! ## Exact values -/

/-- An exact value: a NaN, an infinity, or a signed m * 2^e; zeros keep their sign. -/
inductive Fp where
  | nan
  | inf (neg : Bool)
  | fin (neg : Bool) (m : Nat) (e : Int)
deriving DecidableEq, Repr

/-- How a format encodes what is not a number. -/
inductive FmtKind where
  | ieee | e4m3 | finite | int
deriving DecidableEq, Repr

/-- A format: bits of the exponent and the mantissa, the width of an element, whether it is an MX format, and the e of R136. For an
integer format the quantum is 2^`q`. -/
structure Fmt where
  bits : Nat
  eb : Nat := 0
  mb : Nat := 0
  kind : FmtKind
  mx : Bool := false
  eMax : Nat := 0
  q : Int := 0
deriving DecidableEq, Repr

def fp32 : Fmt := { bits := 32, eb := 8, mb := 23, kind := .ieee }
def bf16 : Fmt := { bits := 16, eb := 8, mb := 7, kind := .ieee }
def int32 : Fmt := { bits := 32, kind := .int }

/-- The format of a code (Table MT-2); 0xE and 0xF are reserved. -/
def fmtOf : Nat → Option Fmt
  | 0x0 => some fp32
  | 0x1 => some bf16
  | 0x2 => some { bits := 16, eb := 5, mb := 10, kind := .ieee }
  | 0x3 => some { bits := 8, eb := 4, mb := 3, kind := .e4m3 }
  | 0x4 => some { bits := 8, eb := 5, mb := 2, kind := .ieee }
  | 0x5 => some { bits := 8, eb := 4, mb := 3, kind := .e4m3, mx := true, eMax := 8 }
  | 0x6 => some { bits := 8, eb := 5, mb := 2, kind := .ieee, mx := true, eMax := 15 }
  | 0x7 => some { bits := 6, eb := 3, mb := 2, kind := .finite, mx := true, eMax := 4 }
  | 0x8 => some { bits := 6, eb := 2, mb := 3, kind := .finite, mx := true, eMax := 2 }
  | 0x9 => some { bits := 4, eb := 2, mb := 1, kind := .finite, mx := true, eMax := 2 }
  | 0xA => some { bits := 8, kind := .int, mx := true, eMax := 0, q := -6 }
  | 0xB => some { bits := 8, kind := .int }
  | 0xC => some { bits := 4, kind := .int }
  | 0xD => some int32
  | _ => none

/-- The bias of a floating-point format. -/
def Fmt.bias (f : Fmt) : Int := (2 ^ (f.eb - 1) : Nat) - 1

/-- The exponent of the quantum of the subnormals. -/
def Fmt.qMin (f : Fmt) : Int := if f.kind = .int then f.q else 1 - f.bias - (f.mb : Int)

/-- The exact value of an element's code. -/
def Fmt.decode (f : Fmt) (c : Nat) : Fp :=
  let c := c % 2 ^ f.bits
  if f.kind = .int then
    let v := signed f.bits c
    .fin (v < 0) v.natAbs f.q
  else
    let neg := c / 2 ^ (f.bits - 1) = 1
    let ef := c / 2 ^ f.mb % 2 ^ f.eb
    let mf := c % 2 ^ f.mb
    if f.kind = .ieee ∧ ef = 2 ^ f.eb - 1 then (if mf = 0 then .inf neg else .nan)
    else if f.kind = .e4m3 ∧ ef = 2 ^ f.eb - 1 ∧ mf = 2 ^ f.mb - 1 then .nan
    else if ef = 0 then .fin neg mf f.qMin
    else .fin neg (2 ^ f.mb + mf) (f.qMin + (ef : Int) - 1)

/-! ## Exact arithmetic -/

/-- m * 2^e scaled to an exponent not above e. -/
def scaled (m : Nat) (e bot : Int) : Nat := m * 2 ^ (e - bot).toNat

/-- A signed integer times a power of two as a value; a zero takes the given sign. -/
def ofInt (i : Int) (e : Int) (zeroNeg : Bool) : Fp := if i = 0 then .fin zeroNeg 0 e else .fin (i < 0) i.natAbs e

/-- The signed integer of a magnitude. -/
def signInt (neg : Bool) (m : Nat) : Int := if neg then -(m : Int) else m

/-- The exact sum; a zero sum has the sign that IEEE 754 gives it in round to nearest. -/
def Fp.add : Fp → Fp → Fp
  | .nan, _ => .nan
  | _, .nan => .nan
  | .inf a, .inf b => if a = b then .inf a else .nan
  | .inf a, _ => .inf a
  | _, .inf b => .inf b
  | .fin a m e, .fin b n f =>
    let q := min e f
    ofInt (signInt a (scaled m e q) + signInt b (scaled n f q)) q (m = 0 && n = 0 && a && b)

/-- Negation. -/
def Fp.neg : Fp → Fp
  | .nan => .nan
  | .inf a => .inf !a
  | .fin a m e => .fin (!a) m e

/-- Absolute value. -/
def Fp.abs : Fp → Fp
  | .nan => .nan
  | .inf _ => .inf false
  | .fin _ m e => .fin false m e

/-- The exact product. -/
def Fp.mul : Fp → Fp → Fp
  | .nan, _ => .nan
  | _, .nan => .nan
  | .inf a, .inf b => .inf (a != b)
  | .inf a, .fin b n _ => if n = 0 then .nan else .inf (a != b)
  | .fin a m _, .inf b => if m = 0 then .nan else .inf (a != b)
  | .fin a m e, .fin b n f => .fin (a != b) (m * n) (e + f)

/-- The value times 2^k. -/
def Fp.shift (k : Int) : Fp → Fp
  | .fin a m e => .fin a m (e + k)
  | x => x

/-- Whether a value is a NaN. -/
def Fp.isNan : Fp → Bool
  | .nan => true
  | _ => false

/-- Strict order of values that are not NaN; the zeros are equal. -/
def Fp.lt : Fp → Fp → Bool
  | .nan, _ => false
  | _, .nan => false
  | .inf a, .inf b => a && !b
  | .inf a, _ => a
  | _, .inf b => !b
  | .fin a m e, .fin b n f =>
    let q := min e f
    signInt a (scaled m e q) < signInt b (scaled n f q)

/-- Equality of values; the zeros are equal, and a NaN equals nothing. -/
def Fp.eq (x y : Fp) : Bool := !x.isNan && !y.isNan && !x.lt y && !y.lt x

/-- Order with −0 below +0 (R158). -/
def Fp.below (x y : Fp) : Bool :=
  x.lt y || (match x, y with | .fin true 0 _, .fin false 0 _ => true | _, _ => false)

/-- MIN and MAX (R158). -/
def Fp.min (x y : Fp) : Fp := if x.isNan || y.isNan then .nan else if y.below x then y else x
def Fp.max (x y : Fp) : Fp := if x.isNan || y.isNan then .nan else if x.below y then y else x

/-! ## Rounding -/

/-- How a value rounds: to nearest even, or stochastically with a draw (R136). -/
inductive Rnd where
  | rne
  | stoch (u : Nat)
deriving DecidableEq, Repr

/-- m * 2^e rounded to an integer multiple of 2^q. -/
def roundAt (r : Rnd) (m : Nat) (e q : Int) : Nat :=
  if q ≤ e then scaled m e q
  else
    let d := 2 ^ (q - e).toNat
    let n := m / d
    let x := m % d
    match r with
    | .rne => if d < 2 * x || (2 * x = d && n % 2 = 1) then n + 1 else n
    | .stoch u => if x = 0 then n else if u < x * 65536 / d then n + 1 else n

/-- The code of NaN in a format (R136, R158, R349). -/
def Fmt.nanCode (f : Fmt) : Nat :=
  match f.kind with
  | .ieee => if f.bits = 32 then 0x7FC00000 else if f.bits = 8 then 0x7F else if f.eb = 8 then 0x7FC0 else 0x7E00
  | .e4m3 => 0x7F
  | _ => 0

/-- The code of the largest finite magnitude. -/
def Fmt.maxCode (f : Fmt) : Nat :=
  match f.kind with
  | .ieee => (2 ^ f.eb - 1) * 2 ^ f.mb - 1
  | .e4m3 => 2 ^ (f.eb + f.mb) - 2
  | _ => 2 ^ (f.eb + f.mb) - 1

/-- A sign and a magnitude code. -/
def Fmt.withSign (f : Fmt) (neg : Bool) (c : Nat) : Nat := if neg then c + 2 ^ (f.bits - 1) else c

/-- A result beyond the largest finite value (R136). -/
def Fmt.overflow (f : Fmt) (sat neg : Bool) : Nat :=
  match f.kind with
  | .int => if neg then 2 ^ (f.bits - 1) else 2 ^ (f.bits - 1) - 1
  | .finite => f.withSign neg f.maxCode
  | .e4m3 => if sat || f.mx then f.withSign neg f.maxCode else f.nanCode
  | .ieee => if sat || f.mx then f.withSign neg f.maxCode else f.withSign neg (f.maxCode + 1)

/-- Rounds a value into a format (R135, R136, R158). Above the largest finite value R136 names no upper neighbour: the model takes the value that
the format's next step would have, and a result that reaches it overflows (DESIGN CHOICE, log entry 62). -/
def Fmt.round (f : Fmt) (r : Rnd) (sat : Bool) : Fp → Nat
  | .nan => f.nanCode
  | .inf a => f.overflow sat a
  | .fin a m e =>
    if f.kind = .int then
      let n := roundAt r m e f.q
      if (if a then 2 ^ (f.bits - 1) else 2 ^ (f.bits - 1) - 1) < n then f.overflow sat a
      else if a then (2 ^ f.bits - n) % 2 ^ f.bits else n
    else if m = 0 then f.withSign a 0
    else
      let q := max ((Nat.log2 m : Int) + e - (f.mb : Int)) f.qMin
      let c := (q - f.qMin).toNat * 2 ^ f.mb + roundAt r m e q
      if f.maxCode < c then f.overflow sat a else f.withSign a c

/-- FP32 to nearest even. -/
def roundF32 (x : Fp) : Word := BitVec.ofNat 32 (fp32.round .rne false x)

/-- BF16 to nearest even. -/
def roundBf16 (x : Fp) : BitVec 16 := BitVec.ofNat 16 (bf16.round .rne false x)

/-- The value of an FP32 word. -/
def ofF32 (w : Word) : Fp := fp32.decode w.toNat

/-- The value of a BF16 code. -/
def ofBf16 (w : BitVec 16) : Fp := bf16.decode w.toNat

/-- The FP32 sum of two words (R158). -/
def addF32 (a b : Word) : Word := roundF32 ((ofF32 a).add (ofF32 b))

/-- A BF16 code widened to FP32; a NaN gives the canonical NaN (R349). -/
def widenBf16 (c : BitVec 16) : Word := roundF32 (ofBf16 c)

/-! ## The stochastic-rounding generator (R137) -/

/-- One advance of the generator. -/
def rngNext (x : DWord) : DWord :=
  let a := x ^^^ (x <<< 13)
  let b := a ^^^ (a >>> 7)
  b ^^^ (b <<< 17)

/-- The draw of an advanced state. -/
def rngDraw (x : DWord) : Nat := (x >>> 48).toNat

/-- The state that a seed loads. -/
def rngSeed (seed : DWord) : DWord := if seed = 0 then 0x9E3779B97F4A7C15 else seed

/-! ## Special functions (R160). The values are computed in fixed point far beyond any rounding boundary of FP32 (log entry 13). -/

/-- Fraction bits of the fixed-point values. -/
def fxBits : Nat := 320

/-- 1 in fixed point. -/
def fxOne : Nat := 2 ^ fxBits

/-- π and ln 2 with 640 fraction bits, 2/√π with 320. -/
def piFix : Nat :=
  14333329926761567455775730701799299831126131522901418329710873694248203755857903894978459978948837038337184470360789102305252273090192709030764248428292776480232102476327552185579501988876367276
def ln2Fix : Nat :=
  3162442850577000144542819255265044123884198300717798677536341180773118696995660441338367561063358767323571958122307070903190084685977847936741854327993944726832264493303953239866611699627604094
def twoOverSqrtPi : Nat :=
  2410203272519249216264429303418431786590919952803993071303316359311055940753903742343790935809570

/-- ln 2 in fixed point. -/
def fxLn2 : Nat := ln2Fix / fxOne

/-- Terms t^n / n! from n on, added up. -/
def expTerms (t : Nat) : Nat → Nat → Nat → Nat → Nat
  | 0, _, _, sum => sum
  | k + 1, n, term, sum =>
    let u := term * t / (n * fxOne)
    expTerms t k (n + 1) u (sum + u)

/-- e^t for 0 ≤ t < 1. -/
def fxExp (t : Nat) : Nat := expTerms t 100 1 fxOne fxOne

/-- The fixed-point number of a value (exact for FP32 values). -/
def fxOf (neg : Bool) (m : Nat) (e : Int) : Int := signInt neg (m * 2 ^ (e + (fxBits : Int)).toNat)

/-- e^x of a fixed-point number as a value. -/
def expOf (x : Int) : Fp :=
  let k := x.fdiv (fxLn2 : Int)
  .fin false (fxExp (x - k * (fxLn2 : Int)).toNat) (k - (fxBits : Int))

/-- 2^x. -/
def exp2Of (x : Int) : Fp :=
  let k := x.fdiv (fxOne : Int)
  .fin false (fxExp ((x - k * (fxOne : Int)).toNat * fxLn2 / fxOne)) (k - (fxBits : Int))

/-- z^(2n+1) / (2n+1), added up. -/
def atanhTerms (zz : Nat) : Nat → Nat → Nat → Nat → Nat
  | 0, _, _, sum => sum
  | k + 1, n, term, sum =>
    let u := term * zz / fxOne
    atanhTerms zz k (n + 2) u (sum + u / n)

/-- ln of a fixed-point number in [1, 2). -/
def fxLn (x : Nat) : Nat :=
  let z := (x - fxOne) * fxOne / (x + fxOne)
  2 * atanhTerms (z * z / fxOne) 120 3 z z

/-- log2 of a positive value. -/
def log2Of (m : Nat) (e : Int) : Fp :=
  let l := Nat.log2 m
  let x := if l ≤ fxBits then m * 2 ^ (fxBits - l) else m / 2 ^ (l - fxBits)
  ofInt ((e + (l : Int)) * (fxOne : Int) + ((fxLn x * fxOne / fxLn2 : Nat) : Int)) (-(fxBits : Int)) false

/-- 1/x with a sticky bit. -/
def rcpOf (neg : Bool) (m : Nat) (e : Int) : Fp :=
  let q := Nat.log2 m + 64
  .fin neg (2 * (2 ^ q / m) + if 2 ^ q % m = 0 then 0 else 1) (-(q : Int) - e - 1)

/-- The integer square root, bit by bit. -/
def sqrtBits (n : Nat) : Nat → Nat → Nat
  | 0, r => r
  | k + 1, r => let c := r + 2 ^ k; sqrtBits n k (if c * c ≤ n then c else r)

/-- 1/√x with a sticky bit. -/
def rsqrtOf (m : Nat) (e : Int) : Fp :=
  let odd := e % 2 ≠ 0
  let m1 := if odd then 2 * m else m
  let e1 := if odd then e - 1 else e
  let q := Nat.log2 m1 + 64
  let n := sqrtBits (2 ^ (2 * q) / m1) (q + 1) 0
  .fin false (2 * n + if n * n * m1 = 2 ^ (2 * q) then 0 else 1) (-(q : Int) - e1 / 2 - 1)

/-- The magnitude of a value in fixed point. -/
def fpFix : Fp → Nat
  | .fin _ m e => if 0 ≤ e + (fxBits : Int) then m * 2 ^ (e + (fxBits : Int)).toNat else m / 2 ^ (-(e + (fxBits : Int))).toNat
  | _ => 0

/-- tanh of a positive value below 64. -/
def tanhOf (neg : Bool) (m : Nat) (e : Int) : Fp :=
  let u := fpFix (expOf (-(2 * fxOf false m e)))
  .fin neg ((fxOne - u) * fxOne / (fxOne + u)) (-(fxBits : Int))

/-- (−1)^n x^(2n+1) / (n! (2n+1)), added up. -/
def erfTerms (xx : Nat) : Nat → Nat → Nat → Int → Int
  | 0, _, _, sum => sum
  | k + 1, n, term, sum =>
    let u := term * xx / (n * fxOne)
    let v := ((u / (2 * n + 1) : Nat) : Int)
    erfTerms xx k (n + 1) u (if n % 2 = 1 then sum - v else sum + v)

/-- erf of a positive value below 8. -/
def erfOf (neg : Bool) (m : Nat) (e : Int) : Fp :=
  let x := (fxOf false m e).toNat
  let s := (erfTerms (x * x / fxOne) 320 1 x (x : Int)).toNat
  .fin neg (s * twoOverSqrtPi / fxOne) (-(fxBits : Int))

/-- 1/(1 + e^−x). -/
def sigmoidOf (neg : Bool) (m : Nat) (e : Int) : Fp :=
  let u := fpFix (expOf (-(fxOf false m e)))
  .fin false ((if neg then u else fxOne) * fxOne / (fxOne + u)) (-(fxBits : Int))

/-- Terms of the sine or cosine series. -/
def trigTerms (rr : Nat) : Nat → Nat → Nat → Bool → Int → Int
  | 0, _, _, _, sum => sum
  | k + 1, n, term, minus, sum =>
    let u := term * rr / (n * (n + 1) * fxOne)
    trigTerms rr k (n + 2) u (!minus) (if minus then sum - (u : Int) else sum + (u : Int))

/-- The quadrant of |x| and the remainder, by the exact value of π. -/
def trigReduce (m : Nat) (e : Int) : Nat × Int :=
  let x := m * 2 ^ (e + 640).toNat
  let h := piFix / 2
  let k := (x + h / 2) / h
  (k % 4, ((x : Int) - ((k * h : Nat) : Int)).fdiv (fxOne : Int))

/-- Sine and cosine of the remainder. -/
def sinFix (r : Int) : Int := let s := trigTerms (r.natAbs * r.natAbs / fxOne) 80 2 r.natAbs true (r.natAbs : Int); if r < 0 then -s else s
def cosFix (r : Int) : Int := trigTerms (r.natAbs * r.natAbs / fxOne) 80 1 fxOne true (fxOne : Int)

/-- sin x. -/
def sinOf (neg : Bool) (m : Nat) (e : Int) : Fp :=
  let q := trigReduce m e
  let v := match q.1 with
    | 0 => sinFix q.2
    | 1 => cosFix q.2
    | 2 => -(sinFix q.2)
    | _ => -(cosFix q.2)
  ofInt (if neg then -v else v) (-(fxBits : Int)) false

/-- cos x. -/
def cosOf (m : Nat) (e : Int) : Fp :=
  let q := trigReduce m e
  ofInt (match q.1 with
    | 0 => cosFix q.2
    | 1 => -(sinFix q.2)
    | 2 => -(cosFix q.2)
    | _ => sinFix q.2) (-(fxBits : Int)) false

/-- The value 1. -/
def fpOne (neg : Bool) : Fp := .fin neg 1 0

/-- Whether a magnitude is at least 2^k. -/
def atLeast (m : Nat) (e : Int) (k : Int) : Bool := m ≠ 0 && k ≤ (Nat.log2 m : Int) + e

/-- A special function of Table VT-4 before its rounding. -/
def vsfOf (fn : Nat) : Fp → Fp
  | .nan => .nan
  | .inf a =>
    match fn with
    | 0 => if a then .fin false 0 0 else .inf false
    | 1 => if a then .nan else .inf false
    | 2 => .fin a 0 0
    | 3 => if a then .nan else .fin false 0 0
    | 4 => fpOne a
    | 5 => fpOne a
    | 6 => if a then .fin false 0 0 else fpOne false
    | _ => .nan
  | .fin a m e =>
    match fn with
    | 0 => if atLeast m e 10 then (if a then .fin false 0 0 else .inf false) else exp2Of (fxOf a m e)
    | 1 => if m = 0 then .inf true else if a then .nan else log2Of m e
    | 2 => if m = 0 then .inf a else rcpOf a m e
    | 3 => if m = 0 then .inf a else if a then .nan else rsqrtOf m e
    | 4 => if m = 0 then .fin a 0 0 else if atLeast m e 6 then fpOne a else tanhOf a m e
    | 5 => if m = 0 then .fin a 0 0 else if atLeast m e 3 then fpOne a else erfOf a m e
    | 6 => if atLeast m e 8 then (if a then .fin false 0 0 else fpOne false) else sigmoidOf a m e
    | 7 => if m = 0 then .fin a 0 0 else sinOf a m e
    | _ => if m = 0 then fpOne false else cosOf m e

end Sys2Proof.Machine
end

