-- ==== Sys2Proof/Machine/Ops.lean ====
section
/-! DEFINITION. The named operations over the state: tiles, contexts and instances, time stamps, events and log entries, rings and
completions, started commands, causes that end a step. -/

namespace Sys2Proof.Machine

open Sys2Proof

/-- The result of a command's meaning. -/
abbrev Res := Host.Outcome State Fault Refusal

/-! ## Stores without a default -/

/-- The value at a key, if listed. -/
def Map.look {α : Type} : Map α → Nat → Option α
  | [], _ => none
  | (k, v) :: m, i => if i = k then some v else Map.look m i

/-- Writes a key of a store whose absent keys hold nothing. -/
def Map.put {α : Type} (m : Map α) (i : Nat) (v : α) : Map α := Map.ins (Map.del m i) i v

/-! ## Accessors -/

/-- The tile at a site. -/
def State.tile (s : State) (x : Site) : Tile := Map.get {} s.tiles (siteKey x)

/-- Replaces a tile. -/
def State.setTile (s : State) (x : Site) (t : Tile) : State := { s with tiles := Map.set {} s.tiles (siteKey x) t }

/-- Changes a tile. -/
def State.onTile (s : State) (x : Site) (f : Tile → Tile) : State := s.setTile x (f (s.tile x))

/-- A tenant's context. -/
def State.ctx (s : State) (t : Tenant) : Context := Map.get {} s.ctxs t.val

/-- Changes a context. -/
def State.onCtx (s : State) (t : Tenant) (f : Context → Context) : State :=
  { s with ctxs := Map.set {} s.ctxs t.val (f (s.ctx t)) }

/-- A loaded layout. -/
def State.inst? (s : State) (l : BitVec 8) : Option Instance := Map.look s.insts l.toNat

/-- Changes a loaded layout; nothing where it is not loaded. -/
def State.onInst (s : State) (l : BitVec 8) (f : Instance → Instance) : State :=
  match s.inst? l with
  | some i => { s with insts := Map.put s.insts l.toNat (f i) }
  | none => s

/-- The loaded layouts. -/
def State.instances (s : State) : List Instance := s.insts.map (·.2)

/-- A die's power. -/
def State.die (s : State) (d : Nat) : DiePower := Map.get {} s.power.dies d

/-- Changes a die's power. -/
def State.onDie (s : State) (d : Nat) (f : DiePower → DiePower) : State :=
  { s with power := { s.power with dies := Map.set {} s.power.dies d (f (s.die d)) } }

/-- Whether a die takes part in work: ON or GATED. -/
def State.dieUp (s : State) (d : Nat) : Bool :=
  match (s.die d).state with
  | .on => true
  | .gated => true
  | _ => false

/-- A port of the links. -/
def portKey (p : PortRef) : Nat := p.xd.val * 8 + p.lane.val

/-- A port's state. -/
def State.port (s : State) (p : PortRef) : Port := Map.get {} s.links.ports (portKey p)

/-- Changes a port. -/
def State.onPort (s : State) (p : PortRef) (f : Port → Port) : State :=
  { s with links := { s.links with ports := Map.set {} s.links.ports (portKey p) (f (s.port p)) } }

/-- An Ethernet port slot. -/
def State.ethPort (s : State) (p : PortRef) : EthPort := Map.get {} s.links.eth (portKey p)

/-- Changes an Ethernet port slot. -/
def State.onEth (s : State) (p : PortRef) (f : EthPort → EthPort) : State :=
  { s with links := { s.links with eth := Map.set {} s.links.eth (portKey p) (f (s.ethPort p)) } }

/-- The key of a media session. -/
def sessKey (x : SessRef) : Nat := x.md.val * 512 + x.idx.val

/-- A media session. -/
def State.sess (s : State) (x : SessRef) : Session := Map.get {} s.media.sessions (sessKey x)

/-- Changes a media session. -/
def State.onSess (s : State) (x : SessRef) (f : Session → Session) : State :=
  { s with media := { s.media with sessions := Map.set {} s.media.sessions (sessKey x) (f (s.sess x)) } }

/-- A function's own registers. -/
def State.fnRegs (s : State) : Fn → FnRegs
  | .pf0 => s.host.pf0
  | .pf1 => s.host.pf1
  | .vf t => Map.get {} s.host.vfs t.val

/-- Changes a function's own registers. -/
def State.onFnRegs (s : State) (f : Fn) (g : FnRegs → FnRegs) : State :=
  match f with
  | .pf0 => { s with host := { s.host with pf0 := g s.host.pf0 } }
  | .pf1 => { s with host := { s.host with pf1 := g s.host.pf1 } }
  | .vf t => { s with host := { s.host with vfs := Map.upd {} s.host.vfs t.val g } }

/-- A pin. -/
def State.pin (s : State) (n : Nat) : Pin := Map.get {} s.pins.gpio n

/-- Changes a pin. -/
def State.onPin (s : State) (n : Nat) (f : Pin → Pin) : State :=
  { s with pins := { s.pins with gpio := Map.set {} s.pins.gpio n (f (s.pin n)) } }

/-- A stream record. -/
def State.stream (s : State) (n : Nat) : Stream := Map.get {} s.streams n

/-- Changes a stream record. -/
def State.onStream (s : State) (n : Nat) (f : Stream → Stream) : State :=
  { s with streams := Map.set {} s.streams n (f (s.stream n)) }

/-- The next free value, and the state that has used it (log entry 9). -/
def State.fresh (s : State) : BitVec 64 × State := (Config.freeWord s.freeCount, { s with freeCount := s.freeCount + 1 })

/-- Whether the main domains run: clocks started and the package not in the safe state's end. -/
def State.alive (s : State) : Bool := s.clk.running

/-- Whether tiles may issue: the main domains run and no safe-state sequence has begun (R388). -/
def State.working (s : State) : Bool := s.clk.running && !s.host.safePending

/-! ## Sites -/

/-- Whether a site is fused off: an M-, B- or V-tile that the fuses name (R21). -/
def State.isFused (s : State) (x : Site) : Bool := siteKind x ≠ .p && s.pkg.fused.contains x

/-- How many tiles of a kind are fused off on a die. -/
def Package.fusedCount (p : Package) (d : Nat) (k : TileKind) : Nat :=
  (p.fused.eraseDups.filter fun x => x.die.val = d && siteKind x = k).length

/-- The most M-tiles, and the most B- or V-tiles, that a grade allows to be fused off on one field die (Table PK-7, R18). -/
def Grade.most : Grade → Nat × Nat
  | .a => (4, 2)
  | .b => (12, 4)
  | .c => (24, 4)

/-- Whether a package exists: every field die meets the minimums of its grade, and no P-tile is fused off (R20, R21). -/
def Package.meets (p : Package) : Bool :=
  p.fused.all (fun x => siteKind x ≠ .p) &&
    (List.range 16).all fun d => p.fusedCount d .m ≤ p.grade.most.1 && p.fusedCount d .b ≤ p.grade.most.2 && p.fusedCount d .v ≤ p.grade.most.2

/-- The column range of a REGIONS byte (Table HL-11). -/
def regionCols (b : Byte) : Option (Nat × Nat) :=
  if b = 0x08 then some (0, 33)
  else if 0x11 ≤ b.toNat ∧ b.toNat ≤ 0x17 then some (0, 4 * (b.toNat - 0x10))
  else if 0x21 ≤ b.toNat ∧ b.toNat ≤ 0x27 then some (4 * (b.toNat - 0x20) + 1, 33)
  else none

/-- Whether a tenant's region holds a site (R70). -/
def State.inRegion (s : State) (t : Tenant) (x : Site) : Bool :=
  match regionCols (Map.get 0 (s.ctx t).regions x.die.val) with
  | some (a, b) => a ≤ x.col.val && x.col.val ≤ b
  | none => false

/-- The tenant that owns a site's router (R71). -/
def State.ownerOf (s : State) (x : Site) : Option Tenant :=
  (List.finRange 16).find? fun t => s.inRegion t x

/-- The instance that holds a tile: its owner's layout whose DIE_MASK names the die. -/
def State.instAt (s : State) (x : Site) : Option Instance :=
  match s.ownerOf x with
  | some t => s.instances.find? fun i => i.tenant = t && bitAt i.dieMask x.die.val
  | none => none

/-- The sites of an instance's region on the dies of its DIE_MASK, in ascending order. -/
def State.instSites (s : State) (i : Instance) : List Site :=
  ((List.range 16).filter fun d => bitAt i.dieMask d).flatMap fun d => (dieSites d).filter fun x => s.inRegion i.tenant x

/-- The section of an instance by its index. -/
def Instance.section? (i : Instance) (n : Nat) : Option Section := i.sections.find? fun x => x.index = n

/-- The section a tile is in. -/
def State.sectionAt (s : State) (x : Site) : Option Section :=
  match s.instAt x with
  | some i => i.section? (s.tile x).active.sect
  | none => none

/-- Whether a tile runs a sealed section. -/
def State.sealedAt (s : State) (x : Site) : Bool :=
  match s.sectionAt x with
  | some c => c.isSealed
  | none => false

/-! ## Time stamps and events -/

/-- Units of 1/480 beat in one FCLK cycle at an operating point (R29, R30). -/
def fclkUnits (p : Fin 3) : Nat := match p with | 0 => 15 | 1 => 20 | _ => 30

/-- One GTS count at nominal rate, in units of 2^-32 unit (R39). -/
def gtsCount : Nat := 24 * 2 ^ 32

/-- What one FCLK cycle adds to the GTS at a rate offset, in units of 2^-32 unit (R39, R44). -/
def Clock.gtsStep (c : Clock) (rate : DWord) : Nat :=
  let u := fclkUnits c.point
  (((u * 2 ^ 32 : Nat) : Int) + (u : Int) * rate.toInt).toNat

/-- Whether the GTS has reached a whole multiple of a count in the FCLK cycle in hand. -/
def State.gtsReached (s : State) (m : Nat) : Bool :=
  s.clk.gts.toNat % m * gtsCount + s.clk.gtsAcc < s.clk.gtsStep s.time.rateOffset

/-- A die's copy of the GTS (R40). -/
def State.localGts (s : State) (d : Nat) : DWord := s.clk.gts + Map.get 0 s.time.slips d

/-- The die whose event port carries the events of a die (R414). -/
def feederOf (v : Variant) (d : Nat) : Nat :=
  match dieKind v d with
  | some .hbm => 26 + (halfOf v d).val
  | _ => d

/-- Puts an event into a die's feeder (R414, R51). -/
def State.emitAt (s : State) (d : Nat) (e : Event) : State :=
  let k := feederOf s.pkg.variant d
  let fs := Map.upd {} s.merger.feeders k fun f => { f with queue := f.queue ++ [e] }
  { s with merger := { s.merger with feeders := fs } }

/-- The die at whose event port a source's events arise. A host doorbell names its port itself (`doorbellEvent`); any other event that
carries the host's number is handed over at XD0. -/
def srcDie (x : Src) : Nat := if x = hostSrc then 16 else x.toNat / 1024

/-- Where and when an event of a source arises now: the die of its event port, and that die's copy of the GTS (R41, R414). -/
def State.arises (s : State) (src : Src) : Nat × DWord := (srcDie src, s.localGts (srcDie src))

/-- Emits an event of a unit, stamped by its die's copy. -/
def State.emit (s : State) (src : Src) (b : EventBody) : State :=
  s.emitAt (srcDie src) { stamp := s.localGts (srcDie src), src := src, body := b }

/-- A write to a doorbell register arises as an event of the I/O die whose PCIe controller accepted it, with the host's source number; its
commit has no consumer of its own (R50, R414). -/
def State.doorbellEvent (s : State) (port : Nat) : State :=
  s.emitAt (portDie port) { stamp := s.localGts (portDie port), src := hostSrc, body := .doorbell }

/-- TENANT of a log entry that concerns none. -/
def noTenant : Byte := 0xFF

/-- A tenant as a byte. -/
def tenantByte (t : Tenant) : Byte := BitVec.ofNat 8 t.val

/-- An optional tenant as a byte. -/
def optTenant (t : Option Tenant) : Byte :=
  match t with
  | some t => tenantByte t
  | none => noTenant

/-- Logs a code with its fixed severity (R380). -/
def State.logEv (s : State) (src : Src) (code : BitVec 16) (tenant : Byte) (payload : List Byte) : State :=
  s.emit src (.log code (severityOf code) tenant payload)

/-- Logs a tile's event, for the owner of its site. -/
def State.logTile (s : State) (x : Site) (code : BitVec 16) (payload : List Byte) : State :=
  s.logEv (siteSrc x) code (optTenant (s.ownerOf x)) payload

/-- A raise of an MSI-X vector (R381); 0x7FF raises nothing. -/
def State.raise (s : State) (src : Src) (f : Fn) (vector : BitVec 11) (cause : Byte) : State :=
  if vector = 0x7FF then s else s.emit src (.irq f vector cause)

/-- Adds a cause that ends the running step of an instance (R288, R384). -/
def State.causeInst (s : State) (l : BitVec 8) (status : Status) (src : Src) : State :=
  let g := s.localGts (srcDie src)
  s.onInst l fun i =>
    if i.run.running then { i with run := { i.run with causes := i.run.causes ++ [⟨status, g, src⟩] } } else i

/-- Adds a cause that ends the step to which a site belongs (R383). -/
def State.causeAt (s : State) (x : Site) (status : Status) (src : Src) : State :=
  match s.instAt x with
  | some i => s.causeInst i.id status src
  | none => s

/-! ## Step signature (R365) -/

/-- A signed item that leaves through a P-tile of the instance at a site: kind, address, index and payload (Table DR-6). -/
def signedMessage (kind addr index : Nat) (payload : List Byte) : List Byte :=
  padTo 64 payload ++ leBytes 8 (addr % 2 ^ 48 + index % 4096 * 2 ^ 48 + kind * 2 ^ 60)

/-- Whether a tile already runs in the step that overlaps the oldest one: it has passed that step's first front. -/
def State.inNextStep (s : State) (i : Instance) (x : Site) : Bool :=
  i.run.nextStart.isSome && (s.tile x).stepLo = BitVec.ofNat 16 (i.stepNo + 1)

/-- The step number that a tile of an instance runs in. -/
def State.stepAt (s : State) (i : Instance) (x : Site) : Nat := if s.inNextStep i x then i.stepNo + 1 else i.stepNo

/-- Adds an item to the signature of the step of the unit at a site (R365). -/
def State.signItem (s : State) (x : Site) (kind addr index : Nat) (payload : List Byte) : State :=
  match s.instAt x with
  | some i =>
    let h := sigHash (signedMessage kind addr index payload)
    let next := s.inNextStep i x
    s.onInst i.id fun i =>
      { i with run := if next then { i.run with nextSum := i.run.nextSum + h } else { i.run with sigSum := i.run.sigSum + h } }
  | none => s

/-! ## Rings -/

/-- BASE of a ring group. -/
def Ring.base (r : Ring) : Nat := r.baseHi.toNat * 2 ^ 32 + r.baseLo.toNat

/-- Entries of a ring. -/
def Ring.size (r : Ring) : Nat := 2 ^ r.sizeLog2.toNat

/-- Entries that a ring holds (R303). -/
def Ring.count (r : Ring) : Nat := (r.prod - r.cons).toNat

/-- Host address of the entry with an index. -/
def Ring.addr (r : Ring) (i : Word) (bytes : Nat) : Nat := r.base + (i.toNat % r.size) * bytes

/-- PHASE of the next entry: 1 on the first pass after ENABLE (R309). -/
def Ring.phase (r : Ring) : Bool := r.prod.toNat / r.size % 2 = 0

/-- A ring group. -/
def State.ring (s : State) : RingSel → Ring
  | .asq => s.host.asq
  | .acq => s.host.acq
  | .log => s.host.log
  | .iq => s.host.iq
  | .csq t => (s.ctx t).csq
  | .ccq t => (s.ctx t).ccq
  | .fault t => (s.ctx t).fault

/-- Changes a ring group. -/
def State.onRing (s : State) (r : RingSel) (f : Ring → Ring) : State :=
  match r with
  | .asq => { s with host := { s.host with asq := f s.host.asq } }
  | .acq => { s with host := { s.host with acq := f s.host.acq } }
  | .log => { s with host := { s.host with log := f s.host.log } }
  | .iq => { s with host := { s.host with iq := f s.host.iq } }
  | .csq t => s.onCtx t fun c => { c with csq := f c.csq }
  | .ccq t => s.onCtx t fun c => { c with ccq := f c.ccq }
  | .fault t => s.onCtx t fun c => { c with fault := f c.fault }

/-- The function that owns a ring group. -/
def ringFn : RingSel → Fn
  | .csq t => .vf t
  | .ccq t => .vf t
  | .fault t => .vf t
  | _ => .pf0

/-- Writes host memory. -/
def State.hostWrite (s : State) (a : Nat) (bs : List Byte) : State :=
  { s with host := { s.host with mem := Memory.write s.host.mem a bs } }

/-- Writes one entry to a device-written ring that is enabled and has space, and advances PROD. -/
def State.ringWrite (s : State) (r : RingSel) (bs : List Byte) : State :=
  let g := s.ring r
  if g.enable && g.count < g.size then
    (s.hostWrite (g.addr g.prod bs.length) bs).onRing r fun g => { g with prod := g.prod + 1 }
  else s

/-- The submission ring of a command ring pair. -/
def subSel : SubRing → RingSel
  | .admin => .asq
  | .ctx t => .csq t

/-- The completion ring that pairs with a submission ring (R309). -/
def complSel : SubRing → RingSel
  | .admin => .acq
  | .ctx t => .ccq t

/-- A completion entry (Table HL-7). -/
def completionEntry (status : Status) (kind : Byte) (phase : Bool) (tag : Nat) (gts : DWord) (src : Src) (opcode : Nat)
    (cons : Word) (value : Nat) : List Byte :=
  leBytes 2 status.toNat ++ [kind, if phase then 1 else 0] ++ leBytes 4 tag ++ leBytes 8 gts.toNat ++ leBytes 2 src.toNat ++
    [BitVec.ofNat 8 opcode, 0] ++ leBytes 4 cons.toNat ++ leBytes 8 value

/-! ## Started commands -/

/-- A parameter of a command (Table HL-10). -/
def Started.p (f : Started) (off size : Nat) : Nat := byteField f.w off size

/-- OPCODE. -/
def Started.op (f : Started) : Nat := f.p 0 1

/-- The tenant a context-scoped command acts on (Table HL-6). -/
def Started.tenant (f : Started) : Tenant :=
  match f.ring with
  | .ctx t => t
  | .admin => Fin.ofNat 16 (f.p 2 1)

/-- Removes a command from those in progress. -/
def State.dropStarted (s : State) (f : Started) : State :=
  { s with host := { s.host with started := s.host.started.filter fun x => x.id != f.id } }

/-- Completes a command (R309, R310, R54): the entry is written where the completion ring is enabled, and the vector raised when
IRQ is set.  Once the safe-state sequence has begun no command completes (R388); a command that an FLR of its function overtook writes no
entry (R301). -/
def State.finish (s : State) (f : Started) (status : Status) (value : Nat) : State :=
  if s.host.safePending then s
  else
    let r := complSel f.ring
    let g := s.ring r
    let s1 := s.dropStarted f
    if g.enable && !f.muted then
      let e := completionEntry status 0 g.phase (f.p 4 4) s.clk.gts stewardSrc f.op f.consAfter value
      let s2 := s1.ringWrite r e
      if bitAt f.w 8 then s2.raise stewardSrc (ringFn r) g.vector 0 else s2
    else s1

/-- Completes with VALUE zero. -/
def State.fail (s : State) (f : Started) (status : Status) : State := s.finish f status 0

/-- Completes with OK and VALUE zero. -/
def State.done (s : State) (f : Started) : State := s.finish f OK 0

/-- Completes the started command with a number, if it is there. -/
def State.finishId (s : State) (id : Nat) (status : Status) (value : Nat) : State :=
  match s.host.started.find? fun f => f.id = id with
  | some f => s.finish f status value
  | none => s

/-- Writes a result and completes (R306): no result without RESULT_BYTES; E_HOST_FAULT when the write fails. -/
def State.finishResult (s : State) (f : Started) (ok : Bool) (status : Status) (value : Nat) (bs : List Byte) : State :=
  if f.p 16 4 = 0 then s.finish f status value
  else if ok then (s.hostWrite (f.p 8 8) (bs.take (f.p 16 4))).finish f status value
  else s.finish f E_HOST_FAULT value

/-- Whether the steward serves commands: READY, and no safe-state sequence (R321, R388). -/
def State.serving (s : State) : Bool := s.clk.running && s.host.ready && !s.host.safePending

end Sys2Proof.Machine
end

