-- ==== Sys2Proof/Machine/Steward.lean ====
section
/-! DEFINITION. The steward's command interface: the command table, the fetch of a submission-ring entry (R305 to R310), and the
commands that report or set package and context values. -/

namespace Sys2Proof.Machine

open Sys2Proof

/-! ## The command table (Table HL-10) -/

/-- What the table says of an opcode: admin ring only, package scope, the named parameter bytes (offset, size), the size of a
mandatory result, whether a result may be written at all. -/
structure CmdInfo where
  adminOnly : Bool
  pkg : Bool
  fields : List (Nat × Nat)
  mandatory : Nat := 0
  result : Bool := false
deriving DecidableEq, Repr

/-- The row of an opcode; none for an opcode that is not in the table (R322). -/
def cmdInfo : Nat → Option CmdInfo
  | 0x01 => some { adminOnly := false, pkg := true, fields := [], mandatory := 256, result := true }
  | 0x02 => some { adminOnly := false, pkg := true, fields := [], mandatory := 2048, result := true }
  | 0x03 => some { adminOnly := true, pkg := false, fields := [(20, 16), (36, 4), (40, 8), (48, 8), (56, 8)] }
  | 0x04 => some { adminOnly := true, pkg := false, fields := [] }
  | 0x05 => some { adminOnly := true, pkg := false, fields := [(20, 1), (21, 1)] }
  | 0x06 => some { adminOnly := false, pkg := false, fields := [(20, 16), (40, 8)], result := true }
  | 0x07 => some { adminOnly := false, pkg := false, fields := [(20, 1)] }
  | 0x08 => some { adminOnly := false, pkg := false, fields := [(20, 1), (24, 4)] }
  | 0x09 => some { adminOnly := true, pkg := false, fields := [(20, 1), (24, 4)] }
  | 0x0A => some { adminOnly := true, pkg := false, fields := [] }
  | 0x0B => some { adminOnly := true, pkg := false, fields := [(20, 4), (24, 1)] }
  | 0x0C => some { adminOnly := false, pkg := false, fields := [(20, 1), (24, 8), (32, 8), (40, 8)] }
  | 0x0D => some { adminOnly := false, pkg := false, fields := [(24, 8), (32, 8)] }
  | 0x0E => some { adminOnly := false, pkg := false, fields := [(20, 2), (22, 1)] }
  | 0x0F => some { adminOnly := false, pkg := false,
                   fields := [(20, 1), (21, 1), (22, 1), (23, 1), (24, 2), (26, 2), (32, 8), (40, 8), (48, 8)] }
  | 0x10 => some { adminOnly := false, pkg := false, fields := [(20, 1), (24, 2)] }
  | 0x11 => some { adminOnly := false, pkg := false, fields := [(20, 1), (21, 1), (24, 4), (28, 4), (32, 8)] }
  | 0x12 => some { adminOnly := false, pkg := false, fields := [(20, 4)] }
  | 0x13 => some { adminOnly := false, pkg := false, fields := [(20, 4), (32, 16)] }
  | 0x14 => some { adminOnly := false, pkg := false, fields := [(20, 4)], mandatory := 256, result := true }
  | 0x15 => some { adminOnly := false, pkg := false, fields := [(20, 1), (24, 8)] }
  | 0x16 => some { adminOnly := false, pkg := false, fields := [(20, 1), (21, 1)] }
  | 0x17 => some { adminOnly := false, pkg := false, fields := [(20, 2), (22, 1), (24, 4), (28, 2)] }
  | 0x18 => some { adminOnly := false, pkg := false, fields := [(20, 1), (24, 8)] }
  | 0x19 => some { adminOnly := false, pkg := false, fields := [(20, 4)] }
  | 0x1A => some { adminOnly := false, pkg := false, fields := [(24, 8), (32, 8), (40, 1)] }
  | 0x1B => some { adminOnly := false, pkg := false, fields := [] }
  | 0x1C => some { adminOnly := false, pkg := false, fields := [(20, 1), (24, 8), (32, 8), (40, 8)] }
  | 0x1D => some { adminOnly := true, pkg := false, fields := [(20, 1), (21, 1), (24, 8)] }
  | 0x1E => some { adminOnly := true, pkg := false, fields := [] }
  | 0x1F => some { adminOnly := true, pkg := true, fields := [(20, 2)] }
  | 0x20 => some { adminOnly := true, pkg := true, fields := [(20, 1), (21, 1)] }
  | 0x21 => some { adminOnly := true, pkg := true, fields := [(20, 1)] }
  | 0x22 => some { adminOnly := true, pkg := true, fields := [(20, 1)] }
  | 0x23 => some { adminOnly := true, pkg := true, fields := [(20, 1)] }
  | 0x24 => some { adminOnly := true, pkg := true, fields := [(20, 1), (21, 1), (24, 8)] }
  | 0x25 => some { adminOnly := true, pkg := false, fields := [(20, 1), (21, 1)] }
  | 0x26 => some { adminOnly := true, pkg := true, fields := [(20, 1), (21, 1), (22, 1), (24, 2), (26, 2)] }
  | 0x27 => some { adminOnly := true, pkg := true, fields := [(20, 1), (21, 1), (22, 1), (23, 1)] }
  | 0x28 => some { adminOnly := false, pkg := true, fields := [] }
  | _ => none

/-- Whether a byte offset lies in one of the named fields. -/
def namedByte (fs : List (Nat × Nat)) (o : Nat) : Bool := fs.any fun f => f.1 ≤ o && o < f.1 + f.2

/-- Whether every reserved byte and header bit of a command is zero (R7, R305). -/
def reservedZero (i : CmdInfo) (f : Started) : Bool :=
  f.p 3 1 = 0 && f.p 1 1 < 4 &&
    (List.range 44).all fun k => namedByte i.fields (20 + k) || f.p (20 + k) 1 = 0

/-- The status with which the steward refuses a command before it starts (R306, R7), if any. -/
def State.refusal (s : State) (f : Started) : Option Status :=
  match cmdInfo f.op with
  | none => some E_BAD_OPCODE
  | some i =>
    let onAdmin := f.ring = .admin
    if i.adminOnly && !onAdmin then some E_NOT_PERMITTED
    else if onAdmin && i.pkg && f.p 2 1 ≠ 0xFF then some E_BAD_FIELD
    else if onAdmin && !i.pkg && 16 ≤ f.p 2 1 then some E_BAD_FIELD
    else if !onAdmin && f.p 2 1 ≠ 0 then some E_BAD_FIELD
    else if !reservedZero i f then some E_BAD_FIELD
    else if i.result && f.p 16 4 ≠ 0 && f.p 8 8 % 8 ≠ 0 then some E_BAD_FIELD
    else if !i.pkg && f.op ≠ 0x03 && (!(s.ctx f.tenant).isOpen || (s.ctx f.tenant).closing) then some E_NO_CONTEXT
    else if f.p 16 4 < i.mandatory then some E_RESULT_SMALL
    else none

/-! ## Objects (R307) -/

/-- The objects a command names: pairs of a kind and a number.  Kinds: 0 context, 1 layout, 2 stream, 3 media session, 4 window, 5 die,
6 pin, 7 port. -/
def Started.objects (f : Started) : List (Nat × Nat) :=
  match cmdInfo f.op with
  | none => []
  | some i =>
    let c := if i.pkg then [] else [(0, f.tenant.val)]
    let dies := ((List.range 16).filter fun d => f.p (20 + d) 1 ≠ 0).map fun d => (5, d)
    let own := match f.op with
      | 0x03 => dies
      | 0x06 => dies
      | 0x07 => [(1, f.p 20 1)]
      | 0x08 => [(1, f.p 20 1)]
      | 0x15 => [(1, f.p 20 1)]
      | 0x1C => [(1, f.p 20 1)]
      | 0x12 => [(2, f.p 20 4)]
      | 0x13 => [(2, f.p 20 4)]
      | 0x14 => [(2, f.p 20 4)]
      | 0x19 => [(3, f.p 20 4)]
      | 0x10 => [(4, if f.p 20 1 = 0 then f.p 24 2 else 65536 * (f.tenant.val + 1) + f.p 24 2)]
      | 0x0F => if f.p 20 1 = 1 then [(5, f.p 27 1), (7, f.p 26 2)] else []
      | 0x18 => if f.p 20 1 = 0xFF then [] else [(5, f.p 20 1)]
      | 0x20 => [(5, f.p 20 1)]
      | 0x21 => [(5, f.p 20 1)]
      | 0x24 => if f.p 20 1 = 3 then [(5, f.p 21 1)] else []
      | 0x25 => [(6, f.p 20 1)]
      | 0x26 => [(6, f.p 20 1)]
      | 0x27 => [(5, f.p 20 1), (7, 256 * f.p 20 1 + f.p 21 1)]
      | _ => []
    c ++ own

/-- Whether a command in progress holds its objects: all do but a STEP and a REPLAY_START that have been accepted, on whose steps later
commands act while they run (R315 to R317; DEDUCED, log entry 14). -/
def Started.holds (f : Started) : Bool := (f.op != 0x08 && f.op != 0x1C) || !f.accepted

/-- Whether a command in progress shares an object with this one. -/
def State.conflicts (s : State) (f : Started) : Bool :=
  s.host.started.any fun g => g.holds && g.objects.any fun o => f.objects.contains o

/-! ## Fetch -/

/-- The submission rings in the order of a round: the admin ring first (R307). -/
def roundOrder : List SubRing := .admin :: (List.finRange 16).map .ctx

/-- Commands in progress of a ring. -/
def State.inProgress (s : State) (r : SubRing) : Nat := (s.host.started.filter fun f => f.ring = r).length

/-- Completion entries that the commands of a ring have reserved (R310); one that an FLR overtook keeps none (R301). -/
def State.reserved (s : State) (r : SubRing) : Nat := (s.host.started.filter fun f => f.ring = r && !f.muted).length

/-- Free entries of a completion ring that no command in progress has reserved (R310). -/
def State.freeEntries (s : State) (r : SubRing) : Nat :=
  let g := s.ring (complSel r)
  if g.enable then g.size - g.count - s.reserved r else 0

/-- Whether a ring has a command waiting that may start: fewer than 8 in progress (R307) and a free completion entry (R310). -/
def State.waitingRing (s : State) (r : SubRing) : Bool :=
  let g := s.ring (subSel r)
  g.enable && g.prod != g.cons && s.inProgress r < 8 && 0 < s.freeEntries r

/-- The rings in the order of their turns, after the one served last. -/
def State.turnOrder (s : State) : List SubRing :=
  match s.host.lastServed with
  | none => roundOrder
  | some l => (roundOrder.dropWhile fun r => r != l).drop 1 ++ roundOrder

/-- Whether it is a ring's turn (R307). -/
def State.mayFetch (s : State) (r : SubRing) : Bool :=
  s.serving && s.turnOrder.find? (fun q => s.waitingRing q) = some r

/-- The PCIe port of a function (Table HL-1). -/
def State.fnPort (s : State) : Fn → Nat
  | .pf0 => 0
  | .pf1 => 1
  | .vf t => if s.host.straps.hostBif && 8 ≤ t.val then 1 else 0

/-- The source number of a function (R297). -/
def State.fnSrc (s : State) (f : Fn) : Src :=
  srcOf (portDie (s.fnPort f)) (match f with | .vf t => t.val + 1 | _ => 0)

/-- FUNCTION as in Table IG-6. -/
def fnByte : Fn → Byte
  | .pf0 => 0
  | .pf1 => 1
  | .vf t => BitVec.ofNat 8 (0x80 + t.val + 1)

/-- The tenant of a function, as a byte. -/
def fnTenant : Fn → Byte
  | .vf t => tenantByte t
  | _ => noTenant

/-- A PCIe error: signalled through AER and logged under the function's source number (R300). -/
def State.pcieError (s : State) (f : Fn) (kind : Byte) (addr : Nat) : State :=
  { s with host := { s.host with aer := (f, kind) :: s.host.aer } }.logEv (s.fnSrc f) HOST_LINK_ERR (fnTenant f)
    ([kind, fnByte f, 0, 0] ++ leBytes 8 addr)

/-- A request of the host that names no target: Unsupported Request (R206, R300). -/
def State.noTarget (s : State) (f : Fn) (offset : Nat) : State :=
  { s with host := { s.host with reply := .unsupported } }.pcieError f 1 offset

/-- KIND of HOST_LINK_ERR for an error on a read that the P7 issued. -/
def hostErrorKind : HostError → Byte
  | .timeout => 2
  | .abort => 3
  | .unsupported => 4

/-- RING_FAULT (R308): the ring stops. -/
def State.ringFault (s : State) (r : RingSel) (number : Byte) (tenant : Byte) (index : Word) : State :=
  (s.onRing r fun g => { g with stopped := true, enable := false }).logEv stewardSrc RING_FAULT tenant
    ([number, tenant, 0, 0] ++ leBytes 4 index.toNat)

/-- A failed fetch (R300, R308). -/
def State.fetchFailed (s : State) (r : SubRing) (e : HostError) : State :=
  let g := s.ring (subSel r)
  let s1 := s.pcieError (ringFn (subSel r)) (hostErrorKind e) (g.addr g.cons 64)
  match r with
  | .admin => s1.ringFault .asq 0 noTenant g.cons
  | .ctx t => s1.ringFault (.csq t) 4 (tenantByte t) g.cons

/-- A fetched entry (R305 to R310): it waits when FENCE or a shared object says so, else it is refused or starts. -/
def State.fetchEntry (s : State) (r : SubRing) (w : Flit) : State :=
  let g := s.ring (subSel r)
  let f : Started := { id := s.host.nextId, ring := r, consAfter := g.cons + 1, w := w }
  let s0 := { s with host := { s.host with lastServed := some r } }
  if (bitAt w 9 && 0 < s.inProgress r) || s.conflicts f then s0
  else
    let s1 := s0.onRing (subSel r) fun g => { g with cons := g.cons + 1 }
    let s2 := { s1 with host := { s1.host with nextId := s1.host.nextId + 1, started := s1.host.started ++ [f] } }
    match s.refusal f with
    | some st => s2.fail f st
    | none => s2

/-- COMMAND_FETCH. -/
def State.commandFetch (s : State) (r : SubRing) (a : HostAnswer) : State :=
  if s.mayFetch r then
    match a with
    | .entry w => s.fetchEntry r w
    | .timeout => s.fetchFailed r .timeout
    | .abort => s.fetchFailed r .abort
    | .unsupported => s.fetchFailed r .unsupported
  else s

/-- COMMAND_FETCH (R307). -/
def execCommandFetch (r : SubRing) (a : HostAnswer) (s : State) : Res := .next (s.commandFetch r a)

/-! ## Serving a started command -/

/-- Runs a handler on a started command with an opcode; nothing where there is none, or where no command is served. -/
def State.serve (s : State) (c : Serve) (op : Nat) (k : Started → State → State) : State :=
  match s.host.started.find? fun f => f.id = c.id && f.op = op with
  | some f => if s.serving then k f s else s
  | none => s

/-- MSI-X vectors of a function (R299). -/
def State.vectors (s : State) (f : Fn) : Nat :=
  match f with
  | .vf _ => 120
  | .pf0 => if s.host.straps.hostBif then 64 else 128
  | .pf1 => if s.host.straps.hostBif then 64 else 0

/-- Whether a VECTOR names a vector of a function, or 0x7FF for none (R299, R303). -/
def State.vectorOk (s : State) (f : Fn) (v : Nat) : Bool := v = 0x7FF || v < s.vectors f

/-! ## IDENTIFY and GET_GRADE_MAP -/

/-- HBM not yet given to any quota (Table HL-9). -/
def State.hbmUncommitted (s : State) : Nat :=
  hbmTotal s.pkg.variant - ((List.finRange 16).map fun t => (s.ctx t).hbmQuota).sum

/-- The vendor ID, the class code and the revision ID of every function (R296). -/
def vendorId : Nat := 0x1D2B
def classCode : Nat := 0x120000
def revisionId : Nat := 0xB0

/-- The PF device ID (Table HL-2). -/
def deviceId : Variant → Nat
  | .m40 => 0x7040
  | .n40 => 0x7041
  | .l36 => 0x7036

/-- The VF device ID (Table HL-2). -/
def vfDeviceId : Variant → Nat
  | .m40 => 0x7140
  | .n40 => 0x7141
  | .l36 => 0x7136

/-- The device ID of a function. -/
def State.fnDeviceId (s : State) : Fn → Nat
  | .vf _ => vfDeviceId s.pkg.variant
  | _ => deviceId s.pkg.variant

/-- The PCIe generation to which the port of a function trains: the highest that both ends support, of 3 to 6 (R295). -/
def State.linkGen (s : State) (f : Fn) : Nat :=
  min 6 (if s.fnPort f = 0 then s.pkg.pcieGen.1 else s.pkg.pcieGen.2).toNat

/-- Log2 of the width to which it trains: the widest that both ends support (R294, R295). -/
def State.linkWidth (s : State) (f : Fn) : Nat :=
  min (if s.host.straps.hostBif then 3 else 4) (if s.fnPort f = 0 then s.pkg.pcieWidth.1 else s.pkg.pcieWidth.2).toNat

/-- LINK of Table HL-9 for the port of a function. -/
def State.linkByte (s : State) (f : Fn) : Byte :=
  BitVec.ofNat 8 (s.linkGen f + 16 * s.linkWidth f + if s.host.straps.hostBif then 128 else 0)

/-- The IDENTIFY record as a function's port gives it (Table HL-9). -/
def State.identifyRecord (s : State) (f : Fn) : List Byte :=
  let v := s.pkg.variant
  leBytes 8 s.pkg.packageId.toNat ++ leBytes 2 vendorId ++ leBytes 2 (deviceId v) ++
    [0xB0, 2, 4,
     (match v with | .m40 => 0 | .n40 => 1 | .l36 => 2),
     (match s.pkg.grade with | .a => 0 | .b => 1 | .c => 2),
     (match v with | .l36 => 36 | _ => 40),
     (match v with | .l36 => 1 | _ => 0),
     BitVec.ofNat 8 (stackCount v),
     (match v with | .n40 => 8 | _ => 4),
     BitVec.ofNat 8 s.clk.point.val,
     s.linkByte f, 0] ++
    leBytes 4 s.ao.startCount.toNat ++ leBytes 4 0 ++ leBytes 8 (hbmTotal v) ++ leBytes 8 s.hbmUncommitted ++
    leBytes 4 2097152 ++ leBytes 2 16 ++ leBytes 2 4096 ++ List.replicate 200 0

/-- The function of a submission ring. -/
def subFn (r : SubRing) : Fn := ringFn (subSel r)

/-- IDENTIFY (Table HL-9). -/
def execIdentify (c : Serve) (s : State) : Res :=
  .next (s.serve c 0x01 fun f s => s.finishResult f c.resultOk OK 0 (s.identifyRecord (subFn f.ring)))

/-- Good sites of a kind on a die (R27). -/
def State.goodCount (s : State) (d : Nat) (k : TileKind) : Nat :=
  ((dieSites d).filter fun x => siteKind x = k && !s.isFused x).length

/-- SITES (R27). -/
def State.siteBits (s : State) (d : Nat) : List Byte :=
  (List.range 68).map fun b =>
    BitVec.ofNat 8 ((List.range 8).foldl (fun a i => if s.isFused (siteOfKey (d * 544 + 8 * b + i)) then a else a + 2 ^ i) 0)

/-- A grade-map record (Table PK-8). -/
def State.gradeRecord (s : State) (d : Nat) : List Byte :=
  [BitVec.ofNat 8 d, 1, 0, 0] ++ leBytes 2 (s.goodCount d .m) ++ leBytes 2 (s.goodCount d .b) ++ leBytes 2 (s.goodCount d .v) ++
    leBytes 2 (s.goodCount d .p) ++ leBytes 4 0 ++ s.siteBits d ++ List.replicate 44 0

/-- GET_GRADE_MAP (R26). -/
def execGetGradeMap (c : Serve) (s : State) : Res :=
  .next (s.serve c 0x02 fun f s => s.finishResult f c.resultOk OK 0 ((List.range 16).flatMap s.gradeRecord))

/-- NOP. -/
def execNopCommand (c : Serve) (s : State) : Res := .next (s.serve c 0x28 fun f s => s.done f)

/-! ## SET_SHARES (R74, R77) -/

/-- The weigh-house frame of now: 64 SCLK cycles of 12 units (R75). -/
def State.frame (s : State) : Nat := s.clk.units / 768

/-- The setting in force in a frame. -/
def Shares.at (x : Shares) (frame : Nat) : Nat × Bool :=
  if x.fromFrame ≤ frame then (x.nextShare, x.nextBorrow) else (x.share, x.borrow)

/-- The shares that tenants other than one have been given. -/
def State.otherShares (s : State) (t : Tenant) : Nat :=
  (((List.finRange 16).filter fun u => u != t).map fun u => (s.ctx u).shares.nextShare).sum

/-- SET_SHARES: the sum stays within 62, and the new setting takes effect at the next frame start. -/
def State.setShares (f : Started) (s : State) : State :=
  let t := f.tenant
  if 64 < f.p 20 1 || 1 < f.p 21 1 then s.fail f E_BAD_FIELD
  else if 62 < s.otherShares t + f.p 20 1 then s.fail f E_SHARES
  else
    let now := (s.ctx t).shares.at s.frame
    let x : Shares := { share := now.1, borrow := now.2, nextShare := f.p 20 1, nextBorrow := f.p 21 1 = 1, fromFrame := s.frame + 1 }
    (s.onCtx t fun c => { c with shares := x }).done f

/-- SET_SHARES. -/
def execSetShares (c : Serve) (s : State) : Res := .next (s.serve c 0x05 State.setShares)

end Sys2Proof.Machine
end

