-- ==== Sys2Proof/Machine/Memory.lean ====
section
/-! DEFINITION. Device memory: HBM bursts and their errors (R205 to R208), the address map (R204, R206), page tables and translation
(R213 to R219, R318), the steward's own accesses by virtual address, MEM_MAP and MEM_UNMAP. -/

namespace Sys2Proof.Machine

open Sys2Proof

/-! ## HBM -/

/-- Whether a DPA names a byte of HBM (R204 to R206). -/
def hbmByteOk (v : Variant) (dpa : Nat) : Bool :=
  dpa / 2 ^ 40 = 0 && dpa / 2 ^ 36 % 16 < stackCount v && dpa % 2 ^ 36 < stackBytes v

/-- Whether a range of bytes lies in one stack. -/
def hbmRangeOk (v : Variant) (dpa n : Nat) : Bool :=
  hbmByteOk v dpa && (n = 0 || (hbmByteOk v (dpa + n - 1) && dpa / 2 ^ 36 = (dpa + n - 1) / 2 ^ 36))

/-- The source number of the pseudo-channel of a DPA (R207, R208). -/
def channelSrc (v : Variant) (dpa : Nat) : Src := srcOf (stackDie v (dpa / 2 ^ 36 % 16)) (dpa / 256 % 32)

/-- The source number of the controller of a stack (Table TM-4). -/
def controllerSrc (v : Variant) (k : Nat) : Src :=
  let half := stackCount v / 2
  srcOf (if k < half then 26 else 27) (32 + k % half)

/-- HBM_ECC_CE or HBM_ECC_UE of a burst (Table IG-5). -/
def State.logHbmEcc (s : State) (code : BitVec 16) (burst : Nat) (requester : Src) (tenant : Byte) (patrol : Bool) : State :=
  s.logEv (channelSrc s.pkg.variant (burst * 64)) code tenant
    (leBytes 8 (burst * 64) ++ leBytes 2 requester.toNat ++ [if patrol then 1 else 0, 0])

/-- The error a burst holds. -/
def State.burstErr (s : State) (burst : Nat) : Option EccKind := Map.look s.mem.bad burst

/-- Marks a burst with an error; a corrected one does not hide an uncorrectable one. -/
def State.setBurstErr (s : State) (burst : Nat) (k : EccKind) : State :=
  if s.burstErr burst = some .ue then s else { s with mem := { s.mem with bad := Map.put s.mem.bad burst k } }

/-- Ends the error of a burst. -/
def State.clearBurstErr (s : State) (burst : Nat) : State := { s with mem := { s.mem with bad := Map.del s.mem.bad burst } }

/-- A read of one burst: a correctable error is written back and logged, an uncorrectable one logged and its data poisoned (R208). -/
def State.readBurst (s : State) (burst : Nat) (requester : Src) (tenant : Byte) : Bool × State :=
  match s.burstErr burst with
  | none => (false, s)
  | some .ce => (false, (s.clearBurstErr burst).logHbmEcc HBM_ECC_CE burst requester tenant false)
  | some .ue => (true, s.logHbmEcc HBM_ECC_UE burst requester tenant false)

/-- The bursts that a byte range touches. -/
def bursts (dpa n : Nat) : List Nat := if n = 0 then [] else (List.range ((dpa + n - 1) / 64 - dpa / 64 + 1)).map fun i => dpa / 64 + i

/-- What a byte of HBM holds before anything has written it: zero, or a free value since a warm reset (R407) or in a range whose bytes the spec
leaves open (R253, R292). -/
def MemState.pad (m : MemState) (a : Nat) : Byte :=
  match m.fresh.find? fun r => r.lo ≤ a && a < r.lo + r.n with
  | some r => Config.freeHbm r.epoch a
  | none => match m.epoch with
    | some e => Config.freeHbm e a
    | none => 0

/-- Bytes as they are, from or to how the store lists them. -/
def MemState.mask (m : MemState) (a : Nat) : List Byte → List Byte
  | [] => []
  | b :: bs => (b ^^^ m.pad a) :: MemState.mask m (a + 1) bs

/-- Reads bytes of HBM through the controller: the bytes, whether they are poisoned, the state after (R208). -/
def State.hbmRead (s : State) (dpa n : Nat) (requester : Src) (tenant : Byte) : List Byte × Bool × State :=
  let r := (bursts dpa n).foldl (fun a b => let x := a.2.readBurst b requester tenant; (a.1 || x.1, x.2)) (false, s)
  (s.mem.mask dpa (Memory.read s.mem.hbm dpa n), r.1, r.2)

/-- What a write does to the error of one burst: a whole write ends it, a partial one corrects it, or merges and keeps the poison
(R207, R208). -/
def State.writeBurst (s : State) (burst : Nat) (whole : Bool) (requester : Src) (tenant : Byte) : State :=
  if whole then s.clearBurstErr burst
  else match s.burstErr burst with
    | none => s
    | some .ce => (s.clearBurstErr burst).logHbmEcc HBM_ECC_CE burst requester tenant false
    | some .ue => s.logHbmEcc HBM_ECC_UE burst requester tenant false

/-- A write into the save area of a pre-empted context breaks a slot's CRC (R292, R293; log entry 31). -/
def State.markSaved (s : State) (dpa n : Nat) : State :=
  { s with ctxs := s.ctxs.map fun (e : Nat × Context) =>
    (e.1, { e.2 with saved := e.2.saved.map fun v =>
      { v with crcBad := v.crcBad || (n ≠ 0 && v.frames.any fun f => dpa / 65536 ≤ f && f ≤ (dpa + n - 1) / 65536) } }) }

/-- A unit writes bytes to a range of HBM that no rule gives: they are free values from then on. -/
def State.hbmFree (s : State) (dpa n : Nat) : State :=
  let out := fun a => a < dpa || dpa + n ≤ a
  let m := { s.mem with
    hbm := Map.keep s.mem.hbm out, bad := Map.keep s.mem.bad fun b => out (b * 64)
    fresh := ⟨dpa, n, s.freeCount⟩ :: s.mem.fresh.filter fun r => r.lo ≠ dpa || r.n ≠ n }
  { s with mem := m, freeCount := s.freeCount + 1 }

/-- Writes bytes to HBM through the controller (R207, R227). -/
def State.hbmWrite (s : State) (dpa : Nat) (bs : List Byte) (requester : Src) (tenant : Byte) : State :=
  let s1 := (bursts dpa bs.length).foldl
    (fun a b => a.writeBurst b (dpa ≤ b * 64 && b * 64 + 64 ≤ dpa + bs.length) requester tenant) s
  ({ s1 with mem := { s1.mem with hbm := Memory.write s1.mem.hbm dpa (s1.mem.mask dpa bs) } }).markSaved dpa bs.length

/-! ## B-tile space and control space -/

/-- The B-tile site and offset of a B-tile DPA; none where it names no target (Table MM-1, R206). -/
def State.btTarget (s : State) (dpa : Nat) : Option (Site × Nat) :=
  if dpa / 2 ^ 40 = 1 ∧ dpa / 2 ^ 36 % 16 = 0 ∧ dpa / 2 ^ 27 % 32 = 0 ∧ dpa % 2 ^ 20 < btBytes then
    let x := btSite (dpa / 2 ^ 32 % 16) (dpa / 2 ^ 20 % 128)
    if s.isFused x then none else some (x, dpa % 2 ^ 20)
  else none

/-- Die, unit and register offset of a control-space DPA (Table MM-1, R206). -/
def State.ctlTarget (s : State) (dpa : Nat) : Option (Nat × Nat × Nat) :=
  if dpa / 2 ^ 40 = 2 ∧ dpa / 2 ^ 38 % 4 = 0 ∧ dpa / 2 ^ 25 % 128 = 0 then
    let d := dpa / 2 ^ 32 % 64
    let u := dpa / 2 ^ 15 % 1024
    if unitExists s.pkg.variant d u && !(d < 16 && u < 544 && s.isFused (siteOfKey (d * 544 + u))) then some (d, u, dpa % 2 ^ 15)
    else none
  else none

/-! ## Page tables (R214) -/

/-- Key of the entry that a level's table holds for a virtual address. -/
def ptKey (level va : Nat) : Nat :=
  level * 2 ^ 32 + (match level with | 1 => va / 2 ^ 39 | 2 => va / 2 ^ 30 | 3 => va / 2 ^ 21 | _ => va / 2 ^ 16)

/-- The entry that the steward has written at a level of a context's tables. -/
def Context.pte (c : Context) (level va : Nat) : DWord := Map.get 0 c.pt (ptKey level va)

/-- V, LEAF, R, W, WINDOW and HOST of an entry (Table MM-3). -/
def pteV (e : DWord) : Bool := bitAt e 0
def pteLeaf (e : DWord) : Bool := bitAt e 1
def pteR (e : DWord) : Bool := bitAt e 2
def pteW (e : DWord) : Bool := bitAt e 3
def pteWindow (e : DWord) : Bool := bitAt e 4
def pteHost (e : DWord) : Bool := bitAt e 5

/-- ADDR of an entry as a DPA. -/
def pteAddr (e : DWord) : Nat := bitsOf e 12 36 * 4096

/-- Whether an entry breaks Table MM-3 at its level. -/
def pteBad (level : Nat) (e : DWord) : Bool :=
  bitsOf e 48 16 ≠ 0 || bitsOf e 6 6 ≠ 0 || (level < 3 && pteLeaf e) || (level = 4 && !pteLeaf e) ||
    (level = 3 && pteLeaf e && bitsOf e 12 9 ≠ 0) || (level = 4 && bitsOf e 12 4 ≠ 0)

/-- The kind of an access, as a translation checks it. -/
structure Access where
  write : Bool
  host : Bool := false
  window : Bool := false
deriving DecidableEq, Repr

/-- How a translation ends: the DPA with the leaf, or a fault with its CAUSE and LEVEL (Table MM-4). -/
inductive Walk where
  | ok (dpa : Nat) (big : Bool) (entry : DWord)
  | fault (cause level : Nat)
deriving DecidableEq, Repr

/-- Checks a leaf's permissions (R217). -/
def leafCheck (a : Access) (va : Nat) (big : Bool) (e : DWord) : Walk :=
  let level := if big then 3 else 4
  if !a.write && !pteR e then .fault 2 level
  else if a.write && !pteW e then .fault 3 level
  else if a.host && !pteHost e then .fault 4 level
  else if a.window && !pteWindow e then .fault 5 level
  else if big then .ok (pteAddr e + va % 2 ^ 21) true e else .ok (pteAddr e + va % 2 ^ 16) false e

/-- The walk of R214 over the entries that the steward has written. The translation units walk the entries that stand in HBM (State.walk). -/
def Context.walk (c : Context) (va : Nat) (a : Access) : Walk :=
  let e1 := c.pte 1 va
  if !pteV e1 || 2 ^ 48 ≤ va then .fault 1 1 else if pteBad 1 e1 then .fault 6 1
  else
    let e2 := c.pte 2 va
    if !pteV e2 then .fault 1 2 else if pteBad 2 e2 then .fault 6 2
    else
      let e3 := c.pte 3 va
      if !pteV e3 then .fault 1 3 else if pteBad 3 e3 then .fault 6 3
      else if pteLeaf e3 then leafCheck a va true e3
      else
        let e4 := c.pte 4 va
        if !pteV e4 then .fault 1 4 else if pteBad 4 e4 then .fault 6 4 else leafCheck a va false e4

/-! ## Translation units (R215) -/

/-- A cached translation of a page. -/
def State.tlbFind (s : State) (half : Fin 2) (t : Tenant) (va : Nat) : Option TlbEntry :=
  s.mem.tlb.find? fun e => e.half = half && e.tenant = t && e.gen = (s.ctx t).gen &&
    e.page = (if e.big then va / 2 ^ 21 else va / 2 ^ 16)

/-- Translations that a unit holds at most (R215). -/
def tlbSize : Nat := 4096

/-- Caches a translation; the oldest of the unit goes when it is full (log entry 15). -/
def State.tlbFill (s : State) (e : TlbEntry) : State :=
  let own := s.mem.tlb.filter fun x => x.half = e.half
  let rest := s.mem.tlb.filter fun x => x.half ≠ e.half
  { s with mem := { s.mem with tlb := (e :: own).take tlbSize ++ rest } }

/-- Non-leaf entries that a unit holds at most (R215). -/
def walksSize : Nat := 256

/-- Caches a non-leaf entry; the oldest of the unit goes when there are too many (log entry 15). -/
def State.walkFill (s : State) (e : WalkEntry) : State :=
  let own := s.mem.walks.filter fun x => x.half = e.half
  let rest := s.mem.walks.filter fun x => x.half ≠ e.half
  { s with mem := { s.mem with walks := (e :: own).take walksSize ++ rest } }

/-- The part of a VA that indexes the table of a level and those above it. -/
def walkKey (level va : Nat) : Nat := ptKey level va % 2 ^ 32

/-- A cached non-leaf entry. -/
def State.walkFind (s : State) (half : Fin 2) (t : Tenant) (level va : Nat) : Option DWord :=
  (s.mem.walks.find? fun e => e.half = half && e.tenant = t && e.gen = (s.ctx t).gen && e.level = level && e.key = walkKey level va).map
    fun e => e.entry

/-- The source number of a half's translation unit (Table TM-4). -/
def xlateSrc (half : Fin 2) : Src := srcOf (26 + half.val) 16

/-- The place of the entry that a level's table holds for a VA: a table has 512 entries of 8 bytes, that of level 4 has 32 (R214). -/
def pteDpa (table level va : Nat) : Nat :=
  table + 8 * (match level with | 1 => va / 2 ^ 39 % 512 | 2 => va / 2 ^ 30 % 512 | 3 => va / 2 ^ 21 % 512 | _ => va / 2 ^ 16 % 32)

/-- A unit's read of an entry in HBM: none where the read is poisoned, or names no HBM (R208; log entry 16). -/
def State.pteRead (s : State) (half : Fin 2) (t : Tenant) (dpa : Nat) : Option DWord × State :=
  if hbmRangeOk s.pkg.variant dpa 8 then
    let r := s.hbmRead dpa 8 (xlateSrc half) (tenantByte t)
    (if r.2.1 then none else some (BitVec.ofNat 64 (leNat r.1)), r.2.2)
  else (none, s)

/-- A unit's walk from a table of a level on: each entry comes from the cache of non-leaf entries or from HBM (R208, R214, R215, R217). -/
def State.walkFrom : Nat → State → Fin 2 → Tenant → Nat → Access → Nat → Nat → Walk × State
  | 0, s, _, _, _, _, _, level => (.fault 6 level, s)
  | k + 1, s, half, t, va, a, table, level =>
    let cached := s.walkFind half t level va
    let r := match cached with
      | some e => (some e, s)
      | none => s.pteRead half t (pteDpa table level va)
    match r.1 with
    | none => (.fault 6 level, r.2)
    | some e =>
      if !pteV e then (.fault 1 level, r.2)
      else if pteBad level e then (.fault 6 level, r.2)
      else if pteLeaf e then (leafCheck a va (level = 3) e, r.2)
      else
        let s1 := if cached.isSome then r.2
          else r.2.walkFill { half := half, tenant := t, gen := (s.ctx t).gen, level := level, key := walkKey level va, entry := e }
        State.walkFrom k s1 half t va a (pteAddr e) (level + 1)

/-- A unit's walk of a context's tables from the root (R214). -/
def State.walk (s : State) (half : Fin 2) (t : Tenant) (va : Nat) (a : Access) : Walk × State :=
  match (s.ctx t).ptRoot with
  | some root => if 2 ^ 48 ≤ va then (.fault 1 1, s) else State.walkFrom 4 s half t va a root 1
  | none => (.fault 1 1, s)

/-- A translation by the unit of a half: from its cache, or by a walk that it then caches (R214, R215). -/
def State.translate (s : State) (half : Fin 2) (t : Tenant) (va : Nat) (a : Access) : Walk × State :=
  match s.tlbFind half t va with
  | some e => (leafCheck a va e.big e.entry, s)
  | none =>
    let r := s.walk half t va a
    match r.1 with
    | .ok dpa big entry =>
      (.ok dpa big entry,
        r.2.tlbFill { half := half, tenant := t, gen := (s.ctx t).gen, big := big,
                      page := if big then va / 2 ^ 21 else va / 2 ^ 16, entry := entry })
    | w => (w, r.2)

/-- Drops cached translations of a tenant that satisfy a test, and its cached non-leaf entries (R216). -/
def State.tlbDrop (s : State) (t : Tenant) (p : TlbEntry → Bool) : State :=
  { s with mem := { s.mem with tlb := s.mem.tlb.filter fun e => !(e.tenant = t && p e), walks := s.mem.walks.filter fun e => e.tenant ≠ t } }

/-! ## Faults (R217, R218) -/

/-- What a fault record tells of the access. -/
structure FaultInfo where
  va : Nat
  src : Src
  agent : Nat
  row : Nat := 0xFFFF
  seq : Nat := 0
  write : Bool
deriving DecidableEq, Repr

/-- A fault record (Table MM-4). -/
def faultRecord (i : FaultInfo) (gts : DWord) (cause level : Nat) (id : BitVec 16) (overflow : Bool) : List Byte :=
  leBytes 8 i.va ++ leBytes 8 gts.toNat ++ leBytes 2 i.src.toNat ++ [BitVec.ofNat 8 cause, BitVec.ofNat 8 i.agent] ++
    leBytes 2 i.row ++ leBytes 2 i.seq ++ leBytes 2 id.toNat ++
    [BitVec.ofNat 8 level, (if i.write then 1 else 0) ||| (if overflow then 2 else 0)] ++ leBytes 4 0

/-- A translation fault of a tenant: it takes a FAULT_ID, its record goes to the fault ring if there is room and no FLR closes the context
(R301), MEM_FAULT is logged. -/
def State.memFault (s : State) (t : Tenant) (i : FaultInfo) (cause level : Nat) : State :=
  let c := s.ctx t
  let g := s.localGts 24
  let rec_ := faultRecord i g cause level c.faultId c.faultLost
  let room := c.fault.enable && c.fault.count < c.fault.size && !s.host.safePending && !c.muted
  let s1 := s.onCtx t fun c => { c with faultId := c.faultId + 1, faultLost := !room }
  let s2 := if room then (s1.ringWrite (.fault t) rec_).raise stewardSrc (.vf t) c.fault.vector 2 else s1
  s2.emitAt 24 { stamp := g, src := i.src, body := .log MEM_FAULT (severityOf MEM_FAULT) (tenantByte t) rec_ }

/-! ## Accesses of the steward and of engines by virtual address -/

/-- Splits a range at 64 KiB boundaries: pairs of an address and a length. -/
def pieces : Nat → Nat → Nat → List (Nat × Nat)
  | 0, _, _ => []
  | k + 1, va, n =>
    if n = 0 then []
    else
      let m := min n (65536 - va % 65536)
      (va, m) :: pieces k (va + m) (n - m)

/-- The pieces of a range. -/
def vaPieces (va n : Nat) : List (Nat × Nat) := pieces (n / 65536 + 2) va n

/-- Reads a tenant's bytes: none on a fault, which is recorded; else the bytes and whether they are poisoned. -/
def State.vaRead (s : State) (t : Tenant) (half : Fin 2) (va n : Nat) (i : FaultInfo) : Option (List Byte × Bool) × State :=
  (vaPieces va n).foldl
    (fun a p =>
      match a.1 with
      | none => a
      | some (bs, bad) =>
        match a.2.translate half t p.1 { write := false } with
        | (.ok dpa _ _, s1) =>
          let r := s1.hbmRead dpa p.2 i.src (tenantByte t)
          (some (bs ++ r.1, bad || r.2.1), r.2.2)
        | (.fault c l, s1) => (none, s1.memFault t { i with va := p.1, write := false } c l))
    (some ([], false), s)

/-- Writes a tenant's bytes; false when a piece faulted. -/
def State.vaWrite (s : State) (t : Tenant) (half : Fin 2) (va : Nat) (bs : List Byte) (i : FaultInfo) : Bool × State :=
  (vaPieces va bs.length).foldl
    (fun a p =>
      if a.1 then
        match a.2.translate half t p.1 { write := true } with
        | (.ok dpa _ _, s1) => (true, s1.hbmWrite dpa ((bs.drop (p.1 - va)).take p.2) i.src (tenantByte t))
        | (.fault c l, s1) => (false, s1.memFault t { i with va := p.1, write := true } c l)
      else a)
    (true, s)

/-- The fault information of the steward's and the ledger's own accesses (AGENT 4). -/
def stewardAccess (src : Src) : FaultInfo := { va := 0, src := src, agent := 4, write := false }

/-! ## MEM_MAP and MEM_UNMAP (R213, R216, R318) -/

/-- The 64 KiB frames that a context's leaves name, with repeats. -/
def Context.frames (c : Context) : List Nat :=
  c.pt.flatMap fun e =>
    if pteV e.2 && pteLeaf e.2 then
      if e.1 / 2 ^ 32 = 3 then (List.range 32).map fun i => pteAddr e.2 / 65536 + i
      else if e.1 / 2 ^ 32 = 4 then [pteAddr e.2 / 65536] else []
    else []

/-- The distinct frames. -/
def Context.frameSet (c : Context) : List Nat := c.frames.eraseDups

/-- HBM charged to a context's quota: 64 KiB for each frame that a mapping names. -/
def Context.charged (c : Context) : Nat := c.frameSet.length * 65536

/-- Writes an entry of the tables; zero removes it. -/
def Context.setPte (c : Context) (level va : Nat) (e : DWord) : Context := { c with pt := Map.set 0 c.pt (ptKey level va) e }

/-- An entry that points to a lower table. -/
def tablePtr (dpa : Nat) : DWord := BitVec.ofNat 64 (dpa + 1)

/-- A leaf entry. -/
def leafEntry (dpa flags : Nat) : DWord := BitVec.ofNat 64 (dpa + 4 * (flags % 16) + 3)

/-- The DPAs of a context's tables. -/
def Context.tables (c : Context) : List Nat :=
  c.ptRoot.toList ++ c.pt.filterMap fun e => if pteV e.2 && !pteLeaf e.2 then some (pteAddr e.2) else none

/-- Tables that the reservation has room for: 4 KiB each, beside the stream table and a place for each pseudo-channel's assay row
(R415; DESIGN CHOICE, log entry 16). -/
def tableRoom (v : Variant) : Nat := (stackCount v * stackReserve - 2 ^ 29) / 4096 - 32 * stackCount v

/-- The place of the n-th table: from the bottom of the reservation up, over the stacks in turn (DESIGN CHOICE, log entry 16). -/
def tablePlace (v : Variant) (n : Nat) : Nat := n % stackCount v * 2 ^ 36 + (stackBytes v - stackReserve) + 4096 * (n / stackCount v)

/-- The first places for tables that no context uses, at most `n` of them. -/
def State.freeTables (s : State) (n : Nat) : List Nat :=
  let used := (List.finRange 16).flatMap fun t => (s.ctx t).tables
  let v := s.pkg.variant
  (((List.range (min (used.length + n) (tableRoom v))).map (tablePlace v)).filter fun d => !used.contains d).take n

/-- A context's tables as the steward changes them, with the places still free. -/
abbrev Tables := Context × List Nat

/-- Sees that the tables down to a level exist for a VA; none where no place is left. -/
def Tables.reach : Nat → Tables → Nat → Option Tables
  | 0, (c, free), _ =>
    match c.ptRoot, free with
    | some _, _ => some (c, free)
    | none, d :: ds => some ({ c with ptRoot := some d }, ds)
    | none, [] => none
  | level + 1, x, va =>
    match Tables.reach level x va with
    | none => none
    | some (c, free) =>
      let e := c.pte (level + 1) va
      if pteV e && !pteLeaf e then some (c, free)
      else match free with
        | d :: ds => some (c.setPte (level + 1) va (tablePtr d), ds)
        | [] => none

/-- The start of the 2 MiB that a VA lies in. -/
def base2M (va : Nat) : Nat := va / 2 ^ 21 * 2 ^ 21

/-- Splits a 2 MiB leaf into 32 entries of the same DPA and flags (R318); none where no place is left for their table. -/
def Tables.split (x : Tables) (va : Nat) : Option Tables :=
  let e := x.1.pte 3 va
  if pteV e && pteLeaf e then
    match x.2 with
    | d :: ds =>
      some ((List.range 32).foldl (fun c i => c.setPte 4 (base2M va + i * 65536) (e + BitVec.ofNat 64 (i * 65536))) (x.1.setPte 3 va (tablePtr d)), ds)
    | [] => none
  else some x

/-- Maps one page. -/
def Tables.mapPage (x : Tables) (va dpa flags : Nat) (big : Bool) : Option Tables :=
  match Tables.reach 2 x va with
  | none => none
  | some y =>
    if big then
      some (((List.range 32).foldl (fun c i => c.setPte 4 (base2M va + i * 65536) 0) y.1).setPte 3 va (leafEntry dpa flags), y.2)
    else match y.split va with
      | none => none
      | some z => (Tables.reach 3 z va).map fun q => (q.1.setPte 4 va (leafEntry dpa flags), q.2)

/-- Maps pages of a size from a VA on, each to its DPA. -/
def Tables.mapPages (size flags : Nat) (big : Bool) : List Nat → Nat → Tables → Option Tables
  | [], _, x => some x
  | d :: ds, va, x =>
    match x.mapPage va d flags big with
    | none => none
    | some y => Tables.mapPages size flags big ds (va + size) y

/-- Unmaps 64 KiB pages. -/
def Tables.unmapPages : List Nat → Tables → Option Tables
  | [], x => some x
  | va :: vs, x =>
    match x.split va with
    | none => none
    | some y => Tables.unmapPages vs (y.1.setPte 4 va 0, y.2)

/-- The place in HBM of an entry of a context's tables, by its key. -/
def Context.entryDpa (c : Context) (key : Nat) : Option Nat :=
  let level := key / 2 ^ 32
  let va := key % 2 ^ 32 * (match level with | 1 => 2 ^ 39 | 2 => 2 ^ 30 | 3 => 2 ^ 21 | _ => 2 ^ 16)
  let table := if level = 1 then c.ptRoot
    else
      let e := c.pte (level - 1) va
      if pteV e && !pteLeaf e then some (pteAddr e) else none
  table.map fun d => pteDpa d level va

/-- Zeroes a table in HBM: whole bursts, which ends their errors. -/
def State.hbmZero (s : State) (dpa n : Nat) : State :=
  let out := fun a => a < dpa || dpa + n ≤ a
  let hbm :=
    if s.mem.epoch.isNone && s.mem.fresh.isEmpty then Map.keep s.mem.hbm out
    else Memory.write s.mem.hbm dpa (s.mem.mask dpa (List.replicate n 0))
  { s with mem := { s.mem with hbm := hbm, bad := Map.keep s.mem.bad fun b => out (b * 64) } }

/-- The steward changes a context's tables: new tables are zeroed, and each entry that changed is written to HBM before the command completes
(R213, R216, R415). -/
def State.setTables (s : State) (t : Tenant) (c : Context) : State :=
  let old := s.ctx t
  let fresh := c.tables.filter fun d => !old.tables.contains d
  let s1 := fresh.foldl (fun a d => a.hbmZero d 4096) s
  let keys := (c.pt.map fun e => e.1) ++ (old.pt.map fun e => e.1).filter fun k => (Map.look c.pt k).isNone
  let s2 := (keys.filter fun k => Map.get 0 c.pt k ≠ Map.get 0 old.pt k).foldl (fun a k =>
    match c.entryDpa k with
    | some d => a.hbmWrite d (leBytes 8 (Map.get 0 c.pt k).toNat) stewardSrc (tenantByte t)
    | none => a) s1
  s2.onCtx t fun x => { x with ptRoot := c.ptRoot, pt := c.pt, lastStack := c.lastStack }

/-- Whether a page of a size may be placed at an offset of a stack: no page of any context there, outside the reservation. -/
def pageFree (v : Variant) (used : List Nat) (stack off size : Nat) : Bool :=
  off + size ≤ stackBytes v - stackReserve &&
    (List.range (size / 65536)).all fun i => !used.contains ((stack * 2 ^ 36 + off) / 65536 + i)

/-- The lowest free page of a stack (R318): a page that starts at 0 or just after a used frame. -/
def lowestFree (v : Variant) (used : List Nat) (stack size : Nat) : Option Nat :=
  let ends := used.filterMap fun f =>
    if f * 65536 / 2 ^ 36 = stack then some (roundUp (f * 65536 % 2 ^ 36 + 65536) size) else none
  let cands := (0 :: ends).filter fun o => pageFree v used stack o size
  cands.foldl (fun a o => match a with | none => some o | some b => some (min b o)) none

/-- Allocates pages for a range in round robin over the stacks: the pages' DPAs and the last stack used; none where one page finds no
room (R318). -/
def allocPages (v : Variant) (size : Nat) : Nat → Nat → List Nat → Option (List Nat × Nat)
  | 0, last, _ => some ([], last)
  | n + 1, last, used =>
    let order := (List.range (stackCount v)).map fun i => (last + 1 + i) % stackCount v
    match order.findSome? fun k => (lowestFree v used k size).map fun o => (k, o) with
    | none => none
    | some (k, o) =>
      let dpa := k * 2 ^ 36 + o
      match allocPages v size n k (used ++ (List.range (size / 65536)).map fun i => dpa / 65536 + i) with
      | none => none
      | some (l, e) => some (dpa :: l, e)

/-- The frames that any context maps, and those that are reserved to none. -/
def State.usedFrames (s : State) : List Nat := (List.finRange 16).flatMap fun t => (s.ctx t).frames

/-- Whether a cached translation lies in a range. -/
def TlbEntry.meets (va n : Nat) (e : TlbEntry) : Bool :=
  let lo := if e.big then e.page * 2 ^ 21 else e.page * 65536
  lo < va + n && va < lo + if e.big then 2 ^ 21 else 65536

/-- Maps pages in a context's tables and drops what the units hold of the range; none where the reservation has no room for the tables. -/
def State.mapOver (s : State) (t : Tenant) (c : Context) (va n flags : Nat) (big : Bool) (dpas : List Nat) : Option State :=
  match Tables.mapPages (if big then 2 ^ 21 else 65536) flags big dpas va (c, s.freeTables (3 * dpas.length + 1)) with
  | some x => some ((s.setTables t x.1).tlbDrop t (TlbEntry.meets va n))
  | none => none

/-- Maps fresh pages over a range; none where the quota, the stacks or the room for tables do not suffice. -/
def State.mapFresh (s : State) (t : Tenant) (va n flags : Nat) (big : Bool) : Option (Nat × State) :=
  let size := if big then 2 ^ 21 else 65536
  let c := s.ctx t
  match allocPages s.pkg.variant size (n / size) c.lastStack s.usedFrames with
  | none => none
  | some (dpas, last) =>
    if c.charged + n ≤ c.hbmQuota then
      (s.mapOver t { c with lastStack := last } va n flags big dpas).map fun s1 => (dpas.headD 0, s1)
    else none

/-- Whether a request of a tenant was translated and is not yet performed: MEM_MAP and MEM_UNMAP wait for it (R216). -/
def State.translating (s : State) (t : Tenant) : Bool :=
  (s.mem.reqs.any fun r => r.head.tenant = t) ||
    s.net.flow.any fun p => p.head.tenant = t && (match p.body with | .hbmCall _ => true | _ => false)

/-- Whether a media job in progress covers a byte of a range (R261). -/
def State.mediaCovers (s : State) (t : Tenant) (va n : Nat) : Bool :=
  s.media.sessions.any fun (e : Nat × Session) =>
    e.2.isOpen && e.2.tenant = t && e.2.covers.any fun c => c.1 < va + n && va < c.1 + c.2

/-- MEM_MAP. -/
def State.memMap (f : Started) (s : State) : State :=
  let flags := f.p 20 1
  let va := f.p 24 8
  let n := f.p 32 8
  let dpa := f.p 40 8
  let big := bitsOf f.w 164 1 = 1
  let atDpa := bitsOf f.w 165 1 = 1
  let size := if big then 2 ^ 21 else 65536
  let t := f.tenant
  if 0x3F < flags || n = 0 || va % size ≠ 0 || n % size ≠ 0 || 2 ^ 48 < va + n then s.fail f E_BAD_FIELD
  else if s.translating t || s.mediaCovers t va n then s
  else if atDpa then
    if dpa % size ≠ 0 then s.fail f E_NO_TARGET
    else
      let c := s.ctx t
      let fs := c.frameSet
      if (List.range (n / 65536)).all fun i => fs.contains (dpa / 65536 + i) then
        match s.mapOver t c va n flags big ((List.range (n / size)).map fun i => dpa + i * size) with
        | some s1 => s1.finish f OK dpa
        | none => s.fail f E_HBM_QUOTA
      else s.fail f E_NO_TARGET
  else
    match s.mapFresh t va n flags big with
    | some (d, s1) => s1.finish f OK d
    | none => s.fail f E_HBM_QUOTA

/-- MEM_MAP (R213, R318). -/
def execMemMap (c : Serve) (s : State) : Res := .next (s.serve c 0x0C State.memMap)

/-- MEM_UNMAP (R216, R318). At most the two 2 MiB leaves at the range's ends are split; with no room for their tables the command fails as a MEM_MAP
does (DESIGN CHOICE, log entry 16). -/
def State.memUnmap (f : Started) (s : State) : State :=
  let va := f.p 24 8
  let n := f.p 32 8
  let t := f.tenant
  if n = 0 || va % 65536 ≠ 0 || n % 65536 ≠ 0 || 2 ^ 48 < va + n then s.fail f E_BAD_FIELD
  else if s.translating t || s.mediaCovers t va n then s
  else
    let c := s.ctx t
    let listed := c.pt.filterMap fun e =>
      if e.1 / 2 ^ 32 = 4 then some (e.1 % 2 ^ 32 * 65536) else none
    let bigs := c.pt.filterMap fun e => if e.1 / 2 ^ 32 = 3 && pteLeaf e.2 then some (e.1 % 2 ^ 32 * 2 ^ 21) else none
    let whole := bigs.filter fun a => va ≤ a && a + 2 ^ 21 ≤ va + n
    let parts := (bigs.filter fun a => !whole.contains a).flatMap fun a => (List.range 32).map fun i => a + i * 65536
    let c1 := whole.foldl (fun c a => c.setPte 3 a 0) c
    match Tables.unmapPages ((listed ++ parts).filter fun a => va ≤ a && a < va + n) (c1, s.freeTables 2) with
    | some x => ((s.setTables t x.1).tlbDrop t (TlbEntry.meets va n)).done f
    | none => s.fail f E_HBM_QUOTA

/-- MEM_UNMAP. -/
def execMemUnmap (c : Serve) (s : State) : Res := .next (s.serve c 0x0D State.memUnmap)

end Sys2Proof.Machine
end

