-- ==== Sys2Proof/Machine/Scrivener.lean ====
section
/-! DEFINITION. The scrivener: which events are recorded, the ring of records (R353 to R356), and the sending of records to a twin
(R363, R364). -/

namespace Sys2Proof.Machine

open Sys2Proof

/-- The scrivener's source number. -/
def scrivSrc : Src := 0x6003

/-- The ledger's source number. -/
def ledgerSrc : Src := 0x6001

/-- The twin port, XD3 port 6 (R362). -/
def twinPort : PortRef := { xd := 3, lane := 6 }

/-- Flits of a message (R332). -/
def msgFlits (m : LinkMsg) : Nat := 1 + m.data.length

/-- Whether a message is a response, and whether it spends no credit (R333). -/
def isResponse (op : BitVec 8) : Bool := op = 3 || op = 4 || op = 5
def msgFree (m : LinkMsg) : Bool := m.op = 0 || m.op = 6

/-- Codewords that a message takes: ten slots each, no two messages in one (log entry 42). -/
def msgCodewords (m : LinkMsg) : Nat := (msgFlits m + 9) / 10

/-- Whether a port may send a message now: UP, credit in hand, room in the retry buffer (R333, R334). -/
def Port.maySend (p : Port) (m : LinkMsg) : Bool :=
  p.state = .up && p.unacked.length + msgCodewords m ≤ 256 &&
    (msgFree m || (if isResponse m.op then msgFlits m ≤ p.rspCredits else msgFlits m ≤ p.reqCredits))

/-- Sends a message: it spends its credits, and its codewords enter the retry buffer. -/
def Port.send (p : Port) (m : LinkMsg) (now : DWord) : Port :=
  { p with
    tx := p.tx ++ [m]
    reqCredits := if msgFree m || isResponse m.op then p.reqCredits else p.reqCredits - msgFlits m
    rspCredits := if isResponse m.op then p.rspCredits - msgFlits m else p.rspCredits
    unacked := p.unacked ++ (List.range (msgCodewords m)).map fun i => p.txNext + BitVec.ofNat 9 i
    txNext := p.txNext + BitVec.ofNat 9 (msgCodewords m)
    lastAdvance := if p.unacked.isEmpty then now else p.lastAdvance }

/-- Sends what waits, as far as it goes: requests and TWIN messages in their order, responses in theirs (R333, R338). -/
def Port.pump : Nat → Port → DWord → Port
  | 0, p, _ => p
  | k + 1, p, now =>
    let firstOf := fun (c : Bool) => p.txWait.zipIdx.find? fun (x : LinkMsg × Nat) => isResponse x.1.op = c || msgFree x.1
    match [true, false].findSome? fun c => (firstOf c).filter fun (x : LinkMsg × Nat) => p.maySend x.1 with
    | some (m, n) => Port.pump k ({ p with txWait := p.txWait.eraseIdx n }.send m now) now
    | none => p

/-- Hands a message to a port. -/
def State.linkSend (s : State) (q : PortRef) (m : LinkMsg) : State :=
  s.onPort q fun p => Port.pump (p.txWait.length + 1) { p with txWait := p.txWait ++ [m] } s.clk.gts

/-- Sends a TWIN message (Table DR-7). -/
def State.sendTwin (s : State) (kind : BitVec 16) (step : Nat) (body : BitVec 256) (data : List Flit) : State :=
  let w := s.links.twin
  let m : LinkMsg :=
    { op := 7, tenant := match w.tenant with | some t => tenantByte t | none => 0, handle := kind, status := 0,
      offset := BitVec.ofNat 64 step, srcId := s.pkg.packageId, tag := w.sentCount, reqCredits := 0, rspCredits := 0,
      body := body, badReserved := false, data := data }
  let s1 := s.linkSend twinPort m
  { s1 with links := { s1.links with twin := { s1.links.twin with sentCount := s1.links.twin.sentCount + 1 } } }

/-- Cuts bytes into flits. -/
def toFlits (bs : List Byte) : List Flit :=
  (List.range ((bs.length + 63) / 64)).map fun i => flitOf ((bs.drop (64 * i)).take 64)

/-- The instance whose LAYOUT_ID and step a context's event carries: the running one with the lowest LAYOUT_ID (log entry 17). -/
def State.runningInst (s : State) (t : Tenant) : Option Instance :=
  s.instances.find? fun i => i.tenant = t && i.run.running

/-- Whether a context's events are recorded: by its recorder, or for a twin as LEAD. -/
def State.recording (s : State) (t : Tenant) : Bool :=
  (match (s.ctx t).recorder with | some r => !r.armed.isEmpty | none => false) ||
    (s.links.twin.bound && s.links.twin.tenant = some t && !s.links.twin.follow)

/-- Hands an event to the scrivener of a context (R355). It carries the stamp of the instant at which it arose (R51), and goes by the event
port of the die where it did. -/
def State.scriv (s : State) (t : Tenant) (kind : Byte) (layout : BitVec 8) (step : Nat) (src : Src) (payload : List Byte)
    (at_ : Nat × DWord := s.arises src) : State :=
  if s.recording t then
    s.emitAt at_.1 { stamp := at_.2, src := src, body := .scriv t { kind := kind, layout := layout, step := BitVec.ofNat 64 step, payload := payload } }
  else s

/-- Hands over an event of the context's running instance. -/
def State.scrivCtx (s : State) (t : Tenant) (kind : Byte) (src : Src) (payload : List Byte) (at_ : Nat × DWord := s.arises src) : State :=
  match s.runningInst t with
  | some i => s.scriv t kind i.id i.stepNo src payload at_
  | none => s.scriv t kind 0xFF 0 src payload at_

/-! ## The ring -/

/-- A record with its payload padded (Table DR-4). -/
def recordBytes (kind : Byte) (late : Bool) (layout : Byte) (gts : DWord) (step : DWord) (src : Src) (seq : Nat) (payload : List Byte) :
    List Byte :=
  [kind, if late then 1 else 0, layout, 0] ++ leBytes 4 payload.length ++ leBytes 8 gts.toNat ++ leBytes 8 step.toNat ++
    leBytes 2 src.toNat ++ leBytes 2 0 ++ leBytes 4 seq ++ padTo (roundUp payload.length 32) payload

/-- The ring header (Table DR-3). -/
def Recorder.header (r : Recorder) (t : Tenant) (full : Bool) : List Byte :=
  padTo 64 (leBytes 4 0x52435253 ++ leBytes 2 1 ++ leBytes 2 ((if r.wrapped then 1 else 0) + if full then 2 else 0) ++
    leBytes 8 r.ringBytes ++ leBytes 8 r.written ++ leBytes 8 r.oldest ++ leBytes 8 r.records ++ leBytes 8 r.startGts.toNat ++
    [tenantByte t])

/-- Writes a tenant's bytes for the scrivener. -/
def State.scrivWrite (s : State) (t : Tenant) (va : Nat) (bs : List Byte) : State :=
  (s.vaWrite t 0 va bs (stewardAccess scrivSrc)).2

/-- Rewrites the ring header. -/
def State.writeHeader (s : State) (t : Tenant) (full : Bool) : State :=
  match (s.ctx t).recorder with
  | some r => s.scrivWrite t r.ringVa.toNat (r.header t full)
  | none => s

/-- Drops the oldest whole records until `need` bytes are free: the bytes dropped and the sizes left. -/
def dropOldest : List Nat → Nat → Nat → List Nat × Nat
  | [], _, dropped => ([], dropped)
  | z :: zs, excess, dropped => if excess ≤ dropped then (z :: zs, dropped) else dropOldest zs excess (dropped + z)

/-- Ends recording: the header is written and the recorder goes (R353). -/
def State.stopRecorder (s : State) (t : Tenant) (full : Bool) : State :=
  (s.writeHeader t full).onCtx t fun c => { c with recorder := none }

/-- Appends one record that does not cross the ring's end (R354). -/
def State.appendRaw (s : State) (t : Tenant) (mk : Nat → List Byte) (len : Nat) : State :=
  match (s.ctx t).recorder with
  | none => s
  | some r =>
    let cap := r.ringBytes - 64
    let excess := (r.written + len) - (r.oldest + cap)
    if 0 < excess && r.stopWhenFull then
      (s.stopRecorder t true).logEv scrivSrc RECORD_FULL (tenantByte t) (leBytes 8 r.records)
    else
      let d := dropOldest r.sizes excess 0
      let s1 := s.scrivWrite t (r.ringVa.toNat + 64 + r.written % cap) (mk r.records)
      let r1 := { r with written := r.written + len, oldest := r.oldest + d.2, sizes := d.1 ++ [len], records := r.records + 1,
                         wrapped := r.wrapped || 0 < excess }
      s1.onCtx t fun c => { c with recorder := some r1 }

/-- Appends a record, after a PAD record where it would cross the ring's end (R354). -/
def State.appendRecord (s : State) (t : Tenant) (late : Bool) (b : ScrivBody) (gts : DWord) (src : Src) : State :=
  match (s.ctx t).recorder with
  | none => s
  | some r =>
    let cap := r.ringBytes - 64
    let len := 32 + roundUp b.payload.length 32
    let left := cap - r.written % cap
    let s1 := if left < len then
        s.appendRaw t (fun q => recordBytes 0 false b.layout gts b.step src q (List.replicate (left - 32) 0)) left
      else s
    s1.appendRaw t (fun q => recordBytes b.kind late b.layout gts b.step src q b.payload) len

/-- What the commit of a scrivener event does: the record goes to the ring of a recording context whose instance has started
recording, and to the twin of a LEAD (R355, R364). -/
def State.commitScriv (s : State) (late : Bool) (t : Tenant) (b : ScrivBody) (gts : DWord) (src : Src) : State :=
  let s1 := match (s.ctx t).recorder with
    | some r => if r.armed.contains b.layout || b.layout = 0xFF then s.appendRecord t late b gts src else s
    | none => s
  let w := s1.links.twin
  if w.bound && w.tenant = some t && !w.follow && b.kind ≠ 8 then
    let bytes := recordBytes b.kind late b.layout gts b.step src 0 b.payload
    s1.sendTwin 3 b.step.toNat (BitVec.ofNat 256 (b.kind.toNat + 65536 * b.payload.length)) (toFlits bytes)
  else s1

/-! ## RECORD_START and RECORD_STOP (R353) -/

/-- Whether every page of a range allows reads and writes. -/
def Context.rangeRW (c : Context) (va n : Nat) : Bool :=
  (List.range ((va + n + 65535) / 65536 - va / 65536)).all fun i =>
    let a := (va / 65536 + i) * 65536
    (match c.walk a { write := false } with | .ok _ _ _ => true | _ => false) &&
      (match c.walk a { write := true } with | .ok _ _ _ => true | _ => false)

/-- RECORD_START. -/
def State.recordStart (f : Started) (s : State) : State :=
  let t := f.tenant
  let c := s.ctx t
  let va := f.p 24 8
  let n := f.p 32 8
  if c.recorder.isSome || c.replay.isSome || (s.links.twin.bound && s.links.twin.tenant = some t && s.links.twin.follow) then
    s.fail f E_RECORD_STATE
  else if 1 < f.p 40 1 || n % 65536 ≠ 0 || n < 2 ^ 20 || 2 ^ 40 < n || 2 ^ 48 < va + n || !c.rangeRW va n then s.fail f E_BAD_FIELD
  else
    let r : Recorder := { ringVa := BitVec.ofNat 64 va, ringBytes := n, stopWhenFull := f.p 40 1 = 1, written := 0, oldest := 0,
                          sizes := [], records := 0, startGts := s.clk.gts, wrapped := false, armed := [] }
    (s.onCtx t fun c => { c with recorder := some r }).done f

/-- RECORD_START. -/
def execRecordStart (c : Serve) (s : State) : Res := .next (s.serve c 0x1A State.recordStart)

/-- RECORD_STOP. -/
def State.recordStop (f : Started) (s : State) : State :=
  match (s.ctx f.tenant).recorder with
  | none => s.fail f E_RECORD_STATE
  | some r => (s.stopRecorder f.tenant false).finish f OK r.records

/-- RECORD_STOP. -/
def execRecordStop (c : Serve) (s : State) : Res := .next (s.serve c 0x1B State.recordStop)

end Sys2Proof.Machine
end

