-- ==== Sys2Proof/Machine/Beacons.lean ====
section
/-! DEFINITION. Beacons: signals, waits, takes, notifications and grants (R196 to R203), their recording (R355) and their order in a
replay (R359, R360). -/

namespace Sys2Proof.Machine

open Sys2Proof

/-! ## Access -/

/-- A beacon of a context. -/
def State.beacon (s : State) (t : Tenant) (i : BitVec 12) : Beacon := Map.get {} (s.ctx t).beacons i.toNat

/-- Changes a beacon. -/
def State.onBeacon (s : State) (t : Tenant) (i : BitVec 12) (f : Beacon → Beacon) : State :=
  s.onCtx t fun c => { c with beacons := Map.upd {} c.beacons i.toNat f }

/-- Beacons without the waiters that satisfy a test. -/
def dropWaiters (p : Waiter → Bool) (bs : Map Beacon) : Map Beacon :=
  (bs.map fun (e : Nat × Beacon) => (e.1, { e.2 with waiters := e.2.waiters.filter fun w => !p w.1 })).filter fun (e : Nat × Beacon) => e.2 ≠ ({} : Beacon)

/-- KIND of a session's parameter block (Table MD-3). -/
def Session.kind (x : Session) : Nat := byteField x.params 0 1

/-- The source number of the engine that a session used last (Table TM-4). -/
def State.sessSrc (s : State) (x : SessRef) : Src :=
  let n := s.sess x
  srcOf (20 + x.md.val) ((match n.kind with | 1 => 0 | 2 => 16 | 3 => 24 | _ => 32) + n.engine)

/-- The source number of a port's first lane (Table TM-4). -/
def portSrc (p : PortRef) : Src := srcOf (xdDie p.xd.val) (32 + p.lane.val)

/-- The source number of a waiter. -/
def State.waiterSrc (s : State) : Waiter → Src
  | .tile x => siteSrc x
  | .ledger _ => ledgerSrc
  | .eth p _ => portSrc p
  | .job x => s.sessSrc x
  | .slot x => s.sessSrc x
  | .tap x => s.sessSrc x

/-- The tile of a source number. -/
def siteOfSrc (x : Src) : Option Site := siteOf (x.toNat / 1024) (x.toNat % 1024)

/-- Whether a source is a tile of a context. -/
def State.isCtxTile (s : State) (t : Tenant) (src : Src) : Bool :=
  match siteOfSrc src with
  | some x => s.inRegion t x
  | none => false

/-! ## Recording -/

/-- Operation numbers of a BEACON record (Table DR-5). -/
def opSignal : Nat := 0
def opWait : Nat := 1
def opTake : Nat := 2
def opGrant : Nat := 3

/-- Counts an operation on a beacon within the step, and records it when its source is not a tile of the context or it is a GRANT
(R355), with the stamp of the instant at which it arose (R51). -/
def State.recordOp (s : State) (t : Tenant) (i : BitVec 12) (op count : Nat) (src : Src) (at_ : Nat × DWord := s.arises src) : State :=
  let n := Map.get 0 (s.ctx t).opSeqs i.toNat
  let v := (s.beacon t i).value
  let s1 := if op = opGrant || !s.isCtxTile t src then
      s.scrivCtx t 3 src (leBytes 2 i.toNat ++ [BitVec.ofNat 8 op, 0] ++ leBytes 2 count ++ leBytes 2 n ++ leBytes 4 v.toNat ++ leBytes 4 0) at_
    else s
  s1.onCtx t fun c => { c with opSeqs := Map.set 0 c.opSeqs i.toNat ((n + 1) % 65536) }

/-! ## Grants and notifications -/

/-- Delivers a grant to its waiter (R199, R262, R282, R328, R329). -/
def State.deliverGrant (s : State) (t : Tenant) (i : BitVec 12) (n : BitVec 16) (w : Waiter) : State :=
  match w with
  | .tile x => { s with net := { s.net with grants := s.net.grants ++ [{ tenant := t, gen := (s.ctx t).gen, site := x, beacon := i, count := n }] } }
  | .ledger l => s.emit stewardSrc (.report l)
  | .eth p .rx => s.onEth p fun e => { e with rx := { e.rx with waiting := false, granted := true } }
  | .eth p .tx => s.onEth p fun e => { e with tx := { e.tx with waiting := false, granted := true } }
  | .job x => s.onSess x fun n => { n with jobGranted := true }
  | .slot x => s.onSess x fun n => { n with slotGranted := true }
  | .tap x => s.onSess x fun n => { n with tapGranted := true }

/-- Writes a beacon notification to the completion ring (Table HL-7). -/
def State.noteEntry (s : State) (t : Tenant) (n : Note) : State :=
  let r := s.ring (.ccq t)
  s.ringWrite (.ccq t) (completionEntry 0 1 r.phase n.beacon.toNat n.gts stewardSrc 0 0 n.value.toNat)

/-- Writes a notification, or keeps it pending when no unreserved entry is free; a pending one takes the new VALUE and GTS (R310).
A context that an FLR closes writes none (R301). -/
def State.notifyRing (s : State) (t : Tenant) (n : Note) : State :=
  if (s.ctx t).muted then s
  else if 0 < s.freeEntries (.ctx t) && (s.ctx t).notes.isEmpty && !s.host.safePending then s.noteEntry t n
  else s.onCtx t fun c =>
    if c.notes.any fun x => x.beacon = n.beacon then { c with notes := c.notes.map fun x => if x.beacon = n.beacon then n else x }
    else { c with notes := c.notes ++ [n] }

/-- Notifies under R200. -/
def State.notify (s : State) (t : Tenant) (i : BitVec 12) : State :=
  let b := s.beacon t i
  let s1 := if b.mode = 1 || b.mode = 3 then s.raise stewardSrc (.vf t) b.vector 1 else s
  if b.mode = 2 || b.mode = 3 then s1.notifyRing t { beacon := i, value := b.value, gts := s.clk.gts } else s1

/-- Grants the head waiter while its COUNT is at most VALUE (R197). -/
def State.grantHeads : Nat → State → Tenant → BitVec 12 → State
  | 0, s, _, _ => s
  | k + 1, s, t, i =>
    let b := s.beacon t i
    match b.waiters with
    | [] => s
    | (w, n) :: ws =>
      if n.toNat ≤ b.value.toNat then
        let s1 := s.onBeacon t i fun b => { b with value := b.value - n.setWidth 32, waiters := ws }
        let s2 := (s1.recordOp t i opGrant n.toNat (s1.waiterSrc w)).deliverGrant t i n w
        State.grantHeads k s2 t i
      else s

/-- BEACON_SAT, BEACON_TAKE_MISS, BEACON_STALE (Table IG-5). -/
def State.logSat (s : State) (t : Tenant) (i : BitVec 12) (src : Src) (count : Nat) : State :=
  s.logEv stewardSrc BEACON_SAT (tenantByte t) (leBytes 2 i.toNat ++ leBytes 2 src.toNat ++ leBytes 2 count)

/-- Adds a signal's COUNT and notifies; grants follow when `grants` says so (R197). -/
def State.addSignal (s : State) (t : Tenant) (i : BitVec 12) (count : Nat) (src : Src) : State :=
  let b := s.beacon t i
  let sum := b.value.toNat + count
  let s1 := if 0xFFFFFFFF < sum then s.logSat t i src count else s
  let s2 := s1.onBeacon t i fun b => { b with value := addSat b.value count }
  if b.value.toNat < b.thresh.toNat && b.thresh.toNat ≤ (s2.beacon t i).value.toNat then s2.notify t i else s2

/-- A signal as the store applies it (R197). -/
def State.applySignal (s : State) (t : Tenant) (i : BitVec 12) (count : Nat) (src : Src) (at_ : Nat × DWord := s.arises src) : State :=
  let s1 := (s.addSignal t i count src).recordOp t i opSignal count src at_
  State.grantHeads (s1.beacon t i).waiters.length s1 t i

/-- A wait as the store applies it (R197). -/
def State.applyWait (s : State) (t : Tenant) (i : BitVec 12) (count : BitVec 16) (w : Waiter)
    (at_ : Nat × DWord := s.arises (s.waiterSrc w)) : State :=
  let s1 := s.recordOp t i opWait count.toNat (s.waiterSrc w) at_
  let s2 := s1.onBeacon t i fun b => { b with waiters := b.waiters ++ [(w, count)] }
  if (s.beacon t i).waiters.isEmpty then State.grantHeads 1 s2 t i else s2

/-- A TAKE as the store applies it (R201). -/
def State.applyTake (s : State) (t : Tenant) (i : BitVec 12) (count : Nat) (src : Src) (at_ : Nat × DWord := s.arises src) : State :=
  let b := s.beacon t i
  if b.waiters.isEmpty && count ≤ b.value.toNat then
    (s.onBeacon t i fun b => { b with value := b.value - BitVec.ofNat 32 count }).recordOp t i opTake count src at_
  else
    s.logEv stewardSrc BEACON_TAKE_MISS (tenantByte t) (leBytes 2 i.toNat ++ leBytes 2 count ++ leBytes 4 b.value.toNat)

/-! ## Replay (R359, R360) -/

/-- REPLAY_DIVERGE: the step ends, and REPLAY_START completes (R360). -/
def State.diverge (s : State) (t : Tenant) (seq : Nat) (reason : Byte) : State :=
  match (s.ctx t).replay with
  | none => s
  | some r =>
    if r.diverged then s
    else
      let step := match s.inst? r.layout with | some i => i.stepNo | none => 0
      let s1 := s.logEv stewardSrc REPLAY_DIVERGE (tenantByte t) (leBytes 8 step ++ leBytes 4 seq ++ [reason, 0, 0, 0])
      let s2 := s1.causeInst r.layout E_REPLAY_DIVERGE stewardSrc
      let s3 := s2.onCtx t fun c => { c with replay := some { r with diverged := true, cmd := none } }
      match r.cmd with
      | some id => s3.finishId id E_REPLAY_DIVERGE 0
      | none => s3

/-- Whether a record belongs to a step. -/
def ReplayRec.inStep (x : ReplayRec) (kind : Byte) (step : Nat) : Bool := x.kind = kind && x.step.toNat = step && !x.applied

/-- Fields of a BEACON record. -/
def ReplayRec.beacon (x : ReplayRec) : BitVec 12 := BitVec.ofNat 12 (leNat (x.payload.take 2))
def ReplayRec.op (x : ReplayRec) : Nat := (x.payload.getD 2 0).toNat
def ReplayRec.count (x : ReplayRec) : Nat := leNat ((x.payload.drop 4).take 2)
def ReplayRec.opSeq (x : ReplayRec) : Nat := leNat ((x.payload.drop 6).take 2)

/-- The step a replayed instance is in. -/
def State.replayStep (s : State) (r : Replay) : Nat := match s.inst? r.layout with | some i => i.stepNo | none => 0

/-- Marks the record at a list index as applied. -/
def State.markApplied (s : State) (t : Tenant) (n : Nat) : State :=
  s.onCtx t fun c => { c with replay := c.replay.map fun r =>
    { r with recs := r.recs.zipIdx.map fun p => if p.2 = n then { p.1 with applied := true } else p.1 } }

/-- Whether the context replays. -/
def State.replaying (s : State) (t : Tenant) : Bool :=
  match (s.ctx t).replay with
  | some r => !r.diverged
  | none => false

/-- Rewrites the completion-ring entry of a MEDIA record: of the context's first open session on the record's die whose kind the
source unit has (log entry 18). -/
def State.rewriteMedia (s : State) (t : Tenant) (x : ReplayRec) : State :=
  let md := srcDie x.src - 20
  let u := x.src.toNat % 1024
  let kind := if u < 16 then 1 else if u < 24 then 2 else if u < 32 then 3 else 4
  match s.media.sessions.find? fun e => e.1 / 512 = md && e.2.isOpen && e.2.tenant = t && e.2.kind = kind with
  | none => s
  | some (k, n) =>
    let entries := byteField n.params 12 4
    let va := byteField n.params 24 8 + (n.recs % entries) * 32
    let s1 := (s.vaWrite t (halfOf s.pkg.variant (20 + md)) va x.payload (stewardAccess x.src)).2
    { s1 with media := { s1.media with sessions := Map.upd {} s1.media.sessions k fun n => { n with recs := n.recs + 1 } } }

/-- Rewrites the receive entry and buffer of an ETH_RX record (Table LK-3). -/
def State.rewriteEth (s : State) (t : Tenant) (x : ReplayRec) : State :=
  let p : PortRef := { xd := Fin.ofNat 8 (xdNumber (srcDie x.src)), lane := Fin.ofNat 8 (x.src.toNat % 1024 - 32) }
  let g := (s.ethPort p).rx
  let half := halfOf s.pkg.variant (srcDie x.src)
  let va := g.baseHi.toNat * 2 ^ 32 + g.baseLo.toNat + (g.next.toNat % 2 ^ g.sizeLog2.toNat) * 32
  let entry := x.payload.take 32
  let buf := leNat (entry.take 8)
  let s1 := (s.vaWrite t half va entry (stewardAccess x.src)).2
  let s2 := (s1.vaWrite t half buf (((x.payload.drop 32)).take (leNat ((entry.drop 8).take 4))) (stewardAccess x.src)).2
  s2.onEth p fun e => { e with rx := { e.rx with next := e.rx.next + 1 } }

/-- Applies the MEDIA and ETH_RX records of the step that stand before a record (R359). -/
def State.rewriteInputs (s : State) (t : Tenant) (r : Replay) (upto : Nat) : State :=
  (r.recs.zipIdx.filter fun p => p.2 < upto && (p.1.inStep 5 (s.replayStep r) || p.1.inStep 6 (s.replayStep r))).foldl
    (fun a p => (if p.1.kind = 5 then a.rewriteMedia t p.1 else a.rewriteEth t p.1).markApplied t p.2) s

/-- Whether a recorded operation may be applied now: its OPSEQ is the next of its beacon, its source lies outside the context, a GRANT
finds its waiter at the head with enough VALUE, and on a FOLLOW its own event has occurred (R359, R364). -/
def State.opReady (s : State) (t : Tenant) (r : Replay) (x : ReplayRec) : Bool :=
  x.inStep 3 (s.replayStep r) && x.opSeq = Map.get 0 (s.ctx t).opSeqs x.beacon.toNat &&
    (if x.op = opGrant && !s.isCtxTile t x.src then x.count ≤ (s.beacon t x.beacon).value.toNat
    else if x.op = opGrant then
      match (s.beacon t x.beacon).waiters with
      | (w, n) :: _ => s.waiterSrc w = x.src && n.toNat ≤ (s.beacon t x.beacon).value.toNat
      | [] => false
    else !s.isCtxTile t x.src && (!r.follow || x.src = ledgerSrc || x.src = stewardSrc || r.own.contains x.src))

/-- Applies one recorded operation. A wait from outside the context only takes its place in the order, and its grant its COUNT. -/
def State.applyRecorded (s : State) (t : Tenant) (x : ReplayRec) : State :=
  let i := x.beacon
  if x.op = opGrant && !s.isCtxTile t x.src then
    (s.onBeacon t i fun b => { b with value := b.value - BitVec.ofNat 32 x.count }).recordOp t i opGrant x.count x.src
  else if x.op = opGrant then
    match (s.beacon t i).waiters with
    | (w, n) :: ws =>
      let s1 := s.onBeacon t i fun b => { b with value := b.value - n.setWidth 32, waiters := ws }
      (s1.recordOp t i opGrant n.toNat (s1.waiterSrc w)).deliverGrant t i n w
    | [] => s
  else if x.op = opTake then s.applyTake t i x.count x.src
  else if x.op = opSignal then (s.addSignal t i x.count x.src).recordOp t i opSignal x.count x.src
  else s.recordOp t i opWait x.count x.src

/-- Applies recorded operations until none is ready (R359). -/
def State.replayDrain : Nat → State → Tenant → State
  | 0, s, _ => s
  | k + 1, s, t =>
    match (s.ctx t).replay with
    | none => s
    | some r =>
      if r.diverged then s
      else match r.recs.zipIdx.find? fun p => s.opReady t r p.1 with
        | none => s
        | some (x, n) =>
          let s1 := s.rewriteInputs t r n
          let s2 := (s1.applyRecorded t x).markApplied t n
          let s3 := s2.onCtx t fun c => { c with replay := c.replay.map fun q => { q with own := q.own.erase x.src } }
          State.replayDrain k s3 t

/-- Runs the replay of a context as far as it goes. -/
def State.replayRun (s : State) (t : Tenant) : State :=
  match (s.ctx t).replay with
  | some r => State.replayDrain r.recs.length s t
  | none => s

/-- How a live operation of a tile stands in a replay: it goes on, waits for its turn, or diverges from a record (R359, R360). -/
inductive Gate where
  | go
  | wait
  | diverge (seq : Nat)
deriving DecidableEq, Repr

/-- The gate of a live tile operation. A place in the OPSEQ order without a record is a tile's (R355 records none of a tile). -/
def State.gate (s : State) (t : Tenant) (i : BitVec 12) (op count : Nat) (src : Src) : Gate :=
  match (s.ctx t).replay with
  | none => .go
  | some r =>
    if r.diverged then .go
    else
      match r.recs.find? fun x => x.inStep 3 (s.replayStep r) && x.beacon = i && x.opSeq = Map.get 0 (s.ctx t).opSeqs i.toNat with
      | none => .go
      | some x =>
        if x.src = src && x.op = op && x.count = count then .go
        else if x.op = opGrant || !s.isCtxTile t x.src then .wait
        else .diverge x.seq.toNat

/-- Withholds a live event of a source outside the grid during a replay and logs it; on a FOLLOW it is kept as the package's own event
(R359, R364). -/
def State.suppress (s : State) (t : Tenant) (src : Src) : State :=
  match (s.ctx t).replay with
  | some r =>
    if r.follow then
      (s.onCtx t fun c => { c with replay := some { r with own := r.own ++ [src] } }).replayRun t
    else s.logEv stewardSrc REPLAY_SUPPRESSED (tenantByte t) (leBytes 2 src.toNat ++ leBytes 2 0)
  | none => s

/-! ## Operations as they reach the store -/

/-- Sends a signal toward the store (R198). -/
def State.sendSignal (s : State) (t : Tenant) (i : BitVec 12) (count : Nat) (src : Src) : State :=
  { s with net := { s.net with ops := s.net.ops ++
    [{ tenant := t, gen := (s.ctx t).gen, beacon := i, count := BitVec.ofNat 16 count, src := src, wait := none, stamp := (s.arises src).2 }] } }

/-- Sends a wait toward the store. -/
def State.sendWait (s : State) (t : Tenant) (i : BitVec 12) (count : Nat) (src : Src) (w : Waiter) : State :=
  { s with net := { s.net with ops := s.net.ops ++
    [{ tenant := t, gen := (s.ctx t).gen, beacon := i, count := BitVec.ofNat 16 count, src := src, wait := some w, stamp := (s.arises src).2 }] } }

/-- Removes the operation with a number from those on their way. -/
def State.dropOp (s : State) (k : Nat) : State := { s with net := { s.net with ops := s.net.ops.eraseIdx k } }

/-- Whether no earlier operation of the same source on the same beacon is still on its way (R198). -/
def opFirst (ops : List BeaconOp) (k : Nat) (o : BeaconOp) : Bool :=
  (ops.take k).all fun x => !(x.src = o.src && x.beacon = o.beacon && x.tenant = o.tenant)

/-- BEACON_STALE (R202). -/
def State.logStale (s : State) (t : Tenant) (i : BitVec 12) (src : Src) (count : Nat) (gen : Byte) : State :=
  s.logEv stewardSrc BEACON_STALE (tenantByte t) (leBytes 2 i.toNat ++ leBytes 2 src.toNat ++ leBytes 2 count ++ [gen, 0])

/-- Whether a source's live events are withheld in a replay: those of media engines, Ethernet ports and the host. -/
def State.withheldSrc (s : State) (t : Tenant) (src : Src) : Bool :=
  s.replaying t && !s.isCtxTile t src && src != ledgerSrc && src != stewardSrc

/-- An operation reaches the store. -/
def State.storeOp (s : State) (k : Nat) (o : BeaconOp) : State :=
  let t := o.tenant
  let c := s.ctx t
  if !c.isOpen || c.gen ≠ o.gen then (s.dropOp k).logStale t o.beacon o.src o.count.toNat o.gen
  else if s.withheldSrc t o.src && o.wait.isNone then (s.dropOp k).suppress t o.src
  else
    let op := match o.wait with | none => opSignal | some _ => opWait
    match s.gate t o.beacon op o.count.toNat o.src with
    | .wait => s
    | .diverge q => (s.dropOp k).diverge t q 0
    | .go =>
      let s1 := s.dropOp k
      let s2 :=
        if s.replaying t then
          match o.wait with
          | none => (s1.addSignal t o.beacon o.count.toNat o.src).recordOp t o.beacon opSignal o.count.toNat o.src (srcDie o.src, o.stamp)
          | some w => (s1.recordOp t o.beacon opWait o.count.toNat o.src (srcDie o.src, o.stamp)).onBeacon t o.beacon fun b =>
              { b with waiters := b.waiters ++ [(w, o.count)] }
        else
          match o.wait with
          | none => s1.applySignal t o.beacon o.count.toNat o.src (srcDie o.src, o.stamp)
          | some w => s1.applyWait t o.beacon o.count w (srcDie o.src, o.stamp)
      s2.replayRun t

/-- BEACON_SIGNAL: a signal on its way reaches the store. -/
def State.beaconSignal (s : State) (k : Nat) : State :=
  match s.net.ops[k]? with
  | some o => if s.alive && o.wait.isNone && opFirst s.net.ops k o then s.storeOp k o else s
  | none => s

/-- BEACON_SIGNAL (R197). -/
def execBeaconSignal (k : Nat) (s : State) : Res := .next (s.beaconSignal k)

/-- BEACON_WAIT: a wait on its way reaches the store. -/
def State.beaconWait (s : State) (k : Nat) : State :=
  match s.net.ops[k]? with
  | some o => if s.alive && o.wait.isSome && opFirst s.net.ops k o then s.storeOp k o else s
  | none => s

/-- BEACON_WAIT (R197). -/
def execBeaconWait (k : Nat) (s : State) : Res := .next (s.beaconWait k)

/-! ## BEACON_CONFIG (R200) and pending notifications (R310) -/

/-- BEACON_CONFIG. -/
def State.beaconConfig (f : Started) (s : State) : State :=
  let t := f.tenant
  if 4096 ≤ f.p 20 2 || 3 < f.p 22 1 || !s.vectorOk (.vf t) (f.p 28 2) then s.fail f E_BAD_FIELD
  else
    (s.onBeacon t (BitVec.ofNat 12 (f.p 20 2)) fun b =>
      { b with mode := BitVec.ofNat 2 (f.p 22 1), thresh := BitVec.ofNat 32 (f.p 24 4), vector := BitVec.ofNat 11 (f.p 28 2) }).done f

/-- BEACON_CONFIG. -/
def execBeaconConfig (c : Serve) (s : State) : Res := .next (s.serve c 0x17 State.beaconConfig)

/-- PENDING_NOTIFICATION: the first pending notification takes a free entry. -/
def State.pendingNotification (s : State) (t : Tenant) : State :=
  match (s.ctx t).notes with
  | n :: ns =>
    if s.alive && 0 < s.freeEntries (.ctx t) && !s.host.safePending then (s.onCtx t fun c => { c with notes := ns }).noteEntry t n else s
  | [] => s

/-- PENDING_NOTIFICATION (R310). -/
def execPendingNotification (t : Tenant) (s : State) : Res := .next (s.pendingNotification t)

/-! ## Beacon doorbells (R201, R304) -/

/-- DOORBELL_BAD (Table IG-5): the BAR0 offset and the value as written. -/
def State.logDoorbellBad (s : State) (tenant : Byte) (offset : Nat) (value : Nat) : State :=
  s.logEv stewardSrc DOORBELL_BAD tenant (leBytes 4 offset ++ leBytes 4 0 ++ leBytes 8 value)

/-- BAR0 offset of a context page register (Table HL-3). -/
def ctxOffset (t : Tenant) (o : Nat) : Nat := 0x01000000 + 0x10000 * t.val + o

/-- CFG_HOST_RO: a PF's write to a context page is ignored and logged (R302). -/
def State.cfgHostRo (s : State) (f : Fn) (t : Tenant) (offset value : Nat) : State :=
  s.logEv (s.fnSrc f) CFG_HOST_RO (tenantByte t) (leBytes 4 offset ++ leBytes 4 (value % 2 ^ 32))

/-- Whether a function writes its own context page (R302). -/
def ownPage (f : Fn) (t : Tenant) : Bool := f = .vf t

/-- Whether a PF sees a tenant's context page, read-only. -/
def seesPage (f : Fn) (t : Tenant) : Bool :=
  match f with
  | .pf0 => true
  | .pf1 => 8 ≤ t.val
  | .vf u => u = t

/-- Whether a PCIe access of a function reaches the package. -/
def State.fnLive (s : State) (f : Fn) : Bool :=
  s.alive && s.host.linkUp.getLsbD (s.fnPort f) &&
    (match f with
      | .vf t => s.host.vfEnabled.getLsbD t.val
      | .pf0 => true
      | .pf1 => s.host.straps.hostBif)

/-- A write to BEACON_DB: checks of R201 and R304, then the operation. The write is an event of the I/O die that accepts it (R50). -/
def State.beaconDoorbell (s : State) (f : Fn) (t : Tenant) (size : Nat) (value : DWord) (op : Nat) : State :=
  let off := ctxOffset t 0x0800
  if !s.fnLive f then s
  else if !ownPage f t then (if seesPage f t then s.cfgHostRo f t off value.toNat else s.noTarget f off)
  else if size = 8 && bitsOf value 32 32 = 0 && bitsOf value 28 4 ≤ 1 && bitsOf value 28 4 ≠ op then s
  else
    let p := portDie (s.fnPort f)
    let s := s.doorbellEvent (s.fnPort f)
    let c := s.ctx t
    let count := bitsOf value 0 16
    let i := BitVec.ofNat 12 (bitsOf value 16 12)
    if size ≠ 8 || bitsOf value 32 32 ≠ 0 || 1 < bitsOf value 28 4 || count = 0 || !c.isOpen || c.closing then
      s.logDoorbellBad (tenantByte t) off value.toNat
    else if s.replaying t then s.suppress t hostSrc
    else if op = opSignal then s.applySignal t i count hostSrc (p, s.localGts p)
    else s.applyTake t i count hostSrc (p, s.localGts p)

/-- DOORBELL_SIGNAL (R201). -/
def execDoorbellSignal (f : Fn) (t : Tenant) (size : Nat) (value : DWord) (s : State) : Res :=
  .next (s.beaconDoorbell f t size value 0)

/-- DOORBELL_TAKE (R201). -/
def execDoorbellTake (f : Fn) (t : Tenant) (size : Nat) (value : DWord) (s : State) : Res :=
  .next (s.beaconDoorbell f t size value 1)

end Sys2Proof.Machine
end

