-- ==== Sys2Proof/Machine/Ledger.lean ====
section
/-! DEFINITION. The ledger: stream records and handles (R273 to R277), binding (R278, R279), composition (R280 to R284), closing (R285),
placement (R286). -/

namespace Sys2Proof.Machine

open Sys2Proof

/-! ## B-tile words -/

/-- Writes bytes of a B-tile; every word that is written whole carries good check bits from then on, and a
write-back that waits for it is cancelled (R104, R123, R124). -/
def BState.put (b : BState) (off : Nat) (bs : List Byte) : BState :=
  let words := (List.range (bs.length / 8)).map fun i => off / 8 * 8 + 8 * i
  { b with mem := Memory.write b.mem off bs, bad := words.foldl (fun m w => Map.del m w) b.bad
           writeBacks := b.writeBacks.filter fun w => !words.contains w }

/-- Offset of the descriptor of an inbound endpoint (R188). -/
def epDesc (e : Nat) : Nat := 786176 + 32 * e

/-- RD or TAKEN is latched again from every write to its word (R189, R194). -/
def InEp.relatch (mem : Memory) (off n : Nat) (e : Nat) (i : InEp) : InEp :=
  let a := epDesc e + 24
  if off < a + 8 && a < off + n then
    let w := BitVec.ofNat 32 (mem.num a 4)
    { i with ring := i.ring.map fun r => { r with rd := w }, tally := i.tally.map fun r => { r with taken := w } }
  else i

/-- Writes bytes of the B-tile at a site. -/
def State.btPut (s : State) (x : Site) (off : Nat) (bs : List Byte) : State :=
  s.onTile x fun t =>
    let b := t.b.put off bs
    { t with b := b, ins := if 786176 < off + bs.length then t.ins.map fun (e : Nat × InEp) => (e.1, e.2.relatch b.mem off bs.length e.1) else t.ins }

/-! ## ECC (R123 to R125) -/

/-- The bank of an offset. -/
def bankOf (off : Nat) : Nat := off / 64 % 16

/-- Marks a word with an error. -/
def BState.upset (b : BState) (u : Upset) : BState :=
  let w := u.off / 8 * 8
  if Map.look b.bad w = some .ue then b else { b with bad := Map.put b.bad w u.kind }

/-- Upsets of stored bits come about. -/
def State.upsetBt (s : State) (x : Site) (us : List Upset) : State :=
  s.onTile x fun t => { t with b := us.foldl BState.upset t.b }

/-- BT_ECC_CE and BT_ECC_UE (Table IG-5). -/
def State.logBtEcc (s : State) (x : Site) (code : BitVec 16) (off : Nat) (requester : Src) : State :=
  s.logTile x code (leBytes 4 off ++ leBytes 2 requester.toNat ++ [BitVec.ofNat 8 (bankOf off), 0])

/-- Counts an uncorrectable error of a site; at the second, SITE_SUSPECT is logged once (R371). -/
def State.countUe (s : State) (x : Site) : State :=
  let n := (s.tile x).ueCount + 1
  let s1 := s.onTile x fun t => { t with ueCount := n }
  if n = 2 then
    s1.emitAt 24 { stamp := s.localGts 24, src := siteSrc x,
                   body := .log SITE_SUSPECT (severityOf SITE_SUSPECT) (optTenant (s.ownerOf x)) [2] }
  else s1

/-- The check of one word at a read: true when it cannot be corrected. -/
def State.checkWord (s : State) (x : Site) (w : Nat) (requester : Src) : Bool × State :=
  match Map.look (s.tile x).b.bad w with
  | none => (false, s)
  | some .ce =>
    (false, (s.onTile x fun t =>
      { t with b := { t.b with eccCe := true, ceCount := addSat t.b.ceCount 1,
                               writeBacks := if t.b.writeBacks.contains w then t.b.writeBacks else t.b.writeBacks ++ [w] } }).logBtEcc
        x BT_ECC_CE w requester)
  | some .ue =>
    (true, ((s.onTile x fun t =>
      { t with b := { t.b with eccUe := true, ueOffset := if t.b.eccUe then t.b.ueOffset else BitVec.ofNat 20 w } }).logBtEcc
        x BT_ECC_UE w requester).countUe x)

/-- The words of a byte range that hold an error. -/
def BState.badIn (b : BState) (off n : Nat) : List Nat :=
  (b.bad.map (·.1)).filter fun w => off < w + 8 && w < off + n

/-- Reads bytes with the checks of every word: the bytes, whether a word is uncorrectable, the state after. -/
def State.btRead (s : State) (x : Site) (off n : Nat) (requester : Src) : List Byte × Bool × State :=
  let r := ((s.tile x).b.badIn off n).foldl (fun a w => let y := a.2.checkWord x w requester; (a.1 || y.1, y.2)) (false, s)
  (Memory.read (s.tile x).b.mem off n, r.1, r.2)

/-- Whether the word at an offset holds an error that ECC cannot correct. -/
def BState.poisoned (b : BState) (off : Nat) : Bool := Map.look b.bad (off / 8 * 8) = some .ue

/-- Reads bytes for a unit that no rule stops at an uncorrectable word: the ledger at a report, an endpoint at its descriptor. The words that
cannot be corrected deliver no data, and their bytes are free values (R123, R125; log entry 87). -/
def State.btTake (s : State) (x : Site) (off n : Nat) (requester : Src) : List Byte × State :=
  let r := s.btRead x off n requester
  if r.2.1 then
    (r.1.zipIdx.map fun y => if (s.tile x).b.poisoned (off + y.2) then Config.freeByte r.2.2.freeCount y.2 else y.1,
      { r.2.2 with freeCount := r.2.2.freeCount + 1 })
  else (r.1, r.2.2)

/-! ## Handles and records -/

/-- The handle of a record (R273). -/
def streamHandle (n : Nat) (st : Stream) : Nat := n + st.gen.toNat * 2 ^ 24

/-- The record that a handle names in a context (R273). -/
def State.streamOf (s : State) (t : Tenant) (h : Nat) : Option Nat :=
  let n := h % 2 ^ 21
  let st := s.stream n
  if h / 2 ^ 21 % 8 = 0 ∧ st.state ≠ 0 ∧ st.gen.toNat = h / 2 ^ 24 ∧ st.tenant = tenantByte t then some n else none

/-- Record states (Table SL-1). -/
def stFree : Byte := 0
def stIdle : Byte := 1
def stReady : Byte := 2
def stBatched : Byte := 3
def stDone : Byte := 4
def stFailed : Byte := 5

/-- A stream record as STREAM_QUERY returns it (Table SL-1). -/
def streamRecord (x : Stream) : List Byte :=
  let queue := (List.range 8).flatMap fun k =>
    leBytes 16 (match x.inputs[(k + 8 - x.inHead) % 8]? with | some d => d.toNat | none => 0)
  padTo 256 ([x.state, x.tenant, x.gen, (if x.closePending then 1 else 0) ||| (if x.readyAtOpen then 2 else 0), x.model, x.lastLayout] ++
    leBytes 2 x.lastSlot.toNat ++ leBytes 4 x.position.toNat ++ leBytes 4 x.steps.toNat ++ leBytes 4 x.stepLimit.toNat ++
    leBytes 2 x.failStatus.toNat ++ leBytes 2 x.failCode.toNat ++ leBytes 8 x.deadline.toNat ++ leBytes 8 x.readyGts.toNat ++
    leBytes 2 x.readySource.toNat ++ [x.aborts, BitVec.ofNat 8 x.inputs.length, BitVec.ofNat 8 x.inHead, 0, 0, 0] ++
    leBytes 4 x.user.toNat ++ leBytes 4 x.waited.toNat ++ leBytes 8 x.openGts.toNat ++ queue)

/-- The order of events by stamp, then by source (R51). -/
def keyLt (a b : DWord × Src) : Bool := a.1.toNat < b.1.toNat || (a.1 = b.1 && a.2.toNat < b.2.toNat)

/-- A stream has become READY: an instance of its MODEL whose last composition was empty composes again with the stream's ready key as cut-off
(R284). -/
def State.rearm (s : State) (n : Nat) : State :=
  let st := s.stream n
  { s with insts := s.insts.map fun e =>
      match e.2.binding with
      | some b =>
        if e.2.composing && tenantByte e.2.tenant = st.tenant && b.model = st.model then
          (e.1, { e.2 with composing := false, cutoff := some (st.readyGts, st.readySource) })
        else e
      | none => e }

/-- A stream becomes READY with a key (R277). -/
def State.makeReady (s : State) (n : Nat) (key : DWord × Src) : State :=
  (s.onStream n fun x => { x with state := stReady, readyGts := key.1, readySource := key.2 }).rearm n

/-- Frees a record (R285). -/
def State.freeStream (s : State) (n : Nat) : State :=
  let cmd := (s.stream n).closeCmd
  let s1 := s.onStream n fun x => { gen := x.gen + 1 }
  match cmd with
  | some id => s1.finishId id OK 0
  | none => s1

/-- Puts an input at the tail of a stream's queue; an IDLE stream becomes READY (R275, R277). -/
def State.pushInput (s : State) (n : Nat) (d : BitVec 128) (key : DWord × Src) : State :=
  let st := s.stream n
  let s1 := s.onStream n fun x => { x with inputs := x.inputs ++ [d] }
  if st.state = stIdle then s1.makeReady n key else s1

/-! ## The event ring (R283) -/

/-- An event-ring entry (Table SL-6), and the signal of EVENT_BEACON. -/
def State.eventEntry (s : State) (l : BitVec 8) (kind : Byte) (status : Status) (handle : Nat) (step : Nat) (position : Word)
    (code : BitVec 16) : State :=
  match s.inst? l with
  | none => s
  | some i =>
    match i.binding with
    | none => s
    | some b =>
      if s.host.safePending then s
      else
        let e := [kind, l] ++ leBytes 2 status.toNat ++ leBytes 4 handle ++ leBytes 8 s.clk.gts.toNat ++ leBytes 8 step ++
          leBytes 4 position.toNat ++ leBytes 2 code.toNat ++ leBytes 2 0
        let va := b.eventVa.toNat + (i.eventCount % b.eventEntries) * 32
        let s1 := (s.vaWrite i.tenant 0 va e (stewardAccess ledgerSrc)).2
        let s2 := s1.onInst l fun i => { i with eventCount := i.eventCount + 1 }
        s2.applySignal i.tenant b.eventBeacon 1 ledgerSrc

/-- A stream becomes DONE or FAILED, with its event-ring entry. -/
def State.endStream (s : State) (l : BitVec 8) (step n : Nat) (state : Byte) (status : Status) (code : BitVec 16) : State :=
  let s1 := s.onStream n fun x => { x with state := state, failStatus := status, failCode := code }
  let st := s1.stream n
  let s2 := s1.eventEntry l (if state = stDone then 1 else 2) status (streamHandle n st) step st.position code
  if st.closePending then s2.freeStream n else s2

/-! ## Commands on streams -/

/-- Open streams that a tenant holds (R274). -/
def State.openStreams (s : State) (t : Tenant) : Nat :=
  (s.streams.filter fun e => e.2.state ≠ stFree && e.2.tenant = tenantByte t).length

/-- The lowest free record (R274). -/
def State.freeRecord (s : State) : Option Nat :=
  (List.range (min (s.streams.length + 1) 2097152)).find? fun n => (s.stream n).state = stFree

/-- OPEN_STREAM. -/
def State.openStream (f : Started) (s : State) : State :=
  let t := f.tenant
  if 1 < f.p 21 1 then s.fail f E_BAD_FIELD
  else if (s.ctx t).streamQuota ≤ s.openStreams t then s.fail f E_STREAM_QUOTA
  else match s.freeRecord with
    | none => s.fail f E_STREAM_QUOTA
    | some n =>
      let rdy := f.p 21 1 = 1
      let x : Stream :=
        { state := stIdle, tenant := tenantByte t, gen := (s.stream n).gen, readyAtOpen := rdy, model := BitVec.ofNat 8 (f.p 20 1),
          stepLimit := BitVec.ofNat 32 (f.p 24 4), user := BitVec.ofNat 32 (f.p 28 4), deadline := BitVec.ofNat 64 (f.p 32 8),
          openGts := s.clk.gts }
      let s1 := s.onStream n fun _ => x
      let s2 := if rdy then s1.makeReady n (s.clk.gts, hostSrc) else s1
      s2.finish f OK (streamHandle n x)

/-- OPEN_STREAM (R274, R277). -/
def execOpenStream (c : Serve) (s : State) : Res := .next (s.serve c 0x11 State.openStream)

/-- CLOSE_STREAM: at once, or at the composition that frees a BATCHED stream (R285). -/
def State.closeStream (f : Started) (s : State) : State :=
  match s.streamOf f.tenant (f.p 20 4) with
  | none => s.fail f E_STREAM_HANDLE
  | some n =>
    if (s.stream n).state = stBatched then
      s.onStream n fun x => { x with closePending := true, closeCmd := some f.id }
    else (s.freeStream n).done f

/-- CLOSE_STREAM (R285). -/
def execCloseStream (c : Serve) (s : State) : Res :=
  .next (s.serve c 0x12 fun f s =>
    match s.streamOf f.tenant (f.p 20 4) with
    | some n => if (s.stream n).closeCmd = some f.id then s else State.closeStream f s
    | none => State.closeStream f s)

/-- Whether a context is the FOLLOW of a twin binding (R364). -/
def State.isFollow (s : State) (t : Tenant) : Bool :=
  s.links.twin.bound && s.links.twin.tenant = some t && s.links.twin.follow

/-- STREAM_INPUT. -/
def State.streamInput (f : Started) (s : State) : State :=
  match s.streamOf f.tenant (f.p 20 4) with
  | none => s.fail f E_STREAM_HANDLE
  | some n =>
    let st := s.stream n
    let d := BitVec.ofNat 128 (f.p 32 16)
    if s.isFollow f.tenant then s.fail f E_TWIN_STATE
    else if bitsOf d 48 16 ≠ 0 then s.fail f E_BAD_FIELD
    else if st.state = stDone || st.state = stFailed || st.closePending then s.fail f E_STREAM_STATE
    else if 8 ≤ st.inputs.length then s.fail f E_STREAM_INPUT_FULL
    else (s.pushInput n d (s.clk.gts, hostSrc)).done f

/-- STREAM_INPUT (R276). -/
def execStreamInput (c : Serve) (s : State) : Res := .next (s.serve c 0x13 State.streamInput)

/-- STREAM_QUERY (R274). -/
def execStreamQuery (c : Serve) (s : State) : Res :=
  .next (s.serve c 0x14 fun f s =>
    match s.streamOf f.tenant (f.p 20 4) with
    | none => s.fail f E_STREAM_HANDLE
    | some n => s.finishResult f c.resultOk OK 0 (streamRecord (s.stream n)))

/-- SET_PLACEMENT. -/
def State.setPlacement (f : Started) (s : State) : State :=
  if s.isFollow f.tenant then s.fail f E_TWIN_STATE
  else if 1 < f.p 20 1 || (f.p 20 1 = 1 && f.p 21 1 = 0) then s.fail f E_BAD_FIELD
  else
    (s.onCtx f.tenant fun c =>
      { c with placement := if f.p 20 1 = 0 then .firstFree else .affinity (BitVec.ofNat 8 (f.p 21 1)) }).done f

/-- SET_PLACEMENT (R286). -/
def execSetPlacement (c : Serve) (s : State) : Res := .next (s.serve c 0x16 State.setPlacement)

/-! ## LEDGER_BIND (R278, R279) -/

/-- Bytes of a descriptor and of a report buffer (R280). -/
def descBytes (b : Binding) : Nat := 64 + 32 * b.batchMax
def reportBytes (b : Binding) : Nat := 16 + 8 * b.batchMax

/-- The buffers of a block: DPA and bytes of each pair. -/
def Binding.buffers (b : Binding) : List (Nat × Nat) :=
  (b.descDpas.map fun d => (d.toNat, 2 * roundUp (descBytes b) 64)) ++ [(b.reportDpa.toNat, 2 * roundUp (reportBytes b) 64)]

/-- A binding block from its 128 bytes (Table SL-3), with LAYOUT_ID, DESC_COPIES, EVENT_ENTRIES and whether the reserved bytes are zero. -/
def parseBinding (bs : List Byte) : Binding × Nat × Nat × Bool :=
  let w : BitVec 1024 := BitVec.ofNat 1024 (leNat (bs.take 128))
  let copies := byteField w 8 1
  ({ model := BitVec.ofNat 8 (byteField w 1 1), batchMax := byteField w 2 2,
     reportBeacon := BitVec.ofNat 12 (byteField w 4 2), eventBeacon := BitVec.ofNat 12 (byteField w 6 2),
     descDpas := (List.range (min copies 4)).map fun i => BitVec.ofNat 64 (byteField w (16 + 8 * i) 8),
     reportDpa := BitVec.ofNat 64 (byteField w 48 8), eventVa := BitVec.ofNat 64 (byteField w 56 8), eventEntries := byteField w 64 4 },
   byteField w 0 1, copies,
   byteField w 9 7 = 0 && byteField w 68 60 = 0 && byteField w 4 2 < 4096 && byteField w 6 2 < 4096 &&
     (List.range 4).all fun i => i < copies || byteField w (16 + 8 * i) 8 = 0)

/-- Whether a number is a power of two. -/
def isPow2 (n : Nat) : Bool := n ≠ 0 && 2 ^ Nat.log2 n = n

/-- Whether two ranges overlap. -/
def overlaps (a b : Nat × Nat) : Bool := a.1 < b.1 + b.2 && b.1 < a.1 + a.2

/-- The ledger begins to compose an instance (R278). A step that runs already is waited for; a STEP whose next step has not begun makes this its
cut-off (log entry 90). -/
def State.firstBind (s : State) (i : Instance) (b : Binding) : State :=
  let wait := fun (s : State) => s.applyWait i.tenant b.reportBeacon 1 (.ledger i.id)
  let s1 := s.onInst i.id fun i =>
    { i with binding := some b, cutoff := if !i.run.running && i.stepCmd.isSome then some (s.clk.gts, stewardSrc) else i.cutoff }
  if !i.run.running then s1 else if i.run.nextStart.isSome then wait (wait s1) else wait s1

/-- LEDGER_BIND: the block is read and checked; on an instance that is bound, it takes effect at the next composition. -/
def State.ledgerBind (f : Started) (s : State) : State :=
  let t := f.tenant
  match s.inst? (BitVec.ofNat 8 (f.p 20 1)) with
  | none => s.fail f E_LAYOUT_ID
  | some i =>
    if i.tenant ≠ t || !i.loaded then s.fail f E_LAYOUT_ID
    else match s.vaRead t 0 (f.p 24 8) 128 (stewardAccess ledgerSrc) with
      | (none, s1) => s1.fail f E_BAD_FIELD
      | (some (bs, _), s1) =>
        let p := parseBinding bs
        let b := p.1
        let copies := p.2.2.1
        let fits := b.buffers.all fun q => q.1 % 64 = 0 && q.1 % 2 ^ 20 + q.2 ≤ btBytes
        let siteOfDpa := fun d : Nat => btSite (d / 2 ^ 32 % 16) (d / 2 ^ 20 % 128)
        let placed := b.buffers.all fun q =>
          q.1 / 2 ^ 40 = 1 && q.1 / 2 ^ 36 % 16 = 0 && q.1 / 2 ^ 27 % 32 = 0 && s.inRegion t (siteOfDpa q.1) &&
            bitAt i.dieMask (q.1 / 2 ^ 32 % 16) && !s.isFused (siteOfDpa q.1)
        let clash := match i.binding with
          | some o => i.run.running && b.buffers.any fun q => o.buffers.any fun r => overlaps q r
          | none => false
        if p.2.1 ≠ f.p 20 1 || !p.2.2.2 || b.batchMax = 0 || 1024 < b.batchMax || copies = 0 || 4 < copies ||
            b.eventEntries < 16 || 65536 < b.eventEntries || !isPow2 b.eventEntries || !fits then s1.fail f E_BAD_FIELD
        else if !placed then s1.fail f E_REGION
        else if clash then s1.fail f E_BAD_FIELD
        else
          (match i.binding with
            | none => s1.firstBind i b
            | some _ => s1.onInst i.id fun i => { i with nextBinding := some b }).done f

/-- LEDGER_BIND (R278). -/
def execLedgerBind (c : Serve) (s : State) : Res := .next (s.serve c 0x15 State.ledgerBind)

/-! ## Composition (R282) -/

/-- The site and offset of a buffer for a step (R280). -/
def bufferAt (dpa : DWord) (bytes step : Nat) : Site × Nat :=
  (btSite (dpa.toNat / 2 ^ 32 % 16) (dpa.toNat / 2 ^ 20 % 128), dpa.toNat % 2 ^ 20 + (step % 2) * roundUp bytes 64)

/-- How a batched stream goes on after a stage. -/
inductive Fate where
  | kept
  | idle
  | done
  | failed (status : Status) (code : BitVec 16)
  | freed
deriving DecidableEq, Repr

/-- Stage 1: what a verdict makes of a stream; one that has failed since its batch was made stays so (R276, R282; log entry 74). -/
def verdictFate (x : Stream) (bad : Bool) (verdict : Nat) (code : BitVec 16) : Fate :=
  if bad then .failed E_STREAM_REPORT 0
  else match verdict with
    | 0 => .kept
    | 1 => if x.inputs.isEmpty then .idle else .kept
    | 2 => .done
    | _ => .failed E_STREAM_FAIL code

/-- Stage 2: what the limits make of a kept stream. -/
def limitFate (x : Stream) (cutoff : DWord) : Fate :=
  if x.closePending then .freed
  else if x.stepLimit ≠ 0 ∧ x.stepLimit.toNat ≤ x.steps.toNat then .failed E_STREAM_STEP_LIMIT 0
  else if x.deadline ≠ 0 ∧ x.deadline.toNat ≤ cutoff.toNat then .failed E_STREAM_DEADLINE 0
  else .kept

/-- What composition carries from stage to stage: the state, the batch so far, how many left, joined. -/
structure Composing where
  st : State
  batch : Map Slot
  left : Nat
  joined : List Nat

/-- A slot's stream leaves the batch. -/
def Composing.leave (a : Composing) (k : Nat) (st : State) : Composing := { a with st := st, batch := Map.del a.batch k, left := a.left + 1 }

/-- A slot's stream goes on as a stage says. -/
def Composing.apply (l : BitVec 8) (step : Nat) (a : Composing) (e : Nat × Slot) (s : State) : Fate → Composing
  | .kept => { a with st := s }
  | .idle =>
    let s1 := s.onStream e.2.stream fun x => { x with state := stIdle }
    a.leave e.1 (if (s1.stream e.2.stream).closePending then s1.freeStream e.2.stream else s1)
  | .done => a.leave e.1 (s.endStream l step e.2.stream stDone OK 0)
  | .failed status code => a.leave e.1 (s.endStream l step e.2.stream stFailed status code)
  | .freed => a.leave e.1 (s.freeStream e.2.stream)

/-- Stage 1 for one slot of the step that reported: ADVANCE and STEPS, then the verdict. A record that is another stream's by now is left
alone. -/
def composeVerdict (l : BitVec 8) (step : Nat) (report : List Byte) (a : Composing) (e : Nat × Slot) : Composing :=
  let k := e.1
  let n := e.2.stream
  if streamHandle n (a.st.stream n) ≠ e.2.handle.toNat then a.leave k a.st
  else
    let ent := leNat ((report.drop (16 + 8 * k)).take 8)
    let bad := leNat (report.take 8) ≠ step || ent / 8 % 2 ^ 13 ≠ 0 || 3 < ent % 8
    let s1 := if bad then
        a.st.logEv ledgerSrc LEDGER_REPORT (a.st.stream n).tenant ([l, 0] ++ leBytes 2 k ++ leBytes 4 0 ++ leBytes 8 step)
      else a.st
    let s2 := s1.onStream n fun x =>
      { x with position := x.position + BitVec.ofNat 32 (ent / 2 ^ 32), steps := x.steps + 1, lastSlot := BitVec.ofNat 16 k, lastLayout := l }
    if (s2.stream n).state ≠ stBatched then a.leave k s2
    else a.apply l step e s2 (verdictFate (s2.stream n) bad (ent % 8) (BitVec.ofNat 16 (ent / 2 ^ 16)))

/-- Stage 2 for one slot that is kept. -/
def composeLimit (l : BitVec 8) (step : Nat) (cutoff : DWord) (a : Composing) (e : Nat × Slot) : Composing :=
  a.apply l step e a.st (limitFate (a.st.stream e.2.stream) cutoff)

/-- Takes a stream's oldest input for its entry. -/
def Stream.takeInput (x : Stream) : Stream :=
  { x with inputs := x.inputs.drop 1, inHead := if x.inputs.isEmpty then x.inHead else (x.inHead + 1) % 8 }

/-- Stage 3 for one slot that is kept: its oldest input moves into its entry; a slot beyond BATCH_MAX is given up, and its stream is READY with its
old ready key (R279). -/
def composeKeep (newMax : Nat) (a : Composing) (e : Nat × Slot) : Composing :=
  let n := e.2.stream
  let x := a.st.stream n
  if e.1 < newMax then
    { a with st := a.st.onStream n Stream.takeInput
             batch := Map.put a.batch e.1 { stream := n, handle := BitVec.ofNat 32 (streamHandle n x), input := x.inputs.head? } }
  else a.leave e.1 ((a.st.onStream n fun x => { x with state := stReady }).rearm n)

/-- Stages 1 to 3 on the batch of the step that reported, under the block of that step. -/
def composeOld (l : BitVec 8) (old : Binding) (newMax step : Nat) (cutoff : DWord) (a : Composing) : Composing :=
  let r := bufferAt old.reportDpa (reportBytes old) step
  let rep := a.st.btTake r.1 r.2 (reportBytes old) ledgerSrc
  let a1 := a.batch.foldl (composeVerdict l step rep.1) { a with st := rep.2 }
  let a2 := a1.batch.foldl (composeLimit l step cutoff) a1
  a2.batch.foldl (composeKeep newMax) a2

/-- Whether the placement policy admits a READY stream to an instance (R286). -/
def State.admits (s : State) (t : Tenant) (l : BitVec 8) (x : Stream) : Bool :=
  match (s.ctx t).placement with
  | .firstFree => true
  | .affinity n =>
    x.lastLayout = 0xFF || (s.inst? x.lastLayout).isNone || x.lastLayout = l || n.toNat ≤ x.waited.toNat

/-- Inserts by ready key. -/
def insertByKey (s : State) (n : Nat) : List Nat → List Nat
  | [] => [n]
  | m :: ms =>
    if keyLt ((s.stream n).readyGts, (s.stream n).readySource) ((s.stream m).readyGts, (s.stream m).readySource) then n :: m :: ms
    else m :: insertByKey s n ms

/-- The streams that may join, in ready-key order: READY, of the MODEL, with a key before the cut-off (or equal to it where the cut-off
is the stream's own ready event, R284; log entry 19), admitted. -/
def State.joiners (s : State) (t : Tenant) (l : BitVec 8) (model : Byte) (cutoff : DWord × Src) (again : Bool) : List Nat :=
  ((s.streams.filter fun e =>
      e.2.state = stReady && e.2.tenant = tenantByte t && e.2.model = model &&
        (keyLt (e.2.readyGts, e.2.readySource) cutoff || (again && (e.2.readyGts, e.2.readySource) = cutoff)) &&
        s.admits t l e.2).map (·.1)).foldl (fun a n => insertByKey s n a) []

/-- The lowest free slot below BATCH_MAX. -/
def freeSlot (batch : Map Slot) (max : Nat) : Option Nat := (List.range max).find? fun k => (Map.look batch k).isNone

/-- Stage 4 for one stream. -/
def composeJoin (l : BitVec 8) (max : Nat) (a : Composing) (n : Nat) : Composing :=
  let x := a.st.stream n
  let last := x.lastSlot.toNat
  let own := x.lastLayout = l && last < max && (Map.look a.batch last).isNone
  match if own then some last else freeSlot a.batch max with
  | none => a
  | some k =>
    let same := own && (match a.st.inst? l with | some i => Map.get 0 i.slotHolders k = n + 1 | none => false)
    let d := x.inputs.head?
    let s1 := a.st.onStream n fun x =>
      { x.takeInput with state := stBatched, lastLayout := l, lastSlot := BitVec.ofNat 16 k, waited := 0, sameSlot := same }
    let s2 := s1.onInst l fun i => { i with slotHolders := Map.set 0 i.slotHolders k (n + 1) }
    { a with st := s2, batch := Map.put a.batch k { stream := n, handle := BitVec.ofNat 32 (streamHandle n x), input := d },
             joined := n :: a.joined }

/-- An entry of the batch descriptor (Table SL-4). -/
def descEntry (s : State) (batch : Map Slot) (joined : List Nat) (k : Nat) : List Byte :=
  match Map.look batch k with
  | none => List.replicate 32 0
  | some e =>
    let x := s.stream e.stream
    let j := joined.contains e.stream
    let flags := 1 + (if j then 2 else 0) + (if j && x.sameSlot then 4 else 0) + (if e.input.isSome then 8 else 0)
    leBytes 4 e.handle.toNat ++ leBytes 2 flags ++ leBytes 2 0 ++ leBytes 4 x.position.toNat ++ leBytes 4 x.user.toNat ++
      leBytes 16 (match e.input with | some d => d.toNat | none => 0)

/-- The batch descriptor (Table SL-4). -/
def descriptor (s : State) (b : Binding) (step : Nat) (batch : Map Slot) (joined : List Nat) (left : Nat) (cutoff : DWord × Src) : List Byte :=
  padTo 64 (leBytes 8 step ++ leBytes 2 batch.length ++ leBytes 2 b.batchMax ++ leBytes 2 joined.length ++ leBytes 2 left ++
    leBytes 8 cutoff.1.toNat ++ leBytes 2 cutoff.2.toNat) ++
    (List.range b.batchMax).flatMap (descEntry s batch joined)

/-- A descriptor goes to every copy of a block for a step, by preload writes (R280, R284). -/
def State.writeDesc (s : State) (b : Binding) (step : Nat) (bs : List Byte) : State :=
  b.descDpas.foldl
    (fun a d =>
      let x := bufferAt d (descBytes b) step
      a.onTile x.1 fun t => { t with descDue := t.descDue ++ bs.zipIdx.map fun p => (x.2 + p.2, p.1) }) s

/-- Whether a step of an instance has started and not ended. -/
def Instance.hasStarted (i : Instance) (step : Nat) : Bool :=
  i.run.running && (step = i.stepNo || (i.run.nextStart.isSome && step = i.stepNo + 1))

/-- The step that an instance composes next (R280, R282). -/
def Instance.composeStep (i : Instance) : Nat := max i.composedFor (i.stepNo + if i.run.running then 1 else 0)

/-- The first ready key of a MODEL's READY streams after a cut-off. -/
def State.readyAfter (s : State) (t : Tenant) (model : Byte) (cutoff : DWord × Src) : Option (DWord × Src) :=
  (s.streams.filter fun e =>
    e.2.state = stReady && e.2.tenant = tenantByte t && e.2.model = model && keyLt cutoff (e.2.readyGts, e.2.readySource)).foldl
    (fun a e =>
      let k := (e.2.readyGts, e.2.readySource)
      match a with
      | some b => if keyLt k b then some k else some b
      | none => some k)
    none

/-- Whether the ledger composes for an instance now: a cut-off is there, and the tenant is neither pre-empted nor quarantined nor
replaying (R289, R290, R358, R364). -/
def State.mayCompose (s : State) (i : Instance) : Bool :=
  let c := s.ctx i.tenant
  i.binding.isSome && i.cutoff.isSome && !c.preempted && !c.quarantined && c.replay.isNone && s.working

/-- A READY stream that a composition of its LAST_LAYOUT's instance leaves READY has waited through one more (R286). -/
def State.countWaits (s : State) (t : Tenant) (l : BitVec 8) : State :=
  { s with streams := s.streams.map fun (e : Nat × Stream) =>
    if e.2.state = stReady && e.2.lastLayout = l && e.2.tenant = tenantByte t then (e.1, { e.2 with waited := addSat e.2.waited 1 }) else e }

/-- A composition whose batch is not empty: the batch is the step's, its descriptor is on its way, the ledger waits for the report of a step that
has started already, and the composition is recorded (R280 to R282, R284). -/
def State.composed (s : State) (i : Instance) (new : Binding) (a : Composing) (cutoff : DWord × Src) : State :=
  let step := i.composeStep
  let s1 := s.onInst i.id fun i => { i with batch := a.batch, composing := false, composedFor := step + 1, stepBatches := Map.put i.stepBatches step a.batch }
  let d := descriptor s1 new step a.batch a.joined a.left cutoff
  let s2 := s1.writeDesc new step d
  let s3 := if i.hasStarted step then s2.applyWait i.tenant new.reportBeacon 1 (.ledger i.id) else s2
  if s3.recording i.tenant then
    s3.emitAt 24 { stamp := cutoff.1, src := cutoff.2,
                   body := .scriv i.tenant { kind := 2, layout := i.id, step := BitVec.ofNat 64 step, payload := d } }
  else s3

/-- A composition with a cut-off (R282). An empty one writes nothing and uses no step number; it is made again at the first ready event after its
cut-off, past or to come (R284). -/
def State.composeWith (s : State) (i : Instance) (old : Binding) (cutoff : DWord × Src) : State :=
  let l := i.id
  let new := i.nextBinding.getD old
  let a0 : Composing := { st := s, batch := i.batch, left := 0, joined := [] }
  let a1 := if i.batch.isEmpty then a0 else composeOld l old new.batchMax (i.composedFor - 1) cutoff.1 a0
  let a2 := (a1.st.joiners i.tenant l new.model cutoff i.batch.isEmpty).foldl (composeJoin l new.batchMax) a1
  let s2 := (a2.st.countWaits i.tenant l).onInst l fun i => { i with binding := some new, nextBinding := none, cutoff := none }
  if a2.batch.isEmpty then
    let next := s2.readyAfter i.tenant new.model cutoff
    s2.onInst l fun i => { i with batch := [], composing := next.isNone, cutoff := next }
  else s2.composed i new a2 cutoff

/-- COMPOSE. -/
def State.compose (s : State) (l : BitVec 8) : State :=
  match s.inst? l with
  | none => s
  | some i =>
    if s.mayCompose i then
      match i.binding, i.cutoff with
      | some b, some k => s.composeWith i b k
      | _, _ => s
    else s

/-- COMPOSE (R282). -/
def execCompose (l : BitVec 8) (s : State) : Res := .next (s.compose l)

/-! ## Media inputs (R276) -/

/-- LEDGER_OVERFLOW and LEDGER_STALE (Table IG-5). -/
def State.logMediaInput (s : State) (code : BitVec 16) (tenant : Byte) (m : MediaInput) : State :=
  s.logEv ledgerSrc code tenant (leBytes 4 m.handle.toNat ++ leBytes 4 m.tag.toNat ++ leBytes 2 m.slot.toNat ++ leBytes 2 m.src.toNat)

/-- The instance whose event ring tells of a stream: the one it last ran in, else the first that serves its MODEL (log entry 20). -/
def State.streamInst (s : State) (x : Stream) : Option Instance :=
  match s.instances.find? fun i => i.id = x.lastLayout && tenantByte i.tenant = x.tenant with
  | some i => some i
  | none => s.instances.find? fun i => tenantByte i.tenant = x.tenant && (match i.binding with | some b => b.model = x.model | none => false)

/-- MEDIA_RECORD_INPUT: a media completion record becomes an input of its stream, or is discarded and logged. -/
def State.mediaRecordInput (s : State) (k : Nat) : State :=
  match s.media.inputs[k]? with
  | none => s
  | some m =>
    if s.working then
      let s1 := { s with media := { s.media with inputs := s.media.inputs.eraseIdx k } }
      let n := m.handle.toNat % 2 ^ 21
      let x := s1.stream n
      let live := m.handle.toNat / 2 ^ 21 % 8 = 0 ∧ x.state ≠ stFree ∧ x.gen.toNat = m.handle.toNat / 2 ^ 24
      if m.status = OK && !m.output then s1
      else if ¬ live then s1.logMediaInput LEDGER_STALE noTenant m
      else if 8 ≤ x.inputs.length then
        let s2 := s1.logMediaInput LEDGER_OVERFLOW x.tenant m
        if x.state = stFailed then s2
        else match s2.streamInst x with
          | some i => s2.endStream i.id i.stepNo n stFailed E_STREAM_OVERFLOW 0
          | none => s2.onStream n fun x => { x with state := stFailed, failStatus := E_STREAM_OVERFLOW }
      else
        let d : Nat :=
          if m.status ≠ OK then 2 * 2 ^ 48 + m.status.toNat * 2 ^ 64 + m.tag.toNat * 2 ^ 96
          else m.va.toNat % 2 ^ 48 + 2 ^ 48 + m.size.toNat * 2 ^ 64 + m.tag.toNat * 2 ^ 96
        s1.pushInput n (BitVec.ofNat 128 d) (m.stamp, m.src)
    else s

/-- MEDIA_RECORD_INPUT (R276). -/
def execMediaRecordInput (k : Nat) (s : State) : Res := .next (s.mediaRecordInput k)

end Sys2Proof.Machine
end

