-- ==== Sys2Proof/Machine/Merger.lean ====
section
/-! DEFINITION. The event merger, the log, and the interrupt queue (R51 to R55, R378 to R381), and the time events on the merger. -/

namespace Sys2Proof.Machine

open Sys2Proof

/-! ## Log buffer (R378, R379) -/

/-- Entries that the log buffer holds. -/
def logBufferSize : Nat := 4096

/-- Drops the oldest buffered entry of severity 0 or 1; none where there is none. -/
def displace : List LogEntry → Option (List LogEntry)
  | [] => none
  | e :: es => if e.sev.toNat < 2 then some es else (displace es).map fun r => e :: r

/-- An entry is lost: counted, and the next entry written carries LOST. -/
def Log.lose (l : Log) : Log := { l with lostFlag := true, lost := addSat l.lost 1 }

/-- An entry enters the buffer with the next SEQ. -/
def Log.enter (l : Log) (mk : Word → LogEntry) : Log :=
  let e := mk l.seq
  let l1 := { l with seq := l.seq + 1 }
  if l1.buffer.length < logBufferSize then { l1 with buffer := l1.buffer ++ [e] }
  else if e.sev.toNat < 2 then l1.lose
  else match displace l1.buffer with
    | some b => { l1.lose with buffer := b ++ [e] }
    | none => l1.lose

/-! ## Interrupt queue (R381) -/

/-- Entries that the on-die queue holds. -/
def iqSize : Nat := 1024

/-- A raise: made at once, and its entry kept for the copy where the ring is enabled. -/
def Iq.enter (q : Iq) (enabled : Bool) (e : IqEntry) : Iq :=
  let q1 := { q with raised := e :: q.raised }
  if !enabled then q1
  else if q1.queue.length < iqSize then { q1 with queue := q1.queue ++ [e] }
  else { q1 with queue := q1.queue.drop 1 ++ [e], lostFlag := true, lost := addSat q1.lost 1 }

/-! ## MSI-X (R299, R381; log entry 51) -/

/-- A word of a function's MSI-X table as it reads: address low, address high, data, and the mask bit. -/
def FnRegs.msixWord (g : FnRegs) (i : Nat) : Word := if i % 4 = 3 then (Map.get 0 g.msix i) ^^^ 1 else Map.get 0 g.msix i

/-- The message of a vector is written to host memory. -/
def State.sendMsix (s : State) (f : Fn) (v : Nat) : State :=
  let g := s.fnRegs f
  s.hostWrite ((g.msixWord (4 * v)).toNat + 2 ^ 32 * (g.msixWord (4 * v + 1)).toNat) (leBytes 4 (g.msixWord (4 * v + 2)).toNat)

/-- A vector is raised: a masked one becomes pending, another sends its message over a link that is up. -/
def State.raiseMsix (s : State) (f : Fn) (v : Nat) : State :=
  if s.vectors f ≤ v || (match f with | .vf t => !s.host.vfEnabled.getLsbD t.val | _ => false) then s
  else if bitAt ((s.fnRegs f).msixWord (4 * v + 3)) 0 then s.onFnRegs f fun g => { g with pba := if g.pba.contains v then g.pba else v :: g.pba }
  else if s.host.linkUp.getLsbD (s.fnPort f) then s.sendMsix f v
  else s

/-! ## Commit -/

/-- What the commit of a REPORT_BEACON grant does: its key is the cut-off of the next composition (R282). -/
def State.commitReport (s : State) (l : BitVec 8) (stamp : DWord) (src : Src) : State :=
  s.onInst l fun i => if i.binding.isSome then { i with cutoff := some (stamp, src) } else i

/-- Commits an event to its consumer (R52, R53). -/
def State.commit (s : State) (e : Event) (late : Bool) : State :=
  let s1 := if late then s else { s with merger := { s.merger with lastKey := some (e.stamp, e.src) } }
  match e.body with
  | .log code sev tenant payload =>
    { s1 with log := s1.log.enter fun q => { code := code, src := e.src, late := late, sev := sev, tenant := tenant, gts := e.stamp, seq := q, payload := payload } }
  | .irq f v cause =>
    { s1 with iq := s1.iq.enter s1.host.iq.enable { gts := e.stamp, src := e.src, vector := v, fn := f, cause := cause, late := late } }.raiseMsix
      f v.toNat
  | .scriv t b => s1.commitScriv late t b e.stamp e.src
  | .report l => s1.commitReport l e.stamp e.src
  | .doorbell => s1
  | .ppsEdge => s1

/-- Inserts an event by its key, after those with the same key (R51). -/
def insertEvent (e : Event) : List Event → List Event
  | [] => [e]
  | x :: xs => if keyLt (e.stamp, e.src) (x.stamp, x.src) then e :: x :: xs else x :: insertEvent e xs

/-- Whether an event may be committed: every live feeder has reached its stamp, or 1,000 ns have passed (R52). -/
def State.mayCommit (s : State) (e : Event) : Bool :=
  (s.merger.feeders.all fun f => !f.2.live || e.stamp.toNat ≤ f.2.reached.toNat) || e.stamp.toNat + 1000 ≤ s.clk.gts.toNat

/-- Commits waiting events from the head of the order while they may be. -/
def State.commitReady : Nat → State → State
  | 0, s => s
  | k + 1, s =>
    match s.merger.waiting with
    | [] => s
    | e :: es =>
      if s.mayCommit e then State.commitReady k ({ s with merger := { s.merger with waiting := es } }.commit e false) else s

/-- Commits all that may be committed. -/
def State.commitAll (s : State) : State := State.commitReady s.merger.waiting.length s

/-- Changes a feeder. -/
def State.onFeeder (s : State) (d : Nat) (f : Feeder → Feeder) : State :=
  { s with merger := { s.merger with feeders := Map.upd {} s.merger.feeders d f } }

/-- Whether a die that has a feeder has been powered down: its feeder is live until its last event has gone (R52). -/
def State.feederOff (s : State) (d : Nat) : Bool := (s.die d).state = .off

/-- EVENT_ARRIVAL: the next event of a feeder reaches the merger; one that precedes a committed event is LATE and committed at once. The last
event of a die that has been powered down ends its feeder. -/
def State.eventArrival (s : State) (d : Nat) : State :=
  let f := Map.get {} s.merger.feeders d
  match f.queue with
  | [] => s
  | e :: es =>
    if s.alive then
      let s1 := s.onFeeder d fun f =>
        { f with queue := es, live := f.live && !(es.isEmpty && s.feederOff d), reached := if f.reached.toNat ≤ e.stamp.toNat then e.stamp else f.reached, lastItem := s.clk.gts, silentLogged := false }
      let late := match s.merger.lastKey with | some k => keyLt (e.stamp, e.src) k | none => false
      if late then s1.commit e true
      else { s1 with merger := { s1.merger with waiting := insertEvent e s1.merger.waiting } }.commitAll
    else s

/-- EVENT_ARRIVAL (R52, R53). -/
def execEventArrival (d : Die) (s : State) : Res := .next (s.eventArrival d.val)

/-- The GTS below which a die will send no more events: its copy, held back by the beacon operations of its units that the store has not yet
applied and the scrivener may still record (R51, R355). -/
def State.markOf (s : State) (d : Nat) : DWord :=
  (s.net.ops.filter fun o => 16 ≤ srcDie o.src && feederOf s.pkg.variant (srcDie o.src) = d).foldl
    (fun g o => if o.stamp.toNat < g.toNat then o.stamp else g) (s.localGts d)

/-- WATERMARK: a feeder that has sent nothing for 64 ns tells the GTS below which it sends nothing more; it never passes an unsent event. -/
def State.watermark (s : State) (d : Nat) : State :=
  let f := Map.get {} s.merger.feeders d
  if s.alive && f.live && f.queue.isEmpty && f.lastItem.toNat + 64 ≤ s.clk.gts.toNat then
    let g := s.markOf d
    (s.onFeeder d fun f =>
      { f with reached := if f.reached.toNat ≤ g.toNat then g else f.reached, lastMark := g, lastItem := s.clk.gts, silentLogged := false }).commitAll
  else s

/-- WATERMARK (R52). -/
def execWatermark (d : Die) (s : State) : Res := .next (s.watermark d.val)

/-- COMMIT_TIMEOUT (R52): events whose stamp lies 1,000 ns back are committed. -/
def execCommitTimeout (s : State) : Res := .next (if s.alive then s.commitAll else s)

/-- The event port of a die (Corners of chapter 02). -/
def portUnit (d : Nat) : Src := if d < 16 then srcOf d 548 else srcOf d 0

/-- FEEDER_SILENT: 10 µs without an item of a live feeder, once per silence. -/
def State.feederSilent (s : State) (d : Nat) : State :=
  let f := Map.get {} s.merger.feeders d
  if s.alive && f.live && !f.silentLogged && f.lastItem.toNat + 10000 ≤ s.clk.gts.toNat then
    (s.onFeeder d fun f => { f with silentLogged := true }).emitAt 24
      { stamp := s.localGts 24, src := portUnit d,
        body := .log FEEDER_SILENT (severityOf FEEDER_SILENT) noTenant ([BitVec.ofNat 8 d] ++ List.replicate 7 0 ++ leBytes 8 f.lastMark.toNat) }
  else s

/-- FEEDER_SILENT (R52). -/
def execFeederSilent (d : Die) (s : State) : Res := .next (s.feederSilent d.val)

/-! ## Rings of the log and of the interrupt queue -/

/-- A log entry as the ring holds it (Table IG-3). -/
def logBytes (e : LogEntry) (lost phase : Bool) : List Byte :=
  leBytes 2 e.code.toNat ++ leBytes 2 e.src.toNat ++
    [(if e.late then 1 else 0) ||| (if lost then 2 else 0) ||| (if phase then 4 else 0), e.sev, e.tenant, 0] ++
    leBytes 8 e.gts.toNat ++ leBytes 4 e.seq.toNat ++ [BitVec.ofNat 8 e.payload.length, 0, 0, 0] ++ padTo 40 e.payload

/-- LOG_WRITE: the oldest buffered entry goes to the log ring; the vector is raised for severity 2 or more, and when the ring becomes
half full (R378). -/
def State.logWrite (s : State) : State :=
  let r := s.host.log
  match s.log.buffer with
  | [] => s
  | e :: es =>
    if s.alive && r.enable && r.count < r.size then
      let s1 := { s with log := { s.log with buffer := es, lostFlag := false } }
      let s2 := s1.ringWrite .log (logBytes e s.log.lostFlag r.phase)
      let half := 2 * r.count < r.size && r.size ≤ 2 * (r.count + 1)
      if 2 ≤ e.sev.toNat || half then s2.raise stewardSrc .pf0 r.vector 3 else s2
    else s

/-- LOG_WRITE (R378). -/
def execLogWrite (s : State) : Res := .next s.logWrite

/-- An interrupt-queue entry (Table IG-6). -/
def iqBytes (e : IqEntry) (lost phase : Bool) : List Byte :=
  leBytes 8 e.gts.toNat ++ leBytes 2 e.src.toNat ++ leBytes 2 e.vector.toNat ++
    [fnByte e.fn, e.cause, (if e.late then 1 else 0) ||| (if phase then 2 else 0) ||| (if lost then 4 else 0), 0]

/-- IQ_COPY: the oldest waiting entry goes to the interrupt-queue ring (R381). -/
def State.iqCopy (s : State) : State :=
  let r := s.host.iq
  match s.iq.queue with
  | [] => s
  | e :: es =>
    if s.alive && r.enable && r.count < r.size then
      { s with iq := { s.iq with queue := es, lostFlag := false } }.ringWrite .iq (iqBytes e s.iq.lostFlag r.phase)
    else s

/-- IQ_COPY (R381). -/
def execIqCopy (s : State) : Res := .next s.iqCopy

end Sys2Proof.Machine
end

