-- ==== Sys2Proof/Machine/BTile.lean ====
section
/-! DEFINITION. Buffer tiles: bank accesses and their arbitration (R103 to R114), ECC (R123 to R125), posting and completing of DMA
descriptors (R115 to R122), and the transfers of each kind (R116 to R119, R417, R418). -/

namespace Sys2Proof.Machine

open Sys2Proof

/-! ## Banks (R103) -/

/-- The line segments of a byte range: pairs of an offset and a length. -/
def lineSegs : Nat → Nat → Nat → List (Nat × Nat)
  | 0, _, _ => []
  | k + 1, off, n =>
    if n = 0 then []
    else
      let m := min n (1024 - off % 1024)
      (off, m) :: lineSegs k (off + m) (n - m)

/-- The line segments of a range of bytes. -/
def segments (off n : Nat) : List (Nat × Nat) := lineSegs (n / 1024 + 2) off n

/-- The bank enable of a range within one line. -/
def segMask (off n : Nat) : BankMask :=
  if n = 0 then 0
  else
    (List.range 16).foldl (fun m k => if bankOf off ≤ k ∧ k ≤ bankOf (off + n - 1) then m ||| (1 <<< k) else m) (0 : BankMask)

/-- A requester's port (R105, R106). -/
inductive PortSel where
  | inb | mw | me | dma | nv
deriving DecidableEq, Repr

/-- Presents accesses at a port; one with no bank takes no cycle (R105). -/
def Ports.add (p : Ports) (w : PortSel) (ms : List BankMask) : Ports :=
  let ms := ms.filter fun m => m ≠ 0
  match w with
  | .inb => { p with inb := p.inb ++ ms }
  | .mw => { p with mw := p.mw ++ ms }
  | .me => { p with me := p.me ++ ms }
  | .dma => { p with dma := p.dma ++ ms }
  | .nv => { p with nv := p.nv ++ ms }

/-- Presents accesses of the tally engine, which takes the DMA requester's place and goes first (R194). -/
def Ports.addTally (p : Ports) (ms : List BankMask) : Ports :=
  let ms := ms.filter fun m => m ≠ 0
  { p with tally := p.tally + ms.length, dma := p.dma.take p.tally ++ ms ++ p.dma.drop p.tally }

/-- Presents the accesses of a byte range. -/
def State.present (s : State) (x : Site) (w : PortSel) (off n : Nat) : State :=
  s.onTile x fun t => { t with b := { t.b with ports := t.b.ports.add w ((segments off n).map fun g => segMask g.1 g.2) } }

/-- Presents the accesses of a byte range for the tally engine. -/
def State.presentTally (s : State) (x : Site) (off n : Nat) : State :=
  s.onTile x fun t => { t with b := { t.b with ports := t.b.ports.addTally ((segments off n).map fun g => segMask g.1 g.2) } }

/-- The port that a tile uses at its B-tile. -/
def portOf (x : Site) : PortSel :=
  match siteKind x with
  | .v => .nv
  | _ => if (x.col.val - 1) % 4 = 0 then .mw else .me

/-! ## Arbitration of one FCLK cycle (R108 to R114) -/

/-- Whether a bank enable names a bank that still clears in a cycle. -/
def BState.blocked (b : BState) (now : Nat) (m : BankMask) : Bool :=
  (List.range 16).any fun k => m.getLsbD k && now < Map.get 0 b.clearing k

/-- The head of a port. -/
def Ports.head (p : Ports) : PortSel → Option BankMask
  | .inb => p.inb.head?
  | .mw => p.mw.head?
  | .me => p.me.head?
  | .dma => p.dma.head?
  | .nv => p.nv.head?

/-- The head of a port goes. -/
def Ports.pop (p : Ports) : PortSel → Ports
  | .inb => { p with inb := p.inb.drop 1 }
  | .mw => { p with mw := p.mw.drop 1 }
  | .me => { p with me := p.me.drop 1 }
  | .dma => { p with dma := p.dma.drop 1, tally := p.tally - 1 }
  | .nv => { p with nv := p.nv.drop 1 }

/-- The wide requesters in priority order. -/
def wideSel : List PortSel := [.inb, .mw, .me, .dma]

/-- The wide requester of a number. -/
def wideAt (i : Fin 4) : PortSel := match i with | 0 => .inb | 1 => .mw | 2 => .me | _ => .dma

/-- What one cycle does: the requests performed, and the counters of waits it raises. -/
structure Cycle where
  done : List PortSel := []
  wn : Bool := false
  nw : Bool := false
  ww : Bool := false
  crossWide : Option (Fin 4) := none
  crossNarrow : Bool := false
deriving DecidableEq, Repr

/-- Whether a head is ready: present, and no bank of it clearing. -/
def BState.ready (b : BState) (now : Nat) (w : PortSel) : Bool :=
  match b.ports.head w with
  | some m => !b.blocked now m
  | none => false

/-- The highest ready wide requester. -/
def BState.wideWinner (b : BState) (now : Nat) : Option PortSel := wideSel.find? fun w => b.ready now w

/-- Whether a wide requester other than one is ready. -/
def BState.otherWide (b : BState) (now : Nat) (w : PortSel) : Bool := wideSel.any fun v => v ≠ w && b.ready now v

/-- One cycle in shared mode (R108). -/
def BState.sharedCycle (b : BState) (now : Nat) : Cycle :=
  let nv := b.ready now .nv
  let aged := nv && 4 ≤ b.ports.nvAge && !b.ready now .inb
  match b.wideWinner now with
  | some w =>
    if aged then { done := [.nv], wn := true }
    else { done := [w], nw := nv, ww := b.otherWide now w }
  | none => if nv then { done := [.nv] } else {}

/-- Whether a wide access crosses (R109). -/
def crossesWide (m : BankMask) : Bool := m &&& 0xF000 ≠ 0

/-- Whether a narrow access crosses. -/
def crossesNarrow (m : BankMask) : Bool := m &&& 0x0FFF ≠ 0

/-- Number of a wide requester. -/
def wideNum : PortSel → Fin 4
  | .inb => 0
  | .mw => 1
  | .me => 2
  | _ => 3

/-- One cycle in split mode (R110). -/
def BState.splitCycle (b : BState) (now : Nat) : Cycle :=
  let nv := b.ready now .nv
  match b.ports.crossWide with
  | some i =>
    { done := [wideAt i], nw := nv, ww := b.otherWide now (wideAt i), crossNarrow := b.ports.crossNarrow }
  | none =>
    if b.ports.crossNarrow then { done := [.nv], wn := (b.wideWinner now).isSome }
    else
      let w := b.wideWinner now
      let wc := match w with | some v => (match b.ports.head v with | some m => crossesWide m | none => false) | none => false
      let nc := nv && (match b.ports.head .nv with | some m => crossesNarrow m | none => false)
      { done := (match w with | some v => if wc then [] else [v] | none => []) ++ (if nv && !nc then [.nv] else [])
        wn := wc, nw := nc
        ww := match w with | some v => b.otherWide now v | none => false
        crossWide := if wc then w.map wideNum else none
        crossNarrow := nc }

/-- One bit as a count. -/
def inc (c : Word) (p : Bool) : Word := if p then addSat c 1 else c

/-- Flits that the inbound queue holds (R112). -/
def inQueueSize : Nat := 16

/-- One FCLK cycle of a B-tile's banks: performs, counts waits, and ages NV; with a flit presented, a full inbound queue counts (R114). -/
def BState.cycle (b : BState) (split presented : Bool) (now : Nat) : BState :=
  let c := if split then b.splitCycle now else b.sharedCycle now
  let all : List PortSel := [.inb, .mw, .me, .dma, .nv]
  let waits := all.filter fun w => (b.ports.head w).isSome && !c.done.contains w
  let clearWait := waits.any fun w => !b.ready now w
  let banks := waits.foldl (fun m w => m ||| (b.ports.head w).getD 0) (0 : BankMask)
  let ports := c.done.foldl Ports.pop b.ports
  { b with
    ports := { ports with crossWide := c.crossWide, crossNarrow := c.crossNarrow,
                          nvAge := if waits.contains .nv then b.ports.nvAge + 1 else 0 }
    bankConflict := (List.range 16).foldl (fun m k => if banks.getLsbD k then Map.upd 0 m k fun v => addSat v 1 else m) b.bankConflict
    wn := inc b.wn c.wn, nw := inc b.nw c.nw, ww := inc b.ww c.ww, clearWaits := inc b.clearWaits clearWait
    inboundFull := inc b.inboundFull (presented && inQueueSize ≤ b.ports.inb.length) }

/-- One FCLK cycle of a frozen B-tile whose full inbound queue is what the freeze waits for: the head of the queue is written (R112). -/
def BState.drainCycle (b : BState) (now : Nat) : BState := if b.ready now .inb then { b with ports := b.ports.pop .inb } else b

/-! ## Frozen cycles (R95, R347) -/

/-- Whether a seal stall freezes a site (R95). -/
def State.frozenAt (s : State) (x : Site) : Bool :=
  match s.instAt x with
  | some i => i.run.frozenSince.isSome
  | none => false

/-- The cycle count of an instance's run with frozen cycles left out (R347). -/
def State.runCycle (s : State) (i : Instance) : Nat :=
  s.clk.fclk - i.run.frozenTotal - (match i.run.frozenSince with | some c => s.clk.fclk - c | none => 0)

/-- The cycle count at a site. -/
def State.cycleAt (s : State) (x : Site) : Nat := match s.instAt x with | some i => s.runCycle i | none => s.clk.fclk

/-- Whether a site's skid buffer still drains while the seal stall that it asserts freezes the tile (R112, R187). -/
def State.drains (s : State) (x : Site) : Bool := (s.tile x).sealAsserted.getLsbD 4

/-- The cycle count by which a site's banks go: it stands still in a freeze, unless the freeze waits for the site's own queue (R112). -/
def State.bankNow (s : State) (x : Site) : Nat :=
  match s.instAt x with
  | some i => if s.drains x then s.clk.fclk - i.run.frozenTotal else s.runCycle i
  | none => s.clk.fclk

/-! ## Idle bank cycles (R107, R124) -/

/-- BMODE of a TILE_CFG: split mode (R108, R109). -/
def cfgSplit (c : Flit) : Bool := bitsOf c 192 8 = 1

/-- The banks that the requesters' accesses of a cycle occupy (R107 to R110). -/
def BState.busyBanks (b : BState) (split : Bool) (now : Nat) : BankMask :=
  let c := if split then b.splitCycle now else b.sharedCycle now
  if split then c.done.foldl (fun m w => m ||| (b.ports.head w).getD 0) 0 else if c.done.isEmpty then 0 else 0xFFFF

/-- The banks whose idle cycle write-backs and preload writes have used in the FCLK cycle in hand. -/
def BState.usedIdle (b : BState) (fclk : Nat) : BankMask := if b.idleUse.1 = fclk + 1 then b.idleUse.2 else 0

/-- Uses the idle cycle of a bank. -/
def BState.useIdle (b : BState) (fclk k : Nat) : BState := { b with idleUse := (fclk + 1, b.usedIdle fclk ||| (1 <<< k)) }

/-- Whether a bank serves no access in this cycle and does not clear; the requesters of a frozen tile wait (R95, R107, R113). -/
def State.bankIdle (s : State) (x : Site) (k : Nat) : Bool :=
  let t := s.tile x
  let now := s.bankNow x
  !(!s.frozenAt x && (t.b.busyBanks (cfgSplit t.active.cfg) now).getLsbD k) && !(t.b.usedIdle s.clk.fclk).getLsbD k &&
    Map.get 0 t.b.clearing k ≤ now

/-- ECC_WRITE_BACK: the first corrected word that waits for a bank which is idle now is written back (R107, R124). -/
def State.eccWriteBack (s : State) (x : Site) : State :=
  if s.alive then
    match (s.tile x).b.writeBacks.find? fun w => s.bankIdle x (bankOf w) with
    | none => s
    | some w =>
      s.onTile x fun t =>
        let b := t.b.useIdle s.clk.fclk (bankOf w)
        { t with b := { b with writeBacks := b.writeBacks.erase w, bad := if Map.look b.bad w = some .ce then Map.del b.bad w else b.bad } }
  else s

/-- ECC_WRITE_BACK (R107, R124). -/
def execEccWriteBack (x : Site) (s : State) : Res := .next (s.eccWriteBack x)

/-! ## Descriptors (Table BT-4) -/

/-- Fields of a descriptor. -/
def Dma.f (d : Dma) (off size : Nat) : Nat := byteField d.desc off size
def Dma.kind (d : Dma) : Nat := d.f 0 1
def Dma.flag (d : Dma) (i : Nat) : Bool := bitAt d.desc (8 + i)
def Dma.loc (d : Dma) : Nat := d.f 4 4
def Dma.remote (d : Dma) : Nat := d.f 8 8
def Dma.rows (d : Dma) : Nat := d.f 16 2
def Dma.rowBytes (d : Dma) : Nat := d.f 18 2
def Dma.locStride (d : Dma) : Nat := d.f 20 2
def Dma.remStride (d : Dma) : Nat := d.f 24 4
def Dma.statusAddr (d : Dma) : Nat := d.f 28 4

/-- The step of a kind's row bytes. -/
def Dma.unit (d : Dma) : Nat := if d.kind = 2 then 8 else 64

/-- Whether the descriptor's STATUS_ADDR is one (R118). -/
def Dma.addrOk (d : Dma) : Bool := !d.flag 1 || (d.statusAddr % 8 = 0 && d.statusAddr < btBytes)

/-- The checks of R116 and R118. DESIGN CHOICE (log entry 88): with STATUS clear a non-zero STATUS_ADDR[31:20] is refused as any non-zero
reserved field is; what is then not checked is the address in [19:0]. -/
def Dma.fieldsOk (d : Dma) : Bool :=
  1 ≤ d.kind && d.kind ≤ 7 && d.f 1 1 < 8 && d.f 2 2 < 4096 && d.loc < 2 ^ 20 && d.f 22 2 = 0 && d.statusAddr < 2 ^ 20 && d.addrOk &&
    (match d.kind with
      | 1 => d.remote < 2 ^ 20
      | 2 => true
      | 6 => d.remote / 2 ^ 60 = 0
      | 7 => d.remote / 2 ^ 60 = 0
      | _ => d.remote < 2 ^ 48) &&
    1 ≤ d.rows && d.rows ≤ 4096 && d.unit ≤ d.rowBytes && d.rowBytes ≤ 32768 && d.rowBytes % d.unit = 0 &&
    d.locStride % d.unit = 0 && (d.kind = 2 || d.remStride % 64 = 0) &&
    d.loc % d.unit = 0 && (d.kind = 2 || d.remote % 64 = 0) &&
    d.loc + (d.rows - 1) * d.locStride + d.rowBytes ≤ btBytes &&
    (d.kind ≠ 1 || d.remote + (d.rows - 1) * d.remStride + d.rowBytes ≤ btBytes)

/-- Units of 64 bytes in the whole transfer. -/
def Dma.units (d : Dma) : Nat := d.rows * (d.rowBytes / 64)

/-- The row of a unit, its B-tile offset and its remote address. -/
def Dma.unitRow (d : Dma) (u : Nat) : Nat := u / (d.rowBytes / 64)
def Dma.unitLoc (d : Dma) (u : Nat) : Nat := d.loc + d.unitRow u * d.locStride + u % (d.rowBytes / 64) * 64
def Dma.unitRem (d : Dma) (u : Nat) : Nat := d.remote + d.unitRow u * d.remStride + u % (d.rowBytes / 64) * 64

/-- Changes the descriptor with a SEQ. -/
def State.onDma (s : State) (x : Site) (q : BitVec 16) (f : Dma → Dma) : State :=
  s.onTile x fun t => { t with b := { t.b with dmas := t.b.dmas.map fun d => if d.seq = q then f d else d } }

/-- Whether a kind reads from memory or a window. -/
def Dma.reads (d : Dma) : Bool := d.kind = 4 || d.kind = 6

/-- A descriptor whose every unit was answered finishes. One that fails finishes once what it sent is answered, so that every row before the
failing one has moved, and no answer is left on its way (R121; log entry 88). -/
def Dma.settle (d : Dma) : Dma :=
  match d.failing with
  | some (row, status) =>
    if d.kind ≤ 2 || d.answered.length = d.sent then { d with phase := .finished, status := status, failRow := BitVec.ofNat 16 row } else d
  | none => if d.sent = d.units && d.answered.length = d.units then { d with phase := .finished } else d

/-- A descriptor fails at a row; of several failures the lowest row counts. -/
def Dma.failAt (d : Dma) (row : Nat) (status : Status) : Dma :=
  { d with failing := match d.failing with
      | some (r, e) => if row < r then some (row, status) else some (r, e)
      | none => some (row, status) }.settle

/-- A later descriptor ends with E_ABORTED: a started one stops with the row in progress in its failing-row field, one that was refused or had
not started has 0xFFFF there (R121). DESIGN CHOICE (log entry 88): one that had moved every row and waited for its turn has no row in
progress, and its field holds 0xFFFF too. -/
def Dma.abort (d : Dma) (row : Nat) : Dma :=
  match d.phase with
  | .finished => { d with status := E_ABORTED, failRow := if d.status = OK then 0xFFFF else d.failRow }
  | .started => { d with failing := some (row, E_ABORTED) }.settle
  | .queued => { d with phase := .finished, status := E_ABORTED, failRow := 0xFFFF }

/-- The row in progress of a started descriptor. -/
def Dma.progressRow (d : Dma) : Nat :=
  match d.kind with
  | 1 => ((List.range d.rows).find? fun i => d.sent < ((List.range (i + 1)).map fun j => (segments (d.loc + j * d.locStride) d.rowBytes).length).sum).getD 0
  | 2 => ((List.range d.rows).find? fun i => d.sent < ((List.range (i + 1)).map fun j => (segments (d.loc + j * d.locStride) d.rowBytes).length).sum).getD 0
  | _ => d.unitRow (if d.reads then d.moved else ((List.range d.units).find? fun u => !d.answered.contains u).getD 0)

/-- Every descriptor behind one with a SEQ is aborted. -/
def abortAfter (q : BitVec 16) : List Dma → List Dma
  | [] => []
  | d :: ds => if d.seq = q then d :: ds.map (fun e => e.abort e.progressRow) else d :: abortAfter q ds

/-- A descriptor fails at a row, and every later one is aborted (R121). -/
def State.dmaFail (s : State) (x : Site) (q : BitVec 16) (status : Status) (row : Nat) : State :=
  (s.onDma x q fun d => d.failAt row status).onTile x fun t => { t with b := { t.b with dmas := abortAfter q t.b.dmas } }

/-- Posts a descriptor (R115, R118): it takes the next SEQ; a refused one is finished at once, and one behind a failure is aborted. -/
def State.dmaPost (s : State) (x : Site) (desc : BitVec 256) (poster : Src) : State :=
  let b := (s.tile x).b
  let d0 : Dma := { seq := b.nextSeq, desc := desc, poster := poster }
  let behind := b.dmas.any fun e => e.failing.isSome || (e.phase = .finished && e.status ≠ OK)
  let d := if behind then { d0 with phase := .finished, status := E_ABORTED, failRow := 0xFFFF, noWord := !d0.addrOk }
    else if !d0.fieldsOk then { d0 with phase := .finished, status := E_BAD_FIELD, failRow := 0xFFFF, noWord := !d0.addrOk }
    else d0
  s.onTile x fun t => { t with b := { t.b with dmas := t.b.dmas ++ [d], nextSeq := t.b.nextSeq + 1 } }

/-- Whether the engine is free for a post (R115). -/
def State.dmaRoom (s : State) (x : Site) : Bool := (s.tile x).b.dmas.length < 8

/-- Whether the next unit of a write kind must wait: rows move in ascending order, so that a row is sent once the one before is wholly
acknowledged (R119, R121, R338; log entry 88). -/
def Dma.rowWaits (d : Dma) : Bool :=
  (d.kind = 3 || d.kind = 5 || d.kind = 7) && d.answered.length < d.unitRow d.sent * (d.rowBytes / 64)

/-- Whether a started descriptor has a unit to send now. -/
def Dma.canSend (d : Dma) : Bool := d.phase = .started && d.sent < d.units && d.failing.isNone && !d.rowWaits

/-- The next descriptor in SEQ order, where the engine, which works on at most 2 at once, may start it, and FENCE allows it (R119). -/
def BState.dmaNext (b : BState) (kind : Nat) : Option Dma :=
  match b.dmas.find? fun d => d.phase = .queued with
  | some d =>
    let first := match b.dmas with | h :: _ => h.seq = d.seq | [] => false
    if d.kind = kind && (b.dmas.filter fun d => d.phase = .started).length < 2 && (!d.flag 2 || first) then some d else none
  | none => none

/-- The descriptor of a local kind that the engine works on now: the first started one, else the next one, which starts (R119). -/
def BState.dmaNow (b : BState) (kind : Nat) : Option Dma :=
  match b.dmas.find? fun d => d.phase = .started && d.kind = kind with
  | some d => some d
  | none => b.dmaNext kind

/-- The descriptor of a kind that sends its next unit: the first started one that can, else the next one, which starts (R119). -/
def BState.dmaSend (b : BState) (kind : Nat) : Option Dma :=
  match b.dmas.find? fun d => d.kind = kind && d.canSend with
  | some d => some d
  | none => b.dmaNext kind

/-- Whether an evict in progress has stopped a tile: at once in a section that is not sealed, by the seal stall in a sealed one (R290). -/
def State.evicting (s : State) (t : Tenant) (x : Site) : Bool :=
  match (s.ctx t).preempting with
  | some p => p.evict && !s.sealedAt x
  | none => false

/-- Starts a descriptor; one of class D or X in a sealed section is refused (R122), and none starts during an evict or on a die that goes
down (R248, R290). -/
def State.dmaStart (s : State) (x : Site) (d : Dma) : Bool × State :=
  let held : Bool := !s.dieUp x.die.val || (match s.ownerOf x with | some t => s.evicting t x | none => false)
  if d.phase = .started then (true, s)
  else if held then (false, s)
  else if 4 ≤ d.kind && s.sealedAt x then
    let s1 := s.dmaFail x d.seq E_SEALED_CLASS 0xFFFF
    (false, s1.logTile x DMA_CLASS (leBytes 2 d.seq.toNat ++ [BitVec.ofNat 8 d.kind, 0]))
  else (true, s.onDma x d.seq fun d => { d with phase := .started })

/-- The seal stall of an instance is asserted for a cause of Table DR-1 in a section; the freeze begins 12 cycles later (R95, R350). -/
def State.assertSealInst (s : State) (l : BitVec 8) (sect : Nat) (cause : Nat) : State :=
  s.onInst l fun i =>
    { i with run := { i.run with
        sealCauses := Map.upd 0 i.run.sealCauses sect fun c => c ||| (1 <<< cause)
        freezeAt := if i.run.freezeAt.isNone && i.run.frozenSince.isNone then some (s.clk.fclk + 12) else i.run.freezeAt
        releaseAt := none } }

/-- A tile asserts the seal stall for a cause of Table DR-1 (R95, R350). -/
def State.assertSeal (s : State) (x : Site) (cause : Nat) : State :=
  match s.instAt x with
  | none => s
  | some i =>
    (s.onTile x fun t => { t with sealAsserted := t.sealAsserted ||| (1 <<< cause), sealBroke := true }).assertSealInst i.id
      (s.tile x).active.sect cause

/-- Whether a round is complete and may emit. -/
def TallyLatch.ready (l : TallyLatch) : Bool :=
  l.slots.length = l.nc && l.slots.all (fun q => (l.emitted.toNat - l.start.toNat + 1) * l.vbytes ≤ q.2 * 64) &&
    l.emitted.toNat ≤ l.taken.toNat + 1

/-- Whether a B-tile's engines run: a configured tile on a die that is not off, not frozen by a seal stall. -/
def State.btRuns (s : State) (x : Site) : Bool :=
  s.working && siteKind x = .b && !(s.tile x).parked && (s.die x.die.val).state != .off &&
    !s.frozenAt x

/-- Whether the tally engine has a round ready. -/
def Tile.tallyReady (t : Tile) : Bool := t.ins.any fun (e : Nat × InEp) => match e.2.tally with | some l => l.ready | none => false

/-- Whether the DMA engine may use the banks now: when both engines are ready, the tally engine goes first (R194). -/
def State.dmaRuns (s : State) (x : Site) : Bool := s.btRuns x && !(s.tile x).tallyReady

/-- The source line segments of a transfer, with the row of each. -/
def Dma.segs (d : Dma) : List (Nat × Nat × Nat) :=
  (List.range d.rows).flatMap fun i => (segments (d.loc + i * d.locStride) d.rowBytes).map fun g => (i, g.1, g.2)

/-- COPY_LOCAL: one source segment is read, and its bytes written (R119). -/
def State.copyLocal (s : State) (x : Site) (us : List Upset) : State :=
  match (s.tile x).b.dmaNow 1 with
  | none => s
  | some d =>
    let st := s.dmaStart x d
    if !s.dmaRuns x || !st.1 then s
    else
      let s0 := st.2
      match d.segs[d.sent]? with
      | none => s0.onDma x d.seq fun d => { d with phase := .finished }
      | some (i, off, n) =>
        let s1 := s0.upsetBt x us
        let r := s1.btRead x off n (siteSrc x)
        let s2 := r.2.2.present x .dma off n
        if r.2.1 then s2.dmaFail x d.seq E_ECC_UNCORRECTED i
        else
          let dst := d.remote + i * d.remStride + (off - (d.loc + i * d.locStride))
          let s3 := (s2.btPut x dst r.1).present x .dma dst n
          s3.onDma x d.seq fun d => { d with sent := d.sent + 1, phase := if d.sent + 1 = d.segs.length then .finished else .started }

/-- COPY_LOCAL (R119). -/
def execCopyLocal (x : Site) (us : List Upset) (s : State) : Res := .next (s.copyLocal x us)

/-- FILL: one segment is written with the pattern (R119). -/
def State.dmaFill (s : State) (x : Site) : State :=
  match (s.tile x).b.dmaNow 2 with
  | none => s
  | some d =>
    let st := s.dmaStart x d
    if !s.dmaRuns x || !st.1 then s
    else
      let s0 := st.2
      match d.segs[d.sent]? with
      | none => s0.onDma x d.seq fun d => { d with phase := .finished }
      | some (_, off, n) =>
        let bs := (List.range (n / 8)).flatMap fun _ => leBytes 8 d.remote
        ((s0.btPut x off bs).present x .dma off n).onDma x d.seq fun d =>
          { d with sent := d.sent + 1, phase := if d.sent + 1 = d.segs.length then .finished else .started }

/-- FILL (R119). -/
def execFill (x : Site) (s : State) : Res := .next (s.dmaFill x)

/-! ## Packets of the DMA kinds -/

/-- A packet enters the router of a tile through its local input (R68). -/
def State.inject (s : State) (x : Site) (h : Head) (b : Body) : State :=
  { s with net := { s.net with flow := s.net.flow ++ [{ place := .router x 4, head := h, body := b }] } }

/-- Whether a tile's router runs in scheduled mode (R64, R83). -/
def State.isScheduled (s : State) (x : Site) : Bool := bitAt (s.tile x).active.routerWord 0

/-- A flit enters a scheduled router through its local input (R66). -/
def State.injectSched (s : State) (x : Site) (h : Head) (b : Body) : State :=
  { s with net := { s.net with sched := s.net.sched ++ [{ site := x, port := 4, at_ := s.cycleAt x, head := h, body := b }] } }

/-- The slot of a tile's slot counters in a cycle (R65). -/
def Tile.slot (t : Tile) (cycle : Nat) : Nat := (cycle - t.swapAt) % t.active.period

/-- The slot-table entry of an output (Table GR-1); outputs are keyed output * 256 + slot. -/
def Tile.slotEntry (t : Tile) (output slot : Nat) : Byte := Map.get 0 t.active.slots (output * 256 + slot)

/-- The outputs whose entry in a slot selects an input (R66). -/
def Tile.outputsFor (t : Tile) (slot input : Nat) : List Nat :=
  (List.range 5).filter fun o => bitAt (t.slotEntry o slot) 7 && bitsOf (t.slotEntry o slot) 4 3 = input

/-- Whether a flit presented now leaves: some output selects the local input in the next cycle (R119, R184). -/
def State.localSlot (s : State) (x : Site) : Bool :=
  let t := s.tile x
  !(t.outputsFor (t.slot (s.cycleAt x + 1)) 4).isEmpty

/-- The head of a packet that a tile sends. -/
def State.headOf (s : State) (x : Site) (spine vc : Bool) (die unit ep kind tag : Nat) : Head :=
  { tenant := (s.ownerOf x).getD 0, spine := spine, vc := vc, destDie := BitVec.ofNat 6 die, destUnit := BitVec.ofNat 10 unit,
    ep := Fin.ofNat 8 ep, kind := BitVec.ofNat 3 kind, src := siteSrc x, tag := BitVec.ofNat 16 tag }

/-- Marks a unit as sent; a unit answered by nobody counts as answered. -/
def Dma.sentOne (d : Dma) (answered : Bool) : Dma :=
  { d with sent := d.sent + 1, answered := if answered then d.sent :: d.answered else d.answered }.settle

/-- GRID_WRITE: one 64-byte word leaves as a packet (R116, R119, R417). -/
def State.gridWrite (s : State) (x : Site) (us : List Upset) : State :=
  match (s.tile x).b.dmaSend 3 with
  | none => s
  | some d =>
    let sched := s.isScheduled x
    let st := s.dmaStart x d
    if !s.dmaRuns x || d.units ≤ d.sent || (sched && !s.localSlot x) || !st.1 then s
    else
      let s0 := st.2.upsetBt x us
      let dpa := d.unitRem d.sent
      let row := d.unitRow d.sent
      if dpa / 2 ^ 40 ≠ 1 then s0.dmaFail x d.seq E_REGION row
      else if dpa / 2 ^ 36 % 16 ≠ 0 ∨ dpa / 2 ^ 27 % 32 ≠ 0 ∨ btBytes ≤ dpa % 2 ^ 20 then s0.dmaFail x d.seq E_NO_TARGET row
      else
        let r := s0.btRead x (d.unitLoc d.sent) 64 (siteSrc x)
        let s1 := r.2.2.present x .dma (d.unitLoc d.sent) 64
        if r.2.1 then s1.dmaFail x d.seq E_ECC_UNCORRECTED row
        else
          let dest := btSite (dpa / 2 ^ 32 % 16) (dpa / 2 ^ 20 % 128)
          if sched && s.isFused dest then s1.dmaFail x d.seq E_NO_TARGET row
          else
          let h := s1.headOf x false false dest.die.val (siteUnit dest) 0 1 (3 * 16384 + dpa % 2 ^ 20 / 64)
          let s2 := if sched then s1.injectSched x h (.gridWrite (flitOf r.1)) else s1.inject x h (.gridWrite (flitOf r.1))
          s2.onDma x d.seq fun d => d.sentOne sched

/-- GRID_WRITE (R417). -/
def execGridWrite (x : Site) (us : List Upset) (s : State) : Res := .next (s.gridWrite x us)

/-- Requests of an HBM or window kind that are outstanding (R119). -/
def Dma.outstanding (d : Dma) : Nat := d.sent - d.answered.length

/-- Requests outstanding over all descriptors of a kind. -/
def BState.outstanding (b : BState) (kind : Nat) : Nat :=
  ((b.dmas.filter fun d => d.kind = kind && d.phase = .started).map Dma.outstanding).sum

/-- The unit that a request to memory addresses: the translation unit of the requester's half (R418). -/
def State.xlateUnit (s : State) (d : Nat) : Nat × Nat := (26 + (halfOf s.pkg.variant d).val, 16)

/-- The remote-window engine of an import (R221, R336). -/
def State.windowUnit (s : State) (t : Tenant) (h : Nat) : Nat × Nat :=
  ((Map.get {} (s.ctx t).imports h).port.toNat / 256, 64)

/-- Sends one request of 64 bytes of an HBM or window kind. -/
def State.dmaRequest (s : State) (x : Site) (d : Dma) (write window : Bool) (data : Flit) : State :=
  let t := (s.ownerOf x).getD 0
  let u := d.sent
  let dest := if window then s.windowUnit t (d.remote / 2 ^ 48) else s.xlateUnit x.die.val
  let h := s.headOf x false false dest.1 dest.2 0 (if write then 1 else 2) d.seq.toNat
  let q : MemReq := { write := write, va := BitVec.ofNat 64 (d.unitRem u % 2 ^ 48), handle := BitVec.ofNat 16 (d.remote / 2 ^ 48),
                      window := window, bytes := 64, row := u, data := data }
  (s.inject x h (.memReq q)).onDma x d.seq fun d => d.sentOne false

/-- Whether a descriptor of a window kind names no import of its tenant (Table BT-6). -/
def State.noImport (s : State) (x : Site) (d : Dma) : Bool :=
  6 ≤ d.kind && !(Map.get {} (s.ctx ((s.ownerOf x).getD 0)).imports (d.remote / 2 ^ 48)).isOpen

/-- A read kind sends its next request (R119). -/
def State.dmaRead (s : State) (x : Site) (kind : Nat) : State :=
  match (s.tile x).b.dmaSend kind with
  | none => s
  | some d =>
    if !s.dmaRuns x || d.units ≤ d.sent || 32 ≤ (s.tile x).b.outstanding kind then s
    else match s.dmaStart x d with
      | (false, s1) => s1
      | (true, s1) =>
        if s1.noImport x d then s1.dmaFail x d.seq E_WINDOW_PERM (d.unitRow d.sent)
        else s1.dmaRequest x d false (kind = 6) 0

/-- A write kind reads its next 64 bytes and sends them (R119). -/
def State.dmaWrite (s : State) (x : Site) (kind : Nat) (us : List Upset) : State :=
  match (s.tile x).b.dmaSend kind with
  | none => s
  | some d =>
    if !s.dmaRuns x || d.units ≤ d.sent || 32 ≤ (s.tile x).b.outstanding kind then s
    else match s.dmaStart x d with
      | (false, s1) => s1
      | (true, s1) =>
        let s2 := s1.upsetBt x us
        let r := s2.btRead x (d.unitLoc d.sent) 64 (siteSrc x)
        let s3 := r.2.2.present x .dma (d.unitLoc d.sent) 64
        if s1.noImport x d then s1.dmaFail x d.seq E_WINDOW_PERM (d.unitRow d.sent)
        else if r.2.1 then s3.dmaFail x d.seq E_ECC_UNCORRECTED (d.unitRow d.sent)
        else s3.dmaRequest x d true (kind = 7) (flitOf r.1)

/-- HBM_READ (R119, R418). -/
def execHbmRead (x : Site) (s : State) : Res := .next (s.dmaRead x 4)

/-- HBM_WRITE (R119, R418). -/
def execHbmWrite (x : Site) (us : List Upset) (s : State) : Res := .next (s.dmaWrite x 5 us)

/-- One more unit of a descriptor is answered. -/
def Dma.answer (d : Dma) (u : Nat) : Dma := { d with answered := if d.answered.contains u then d.answered else u :: d.answered }

/-- The started descriptor with a SEQ. -/
def State.dmaAt (s : State) (x : Site) (q : BitVec 16) : Option Dma := (s.tile x).b.dmas.find? fun d => d.seq = q && d.phase = .started

/-- Whether a unit lies in the failing row of a descriptor or behind it: it does not move (R121). -/
def Dma.cutOff (d : Dma) (u : Nat) : Bool := match d.failing with | some (r, _) => r ≤ d.unitRow u | none => false

/-- Units of a read move in their order, as far as their data has come (R119). -/
def State.dmaFlush : Nat → State → Site → BitVec 16 → State
  | 0, s, _, _ => s
  | k + 1, s, x, q =>
    match s.dmaAt x q with
    | none => s
    | some d =>
      match d.held.find? fun h => h.1 = d.moved with
      | none => s
      | some (u, data) =>
        let s1 := if d.cutOff u then s else (s.btPut x (d.unitLoc u) (flitBytes data)).present x .dma (d.unitLoc u) 64
        State.dmaFlush k (s1.onDma x q fun d => { d with moved := d.moved + 1, held := d.held.filter fun h => h.1 ≠ u }) x q

/-- A unit of data arrives: it is written once every unit before it is, and the descriptor finishes with its last one. -/
def State.dmaData (s : State) (x : Site) (q : BitVec 16) (u : Nat) (data : Flit) : State :=
  match s.dmaAt x q with
  | none => s
  | some d =>
    if d.answered.contains u then s
    else
      let s1 := s.onDma x q fun d => { d.answer u with held := d.held ++ [(u, data)] }
      (State.dmaFlush (d.held.length + 1) s1 x q).onDma x q fun d => if d.phase = .started then d.settle else d

/-- A unit is acknowledged. -/
def State.dmaAck (s : State) (x : Site) (q : BitVec 16) (u : Nat) : State :=
  s.onDma x q fun d => if d.phase = .started then (d.answer u).settle else d

/-- A unit is answered with a status that is not OK: its row fails. -/
def State.dmaNak (s : State) (x : Site) (q : BitVec 16) (u : Nat) (status : Status) : State :=
  match s.dmaAt x q with
  | none => s
  | some d => (s.onDma x q fun d => d.answer u).dmaFail x q status (d.unitRow u)

/-- WINDOW_READ: a replayed row takes its recorded data (R359); one without a record diverges (R360). -/
def State.windowRead (s : State) (x : Site) : State :=
  let t := (s.ownerOf x).getD 0
  match (s.ctx t).replay, (s.tile x).b.dmaSend 6 with
  | some r, some d =>
    if r.diverged || !s.dmaRuns x || d.units ≤ d.sent then s
    else match s.dmaStart x d with
      | (false, s1) => s1
      | (true, s1) =>
        let u := d.sent
        match r.recs.zipIdx.find? fun p => p.1.inStep 7 (s.replayStep r) && leNat ((p.1.payload.drop 2).take 2) = (siteSrc x).toNat &&
            leNat ((p.1.payload.drop 4).take 2) = d.seq.toNat && leNat ((p.1.payload.drop 6).take 2) = d.unitRow u &&
            leNat ((p.1.payload.drop 8).take 2) = u % (d.rowBytes / 64) with
        | none => s1.diverge t 0 1
        | some (rec, n) =>
          ((s1.onDma x d.seq fun d => { d with sent := d.sent + 1 }).markApplied t n).dmaData x d.seq u (flitOf ((rec.payload.drop 16).take 64))
  | _, _ => s.dmaRead x 6

/-- WINDOW_READ (R119, R336, R359). -/
def execWindowRead (x : Site) (s : State) : Res := .next (s.windowRead x)

/-- WINDOW_WRITE (R119, R338). -/
def execWindowWrite (x : Site) (us : List Upset) (s : State) : Res := .next (s.dmaWrite x 7 us)

/-! ## Completion (R120) -/

/-- The completion word. -/
def Dma.word (d : Dma) : List Byte := leBytes 2 d.status.toNat ++ leBytes 2 d.seq.toNat ++ leBytes 2 d.failRow.toNat ++ [0, 0]

/-- A signal that a tile makes: in a sealed section it leaves at the swap (R199). -/
def State.tileSignal (s : State) (x : Site) (i : BitVec 12) (count : Nat) : State :=
  if s.sealedAt x then s.onTile x fun t => { t with sealedSignals := t.sealedSignals ++ [(i, BitVec.ofNat 16 count)] }
  else match s.ownerOf x with
    | some t => (s.sendSignal t i count (siteSrc x)).signItem x 5 0 i.toNat (leBytes 2 count)
    | none => s

/-- Completes one descriptor: the word, then the signal. -/
def State.dmaComplete (s : State) (x : Site) (d : Dma) : State :=
  let s0 := s.onTile x fun t => { t with b := { t.b with dmas := t.b.dmas.filter fun e => e.seq ≠ d.seq } }
  let s1 := if d.flag 1 && !d.noWord then (s0.btPut x d.statusAddr d.word).present x .dma d.statusAddr 8 else s0
  let s2 := if d.noWord then
      s1.logTile x DMA_STATUS_ADDR (leBytes 2 d.seq.toNat ++ leBytes 2 0 ++ leBytes 4 d.statusAddr)
    else s1
  if d.flag 0 then s2.tileSignal x (BitVec.ofNat 12 (d.f 2 2)) 1 else s2

/-- Completes every finished descriptor at the head of the SEQ order. -/
def State.dmaCompletions : Nat → State → Site → State
  | 0, s, _ => s
  | k + 1, s, x =>
    match (s.tile x).b.dmas with
    | d :: _ => if d.phase = .finished then State.dmaCompletions k (s.dmaComplete x d) x else s
    | [] => s

/-- DMA_COMPLETION (R120, R121). -/
def execDmaCompletion (x : Site) (s : State) : Res := .next (if s.dmaRuns x then State.dmaCompletions 8 s x else s)

end Sys2Proof.Machine
end

