-- ==== Sys2Proof/Machine/Network.lean ====
section
/-! DEFINITION. The networks: the path of a flow packet over routers, field bridges and the spine (R60 to R73), refusals (R64, R71, R416,
R248), the weigh-house (R74 to R77), scheduled routing (R65, R66), and flit parity (R370). -/

namespace Sys2Proof.Machine

open Sys2Proof

/-! ## Paths (R68) -/

/-- The row-global column of a site (R60). -/
def globalCol (x : Site) : Nat := x.die.val % 4 * 34 + x.col.val

/-- The P-tile column that serves a site, of those its region holds (R68). -/
def State.pColumn (s : State) (x : Site) : Nat :=
  let near := if x.col.val ≤ 16 then 0 else 33
  match s.ownerOf x with
  | none => near
  | some t =>
    match regionCols (Map.get 0 (s.ctx t).regions x.die.val) with
    | some (a, b) => if a = 0 && b = 33 then near else if a = 0 then 0 else 33
    | none => near

/-- The step along the row toward a column: east or west. -/
def rowStep (here dest : Nat) : Fin 5 := if here < dest then 1 else 3

/-- The destination site of a head, where it names a tile. -/
def Head.site (h : Head) : Option Site := siteOf h.destDie.toNat h.destUnit.toNat

/-- Whether a head names a site. -/
def Head.isFor (h : Head) (x : Site) : Bool := h.site = some x

/-- The way to the P-tile of a packet that crosses the spine, at a router of the sending die. -/
def State.toSpine (s : State) (x : Site) (h : Head) : Fin 5 :=
  let sender := match siteOfSrc h.src with
    | some y => if y.die = x.die then y else x
    | none => x
  let c := s.pColumn sender
  if x.col.val = c then 4 else rowStep x.col.val c

/-- The output that a packet takes at a router; 4 is the local output, which at a P-tile also leads to the spine. -/
def State.route (s : State) (x : Site) (h : Head) : Fin 5 :=
  match h.site with
  | none => s.toSpine x h
  | some y =>
    if y.die = x.die then
      if x.col ≠ y.col then rowStep x.col.val y.col.val
      else if x.row.val < y.row.val then 2 else if y.row.val < x.row.val then 0 else 4
    else if y.die.val / 4 = x.die.val / 4 && !h.spine then rowStep (globalCol x) (globalCol y)
    else s.toSpine x h

/-! ## The spine (R72, R73) -/

/-- The group of the controller of a half's k-th stack (Table GR-3). -/
def stackGroup (k : Nat) : Nat := [0, 5, 10, 15, 3, 12].getD k 0

/-- Half and group at which a die's unit attaches (Table GR-3): a controller, unit 32 + k of its base spine die, at its stack's group. -/
def State.attach (s : State) (die unit : Nat) : Fin 2 × Fin 16 :=
  let v := s.pkg.variant
  let half := halfOf v die
  let g : Nat := match dieKind v die with
    | some .xd => if die < 20 then (if die % 2 = 0 then 1 else 14) else (if die % 2 = 0 then 3 else 12)
    | some .md => if die % 2 = 0 then 6 else 9
    | some .sd => 2
    | some .bd => if unit < 16 then unit else if 32 ≤ unit then stackGroup (unit - 32) else 13
    | some .hbm =>
      let k := match v with | .n40 => if die < 32 then die - 28 else die - 32 | _ => die - 28
      stackGroup (k % (stackCount v / 2))
    | _ => 2 * (die % 8)
  (half, Fin.ofNat 16 g)

/-- Half and group of the field port that leads to a site. -/
def State.fieldGroup (s : State) (x : Site) : Fin 2 × Fin 16 :=
  (halfOf s.pkg.variant x.die.val, Fin.ofNat 16 (2 * (x.die.val % 8) + if s.pColumn x = 0 then 0 else 1))

/-- Where the spine takes a packet: to a group, over the bridge, or out to the destination. -/
inductive SpineOut where
  | group (half : Fin 2) (g : Fin 16) (out : Nat)
  | leave
deriving DecidableEq, Repr

/-- One step of x-first routing between groups of a half. -/
def meshStep (half : Fin 2) (g dest : Fin 16) : SpineOut :=
  let x := g.val % 4
  let y := g.val / 4
  if x < dest.val % 4 then .group half (Fin.ofNat 16 (g.val + 1)) 1
  else if dest.val % 4 < x then .group half (Fin.ofNat 16 (g.val - 1)) 3
  else if y < dest.val / 4 then .group half (Fin.ofNat 16 (g.val + 4)) 2
  else if dest.val / 4 < y then .group half (Fin.ofNat 16 (g.val - 4)) 0
  else .leave

/-- The group of spine bridge lane L. -/
def bridgeGroup (l : Nat) : Fin 16 := Fin.ofNat 16 ([4, 7, 8, 11].getD l 4)

/-- The next step of a packet on the spine. -/
def State.spineNext (s : State) (half : Fin 2) (g : Fin 16) (h : Head) : SpineOut :=
  let dest := match h.site with
    | some y => s.fieldGroup y
    | none => s.attach h.destDie.toNat h.destUnit.toNat
  if dest.1 = half then meshStep half g dest.2
  else
    let b := bridgeGroup (dest.2.val % 4)
    if g = b then .group dest.1 g 6 else meshStep half g b

/-- The output number of a step: 0 to 3 group links, 6 the bridge, 4 the field port, 5 the service port. -/
def State.spineOut (s : State) (half : Fin 2) (g : Fin 16) (h : Head) : Nat :=
  match s.spineNext half g h with
  | .group _ _ o => o
  | .leave => if h.site.isSome then 4 else 5

/-! ## The weigh-house (R74 to R77) -/

/-- The tenants' positions in a frame, after the steward's two. -/
def ownerFrom (p : Nat) : List (Tenant × Nat) → Option Tenant
  | [] => none
  | (t, n) :: r => if p < n then some t else ownerFrom (p - n) r

/-- The tenant that owns position p of a frame; none for the steward's and the unassigned positions. -/
def State.positionOwner (s : State) (p frame : Nat) : Option Tenant :=
  if p < 2 then none else ownerFrom (p - 2) ((List.finRange 16).map fun t => (t, ((s.ctx t).shares.at frame).1))

/-- The link and strand that a packet takes next, as a key (R72). -/
def State.strandKey (s : State) (half : Fin 2) (g : Fin 16) (h : Head) : Nat :=
  ((half.val * 16 + g.val) * 8 + s.spineOut half g h) * 4 + h.src.toNat % 4

/-- The tenants with a packet ready for a strand. -/
def State.readyFor (s : State) (half : Fin 2) (g : Fin 16) (key : Nat) : List Tenant :=
  (s.net.flow.filter fun p => p.place = .spine half g && s.strandKey half g p.head = key).map fun p => p.head.tenant

/-- The tenants in round-robin order after a borrower: 0 is the steward, n + 1 tenant n. The steward's own traffic moves within the row that
causes it (log entry 10), so it never has a flit that waits for a strand, and its turn passes to the next. -/
def borrowOrder (last : Nat) : List Tenant := (List.range 17).filterMap fun i =>
  let k := (last + 1 + i) % 17
  if k = 0 then none else some (Fin.ofNat 16 (k - 1))

/-- Units of 1/480 beat in one SCLK cycle (R29, R30). -/
def sclkUnits : Nat := 12

/-- The SCLK cycles that begin in the FCLK cycle in hand and that a strand, whose last used cycle is `used` - 1, can still use. -/
def State.strandCycles (s : State) (used : Nat) : List Nat :=
  (List.range (s.clk.units / sclkUnits + 1)).drop (max used ((s.clk.units + sclkUnits - fclkUnits s.clk.point) / sclkUnits))

/-- Whether the tenant of a head sends a flit in an SCLK cycle of its strand, and whether it borrows: an owned cycle, or a lent one whose turn
is its own (R75, R76). -/
def State.grantIn (s : State) (half : Fin 2) (g : Fin 16) (h : Head) (cyc : Nat) : Option Bool :=
  let key := s.strandKey half g h
  let ready := s.readyFor half g key
  let owner := s.positionOwner (bitrev6 (cyc % 64)) (cyc / 64)
  if owner = some h.tenant then some false
  else if owner.any fun o => ready.contains o then none
  else
    let turn := (borrowOrder (Map.get 0 s.net.borrower (2 * key))).find? fun t => ready.contains t && ((s.ctx t).shares.at (cyc / 64)).2
    if turn = some h.tenant then some true else none

/-- The first SCLK cycle of the FCLK cycle in hand in which a head's tenant sends a flit on its strand, and whether it borrows it. -/
def State.strandGrant (s : State) (half : Fin 2) (g : Fin 16) (h : Head) : Option (Nat × Bool) :=
  (s.strandCycles (Map.get 0 s.net.borrower (2 * s.strandKey half g h + 1))).findSome? fun c => (s.grantIn half g h c).map fun l => (c, l)

/-- Uses a strand's cycle. -/
def State.useStrand (s : State) (key : Nat) (t : Tenant) (cyc : Nat) (lent : Bool) : State :=
  let b := Map.set 0 s.net.borrower (2 * key + 1) (cyc + 1)
  { s with net := { s.net with borrower := if lent then Map.set 0 b (2 * key) (t.val + 1) else b } }

/-! ## Refusals -/

/-- Whether a die refuses packets: CLOSING or OFF (R248). -/
def State.dieDown (s : State) (d : Nat) : Bool :=
  match (s.die d).state with
  | .closing => true
  | .off => true
  | _ => false

/-- The status with which entry to a router is refused (R64, R71, R248; log entry 21). A CLOSING die refuses what is for it and lets other
packets pass; the outputs of one that is OFF are clamped, and nothing passes (log entry 49). -/
def State.entryRefusal (s : State) (y : Site) (h : Head) (crossing : Bool) : Option Status :=
  if crossing && s.dieDown y.die.val && (h.destDie.toNat = y.die.val || (s.die y.die.val).state = .off) then some NAK_DOWN
  else if s.ownerOf y ≠ some h.tenant then some NAK_REGION
  else if crossing && s.isScheduled y then some NAK_SEALED
  else none

/-- REGION_VIOLATION (Table IG-5). -/
def State.logViolation (s : State) (src : Src) (owner : Option Tenant) (h : Head) : State :=
  s.logEv src REGION_VIOLATION (tenantByte h.tenant)
    ([tenantByte h.tenant, optTenant owner] ++ leBytes 2 h.src.toNat ++ [BitVec.ofNat 8 h.destDie.toNat, 0] ++ leBytes 2 h.destUnit.toNat)

/-- Row and memory kind of what a NAK answers. -/
def Body.nakInfo : Body → Nat × Bool
  | .memReq r => (r.row, true)
  | .hbmCall c => (c.req.row, true)
  | .readRsp row _ _ => (row, true)
  | .writeAck row _ => (row, true)
  | _ => (0, false)

/-- The NAK of a packet, from a refusing unit (R71). -/
def nakOf (p : Packet) (src : Src) (place : Place) (code : Status) : Packet :=
  { place := place
    head := { p.head with vc := true, destDie := BitVec.ofNat 6 (p.head.src.toNat / 1024),
                          destUnit := BitVec.ofNat 10 (p.head.src.toNat % 1024), ep := 0, kind := 4, src := src }
    body := .nak { code := code, ofKind := p.head.kind, tagKind := BitVec.ofNat 2 (p.head.tag.toNat / 16384), die := p.head.destDie, unit := p.head.destUnit,
                   mem := p.body.nakInfo.2, row := p.body.nakInfo.1 } }

/-- Removes the packet with a number. -/
def State.dropPacket (s : State) (k : Nat) : State := { s with net := { s.net with flow := s.net.flow.eraseIdx k } }

/-- Adds a packet at the end. -/
def State.addPacket (s : State) (p : Packet) : State := { s with net := { s.net with flow := s.net.flow ++ [p] } }

/-- Moves a packet. -/
def State.movePacket (s : State) (k : Nat) (p : Packet) (dest : Place) : State := (s.dropPacket k).addPacket { p with place := dest, crossed := 0 }

/-- The flits of a packet (R67). -/
def Packet.flits (p : Packet) : Nat := match p.body with | .chan fs => max 1 fs.length | _ => 1

/-- A response that a die refused is counted by its sender and logged: NAK_DOWN_RSP (R249). -/
def State.logDownRsp (s : State) (src : Src) (tenant : Tenant) (die : Nat) (tag : Nat) : State :=
  { s with net := { s.net with downRsps := Map.upd 0 s.net.downRsps src.toNat fun n => addSat n 1 } }.logEv src NAK_DOWN_RSP (tenantByte tenant) ([BitVec.ofNat 8 die, 0] ++ leBytes 2 tag)

/-- Refuses a packet: it goes back as a NAK, logged where R71 says; a NAK is discarded and logged (R71, R249). -/
def State.refusePacket (s : State) (k : Nat) (p : Packet) (src : Src) (place : Place) (owner : Option Tenant) (code : Status) : State :=
  let s1 := s.dropPacket k
  if p.head.kind = 4 then
    if code = NAK_DOWN then s1.logDownRsp p.head.src p.head.tenant p.head.destDie.toNat p.head.tag.toNat
    else s1.logViolation src owner p.head
  else
    let s2 := if code = NAK_REGION then s1.logViolation src owner p.head else s1
    s2.addPacket (nakOf p src place code)

/-! ## Arrival at a site (R416) -/

/-- Whether a packet names a good site without an endpoint for it. -/
def noEndpoint (x : Site) (p : Packet) : Bool :=
  match p.body with
  | .chan _ => siteKind x = .m || siteKind x = .p
  | .close => siteKind x = .m || siteKind x = .p
  | .gridWrite _ => siteKind x ≠ .b
  | .memReq _ => true
  | _ => false

/-- CH_ORPHAN (R66, R186): logged, counted, and the step ends. -/
def State.orphan (s : State) (x : Site) (h : Head) : State :=
  let s1 := s.logTile x CH_ORPHAN ([BitVec.ofNat 8 h.ep.val, 0] ++ leBytes 2 h.src.toNat ++ leBytes 2 h.tag.toNat)
  (s1.onTile x fun t => { t with chOrphans := addSat t.chOrphans 1 }).causeAt x E_EP_CLOSED (siteSrc x)

/-! ## Parity (R370) -/

/-- ROUTE_PARITY. -/
def State.logRouteParity (s : State) (x : Site) (port : Nat) (src : Nat) : State :=
  (s.logTile x ROUTE_PARITY ([BitVec.ofNat 8 port, 0, 0, 0] ++ leBytes 2 src)).causeAt x E_CFG_CRC (siteSrc x)

/-- Whether two heads belong to one channel. -/
def sameChannel (a b : Head) : Bool := a.src = b.src && a.destDie = b.destDie && a.destUnit = b.destUnit && a.ep = b.ep && a.kind = b.kind

/-- A channel packet was lost: none of its channel that follows is delivered. -/
def State.cutChannel (s : State) (h : Head) : State :=
  if h.kind = 0 && h.tag.toNat / 16384 = 0 then
    let n := { s.net with flow := s.net.flow.filter (fun p => !sameChannel p.head h), sched := s.net.sched.filter (fun p => !sameChannel p.head h) }
    let s1 := { s with net := n }
    match siteOfSrc h.src with
    | some y => s1.onTile y fun t => { t with outs := Map.upd {} t.outs (h.tag.toNat / 2048 % 8) fun o => { o with cut := true } }
    | none => s1
  else s

/-! ## One hop -/

/-- Whether a packet is the first of its place and virtual channel. -/
def firstAtPlace (ps : List Packet) (k : Nat) (p : Packet) : Bool :=
  (ps.take k).all fun q => !(q.place = p.place && q.head.vc = p.head.vc)

/-- Whether a packet is the first of its tenant, virtual channel and strand at a spine group. -/
def firstOnStrand (ps : List Packet) (k : Nat) (p : Packet) : Bool :=
  (ps.take k).all fun q => !(q.place = p.place && q.head.vc = p.head.vc && q.head.tenant = p.head.tenant &&
    q.head.src.toNat % 4 = p.head.src.toNat % 4)

/-- Splits a packet into one-flit packets for a scheduled router (R184). -/
def oneFlit (b : Body) : Body × Option Body :=
  match b with
  | .chan (f :: g :: fs) => (.chan [f], some (.chan (g :: fs)))
  | b => (b, none)

/-- The TAG of a channel's next flit: its count goes up modulo 2,048 (R184). -/
def nextTag (t : BitVec 16) : BitVec 16 := (t &&& 0xF800) ||| ((t + 1) &&& 0x07FF)

/-- A packet that waits in a scheduled tile presents its next flit when a slot takes it (R184). -/
def State.presentFlit (s : State) (k : Nat) (p : Packet) (x : Site) : State :=
  if s.localSlot x && !s.frozenAt x && !s.net.sched.any (fun f => f.site = x && f.port = 4 && f.at_ = s.cycleAt x) then
    match oneFlit p.body with
    | (b, none) => (s.dropPacket k).injectSched x p.head b
    | (b, some rest) =>
      let n := { s.net with flow := s.net.flow.set k { p with body := rest, head := { p.head with tag := nextTag p.head.tag } } }
      { s with net := n }.injectSched x p.head b
  else s

/-- A packet enters the local output of a router: it is delivered, refused (R416, R24), or enters PS-OUT. -/
def State.localHop (s : State) (k : Nat) (p : Packet) (x : Site) : State :=
  if p.head.isFor x then
    if s.isFused x then s.refusePacket k p (siteSrc x) (.router x 4) none NAK_NO_TARGET
    else if noEndpoint x p then s.refusePacket k p (siteSrc x) (.router x 4) none NAK_NO_TARGET
    else s.movePacket k p (.arrived x)
  else if dieKind s.pkg.variant p.head.destDie.toNat = none || (p.head.destDie.toNat < 16 && p.head.site.isNone) then
    s.refusePacket k p (siteSrc x) (.router x 4) none NAK_NO_TARGET
  else s.movePacket k p (.arrived x)

/-- The unit number of the bridge end at an edge port (R62). -/
def bridgeEnd (x : Site) (port : Fin 5) : Src := srcOf x.die.val (match port with | 0 => 544 | 1 => 545 | 2 => 546 | _ => 547)

/-- A packet leaves a router. -/
def State.routerHop (s : State) (k : Nat) (p : Packet) (x : Site) : State :=
  let o := s.route x p.head
  if o = 4 then s.localHop k p x
  else match neighbour x o.val with
    | none => s.refusePacket k p (siteSrc x) (.router x 4) none NAK_NO_TARGET
    | some y =>
      let crossing := y.die ≠ x.die
      match s.entryRefusal y p.head crossing with
      | some code =>
        let src := if code = NAK_DOWN then bridgeEnd x o else siteSrc x
        s.refusePacket k p src (.router x 4) (s.ownerOf y) code
      | none => s.movePacket k p (.router y (oppositePort o.val))

/-- The signature counts what a P-tile sends to HBM and windows (R365). -/
def State.signPacket (s : State) (x : Site) (p : Packet) : State :=
  match p.body with
  | .memReq r =>
    let kind := if r.window then (if r.write then 2 else 4) else (if r.write then 1 else 3)
    s.signItem x kind r.va.toNat r.handle.toNat (if r.write then flitBytes r.data else leBytes 2 r.bytes)
  | _ => s

/-- A packet in a P-tile's PS-OUT enters the spine, which reads PS-OUT in a freeze too (R95). -/
def State.psOut (s : State) (k : Nat) (p : Packet) (x : Site) : State :=
  let g : Fin 16 := Fin.ofNat 16 (2 * (x.die.val % 8) + if x.col.val = 0 then 0 else 1)
  (s.signPacket x p).movePacket k p (.spine (halfOf s.pkg.variant x.die.val) g)

/-- A translated request reaches the service port of its controller, which takes it up (R207, R418). -/
def State.takeCall (s : State) (h : Head) (c : HbmCall) : State :=
  let q : HbmReq := { dpa := c.dpa, write := c.req.write, bytes := 64, data := c.req.data, head := h, row := c.req.row }
  { s with mem := { s.mem with reqs := s.mem.reqs ++ [q] } }

/-- A packet leaves the spine to its destination: through a field port, or to a unit. -/
def State.leaveSpine (s : State) (k : Nat) (p : Packet) (half : Fin 2) (g : Fin 16) : State :=
  let port := srcOf (26 + half.val) g.val
  match p.head.site with
  | some y =>
    let entry := atCol y (s.pColumn y)
    match s.entryRefusal entry p.head true with
    | some code => s.refusePacket k p port (.spine half g) (s.ownerOf entry) code
    | none => s.movePacket k p (.router entry 4)
  | none =>
    if s.dieDown p.head.destDie.toNat then s.refusePacket k p port (.spine half g) none NAK_DOWN
    else if p.head.kind = 0 || (match p.body with | .gridWrite _ => true | _ => false) then
      s.refusePacket k p port (.spine half g) none NAK_NO_TARGET
    else match p.body with
      | .hbmCall c => (s.dropPacket k).takeCall p.head c
      | _ => s.movePacket k p (.unit (Fin.ofNat 40 p.head.destDie.toNat) p.head.destUnit)

/-- One more flit of a packet crosses the link that it is on. -/
def State.crossFlit (s : State) (k : Nat) (p : Packet) : State :=
  { s with net := { s.net with flow := s.net.flow.set k { p with crossed := p.crossed + 1 } } }

/-- A flit of a packet crosses a spine link when its strand's cycle is its tenant's; the last one brings the packet to the link's end. -/
def State.spineHop (s : State) (k : Nat) (p : Packet) (half : Fin 2) (g : Fin 16) : State :=
  match s.strandGrant half g p.head with
  | none => s
  | some (cyc, lent) =>
    let s1 := s.useStrand (s.strandKey half g p.head) p.head.tenant cyc lent
    if p.crossed + 1 < p.flits then s1.crossFlit k p
    else match s.spineNext half g p.head with
    | .group h2 g2 _ => s1.movePacket k p (.spine h2 g2)
    | .leave => s1.leaveSpine k p half g

/-- FLOW_PACKET_HOP. -/
def State.flowHop (s : State) (k : Nat) (bad : Bool) : State :=
  match s.net.flow[k]? with
  | none => s
  | some p =>
    if !s.alive then s
    else match p.place with
      | .router x port =>
        if !firstAtPlace s.net.flow k p || s.frozenAt x then s
        else if bad then ((s.dropPacket k).logRouteParity x port.val p.head.src.toNat).cutChannel p.head
        else if port = 4 && s.isScheduled x && siteOfSrc p.head.src = some x then s.presentFlit k p x
        else s.routerHop k p x
      | .arrived x =>
        if siteKind x = .p && !p.head.isFor x && firstAtPlace s.net.flow k p then s.psOut k p x else s
      | .spine half g => if firstOnStrand s.net.flow k p then s.spineHop k p half g else s
      | .unit _ _ => s

/-- FLOW_PACKET_HOP (R68, R71). -/
def execFlowPacketHop (k : Nat) (bad : Bool) (s : State) : Res := .next (s.flowHop k bad)

/-! ## Scheduled routing (R66) -/

/-- SLOT_MISS. -/
def State.slotMiss (s : State) (x : Site) (port slot : Nat) : State :=
  let d := x.die.val
  let n := { s.net with slotMiss := Map.upd 0 s.net.slotMiss d fun c => addSat c 1,
                        slotMissLast := Map.set 0 s.net.slotMissLast d ((siteSrc x).setWidth 32) }
  { s with net := n }.logTile x SLOT_MISS ([BitVec.ofNat 8 port, 0] ++ leBytes 2 slot)

/-- The packets beyond a site's local output that wait for the unit behind it: at a B-tile and a V-tile those of its inbound queues and
skid buffers, at a P-tile those on their way into PS-OUT (R112, R187). -/
def State.waitingAt (s : State) (x : Site) : List Packet :=
  s.net.flow.filter fun q => q.place = .arrived x && (siteKind x ≠ .p || !q.head.isFor x)

/-- Entries of PS-OUT (Table TM-3). -/
def psOutDepth : Nat := 32

/-- Whether PS-OUT, or what waits to enter it, leaves no entry for one flit more. -/
def State.psOutFull (s : State) (x : Site) : Bool := psOutDepth ≤ ((s.waitingAt x).map Packet.flits).sum

/-- Whether a queue takes no flit more: the B-tile's inbound queue of 16, a port queue of 16 entries of which a flit fills 8, PS-OUT. -/
def State.queueFull (s : State) (x : Site) (ep : Nat) : Bool :=
  let t := s.tile x
  match siteKind x with
  | .b => 16 ≤ (s.waitingAt x).length + t.b.ports.inb.length
  | .v => 8 < (Map.get [] t.v.queues ep).length + 8 * ((s.waitingAt x).filter fun q => q.head.ep.val = ep).length
  | .p => s.psOutFull x
  | .m => false

/-- Whether a site's skid buffers have drained, and its queues have a free entry (R112, R187). -/
def State.skidEmpty (s : State) (x : Site) : Bool :=
  match siteKind x with
  | .p => ((s.waitingAt x).map Packet.flits).sum ≤ psOutDepth
  | _ => (List.range 8).all fun e => !s.queueFull x e

/-- A scheduled flit through the local output: a misdelivered one is discarded (R66), one that finds the unit's queue full asserts the
seal stall (R112, R187). A fused-off tile has no endpoints (R22): the status for absent targets answers an OPEN (Table CH-3), and nothing is
stored. DESIGN CHOICE (log entry 86): a flit that names its own site but finds no endpoint for it there (a GRID_WRITE at an M-tile or
V-tile, channel data at an M-tile, either at a fused-off tile) is handled as a misdelivered one, since R416 speaks of flow packets only. -/
def State.schedLocal (s : State) (x : Site) (h : Head) (b : Body) : State :=
  let p : Packet := { place := .arrived x, head := h, body := b }
  if siteKind x = .p && !h.isFor x then (if s.queueFull x 0 then s.assertSeal x 4 else s).addPacket p
  else if h.isFor x && s.isFused x then
    match b with
    | .openReq _ => s.addPacket (nakOf p (siteSrc x) (.router x 4) NAK_NO_TARGET)
    | _ => s.orphan x h
  else if !h.isFor x || noEndpoint x p then s.orphan x h
  else
    let queued : Bool := siteKind x = .b || (match b with | .chan _ => true | _ => false)
    (if queued && s.queueFull x h.ep.val then s.assertSeal x 4 else s).addPacket p

/-- A copy of a flit leaves through one output: one cycle in the router, and four more over a bridge lane. DESIGN CHOICE (log entry 86): a copy
for an output port that is absent vanishes with no SLOT_MISS and no log entry, since an entry took it; one whose next router has another
owner is discarded and logged as REGION_VIOLATION, since R71 gives its refusals for flow packets only. -/
def State.schedOut (x : Site) (f : SchedFlit) (s : State) (o : Nat) : State :=
  if o = 4 then s.schedLocal x f.head f.body
  else match neighbour x o with
    | none => s
    | some y =>
      if s.ownerOf y ≠ some f.head.tenant then s.logViolation (siteSrc x) (s.ownerOf y) f.head
      else
        let hop := if y.die = x.die then 1 else 5
        { s with net := { s.net with sched := s.net.sched ++ [{ f with site := y, port := oppositePort o, at_ := f.at_ + hop }] } }

/-- SCHEDULED_FLIT: the flit leaves through every output whose entry in the next cycle selects its input, else it is discarded. -/
def State.schedHop (s : State) (k : Nat) (parity : Option (Fin 7)) : State :=
  match s.net.sched[k]? with
  | none => s
  | some f =>
    let x := f.site
    let t := s.tile x
    if !s.alive || s.frozenAt x || s.cycleAt x < f.at_ then s
    else
      let s1 := { s with net := { s.net with sched := s.net.sched.eraseIdx k } }
      if t.parityStop then s1
      else match parity with
        | some c =>
          if c.val < 5 then (s1.logRouteParity x c.val f.head.src.toNat).cutChannel f.head
          else (s1.onTile x fun t => { t with parityStop := true }).logRouteParity x c.val 0
        | none =>
          let slot := t.slot (f.at_ + 1)
          match t.outputsFor slot f.port.val with
          | [] => s1.slotMiss x f.port.val slot
          | os => os.foldl (State.schedOut x f) s1

/-- SCHEDULED_FLIT (R66). -/
def execScheduledFlit (k : Nat) (parity : Option (Fin 7)) (s : State) : Res := .next (s.schedHop k parity)

end Sys2Proof.Machine
end

