-- ==== Sys2Proof/Machine/Operands.lean ====
section
/-! DEFINITION. The operands of tile instructions: fields of an instruction word, scalars (R130, R152), rows and accumulators of an
M-tile (R128, R132), lanes and masks of a V-tile (R153), and the words of a format in a row (R133). -/

namespace Sys2Proof.Machine

open Sys2Proof

/-! ## Fields -/

/-- Bits hi to lo of an instruction word. -/
def fld (w : DWord) (hi lo : Nat) : Nat := (w.toNat >>> lo) % 2 ^ (hi + 1 - lo)

/-- A field as a signed number. -/
def sfld (w : DWord) (hi lo : Nat) : Int := signed (hi + 1 - lo) (fld w hi lo)

/-- OPCODE of an instruction (R130, R155). -/
def opcodeOf (w : DWord) : Nat := fld w 63 58

/-! ## Scalars -/

/-- Scalars of a sequencer: q0 to q7 of an M-tile, s0 to s15 of a V-tile. -/
def scalarCount (k : TileKind) : Nat := match k with | .m => 8 | .v => 16 | _ => 0

/-- A scalar of the tile at a site. -/
def State.scalar (s : State) (x : Site) (k : Nat) : Word :=
  match siteKind x with
  | .m => Map.get 0 (s.tile x).m.q k
  | _ => Map.get 0 (s.tile x).v.s k

/-- Writes a scalar. -/
def Tile.setScalar (t : Tile) (kind : TileKind) (k : Nat) (v : Word) : Tile :=
  match kind with
  | .m => { t with m := { t.m with q := Map.set 0 t.m.q k v } }
  | _ => { t with v := { t.v with s := Map.set 0 t.v.s k v } }

/-- Writes a scalar of the tile at a site. -/
def State.setScalar (s : State) (x : Site) (k : Nat) (v : Word) : State := s.onTile x fun t => t.setScalar (siteKind x) k v

/-! ## M-tile rows -/

/-- Number of latch A and latch B as registers. -/
def latchA : Nat := 8
def latchB : Nat := 9

/-- Bytes of a data row; an empty register holds zeros (R128). -/
def MState.row (m : MState) (r row off n : Nat) : List Byte := Memory.read m.t (r * 4096 + row * 64 + off) n

/-- Bytes of a scale-side row. -/
def MState.scaleRow (m : MState) (r row off n : Nat) : List Byte := Memory.read m.scale (r * 512 + row * 8 + off) n

/-- Marks registers as full: t0 to t7 are bits 0 to 7, a0 to a3 bits 8 to 11, the latches bits 12 and 13 (M_FULL). -/
def MState.fill (m : MState) (bit : Nat) : MState := { m with full := m.full ||| (1 <<< bit) }

/-- The bit of M_FULL of a register number, latches included. -/
def fullBit (r : Nat) : Nat := if r < 8 then r else r + 4

/-- Writes bytes of a data row. -/
def MState.putRow (m : MState) (r row off : Nat) (bs : List Byte) : MState :=
  { m with t := Memory.write m.t (r * 4096 + row * 64 + off) bs }.fill (fullBit r)

/-- Writes bytes of a scale-side row. -/
def MState.putScale (m : MState) (r row off : Nat) (bs : List Byte) : MState :=
  { m with scale := Memory.write m.scale (r * 512 + row * 8 + off) bs }.fill (fullBit r)

/-- An accumulator element. -/
def MState.elem (m : MState) (a row col : Nat) : Word := Map.get 0 m.acc (a * 512 + row * 32 + col)

/-- Writes one accumulator element. -/
def MState.putElem (m : MState) (a row col : Nat) (v : Word) : MState :=
  { m with acc := Map.set 0 m.acc (a * 512 + row * 32 + col) v }.fill (8 + a)

/-- Makes a data register empty. -/
def MState.clearReg (m : MState) (r : Nat) : MState :=
  { m with t := Map.keep m.t (fun k => !(r * 4096 ≤ k && k < (r + 1) * 4096)),
           scale := Map.keep m.scale (fun k => !(r * 512 ≤ k && k < (r + 1) * 512)), full := m.full &&& ~~~((1 : BitVec 14) <<< fullBit r) }

/-- Makes an accumulator empty. -/
def MState.clearAcc (m : MState) (a : Nat) : MState :=
  { m with acc := Map.keep m.acc (fun k => k / 512 ≠ a), full := m.full &&& ~~~((1 : BitVec 14) <<< (8 + a)) }

/-- Elements of a row in a format (R133). -/
def rowElems (f : Fmt) (bs : List Byte) : List Fp :=
  let x := leNat bs
  (List.range (bs.length * 8 / f.bits)).map fun i => f.decode (x >>> (f.bits * i))

/-- A row of element codes as bytes. -/
def packElems (bits : Nat) (cs : List Nat) : List Byte :=
  leBytes ((cs.length * bits + 7) / 8) ((cs.zipIdx.map fun c => c.1 * 2 ^ (bits * c.2)).sum)

/-! ## V-tile lanes and masks -/

/-- A lane of a vector register. -/
def VState.lane (v : VState) (r l : Nat) : Word := Map.get 0 v.v (r * 64 + l)

/-- Writes a lane. -/
def VState.putLane (v : VState) (r l : Nat) (w : Word) : VState := { v with v := Map.set 0 v.v (r * 64 + l) w }

/-- Writes all 64 lanes. -/
def VState.putLanes (v : VState) (r : Nat) (f : Nat → Word) : VState :=
  (List.range 64).foldl (fun v l => v.putLane r l (f l)) v

/-- A mask register. -/
def VState.mask (v : VState) (k : Nat) : BitVec 128 := Map.get 0 v.m k

/-- Writes a mask register. -/
def VState.putMask (v : VState) (k : Nat) (b : BitVec 128) : VState := { v with m := Map.set 0 v.m k b }

/-- A BF16 element of a register (R153). -/
def VState.half (v : VState) (r e : Nat) : BitVec 16 := (v.lane r (e / 2)).extractLsb' (16 * (e % 2)) 16

/-- Changes the V-tile state at a site. -/
def State.onV (s : State) (x : Site) (f : VState → VState) : State := s.onTile x fun t => { t with v := f t.v }

/-- Changes the M-tile state at a site. -/
def State.onM (s : State) (x : Site) (f : MState → MState) : State := s.onTile x fun t => { t with m := f t.m }

end Sys2Proof.Machine
end

