-- ==== Sys2Proof/Machine/Channels.lean ====
section
/-! DEFINITION. Channels: opening and closing (R180 to R186), port, ring and tally channels (R187 to R194), and the GRID_WRITE packets of a
B-tile (R417). -/

namespace Sys2Proof.Machine

open Sys2Proof

/-! ## Endpoints -/

/-- An inbound endpoint. -/
def Tile.inEp (t : Tile) (e : Nat) : InEp := Map.get {} t.ins e

/-- Changes an inbound endpoint. -/
def State.onIn (s : State) (x : Site) (e : Nat) (f : InEp → InEp) : State := s.onTile x fun t => { t with ins := Map.upd {} t.ins e f }

/-- An outbound endpoint. -/
def Tile.outEp (t : Tile) (e : Nat) : OutEp := Map.get {} t.outs e

/-- Changes an outbound endpoint. -/
def State.onOut (s : State) (x : Site) (e : Nat) (f : OutEp → OutEp) : State := s.onTile x fun t => { t with outs := Map.upd {} t.outs e f }

/-- The reply to an OPEN: an acceptance of KIND 3, or a refusal of KIND 4 with its status (R182). -/
def State.replyOpen (s : State) (x : Site) (r : OpenReq) (status : Status) : State :=
  let h := s.headOf x r.spine true (r.src.toNat / 1024) (r.src.toNat % 1024) 0 (if status = OK then 3 else 4) r.tag.toNat
  s.inject x h (.openRsp status)

/-! ## Arming (R188) -/

/-- What arming latches from a descriptor. -/
inductive Armed where
  | ring (r : RingLatch)
  | tally (r : TallyLatch)
  | refused (status : Status)
deriving DecidableEq, Repr

/-- Reads the descriptor of an inbound endpoint (Table CH-5). -/
def readDesc (bytes : List Byte) : Armed :=
  let d : BitVec 256 := BitVec.ofNat 256 (leNat bytes)
  let kind := byteField d 0 1
  let flags := byteField d 1 1
  let base := byteField d 4 4
  let common := flags < 2 && byteField d 2 2 < 4096 && base < 2 ^ 20 && base % 64 = 0
  let sig := flags = 1
  let beacon := BitVec.ofNat 12 (byteField d 2 2)
  if kind = 0 then .refused E_EP_KIND
  else if kind = 1 then
    let size := byteField d 8 4
    if common && 64 ≤ size && size % 64 = 0 && byteField d 12 4 = 0 && byteField d 28 4 = 0 && base + size ≤ 786176 then
      .ring { sig := sig, beacon := beacon, base := base, size := size,
              wr := BitVec.ofNat 32 (byteField d 16 4), rd := BitVec.ofNat 32 (byteField d 24 4) }
    else .refused E_BAD_FIELD
  else if kind = 2 then
    let vb := byteField d 8 2
    let nc := byteField d 10 1
    let ty := byteField d 11 1
    let res := byteField d 12 4
    let rb := if ty = 2 then 2 * vb else vb
    if common && 64 ≤ vb && vb ≤ 32768 && vb % 64 = 0 && 1 ≤ nc && nc ≤ 32 && ty < 3 && res < 2 ^ 20 && res % 64 = 0 &&
        byteField d 28 4 = 0 && base + 2 * nc * vb ≤ 786176 && res + 2 * rb ≤ 786176 then
      .tally { sig := sig, beacon := beacon, base := base, vbytes := vb, nc := nc, ty := BitVec.ofNat 8 ty, result := res,
               emitted := 0, taken := BitVec.ofNat 32 (byteField d 24 4), held := [], slots := [], start := 0, closed := 0 }
    else .refused E_BAD_FIELD
  else .refused E_BAD_FIELD

/-- The descriptor or the latched state of an endpoint: an armed endpoint keeps what it latched, another reads its descriptor with the checks
of every read (R123). -/
def State.armed (s : State) (x : Site) (e : Nat) : Armed × State :=
  match ((s.tile x).inEp e).ring, ((s.tile x).inEp e).tally with
  | some r, _ => (.ring r, s)
  | none, some r => (.tally r, s)
  | none, none =>
    let r := s.btTake x (epDesc e) 32 (siteSrc x)
    (readDesc r.1, r.2)

/-! ## OPEN at the target (R182, R192) -/

/-- Inserts a contributor in ascending order of rank and source number (R192). -/
def insertByRank (r : OpenReq) : List OpenReq → List OpenReq
  | [] => [r]
  | q :: qs =>
    if r.rank.toNat < q.rank.toNat || (r.rank = q.rank && r.src.toNat < q.src.toNat) then r :: q :: qs else q :: insertByRank r qs

/-- An OPEN at a tally endpoint (R192). -/
def State.openTally (s : State) (x : Site) (e : Nat) (l : TallyLatch) (r : OpenReq) : State :=
  let l := if l.closed = l.nc && l.slots.length = l.nc then { l with slots := [], closed := 0, start := l.emitted } else l
  if l.slots.length = l.nc then s.replyOpen x r E_TALLY_FULL
  else
    let held := l.held ++ [r]
    if held.length = l.nc then
      let slots := (held.foldl (fun a q => insertByRank q a) []).map fun q => (q, 0)
      held.foldl (fun a q => a.replyOpen x q OK) (s.onIn x e fun i => { i with tally := some { l with held := [], slots := slots } })
    else s.onIn x e fun i => { i with tally := some { l with held := held } }

/-- Checks 2 to 4 of R182. -/
def State.openChecked (s : State) (x : Site) (e : Nat) (r : OpenReq) : State :=
  let t := s.tile x
  if t.parked || siteKind x = .m || siteKind x = .p || r.ring ≠ (siteKind x = .b) then s.replyOpen x r E_EP_KIND
  else if siteKind x = .b then
    match s.armed x e with
    | (.refused E, s) =>
      if E = E_EP_KIND then s.replyOpen x r E
      else if bitsOf t.active.cfg 0 16 ≤ r.rank.toNat then s.replyOpen x r E_RANK
      else s.replyOpen x r E
    | (.ring l, s) =>
      if bitsOf t.active.cfg 0 16 ≤ r.rank.toNat then s.replyOpen x r E_RANK
      else if (t.inEp e).openFrom.isSome then s.replyOpen x r E_EP_BUSY
      else (s.onIn x e fun i => { i with ring := some l, openFrom := some r.src }).replyOpen x r OK
    | (.tally l, s) =>
      if bitsOf t.active.cfg 0 16 ≤ r.rank.toNat then s.replyOpen x r E_RANK else s.openTally x e l r
  else if bitsOf t.active.cfg 0 16 ≤ r.rank.toNat then s.replyOpen x r E_RANK
  else if (t.inEp e).openFrom.isSome then s.replyOpen x r E_EP_BUSY
  else (s.onIn x e fun i => { i with openFrom := some r.src }).replyOpen x r OK

/-- An OPEN request at its target (R182): another section holds or refuses it. -/
def State.openAt (s : State) (x : Site) (e : Nat) (r : OpenReq) : State :=
  let t := s.tile x
  if t.active.sect = r.sect then s.openChecked x e r
  else if t.shadowSection = r.sect then
    if (t.inEp e).pending.isSome then s.replyOpen x r E_EP_BUSY else s.onIn x e fun i => { i with pending := some r }
  else s.replyOpen x r E_SECTION

/-- A packet that its site takes now: the first of its virtual channel there, on a site that is not frozen or whose skid buffer drains. -/
def State.arrivedAt (s : State) (k : Nat) : Option (Site × Packet) :=
  match s.net.flow[k]? with
  | some p =>
    match p.place with
    | .arrived x => if s.alive && firstAtPlace s.net.flow k p && (!s.frozenAt x || s.drains x) then some (x, p) else none
    | _ => none
  | none => none

/-- OPEN_REQUEST. -/
def State.openRequest (s : State) (k : Nat) : State :=
  match s.arrivedAt k with
  | some (x, p) =>
    match p.body with
    | .openReq r => (s.dropPacket k).openAt x p.head.ep.val r
    | _ => s
  | none => s

/-- OPEN_REQUEST (R182). -/
def execOpenRequest (k : Nat) (s : State) : Res := .next (s.openRequest k)

/-! ## The reply and the close -/

/-- The status of an OPEN comes to its sender (R183): it is written to the scalar, and on OK the endpoint opens. -/
def State.openStatus (s : State) (x : Site) (e : Nat) (status : Status) : State :=
  let o := (s.tile x).outEp e
  if o.state = .pending then
    (s.setScalar x o.sd (status.setWidth 32)).onOut x e fun o =>
      { o with state := if status = OK && !o.swapped then .opened else .closed, flits := 0, cut := false, swapped := false }
  else s

/-- The outbound endpoint in a TAG (R184). -/
def tagEp (t : BitVec 16) : Nat := t.toNat / 2048 % 8

/-- OPEN_REPLY. -/
def State.openReply (s : State) (k : Nat) : State :=
  match s.arrivedAt k with
  | some (x, p) =>
    match p.body with
    | .openRsp status => (s.dropPacket k).openStatus x (tagEp p.head.tag) status
    | _ => s
  | none => s

/-- OPEN_REPLY (R183). -/
def execOpenReply (k : Nat) (s : State) : Res := .next (s.openReply k)

/-- CLOSE_MARKER: the inbound endpoint is free; a tally is free when every contributor has closed. -/
def State.closeMarker (s : State) (k : Nat) : State :=
  match s.arrivedAt k with
  | some (x, p) =>
    match p.body with
    | .close =>
      (s.dropPacket k).onIn x p.head.ep.val fun i =>
        { i with
          openFrom := if i.openFrom = some p.head.src then none else i.openFrom
          tally := i.tally.map fun l =>
            if l.slots.any fun q => q.1.src = p.head.src && tagEp q.1.tag = tagEp p.head.tag then { l with closed := l.closed + 1 } else l }
    | _ => s
  | none => s

/-- CLOSE_MARKER (R186). -/
def execCloseMarker (k : Nat) (s : State) : Res := .next (s.closeMarker k)

/-! ## Flits at their endpoint -/

/-- Takes the first flit off a packet: the packet goes with its last one. -/
def State.dropFlit (s : State) (k : Nat) (p : Packet) (rest : List Flit) : State :=
  if rest.isEmpty then s.dropPacket k
  else { s with net := { s.net with flow := s.net.flow.set k { p with body := .chan rest, head := { p.head with tag := nextTag p.head.tag } } } }

/-- PORT_FLIT: 8 entries go to the port queue once there is room; a flit without an open channel is an orphan (R186, R187). -/
def State.portFlit (s : State) (k : Nat) : State :=
  match s.arrivedAt k with
  | some (x, p) =>
    match p.body with
    | .chan (f :: fs) =>
      let e := p.head.ep.val
      let q := Map.get [] (s.tile x).v.queues e
      if siteKind x ≠ .v then s
      else if !p.accepted && ((s.tile x).inEp e).openFrom ≠ some p.head.src then (s.dropFlit k p fs).orphan x p.head
      else if q.length ≤ 8 then
        (s.dropFlit k p fs).onV x fun v =>
          { v with queues := Map.set [] v.queues e (q ++ (List.range 8).map fun i => f.extractLsb' (64 * i) 64) }
      else s
    | _ => s
  | none => s

/-- PORT_FLIT (R187). -/
def execPortFlit (k : Nat) (s : State) : Res := .next (s.portFlit k)

/-- Whether the inbound queue of a B-tile takes a flit (R112). -/
def State.inRoom (s : State) (x : Site) : Bool := (s.tile x).b.ports.inb.length < inQueueSize

/-- A flit that finds the inbound queue full waits: in flow routing it has no credit, in scheduled routing the skid buffer keeps it and the
seal stall is asserted (R112). -/
def State.inFull (s : State) (x : Site) : State := if s.isScheduled x then s.assertSeal x 4 else s

/-- An IN write of a B-tile. -/
def State.inWrite (s : State) (x : Site) (off : Nat) (bs : List Byte) : State := (s.btPut x off bs).present x .inb off bs.length

/-- The signal of a ring or tally endpoint (R190, R194). -/
def State.epSignal (s : State) (x : Site) (sig : Bool) (beacon : BitVec 12) : State := if sig then s.tileSignal x beacon 1 else s

/-- A flit of a ring channel is written (R189), and after the packet's last one WR and the signal (R190). -/
def State.ringWriteFlit (s : State) (x : Site) (e : Nat) (l : RingLatch) (f : Flit) (last : Bool) : State :=
  let s1 := s.inWrite x (l.base + l.wr.toNat % l.size) (flitBytes f)
  let wr := l.wr + 64
  let s2 := s1.onIn x e fun i => { i with ring := i.ring.map fun r => { r with wr := wr } }
  if last then (s2.inWrite x (epDesc e + 16) (leBytes 8 wr.toNat)).epSignal x l.sig l.beacon else s2

/-- The free space of a ring, modulo 2^32: with RD beyond WR it exceeds SIZE (R189). -/
def RingLatch.free (l : RingLatch) : Nat := (BitVec.ofNat 32 l.size - (l.wr - l.rd)).toNat

/-- RING_FLIT. -/
def State.ringFlit (s : State) (k : Nat) : State :=
  match s.arrivedAt k with
  | some (x, p) =>
    match p.body with
    | .chan (f :: fs) =>
      let e := p.head.ep.val
      let i := (s.tile x).inEp e
      if siteKind x ≠ .b || i.tally.isSome then s
      else if i.openFrom ≠ some p.head.src then (s.dropFlit k p fs).orphan x p.head
      else match i.ring with
        | none => s
        | some l =>
          if l.free < 64 then s
          else
            if s.inRoom x then (s.dropFlit k p fs).ringWriteFlit x e l f fs.isEmpty else s.inFull x
    | _ => s
  | none => s

/-- RING_FLIT (R189, R190). -/
def execRingFlit (k : Nat) (s : State) : Res := .next (s.ringFlit k)

/-- The slot of a contributor: its number and the flits it has delivered. -/
def TallyLatch.slotOf (l : TallyLatch) (src : Src) (ep : Nat) : Option (Nat × Nat) :=
  (l.slots.zipIdx.find? fun q => q.1.1.src = src && tagEp q.1.1.tag = ep).map fun q => (q.2, q.1.2)

/-- One more flit of a slot. -/
def TallyLatch.count (l : TallyLatch) (k : Nat) : TallyLatch :=
  { l with slots := l.slots.zipIdx.map fun q => if q.2 = k then (q.1.1, q.1.2 + 1) else q.1 }

/-- TALLY_FLIT: a flit goes to its slot's area unless round n − 2 still holds it (R193). -/
def State.tallyFlit (s : State) (k : Nat) : State :=
  match s.arrivedAt k with
  | some (x, p) =>
    match p.body with
    | .chan (f :: fs) =>
      let e := p.head.ep.val
      match ((s.tile x).inEp e).tally with
      | none => s
      | some l =>
        if siteKind x ≠ .b then s
        else match l.slotOf p.head.src (tagEp p.head.tag) with
          | none => (s.dropFlit k p fs).orphan x p.head
          | some (slot, done) =>
            let n := l.start.toNat + done * 64 / l.vbytes
            if l.emitted.toNat + 2 ≤ n then s
            else
              if s.inRoom x then
                let off := l.base + (n % 2 * l.nc + slot) * l.vbytes + done * 64 % l.vbytes
                ((s.dropFlit k p fs).inWrite x off (flitBytes f)).onIn x e fun i => { i with tally := i.tally.map fun l => l.count slot }
              else s.inFull x
    | _ => s
  | none => s

/-- TALLY_FLIT (R193). -/
def execTallyFlit (k : Nat) (s : State) : Res := .next (s.tallyFlit k)

/-! ## Emission (R194) -/

/-- One element of a contribution, as the accumulator holds it. -/
def tallyElem (ty : Nat) (bs : List Byte) (j : Nat) : Word :=
  if ty = 2 then widenBf16 (BitVec.ofNat 16 (leNat ((bs.drop (2 * j)).take 2))) else BitVec.ofNat 32 (leNat ((bs.drop (4 * j)).take 4))

/-- The sum of two elements: IEEE round to nearest, or modulo 2^32. -/
def tallyAdd (ty : Nat) (a b : Word) : Word := if ty = 1 then a + b else addF32 a b

/-- The result of one element over the contributions in slot order. -/
def tallySum (ty : Nat) (cs : List (List Byte)) (j : Nat) : Word :=
  match cs with
  | [] => 0
  | c :: r => r.foldl (fun a b => tallyAdd ty a (tallyElem ty b j)) (tallyElem ty c j)

/-- TALLY_EMIT: the contributions are read in slot order, added, and the result, EMITTED and the signal follow. -/
def State.tallyEmit (s : State) (x : Site) (e : Nat) (us : List Upset) : State :=
  match ((s.tile x).inEp e).tally with
  | none => s
  | some l =>
    if !s.btRuns x || !l.ready then s
    else
      let n := l.emitted.toNat
      let ty := l.ty.toNat
      let s0 := s.upsetBt x us
      let r := (List.range l.nc).foldl (fun (a : List (List Byte) × Bool × State) k =>
        let off := l.base + (n % 2 * l.nc + k) * l.vbytes
        let y := a.2.2.btRead x off l.vbytes (siteSrc x)
        (a.1 ++ [y.1], a.2.1 || y.2.1, y.2.2.presentTally x off l.vbytes)) ([], false, s0)
      if r.2.1 then r.2.2.causeAt x E_ECC_UNCORRECTED (siteSrc x)
      else
        let elems := if ty = 2 then l.vbytes / 2 else l.vbytes / 4
        let out := (List.range elems).flatMap fun j => leBytes 4 (tallySum ty r.1 j).toNat
        let off := l.result + n % 2 * out.length
        let s1 := ((r.2.2.btPut x off out).presentTally x off out.length).onIn x e fun i =>
          { i with tally := i.tally.map fun l => { l with emitted := l.emitted + 1 } }
        ((s1.btPut x (epDesc e + 16) (leBytes 8 ((n + 1) % 2 ^ 32))).presentTally x (epDesc e + 16) 8).epSignal x l.sig l.beacon

/-- TALLY_EMIT (R194). -/
def execTallyEmit (x : Site) (e : Fin 8) (us : List Upset) (s : State) : Res := .next (s.tallyEmit x e.val us)

/-! ## GRID_WRITE packets (R417) -/

/-- GRID_WRITE_FLIT: the word is written as an IN write, and acknowledged in flow routing. -/
def State.gridWriteFlit (s : State) (k : Nat) : State :=
  match s.arrivedAt k with
  | some (x, p) =>
    match p.body with
    | .gridWrite data =>
      if s.inRoom x then
        let s2 := (s.dropPacket k).inWrite x (p.head.tag.toNat % 16384 * 64) (flitBytes data)
        if s.isScheduled x then s2
        else
          s2.inject x (s2.headOf x p.head.spine true (p.head.src.toNat / 1024) (p.head.src.toNat % 1024) 0 3 p.head.tag.toNat) .gridAck
      else s.inFull x
    | _ => s
  | none => s

/-- GRID_WRITE_FLIT (R417). -/
def execGridWriteFlit (k : Nat) (s : State) : Res := .next (s.gridWriteFlit k)

end Sys2Proof.Machine
end

