-- ==== Sys2Proof/Machine/Flags.lean ====
section
/-! DEFINITION. The status bits of tile sequencers (M_STATUS, V_STATUS) and what stops a sequencer: illegal instructions (R151, R179),
class refusals (R142, R176), accesses beyond the view (R167), sends on closed endpoints (R185), parity errors (R369) and uncorrectable
reads (R125). -/

namespace Sys2Proof.Machine

open Sys2Proof

/-- The sequencer of a tile issues nothing further. -/
def Tile.stop (t : Tile) : Tile := { t with seq := { t.seq with stopped := true } }

/-- Sets ILLEGAL. -/
def Tile.flagIllegal (t : Tile) (kind : TileKind) : Tile :=
  match kind with
  | .m => { t with m := { t.m with illegal := true } }
  | _ => { t with v := { t.v with illegal := true } }

/-- Sets SEALED_CLASS. -/
def Tile.flagSealed (t : Tile) (kind : TileKind) : Tile :=
  match kind with
  | .m => { t with m := { t.m with sealedClass := true } }
  | _ => { t with v := { t.v with sealedClass := true } }

/-- The address as the two bytes IP of a log entry. -/
def ipBytes (ip : Nat) : List Byte := leBytes 2 ip

/-- An illegal instruction (R151, R179). -/
def State.illegalInsn (s : State) (x : Site) (w : DWord) (ip : Nat) : State :=
  let k := siteKind x
  let s1 := s.onTile x fun t => (t.flagIllegal k).stop
  (s1.logTile x (if k = .m then M_ILLEGAL else V_ILLEGAL) (ipBytes ip ++ List.replicate 6 0 ++ leBytes 8 w.toNat)).causeAt x
    E_ILLEGAL_INSN (siteSrc x)

/-- A class D or X instruction refused in a sealed section (R142, R176). -/
def State.classRefused (s : State) (x : Site) (w : DWord) (ip : Nat) : State :=
  let k := siteKind x
  let s1 := s.onTile x fun t => (t.flagSealed k).stop
  (s1.logTile x (if k = .m then M_CLASS else V_CLASS) (ipBytes ip ++ [BitVec.ofNat 8 (opcodeOf w), 0])).causeAt x E_SEALED_CLASS (siteSrc x)

/-- An access beyond the view (R167). -/
def State.beyondView (s : State) (x : Site) (ip offset : Nat) : State :=
  let s1 := s.onTile x fun t => { t with v := { t.v with view := true } }.stop
  (s1.logTile x V_VIEW (ipBytes ip ++ [0, 0] ++ leBytes 4 offset)).causeAt x E_VIEW (siteSrc x)

/-- A send on an endpoint that is not open: CH_NOT_OPEN (R185), or E_PEER_DOWN where the target's die went down (R249). -/
def State.sendClosed (s : State) (x : Site) (ip ep : Nat) (down : Bool) : State :=
  let s1 := s.onTile x fun t => t.stop
  if down then s1.causeAt x E_PEER_DOWN (siteSrc x)
  else (s1.logTile x CH_NOT_OPEN (ipBytes ip ++ [BitVec.ofNat 8 ep, 0])).causeAt x E_EP_CLOSED (siteSrc x)

/-- REG_PARITY, with severity 1 for a window-cache line and 2 otherwise (R369). -/
def State.logRegParity (s : State) (x : Site) (h : ParityHit) (ip : Nat) (sev : Byte) : State :=
  s.emit (siteSrc x) (.log REG_PARITY sev (optTenant (s.ownerOf x)) ([BitVec.ofNat 8 h.reg.val, BitVec.ofNat 8 h.row.val] ++ ipBytes ip))

/-- A parity error in what an instruction reads (R369, R371). -/
def State.regParity (s : State) (x : Site) (h : ParityHit) (ip : Nat) : State :=
  ((((s.onTile x fun t => t.stop).logRegParity x h ip 2).causeAt x E_ECC_UNCORRECTED (siteSrc x))).countUe x

/-- A tile read met an uncorrectable word (R125): the sequencer stops, and the step ends. -/
def State.uncorrectable (s : State) (x : Site) : State :=
  (s.onTile x fun t => t.stop).causeAt x E_ECC_UNCORRECTED (siteSrc x)

end Sys2Proof.Machine
end

