-- ==== Sys2Proof/Machine/Sequencer.lean ====
section
/-! DEFINITION. The sequencer of M-tiles and V-tiles: issue (R131, R156), the held words and the stream that will issue (R173), hardware
loops and control flow (R171, R172), and the common control subset (Table VT-7). -/

namespace Sys2Proof.Machine

open Sys2Proof

/-! ## The stream (R171, R173) -/

/-- Bytes of a tile's instruction memory (R128, R152). -/
def imemBytes (k : TileKind) : Nat := match k with | .m => 8192 | _ => 16384

/-- A word of a bank's instruction memory, keyed by address / 8: what was written, else what the bank holds (R84, R85). -/
def Bank.word (b : Bank) (i : Nat) : DWord :=
  match Map.look b.imem i with
  | some w => w
  | none => match b.unpredictable with
    | some n => Config.freeBankWord n i
    | none => 0

/-- The word at a byte address; a zero word beyond the end (R173). -/
def Tile.insn (t : Tile) (kind : TileKind) (a : Nat) : DWord := if a < imemBytes kind then t.active.word (a / 8) else 0

/-- The loop-back at the last word of a body: the innermost loop that ends there counts an iteration, or ends and lets the next one
decide (R171). -/
def loopBack (a : Nat) : List HwLoop → Option (Nat × List HwLoop)
  | [] => none
  | l :: ls =>
    if a = l.last then
      if 1 < l.count.toNat then some (l.first, { l with count := l.count - 1 } :: ls)
      else match loopBack a ls with
        | some r => some r
        | none => some (a + 8, ls)
    else match loopBack a ls with
      | some (f, r) => some (f, l :: r)
      | none => none

/-- The address that issues after one that does not transfer control. -/
def nextAddr (a : Nat) (loops : List HwLoop) : Nat × List HwLoop := (loopBack a loops).getD (a + 8, loops)

/-- The next addresses of the stream. -/
def streamAddrs : Nat → Nat → List HwLoop → List Nat
  | 0, _, _ => []
  | n + 1, a, loops => let r := nextAddr a loops; a :: streamAddrs n r.1 r.2

/-- The held words of a stream of addresses, from those held before in their order: each serves one place of the stream, in the form in which
it was fetched, and the other places are fetched now; an address that comes again, in a short loop body, is fetched again (R173, R174). -/
def holdFrom (imem : Nat → DWord) : List (Nat × DWord) → List Nat → List (Nat × DWord)
  | _, [] => []
  | old, a :: as =>
    match old.dropWhile fun e => e.1 ≠ a with
    | e :: rest => e :: holdFrom imem rest as
    | [] => (a, imem a) :: holdFrom imem old as

/-- The held words for the stream from an address (R173, R174). -/
def holdStream (imem : Nat → DWord) (old : List (Nat × DWord)) (a : Nat) (loops : List HwLoop) : List (Nat × DWord) :=
  holdFrom imem old (streamAddrs 3 a loops)

/-- Issue goes on at an address with loops, keeping the held words that still belong to the stream. -/
def Tile.goOn (t : Tile) (kind : TileKind) (old : List (Nat × DWord)) (a : Nat) (loops : List HwLoop) : Tile :=
  { t with seq := { t.seq with ip := a, loops := loops, held := holdStream (t.insn kind) old a loops } }

/-- Issue goes on at an address whose word is fetched anew; the words behind it are fetched as it issues (R173; log entry 84). -/
def Tile.refetch (t : Tile) (kind : TileKind) (a : Nat) (loops : List HwLoop) : Tile :=
  { t with seq := { t.seq with ip := a, loops := loops, held := [(a, t.insn kind a)] } }

/-! ## Issue -/

/-- Whether a tile's sequencer may issue: a configured M- or V-tile of a working die, not frozen, halted, pre-empted, stopped, waiting or
at its section's end. -/
def State.mayIssue (s : State) (x : Site) : Bool :=
  let t := s.tile x
  (siteKind x = .m || siteKind x = .v) && s.working && (s.die x.die.val).state = .on && (s.die x.die.val).steps = 8 && !t.parked &&
    !s.frozenAt x && !t.debugHalt && !t.seq.secend && !t.seq.stopped && !t.seq.waiting && (match t.m.tldw with | some d => !d.waiting | none => true) &&
    (match s.ownerOf x with
      | some o => !s.evicting o x && !(s.ctx o).preempted
      | none => false) && (match s.instAt x with | some i => !i.run.aborting | none => false)

/-- Where the pacer keeps the region of a site: die * 3, and 1 more for an east region (R234). -/
def State.paceKey (s : State) (x : Site) : Nat :=
  let b := match s.ownerOf x with | some t => Map.get 0 (s.ctx t).regions x.die.val | none => 0
  x.die.val * 3 + if b.toNat / 16 = 2 then 1 else 0

/-- Whether the pacer holds the issue of an opcode at a site: of TMMA and of the V-tile arithmetic in a section that is not sealed (R240),
or of everything while lo exceeds the ceiling (R241). -/
def State.paceHeld (s : State) (x : Site) (op : Nat) : Bool :=
  let p := Map.get {} s.power.pace (s.paceKey x)
  let arith : Bool := match siteKind x with | .m => op = 4 | _ => 1 ≤ op && op ≤ 7
  p.holdAll || (p.holding && arith && !s.sealedAt x)

/-- The word that issues next, its address, and whether it comes from the replay slot (R150). -/
def Tile.nextWord (t : Tile) (kind : TileKind) : DWord × Nat × Bool :=
  match t.seq.replay with
  | (a, w) :: _ => (w, a, true)
  | [] => match t.seq.held with
    | (a, w) :: _ => (w, a, false)
    | [] => (t.insn kind t.seq.ip, t.seq.ip, false)

/-! ## Hazards (R131, R156) -/

/-- What an instruction of the common control subset reads and writes: scalar k is register 16 + k (Table VT-7). -/
def commonUse (w : DWord) : List Nat × List Nat :=
  match opcodeOf w with
  | 0x32 => (if bitAt w 57 then [16 + fld w 56 53] else [], [])
  | 0x33 => ((16 + fld w 57 54) :: (if bitAt w 49 then [] else [16 + fld w 53 50]), [])
  | 0x37 => ([], [16 + fld w 57 54])
  | 0x38 => ((16 + fld w 53 50) :: (if bitAt w 45 then [] else [16 + fld w 49 46]), [16 + fld w 57 54])
  | 0x39 => ([16 + fld w 57 54, 16 + fld w 53 50, 17 + fld w 53 50], [])
  | 0x3B => ([16 + fld w 54 51], [16 + fld w 49 46])
  | 0x3D => (if bitAt w 45 then [16 + fld w 44 41] else [], [])
  | 0x3E => (if bitAt w 45 then [16 + fld w 44 41] else [], [])
  | 0x3F => ([], [16 + fld w 57 54, 17 + fld w 57 54])
  | _ => ([], [])

/-- An operand code of TMMA as a register: t0 to t7, latch A (SA) or latch B (SB), or an accumulator. -/
def mmaReg (latch code : Nat) : Nat := if code < 8 then code else if code = 8 then latch else code - 2

/-- What an M-tile instruction reads and writes: t0 to t7 are registers 0 to 7, latches A and B 8 and 9, a0 to a3 10 to 13 (Tables MT-4 and
MT-5). -/
def matrixUse (w : DWord) : List Nat × List Nat :=
  let t := fld w 57 55
  let sel := if fld w 40 37 < 8 then [] else [8 + fld w 40 37]
  match opcodeOf w with
  | 0x01 => (sel, [t])
  | 0x02 => (t :: sel, [])
  | 0x03 => ([16 + 2 * fld w 40 39, 17 + 2 * fld w 40 39], [t])
  | 0x04 => (mmaReg 8 (fld w 52 49) :: mmaReg 9 (fld w 48 45) :: (if bitAt w 53 then [] else [10 + fld w 55 54]),
             (10 + fld w 57 56) :: ((if bitAt w 44 then [8] else []) ++ (if bitAt w 43 then [9] else [])))
  | 0x05 => ([10 + fld w 57 56], [fld w 55 53])
  | 0x06 => ([fld w 55 53], [10 + fld w 57 56])
  | 0x07 => ([], (List.range 14).filter fun r => bitAt w (if r < 8 then 50 + r else 36 + r))
  | 0x08 => ([t], [])
  | 0x09 => ([t], [])
  | _ => commonUse w

/-- What a V-tile instruction reads and writes of the scalars; its other operands have no writer in flight (Tables VT-2, VT-3 and VT-5). -/
def vectorUse (w : DWord) : List Nat × List Nat :=
  let op := opcodeOf w
  let fn := fld w 57 52
  let b := 16 + fld w 38 35
  let d := 16 + fld w 48 45
  let bs := if bitAt w 34 then [b] else []
  match op with
  | 0x05 => (bs, if bitAt w 22 then [d] else [])
  | 0x08 => (if bitAt w 47 then [16 + fld w 46 43] else [], [])
  | 0x09 => (if bitAt w 47 then [16 + fld w 46 43] else [], [])
  | 0x0A => ([], if bitAt w 44 then [16 + fld w 43 40, 17 + fld w 43 40] else [])
  | 0x0C => (if fn = 0 then [] else [b], if fn = 0 then [d] else [])
  | 0x0D => (if fn = 7 then [b] else [], if fn = 8 ∨ fn = 9 then [d] else [])
  | _ => if op < 0x08 then (bs, []) else commonUse w

/-- The registers that a word reads and writes at a kind of tile. -/
def regUse (k : TileKind) (w : DWord) : List Nat × List Nat := match k with | .m => matrixUse w | _ => vectorUse w

/-- Whether an instruction must wait for one in flight that reads and writes registers (R131): it reads what that writes, or writes what that
reads or writes. -/
def meets (u rw : List Nat × List Nat) : Bool := u.1.any rw.2.contains || u.2.any fun r => rw.1.contains r || rw.2.contains r

/-- Whether an instruction must wait for a TMMA in the matrix unit (R131, R138, R144, R145). The TMMA reads its operands in every one of its
compute cycles, copies its latches as it reads them, and writes AD six cycles behind its last compute cycle; a TMMA that follows waits for the
issue interval, and for AD but where it takes the running value as AC. -/
def MmaRun.holds (r : MmaRun) (now : Nat) (w : DWord) : Bool :=
  let u := matrixUse w
  let own := matrixUse r.w
  if opcodeOf w = 0x04 then
    now < r.until_ ||
      (now < r.until_ + 7 &&
        (fld w 52 49 = 12 + r.ad || (fld w 57 56 = r.ad && !(!bitAt w 53 && fld w 55 54 = r.ad))))
  else (now ≤ r.until_ && meets u (own.1, own.2)) || (now < r.until_ + 7 && meets u ([], [10 + r.ad]))

/-- Whether the registers of a word are still read or written by an instruction in flight: a TLDW that has not completed, a TMMA, or an OPEN that
waits for its reply (R131, R183). -/
def Tile.hazard (t : Tile) (kind : TileKind) (now : Nat) (w : DWord) : Bool :=
  let u := regUse kind w
  (match t.m.tldw with | some d => meets u (matrixUse d.w) | none => false) || (t.m.mma.any fun r => r.holds now w) ||
    t.outs.any fun (e : Nat × OutEp) => e.2.state = .pending && meets u ([], [16 + e.2.sd])

/-- Whether an opcode is one that a kind of tile has (R130, R155). -/
def opDefined (k : TileKind) (op : Nat) : Bool :=
  (0x30 ≤ op && op ≤ 0x3F) || (1 ≤ op && op ≤ (match k with | .m => 0x0A | _ => 0x0E))

/-- What the effect of an instruction tells the sequencer. -/
inductive Eff where
  | wait
  | done (s : State)
  | jump (s : State) (target : Nat) (loops : List HwLoop)
  | loop (s : State) (target : Nat) (loops : List HwLoop)
  | ended (s : State)

/-- Takes the issued word: the stream goes on behind it, or the replay slot loses it. -/
def State.advance (s : State) (x : Site) (rep : Bool) : State :=
  s.onTile x fun t =>
    if rep then { t with seq := { t.seq with replay := t.seq.replay.drop 1 } }
    else
      let r := nextAddr t.seq.ip t.seq.loops
      t.goOn (siteKind x) (t.seq.held.drop 1) r.1 r.2

/-- One issue of an instruction with an opcode: it waits for the registers in flight; then its checks in order (parity, legality, class), and
its effect. A next word whose opcode the tile does not have is found illegal by the issue of any instruction, since the table has no row for
such a word (R130, R151, R155, R179; DESIGN CHOICE, log entry 89). -/
def State.issue (s : State) (i : Issue) (op : Nat) (legal : State → Site → DWord → Nat → Bool) (sealedBad : Bool)
    (effect : State → Site → DWord → Nat → Eff) : State :=
  let x := i.site
  if !s.mayIssue x || s.paceHeld x op then s
  else
    let n := (s.tile x).nextWord (siteKind x)
    let w := n.1
    let ip := n.2.1
    if opcodeOf w ≠ op then (if opDefined (siteKind x) (opcodeOf w) then s else s.illegalInsn x w ip)
    else if (s.tile x).hazard (siteKind x) s.clk.fclk w then s
    else
      let s1 := s.onTile x fun t => { t with issueStalls := addSat t.issueStalls i.stalls }
      let bad : Bool := match i.parity with | some h => h.reg.val ≠ 74 | none => false
      if bad then (match i.parity with | some h => s1.regParity x h ip | none => s)
      else if !legal s1 x w ip then s1.illegalInsn x w ip
      else if sealedBad && s.sealedAt x then s1.classRefused x w ip
      else match effect s1 x w ip with
        | .wait => s
        | .done s2 => s2.advance x n.2.2
        | .jump s2 a loops => s2.onTile x fun t => t.refetch (siteKind x) a loops
        | .loop s2 a loops => s2.onTile x fun t => t.goOn (siteKind x) (t.seq.held.drop 1) a loops
        | .ended s2 => s2

/-! ## Legality of the common subset -/

/-- Whether every bit outside the named fields is zero. -/
def onlyBits (w : DWord) (mask : DWord) : Bool := w &&& ~~~(mask ||| 0xFC00000000000000) = 0

/-- Whether a scalar number names a scalar of the tile (R130). -/
def scalarOk (x : Site) (k : Nat) : Bool := k < scalarCount (siteKind x)

/-- Whether a branch target lies in the instruction memory (R172). -/
def targetOk (x : Site) (ip : Nat) (off : Int) : Bool :=
  0 ≤ (ip : Int) + 8 * off && (ip : Int) + 8 * off < (imemBytes (siteKind x) : Int)

/-- The target of an OFF. -/
def targetOf (ip : Nat) (off : Int) : Nat := ((ip : Int) + 8 * off).toNat

/-- Active loops that a branch to a target leaves active (R172). -/
def loopsWith (loops : List HwLoop) (a : Nat) : List HwLoop := loops.filter fun l => l.first ≤ a && a ≤ l.last

/-- Counts a taken branch; V-tiles have the counter. -/
def State.countBranch (s : State) (x : Site) : State :=
  match siteKind x with
  | .v => s.onV x fun v => { v with branches := addSat v.branches 1 }
  | _ => s

/-- An instruction of which every field outside the opcode is reserved. -/
def bareLegal (_ : State) (_ : Site) (w : DWord) (_ : Nat) : Bool := onlyBits w 0

/-- NOP. -/
def execNop (i : Issue) (s : State) : Res := .next (s.issue i 0x30 bareLegal false fun s _ _ _ => .done s)

/-- SECEND (R91): the section's program has ended. -/
def execSecend (i : Issue) (s : State) : Res :=
  .next (s.issue i 0x31 bareLegal false fun s x _ _ =>
    .ended ((s.advance x false).onTile x fun t => { t with seq := { t.seq with secend := true } }))

/-! ## LOOP (R171) -/

/-- Fields of LOOP. -/
def loopLen (w : DWord) : Nat := fld w 52 42
def loopCount (s : State) (x : Site) (w : DWord) : Word := if fld w 57 57 = 1 then s.scalar x (fld w 56 53) else BitVec.ofNat 32 (fld w 31 0)

/-- LOOP is legal: its fields, at most four loops, and its body within that of every enclosing loop. -/
def loopLegal (s : State) (x : Site) (w : DWord) (ip : Nat) : Bool :=
  let loops := (s.tile x).seq.loops
  onlyBits w 0x03FFFC00FFFFFFFF && 1 ≤ loopLen w && (siteKind x = .v || loopLen w ≤ 1023) &&
    (if fld w 57 57 = 1 then scalarOk x (fld w 56 53) && fld w 31 0 = 0 else true) && loops.length < 4 &&
    loops.all fun l => !(l.first ≤ ip && ip ≤ l.last) || ip + 8 * loopLen w ≤ l.last

/-- LOOP: the body's words follow, or with a count of 0 the word behind it. -/
def execLoop (i : Issue) (s : State) : Res :=
  .next (s.issue i 0x32 loopLegal false fun s x w ip =>
    let n := loopCount s x w
    let loops := (s.tile x).seq.loops
    if n = 0 then .loop s (ip + 8 * (loopLen w + 1)) loops
    else .loop s (ip + 8) ({ first := ip + 8, last := ip + 8 * loopLen w, count := n } :: loops))

/-! ## Branches (R172) -/

/-- The condition of BR. -/
def brTaken (c : Nat) (a b : Word) : Bool :=
  match c with
  | 0 => a = b
  | 1 => a ≠ b
  | 2 => a.toInt < b.toInt
  | 3 => b.toInt ≤ a.toInt
  | 4 => a.toNat < b.toNat
  | _ => b.toNat ≤ a.toNat

/-- BR is legal. -/
def brLegal (_ : State) (x : Site) (w : DWord) (ip : Nat) : Bool :=
  scalarOk x (fld w 57 54) && fld w 48 46 < 6 && targetOk x ip (sfld w 45 32) &&
    (if fld w 49 49 = 1 then true else scalarOk x (fld w 53 50) && fld w 31 0 = 0)

/-- BR. -/
def execBr (i : Issue) (s : State) : Res :=
  .next (s.issue i 0x33 brLegal false fun s x w ip =>
    let b := if fld w 49 49 = 1 then BitVec.ofNat 32 (fld w 31 0) else s.scalar x (fld w 53 50)
    if brTaken (fld w 48 46) (s.scalar x (fld w 57 54)) b then
      let a := targetOf ip (sfld w 45 32)
      .jump (s.countBranch x) a (loopsWith (s.tile x).seq.loops a)
    else .done s)

/-- JMP is legal: not an OFF of zero. -/
def jmpLegal (_ : State) (x : Site) (w : DWord) (ip : Nat) : Bool :=
  onlyBits w 0x00003FFF00000000 && fld w 45 32 ≠ 0 && targetOk x ip (sfld w 45 32)

/-- JMP. -/
def execJmp (i : Issue) (s : State) : Res :=
  .next (s.issue i 0x34 jmpLegal false fun s x w ip =>
    let a := targetOf ip (sfld w 45 32)
    .jump (s.countBranch x) a (loopsWith (s.tile x).seq.loops a))

/-- CALL is legal: room on the call stack. -/
def callLegal (s : State) (x : Site) (w : DWord) (ip : Nat) : Bool := jmpLegal s x w ip && (s.tile x).seq.stack.length < 4

/-- CALL. -/
def execCall (i : Issue) (s : State) : Res :=
  .next (s.issue i 0x35 callLegal false fun s x w ip =>
    .jump ((s.countBranch x).onTile x fun t => { t with seq := { t.seq with stack := (ip + 8) :: t.seq.stack } })
      (targetOf ip (sfld w 45 32)) (s.tile x).seq.loops)

/-- RET is legal: not with an empty stack. -/
def retLegal (s : State) (x : Site) (w : DWord) (_ : Nat) : Bool := onlyBits w 0 && !(s.tile x).seq.stack.isEmpty

/-- RET. -/
def execRet (i : Issue) (s : State) : Res :=
  .next (s.issue i 0x36 retLegal false fun s x _ _ =>
    let q := (s.tile x).seq
    .jump ((s.countBranch x).onTile x fun t => { t with seq := { t.seq with stack := t.seq.stack.drop 1 } }) (q.stack.headD 0) q.loops)

/-! ## Scalars -/

/-- SLI is legal. -/
def sliLegal (_ : State) (x : Site) (w : DWord) (_ : Nat) : Bool := onlyBits w 0x03C00000FFFFFFFF && scalarOk x (fld w 57 54)

/-- SLI. -/
def execSli (i : Issue) (s : State) : Res :=
  .next (s.issue i 0x37 sliLegal false fun s x w _ => .done (s.setScalar x (fld w 57 54) (BitVec.ofNat 32 (fld w 31 0))))

/-- SOP (Table VT-7; R158 for the shifts). -/
def sopOf (fn : Nat) (a b : Word) : Word :=
  match fn with
  | 0 => a + b
  | 1 => a - b
  | 2 => a &&& b
  | 3 => a ||| b
  | 4 => a ^^^ b
  | 5 => a <<< (b.toNat % 32)
  | 6 => a >>> (b.toNat % 32)
  | 7 => a.sshiftRight (b.toNat % 32)
  | 8 => a * b
  | 9 => if b.toInt < a.toInt then b else a
  | _ => if a.toInt < b.toInt then b else a

/-- SOP is legal. -/
def sopLegal (_ : State) (x : Site) (w : DWord) (_ : Nat) : Bool :=
  onlyBits w 0x03FFFE00FFFFFFFF && scalarOk x (fld w 57 54) && scalarOk x (fld w 53 50) && fld w 44 41 < 11 &&
    (if fld w 45 45 = 1 then true else scalarOk x (fld w 49 46) && fld w 31 0 = 0)

/-- SOP. -/
def execSop (i : Issue) (s : State) : Res :=
  .next (s.issue i 0x38 sopLegal false fun s x w _ =>
    let b := if fld w 45 45 = 1 then BitVec.ofNat 32 (fld w 31 0) else s.scalar x (fld w 49 46)
    .done (s.setScalar x (fld w 57 54) (sopOf (fld w 44 41) (s.scalar x (fld w 53 50)) b)))

/-! ## IMW and IFENCE (R174, R175) -/

/-- The byte address of IMW. -/
def imwAddr (s : State) (x : Site) (w : DWord) : Nat := (s.scalar x (fld w 57 54)).toNat % 16384

/-- IMW is legal: an even SD, and an address in the instruction memory that is a multiple of 8. -/
def imwLegal (s : State) (x : Site) (w : DWord) (_ : Nat) : Bool :=
  onlyBits w 0x03FC000000000000 && scalarOk x (fld w 57 54) && fld w 53 50 % 2 = 0 && scalarOk x (fld w 53 50) &&
    imwAddr s x w % 8 = 0 && imwAddr s x w < imemBytes (siteKind x)

/-- IMW: the word is written before the next fetch; words already held keep their form. -/
def execImw (i : Issue) (s : State) : Res :=
  .next (s.issue i 0x39 imwLegal false fun s x w _ =>
    let v : DWord := (s.scalar x (fld w 53 50 + 1)) ++ (s.scalar x (fld w 53 50))
    .done (s.onTile x fun t =>
      { t with active := { t.active with imem := Map.put t.active.imem (imwAddr s x w / 8) v }, seq := { t.seq with imemWritten := true } }))

/-- IFENCE: every held word is discarded, and the next word of the stream fetched. -/
def execIfence (i : Issue) (s : State) : Res :=
  .next (s.issue i 0x3A bareLegal false fun s x _ ip =>
    let r := nextAddr ip (s.tile x).seq.loops
    .jump s r.1 r.2)

/-! ## OPEN and CLOSE (R181 to R185) -/

/-- OPEN is legal. -/
def openLegal (_ : State) (x : Site) (w : DWord) (_ : Nat) : Bool :=
  onlyBits w 0x03FFC00000000000 && scalarOk x (fld w 54 51) && scalarOk x (fld w 49 46)

/-- TAG of a packet of an outbound endpoint. -/
def chanTag (kind ep count : Nat) : Nat := kind * 16384 + ep * 2048 + count % 2048

/-- The head of a channel packet toward a target word (Table CH-2). -/
def State.chanHead (s : State) (x : Site) (target : Word) (tag : Nat) : Head :=
  s.headOf x (bitAt target 31) false (bitsOf target 16 6) (bitsOf target 0 10) (bitsOf target 13 3) 0 tag

/-- OPEN: a request goes out, or E_EP_BUSY is written. -/
def State.openInsn (s : State) (x : Site) (w : DWord) : State :=
  let ep := fld w 57 55
  let sd := fld w 49 46
  let t := s.tile x
  let o := t.outEp ep
  if o.state = .opened || o.state = .pending then s.setScalar x sd (E_EP_BUSY.setWidth 32)
  else
    let target := s.scalar x (fld w 54 51)
    let h := s.chanHead x target (chanTag 1 ep 0)
    let r : OpenReq := { rank := BitVec.ofNat 16 (bitsOf t.active.cfg 0 16), sect := t.active.sect, ring := fld w 50 50 = 1,
                         ep := Fin.ofNat 8 ep, src := siteSrc x, tag := h.tag, tenant := h.tenant, spine := h.spine }
    (s.inject x h (.openReq r)).onOut x ep fun _ => { state := .pending, target := target, sd := sd }

/-- OPEN. -/
def execOpenCh (i : Issue) (s : State) : Res := .next (s.issue i 0x3B openLegal false fun s x w _ => .done (s.openInsn x w))

/-- CLOSE is legal. -/
def closeLegal (_ : State) (_ : Site) (w : DWord) (_ : Nat) : Bool := onlyBits w 0x0380000000000000

/-- The close marker of an open endpoint (R185). -/
def State.closeOut (s : State) (x : Site) (ep : Nat) : State :=
  let o := (s.tile x).outEp ep
  if o.state = .opened then
    (s.inject x (s.chanHead x o.target (chanTag 2 ep 0)) .close).onOut x ep fun o => { o with state := .closed }
  else s

/-- CLOSE: it waits for the answer of a pending OPEN. -/
def execCloseCh (i : Issue) (s : State) : Res :=
  .next (s.issue i 0x3C closeLegal false fun s x w _ =>
    if ((s.tile x).outEp (fld w 57 55)).state = .pending then .wait else .done (s.closeOut x (fld w 57 55)))

/-- Sends flits on an outbound endpoint (R184): in packets of up to 16 flits in flow routing, of one in scheduled routing. -/
def State.sendFlits (s : State) (x : Site) (ep : Nat) (fs : List Flit) : State :=
  let o := (s.tile x).outEp ep
  let s1 := s.onOut x ep fun o => { o with flits := o.flits + fs.length }
  if o.cut then s1
  else
    let size := if s.isScheduled x then 1 else 16
    (List.range ((fs.length + size - 1) / size)).foldl (fun a i =>
      a.inject x (a.chanHead x o.target (chanTag 0 ep (o.flits + size * i))) (.chan ((fs.drop (size * i)).take size))) s1

/-- A send: it waits while its OPEN is pending, and fails on an endpoint that is not open (R184, R185). -/
def State.sendInsn (s : State) (x : Site) (ip ep : Nat) (fs : List Flit) : Eff :=
  match ((s.tile x).outEp ep).state with
  | .opened => .done (s.sendFlits x ep fs)
  | .pending => .wait
  | .down => .ended (s.sendClosed x ip ep true)
  | .closed => .ended (s.sendClosed x ip ep false)

/-! ## BSIG, BWAIT, GTSR -/

/-- BSIG and BWAIT are legal: a COUNT of at least 1 (R198). -/
def beaconLegal (_ : State) (x : Site) (w : DWord) (_ : Nat) : Bool :=
  onlyBits w 0x03FFFE000000FFFF && fld w 15 0 ≠ 0 && (fld w 45 45 = 0 || scalarOk x (fld w 44 41))

/-- The beacon that BSIG and BWAIT name. -/
def beaconIndex (s : State) (x : Site) (w : DWord) : BitVec 12 :=
  if fld w 45 45 = 1 then (s.scalar x (fld w 44 41)).setWidth 12 else BitVec.ofNat 12 (fld w 57 46)

/-- BSIG: a signal leaves now, or at the swap out of a sealed section (R199). -/
def execBsig (i : Issue) (s : State) : Res :=
  .next (s.issue i 0x3D beaconLegal false fun s x w _ => .done (s.tileSignal x (beaconIndex s x w) (fld w 15 0)))

/-- BWAIT: a wait goes to the store, and the sequencer waits for its grant with the BWAIT still next (R178, R199). -/
def execBwait (i : Issue) (s : State) : Res :=
  .next (s.issue i 0x3E beaconLegal true fun s x w _ =>
    let s1 := s.sendWait ((s.ownerOf x).getD 0) (beaconIndex s x w) (fld w 15 0) (siteSrc x) (.tile x)
    .ended (s1.onTile x fun t => { t with seq := { t.seq with waiting := true } }))

/-- BEACON_GRANT: a grant reaches its tile, and the BWAIT there completes (R199); one of an ended generation has no effect and is reported
(R202, R203). -/
def State.beaconGrant (s : State) (k : Nat) : State :=
  match s.net.grants[k]? with
  | some g =>
    if s.alive then
      let s1 := { s with net := { s.net with grants := s.net.grants.eraseIdx k } }
      if (s.ctx g.tenant).gen ≠ g.gen then s1.logStale g.tenant g.beacon (siteSrc g.site) g.count.toNat g.gen
      else if (s.tile g.site).seq.waiting then
        (s1.onTile g.site fun x => { x with seq := { x.seq with waiting := false } }).advance g.site false
      else s1
    else s
  | none => s

/-- BEACON_GRANT (R199). -/
def execBeaconGrant (k : Nat) (s : State) : Res := .next (s.beaconGrant k)

/-- GTSR is legal: an even SD. -/
def gtsrLegal (_ : State) (x : Site) (w : DWord) (_ : Nat) : Bool :=
  onlyBits w 0x03C0000000000000 && fld w 57 54 % 2 = 0 && scalarOk x (fld w 57 54)

/-- Writes a GTS value to a scalar pair. -/
def State.setGts (s : State) (x : Site) (sd : Nat) (v : DWord) : State :=
  ((s.setScalar x sd (v.setWidth 32)).setScalar x (sd + 1) (v.extractLsb' 32 32)).onTile x fun t => { t with gtsrs := t.gtsrs + 1 }

/-- GTSR: the die's copy, recorded (R355), or in a replay the recorded value (R359); one without a record diverges (R360). -/
def State.gtsr (s : State) (x : Site) (sd : Nat) : Eff :=
  let t := (s.ownerOf x).getD 0
  let n := (s.tile x).gtsrs
  let live := s.localGts x.die.val
  match (s.ctx t).replay with
  | some r =>
    if r.diverged then .done (s.setGts x sd live)
    else match r.recs.zipIdx.find? fun p => p.1.inStep 4 (s.replayStep r) && p.1.src = siteSrc x && leNat ((p.1.payload.drop 8).take 4) = n with
      | none => .ended (s.diverge t 0 1)
      | some (rec, k) => .done ((s.setGts x sd (BitVec.ofNat 64 (leNat (rec.payload.take 8)))).markApplied t k)
  | none =>
    match s.instAt x with
    | some i => .done ((s.scriv t 4 i.id (s.stepAt i x) (siteSrc x) (leBytes 8 live.toNat ++ leBytes 4 n ++ leBytes 4 0)).setGts x sd live)
    | none => .done (s.setGts x sd live)

/-- GTSR (R177). -/
def execGtsr (i : Issue) (s : State) : Res := .next (s.issue i 0x3F gtsrLegal true fun s x w _ => s.gtsr x (fld w 57 54))

end Sys2Proof.Machine
end

