-- ==== Sys2Proof/Machine/MTile.lean ====
section
/-! DEFINITION. Matrix tiles: loads and stores (R139), the window cache and TLDW (R140, R141), TMMA (R133 to R135, R144, R145), TCVT and
TLDA (R136, R146, R147), TREL, TDMA, TSEND and WCINV (R143, R148). -/

namespace Sys2Proof.Machine

open Sys2Proof

/-! ## Common fields -/

/-- Row bytes of an RB code (R132). -/
def rbBytes (rb : Nat) : Nat := 8 * (rb + 1)

/-- Whether a tile's B-tile is good and configured (R143, R167). -/
def State.homeOk (s : State) (x : Site) : Bool := !s.isFused (homeB x) && !(s.tile (homeB x)).parked

/-- An M-tile instruction: the common issue at an M-tile. -/
def State.issueM (s : State) (i : Issue) (op : Nat) (legal : State → Site → DWord → Nat → Bool) (sealedBad : Bool)
    (effect : State → Site → DWord → Nat → Eff) : State :=
  if siteKind i.site = .m then s.issue i op legal sealedBad effect else s

/-! ## TLD and TST (R139) -/

/-- Rows, row bytes and offsets of a TLD or TST. -/
def ldRows (w : DWord) : Nat := fld w 53 48 + 1
def ldBytes (w : DWord) : Nat := if fld w 54 54 = 1 then 8 else rbBytes (fld w 47 45)
def ldBase (s : State) (x : Site) (w : DWord) : Nat :=
  fld w 36 20 * 8 + if fld w 40 37 = 0 then 0 else (s.scalar x (fld w 40 37 - 8)).toNat % 2 ^ 20
def ldOff (s : State) (x : Site) (w : DWord) (i : Nat) : Nat := ldBase s x w + i * (fld w 19 6 * 8)

/-- TLD and TST are legal. -/
def ldLegal (s : State) (x : Site) (w : DWord) (_ : Nat) : Bool :=
  s.homeOk x && (fmtOf (fld w 44 41)).isSome && (fld w 54 54 = 0 || fld w 47 45 = 0) && (fld w 40 37 = 0 || 8 ≤ fld w 40 37) &&
    fld w 5 0 + ldRows w ≤ 64 &&
    (List.range (ldRows w)).all fun i =>
      ldOff s x w i % 8 = 0 && ldOff s x w i % 64 + ldBytes w ≤ 64 && ldOff s x w i + ldBytes w ≤ btBytes

/-- Accesses taken from the front: the longest run each time. -/
def takeRun (o : Nat) : List Nat → List Nat → List Nat × List Nat
  | g, [] => (g ++ [o], [])
  | g, p :: ps =>
    if (g ++ [o]).all fun q => q / 1024 = p / 1024 && bankOf q ≠ bankOf p then takeRun p (g ++ [o]) ps else (g ++ [o], p :: ps)

/-- The wide accesses of a list of row offsets, in order. -/
def accesses : Nat → List Nat → List (List Nat)
  | 0, _ => []
  | _, [] => []
  | k + 1, o :: os => let r := takeRun o [] os; r.1 :: accesses k r.2

/-- The bank enable of one access. -/
def accessMask (g : List Nat) : BankMask := g.foldl (fun m o => m ||| (1 <<< bankOf o)) (0 : BankMask)

/-- Presents the accesses of rows at a tile's port. -/
def State.presentRows (s : State) (x : Site) (offs : List Nat) : State :=
  s.onTile (homeB x) fun t =>
    { t with b := { t.b with ports := t.b.ports.add (portOf x) ((accesses offs.length offs).map accessMask) } }

/-- Numbers the items of the groups of a list in order. -/
def numbered {α : Type} : Nat → List (List α) → List (List (Nat × α))
  | _, [] => []
  | n, g :: gs => (g.zipIdx.map fun p => (n + p.2, p.1)) :: numbered (n + g.length) gs

/-- Reads the rows of one access at their offsets: the bytes of each, and whether a word could not be corrected. -/
def State.readRows (s : State) (x : Site) (n : Nat) (g : List (Nat × Nat)) : List (Nat × List Byte) × Bool × State :=
  g.foldl (fun a p =>
    let r := a.2.2.btRead (homeB x) p.2 n (siteSrc x)
    (a.1 ++ [(p.1, r.1)], a.2.1 || r.2.1, r.2.2)) ([], false, s)

/-- The accesses of a TLD, in order, until one that cannot be corrected: that one delivers no row (R125, R139). -/
def State.tldAccess (x : Site) (w : DWord) (a : Bool × State) (g : List (Nat × Nat)) : Bool × State :=
  if a.1 then a
  else
    let r := a.2.readRows x (ldBytes w) g
    if r.2.1 then (true, r.2.2)
    else
      let reg := fld w 57 55
      let row := fld w 5 0
      (false, r.2.2.onM x fun m => r.1.foldl (fun m p =>
        if fld w 54 54 = 1 then m.putScale reg (row + p.1) 0 p.2 else m.putRow reg (row + p.1) 0 p.2) m)

/-- TLD. -/
def execTld (i : Issue) (us : List Upset) (s : State) : Res :=
  .next (s.issueM i 0x01 ldLegal false fun s x w _ =>
    let offs := (List.range (ldRows w)).map fun i => ldOff s x w i
    let r := (numbered 0 (accesses offs.length offs)).foldl (State.tldAccess x w) (false, (s.upsetBt (homeB x) us).presentRows x offs)
    if r.1 then .ended (r.2.uncorrectable x) else .done r.2)

/-- TST. -/
def execTst (i : Issue) (s : State) : Res :=
  .next (s.issueM i 0x02 ldLegal false fun s x w _ =>
    let s0 := s.presentRows x ((List.range (ldRows w)).map fun i => ldOff s x w i)
    .done ((List.range (ldRows w)).foldl (fun a i =>
      let row := fld w 5 0 + i
      let bs := if fld w 54 54 = 1 then (s.tile x).m.scaleRow (fld w 57 55) row 0 8 else (s.tile x).m.row (fld w 57 55) row 0 (ldBytes w)
      a.btPut (homeB x) (ldOff s x w i) bs) s0))

/-! ## The window cache (R140) -/

/-- A line of the cache. -/
def MState.line (m : MState) (va : Nat) : Option CacheLine := m.cache.find? fun l => l.set.val = va / 64 % 256 && l.tag = va / 16384

/-- A line is used: it becomes the newest of its set. -/
def MState.touchLine (m : MState) (l : CacheLine) : MState :=
  { m with cache := l :: m.cache.filter fun k => !(k.set = l.set && k.tag = l.tag) }

/-- Fills a line; the oldest of its set goes when there are four. -/
def MState.fillLine (m : MState) (va : Nat) (data : Flit) : MState :=
  let l : CacheLine := { set := Fin.ofNat 256 (va / 64), tag := va / 16384, data := data }
  let old := m.cache.filter fun k => !(k.set = l.set && k.tag = l.tag)
  let own := (old.filter fun k => k.set = l.set).take 3
  { m with cache := l :: own ++ old.filter fun k => k.set ≠ l.set }

/-- The bytes of a row within a line. -/
def lineBytes (data : Flit) (va n : Nat) : List Byte := ((flitBytes data).drop (va % 64)).take n

/-! ## TLDW (R140, R141) -/

/-- Rows, row bytes and addresses of a TLDW. -/
def tldwRows (w : DWord) : Nat := fld w 53 48 + 1
def tldwBytes (w : DWord) : Nat := rbBytes (fld w 47 45)
def tldwVa (s : State) (x : Site) (w : DWord) : Nat :=
  (s.scalar x (2 * fld w 40 39)).toNat + (s.scalar x (2 * fld w 40 39 + 1)).toNat % 65536 * 2 ^ 32
/-- The address of row i of a TLDW. One below 0 or beyond 64 bits wraps modulo 2^64, and one beyond the 48 bits of the address space faults in
its translation; the spec does not say (DESIGN CHOICE, log entry 89). -/
def tldwRowVa (va : Nat) (w : DWord) (i : Nat) : Nat := (((va : Int) + (i : Int) * sfld w 38 15) % ((2 ^ 64 : Nat) : Int)).toNat

/-- TLDW is legal. -/
def tldwLegal (s : State) (x : Site) (w : DWord) (_ : Nat) : Bool :=
  onlyBits w 0x03BFFFFFFFFF803F && (fmtOf (fld w 44 41)).isSome && fld w 5 0 + tldwRows w ≤ 64 &&
    (s.scalar x (2 * fld w 40 39 + 1)).toNat / 65536 = 0 &&
    (List.range (tldwRows w)).all fun i =>
      let va := tldwRowVa (tldwVa s x w) w i
      va % 8 = 0 && va % 64 + tldwBytes w ≤ 64

/-- Writes one row of a TLDW and counts it as done. -/
def State.tldwPut (s : State) (x : Site) (d : TldwRun) (i : Nat) (data : Flit) : State :=
  s.onM x fun m =>
    let m1 := m.putRow (fld d.w 57 55) (fld d.w 5 0 + i) 0 (lineBytes data (tldwRowVa d.va d.w i) (tldwBytes d.w))
    { m1 with tldw := m1.tldw.map fun r => { r with done := i :: r.done } }

/-- The request of a missing row: a read of its line, by the translation unit of its half (R140, R418). -/
def State.tldwRequest (s : State) (x : Site) (d : TldwRun) (i : Nat) : State :=
  let va := tldwRowVa d.va d.w i
  let u := s.xlateUnit x.die.val
  let q : MemReq := { write := false, va := BitVec.ofNat 64 (va / 64 * 64), handle := 0, window := false, bytes := tldwBytes d.w, row := i, data := 0 }
  (s.inject x (s.headOf x false false u.1 u.2 0 2 i) (.memReq q)).onM x fun m =>
    { m with wcMisses := addSat m.wcMisses 1, tldw := m.tldw.map fun r => { r with sent := i :: r.sent } }

/-- Rows sent to memory and not yet answered. -/
def TldwRun.outstanding (d : TldwRun) : Nat := d.sent.length - (d.sent.filter fun i => d.done.contains i).length

/-- The window unit sends its next row requests, in order, while fewer than 16 misses are outstanding and no row has faulted. -/
def State.tldwPump : Nat → State → Site → State
  | 0, s, _ => s
  | k + 1, s, x =>
    match (s.tile x).m.tldw with
    | none => s
    | some d =>
      if d.fault.isSome then s
      else match (List.range (tldwRows d.w)).find? fun i => !d.done.contains i && !d.sent.contains i with
        | none => if d.done.length = tldwRows d.w then s.onM x fun m => { m with tldw := none } else s
        | some i =>
          match (s.tile x).m.line (tldwRowVa d.va d.w i) with
          | some l => State.tldwPump k ((s.onM x fun m => { m.touchLine l with wcHits := addSat m.wcHits 1 }).tldwPut x d i l.data) x
          | none => if d.outstanding < 16 then State.tldwPump k (s.tldwRequest x d i) x else s

/-- Runs the window unit. -/
def State.tldwRun (s : State) (x : Site) : State := State.tldwPump 130 s x

/-- TLDW: it starts; a line with bad parity is treated as a miss and logged (R369). -/
def execTldw (i : Issue) (s : State) : Res :=
  .next (s.issueM i 0x03 tldwLegal true fun s x w ip =>
    if (s.tile x).m.tldw.isSome then .wait
    else
      let va := tldwVa s x w
      let s1 := match i.parity with
        | some h =>
          let a := tldwRowVa va w h.row.val
          match (s.tile x).m.line a with
          | some l => (s.onM x fun m => { m with cache := m.cache.filter fun k => k ≠ l }).logRegParity x h ip 1
          | none => s
        | none => s
      .done ((s1.onM x fun m =>
        { m with mma := m.mma.map fun r => { r with behind := false }
                 tldw := some { w := w, ip := ip, va := va, done := [], sent := [], fault := none, waiting := false } }).tldwRun x))

/-- A line comes back for a row of a TLDW (R140): it fills the cache, and the row is written. A poisoned one ends the step (R208). -/
def State.tldwData (s : State) (x : Site) (row : Nat) (data : Flit) (status : Status) : State :=
  match (s.tile x).m.tldw with
  | none => s
  | some d =>
    if !d.sent.contains row || d.done.contains row then s
    else if status ≠ OK then
      (s.onM x fun m => { m with tldw := m.tldw.map fun r => { r with sent := r.sent.erase row } }).uncorrectable x
    else ((s.onM x fun m => m.fillLine (tldwRowVa d.va d.w row) data).tldwPut x d row data).tldwRun x

/-- The refusal of a row of a TLDW: a translation fault is kept for its end (R141); another status ends the step with it. -/
def State.tldwNak (s : State) (x : Site) (row : Nat) (code : Status) (faultId : Nat) : State :=
  match (s.tile x).m.tldw with
  | none => s
  | some d =>
    if !d.sent.contains row then s
    else
      let s1 := s.onM x fun m => { m with tldw := m.tldw.map fun r =>
        { r with sent := r.sent.erase row,
                 fault := if code = E_TLDW_FAULT then (match r.fault with
                   | some (q, n) => if row < q then some (row, faultId) else some (q, n)
                   | none => some (row, faultId)) else r.fault } }
      if code = E_TLDW_FAULT then s1 else (s1.onTile x fun t => t.stop).causeAt x code (siteSrc x)

/-- TLDW_FAULT: once every outstanding response is back, the TLDW ends and waits for its resolution (R141). -/
def State.tldwFaultEnd (s : State) (x : Site) : State :=
  match (s.tile x).m.tldw with
  | some d =>
    match d.fault with
    | some (row, _) =>
      if s.alive && !d.waiting && d.outstanding = 0 then
        s.onM x fun m => { m with tldwFault := true, faultIp := d.ip, faultRow := row,
                                  tldw := some { d with waiting := true } }
      else s
    | none => s
  | none => s

/-- TLDW_FAULT (R141). -/
def execTldwFault (x : Site) (s : State) : Res := .next (s.tldwFaultEnd x)

/-- A faulted TLDW restarts from row 0 (R141, R219). -/
def State.tldwRestart (s : State) (x : Site) : State :=
  (s.onM x fun m => { m with tldw := m.tldw.map fun d => { d with done := [], sent := [], fault := none, waiting := false } }).tldwRun x

/-! ## TMMA (R133 to R135, R144, R145) -/

/-- The two formats of a TMMA; none where Table MT-2 or R134 forbids the pair. -/
def mmaFormats (w : DWord) : Option (Fmt × Fmt) :=
  let a := fld w 27 24
  let b := fld w 23 20
  let ok : Bool := 1 ≤ a && a ≤ 0xC && 1 ≤ b && b ≤ 0xC && (a = b || (min a b = 3 && max a b = 4) || (min a b = 5 && max a b = 6) || (min a b = 7 && max a b = 8))
  if ok then
    match fmtOf a, fmtOf b with
    | some f, some g => some (f, g)
    | _, _ => none
  else none

/-- Legal row bytes of a format in TMMA (Table MT-2). -/
def mmaRbOk (code rb : Nat) : Bool :=
  match code with
  | 0x5 => rb = 32 || rb = 64
  | 0x6 => rb = 32 || rb = 64
  | 0x7 => rb = 24 || rb = 48
  | 0x8 => rb = 24 || rb = 48
  | 0x9 => rb = 16 || rb = 32 || rb = 48 || rb = 64
  | 0xA => rb = 32 || rb = 64
  | _ => true

/-- TMMA is legal. -/
def tmmaLegal (_ : State) (_ : Site) (w : DWord) (_ : Nat) : Bool :=
  let sa := fld w 52 49
  let sb := fld w 48 45
  let rb := rbBytes (fld w 30 28)
  onlyBits w 0x03FFFFFFFFF00000 && (mmaFormats w).isSome && mmaRbOk (fld w 27 24) rb && mmaRbOk (fld w 23 20) rb &&
    (fld w 53 53 = 0 || fld w 55 54 = 0) && !(9 ≤ sa && sa ≤ 11) && sb ≤ 8 &&
    (sa < 12 || (fld w 27 24 = 1 && fld w 23 20 = 1 && rb = 64 && fld w 42 41 = 0 && sa ≠ 12 + fld w 57 56)) &&
    !(sa = 8 && (fld w 44 44 = 1 || fld w 42 41 ≠ 0)) && !(sb = 8 && (fld w 43 43 = 1 || fld w 40 40 = 1))

/-- An operand row with its scale side: from a register, a latch, or an accumulator read as BF16. -/
def MState.aRow (m : MState) (w : DWord) (i : Nat) : List Byte × List Byte :=
  let sa := fld w 52 49
  let rb := rbBytes (fld w 30 28)
  if sa < 8 then (m.row sa (16 * fld w 42 41 + i) 0 rb, m.scaleRow sa (16 * fld w 42 41 + i) 0 8)
  else if sa = 8 then (m.row latchA i 0 rb, m.scaleRow latchA i 0 8)
  else ((List.range 32).flatMap fun j => leBytes 2 (roundBf16 (ofF32 (m.elem (sa - 12) i j))).toNat, List.replicate 8 0)

def MState.bRow (m : MState) (w : DWord) (j : Nat) : List Byte × List Byte :=
  let sb := fld w 48 45
  let rb := rbBytes (fld w 30 28)
  if sb < 8 then (m.row sb (32 * fld w 40 40 + j) 0 rb, m.scaleRow sb (32 * fld w 40 40 + j) 0 8)
  else (m.row latchB j 0 rb, m.scaleRow latchB j 0 8)

/-- The exact sum of the products of a group. -/
def exactSum : List (Fp × Fp) → Fp
  | [] => .fin false 0 0
  | (a, b) :: r => r.foldl (fun s p => s.add (p.1.mul p.2)) (a.mul b)

/-- Pairs cut into groups of 32. -/
def groups32 : Nat → List (Fp × Fp) → List (List (Fp × Fp))
  | 0, _ => []
  | k + 1, l => if l.isEmpty then [] else l.take 32 :: groups32 k (l.drop 32)

/-- One output element of a floating-point TMMA (R135). -/
def mmaElem (mx : Bool) (sa sb : List Byte) (gs : List (List (Fp × Fp))) (init : Word) : Word :=
  gs.zipIdx.foldl (fun acc g =>
    let s := exactSum g.1
    let x := sa.getD g.2 0
    let y := sb.getD g.2 0
    let s := if mx then (if x = 0xFF ∨ y = 0xFF then .nan else s.shift ((x.toNat : Int) + (y.toNat : Int) - 254)) else s
    roundF32 ((ofF32 acc).add (ofF32 (roundF32 s)))) init

/-- The exact integer sum of a group. -/
def intSum (g : List (Fp × Fp)) : Int :=
  (g.map fun p => match p.1.mul p.2 with | .fin n m e => signInt n (scaled m e 0) | _ => 0).foldl (· + ·) 0

/-- One output element of an integer TMMA, and whether a signed addition overflowed. -/
def mmaIntElem (gs : List (List (Fp × Fp))) (init : Word) : Word × Bool :=
  gs.foldl (fun a g =>
    let s := intSum g
    let t := a.1.toInt + s
    (BitVec.ofInt 32 t, a.2 || t < -2147483648 || 2147483647 < t)) (init, false)

/-- Compute cycles C of a TMMA (Table MT-2). -/
def mmaCycles (w : DWord) : Nat :=
  let rb := rbBytes (fld w 30 28)
  if fld w 27 24 = 7 ∨ fld w 27 24 = 8 then 4 * rb / 3 else rb

/-- TMMA on an M-tile's state. -/
def MState.tmma (m : MState) (w : DWord) (ip now : Nat) : MState :=
  match mmaFormats w with
  | none => m
  | some (fa, fb) =>
    let ad := fld w 57 56
    let zero := fld w 53 53 = 1
    let rows := fld w 39 36 + 1
    let cols := fld w 35 31 + 1
    let a := (List.range rows).map fun i => let r := m.aRow w i; (rowElems fa r.1, r.2)
    let b := (List.range cols).map fun j => let r := m.bRow w j; (rowElems fb r.1, r.2)
    let init := fun i j => if zero then (0 : Word) else m.elem (fld w 55 54) i j
    let cell := fun (i j : Nat) =>
      match a[i]?, b[j]? with
      | some x, some y =>
        let gs := groups32 5 (x.1.zip y.1)
        if fa.kind = FmtKind.int ∧ !fa.mx then mmaIntElem gs (init i j) else (mmaElem fa.mx x.2 y.2 gs (init i j), false)
      | _, _ => (init i j, false)
    let out := (List.range 512).map fun k => (k, cell (k / 32) (k % 32))
    let m1 : MState :=
      if fld w 44 44 = 1 then
        (List.range rows).foldl (fun q i => let r := m.aRow w i; (q.putRow latchA i 0 r.1).putScale latchA i 0 r.2) m
      else m
    let m2 : MState :=
      if fld w 43 43 = 1 then
        (List.range cols).foldl (fun q j => let r := m.bRow w j; (q.putRow latchB j 0 r.1).putScale latchB j 0 r.2) m1
      else m1
    let old := Map.keep m.acc (fun k => k / 512 = ad)
    let run : MmaRun := { w := w, ip := ip, until_ := now + mmaCycles w, ad := ad, oldAcc := old, oldFull := m.full.getLsbD (8 + ad),
                          behind := m.tldw.isSome }
    let m3 := out.foldl (fun q p => q.putElem ad (p.1 / 32) (p.1 % 32) p.2.1) m2
    { m3 with intOvf := m3.intOvf || out.any (fun p => p.2.2), tmmaDone := addSat m3.tmmaDone 1, mma := run :: m.mma.filter fun r => now < r.until_ + 7 }

/-- TMMA. -/
def execTmma (i : Issue) (s : State) : Res :=
  .next (s.issueM i 0x04 tmmaLegal false fun s x w ip => .done (s.onM x fun m => m.tmma w ip s.clk.fclk))

/-- Takes back a TMMA that is abandoned: its accumulator holds what it held before (R150). -/
def MState.takeBack (m : MState) (r : MmaRun) : MState :=
  let acc := r.oldAcc.foldl (fun a e => Map.set 0 a e.1 e.2) (Map.keep m.acc fun k => k / 512 ≠ r.ad)
  let bit : BitVec 14 := 1 <<< (8 + r.ad)
  { m with acc := acc, full := if r.oldFull then m.full else m.full &&& ~~~bit
           tmmaDone := m.tmmaDone - 1, tmmaRestarts := addSat m.tmmaRestarts 1 }

/-- Halting or evicting a tile abandons a TMMA in its compute cycles, the last one included, and a TLDW that has not completed, a faulted one
included: they go to the replay slot in program order (R150). -/
def Tile.abandon (t : Tile) (now : Nat) : Tile :=
  let gone := t.m.mma.filter fun r => now ≤ r.until_
  let word := fun (r : MmaRun) => (r.ip, r.w)
  let load := match t.m.tldw with | some d => [(d.ip, d.w)] | none => []
  let slot := ((gone.filter fun r => !r.behind).reverse.map word) ++ load ++ ((gone.filter fun r => r.behind).reverse.map word)
  let m := gone.foldl MState.takeBack t.m
  { t with m := { m with mma := [], tldw := none }, seq := { t.seq with replay := slot ++ t.seq.replay } }

/-! ## TCVT and TLDA (R136, R146, R147) -/

/-- Fields of TCVT. -/
def cvtRows (w : DWord) : Nat := fld w 38 35 + 1
def cvtCol (w : DWord) : Nat := fld w 28 26 * 8

/-- Whether a format takes two register rows per accumulator row. -/
def wideFmt (code : Nat) : Bool := code = 0 || code = 0xD

/-- TCVT is legal. -/
def tcvtLegal (_ : State) (_ : Site) (w : DWord) (_ : Nat) : Bool :=
  match fmtOf (fld w 52 49) with
  | none => false
  | some f =>
    onlyBits w 0x03FFFFFFFFC00000 && rbBytes (fld w 25 23) = min 64 (4 * f.bits) &&
      (if wideFmt (fld w 52 49) then cvtCol w = 0 && fld w 34 29 + 2 * cvtRows w ≤ 64
       else cvtCol w + 4 * f.bits ≤ 64 && fld w 34 29 + cvtRows w ≤ 64 && (!f.mx || cvtCol w % (4 * f.bits) = 0))

/-- The scale byte of a block and its exponent X (R136). -/
def blockScale (f : Fmt) (vals : List Fp) : Byte × Int :=
  if vals.any fun v => match v with | .fin _ _ _ => false | _ => true then (0xFF, 0)
  else
    let tops := vals.filterMap fun v => match v with | .fin _ m e => if m = 0 then none else some ((Nat.log2 m : Int) + e) | _ => none
    match tops with
    | [] => (127, 0)
    | t :: ts =>
      let x := max (-127) (min 127 (ts.foldl max t - (f.eMax : Int)))
      (BitVec.ofInt 8 (x + 127), x)

/-- Rounds the elements of a row in order, with a draw for each when rounding is stochastic: codes and the generator's state. -/
def roundRow (f : Fmt) (stoch sat : Bool) : List Fp → DWord → List Nat × DWord
  | [], g => ([], g)
  | v :: vs, g =>
    let g1 := if stoch then rngNext g else g
    let c := f.round (if stoch then .stoch (rngDraw g1) else .rne) sat v
    let r := roundRow f stoch sat vs g1
    (c :: r.1, r.2)

/-- TCVT of one accumulator row: its element codes, the scale byte of an MX block, the generator after it. -/
def cvtRow (f : Fmt) (w : DWord) (acc : List Word) (g : DWord) : List Nat × Byte × DWord :=
  let shift := sfld w 46 39
  let vals := acc.map fun a => if fld w 22 22 = 1 then Fp.fin (a.toInt < 0) a.toInt.natAbs shift else (ofF32 a).shift shift
  let stoch := fld w 48 48 = 1 && fld w 52 49 ≠ 0xD
  let sat := fld w 47 47 = 1
  if f.mx then
    let sc := blockScale f vals
    let r := roundRow f stoch sat (vals.map fun v => v.shift (-sc.2)) g
    (if sc.1 = 0xFF then r.1.map fun _ => 0 else r.1, sc.1, r.2)
  else
    let r := roundRow f stoch sat vals g
    (r.1, 0, r.2)

/-- Writes the bytes of one converted row. -/
def MState.cvtPut (m : MState) (f : Fmt) (w : DWord) (i : Nat) (codes : List Nat) (scale : Byte) : MState :=
  let reg := fld w 55 53
  let bs := packElems f.bits codes
  if wideFmt (fld w 52 49) then
    (m.putRow reg (fld w 34 29 + 2 * i) 0 (bs.take 64)).putRow reg (fld w 34 29 + 2 * i + 1) 0 (bs.drop 64)
  else
    let m1 := m.putRow reg (fld w 34 29 + i) (cvtCol w) bs
    if f.mx then m1.putScale reg (fld w 34 29 + i) (cvtCol w / (4 * f.bits)) [scale] else m1

/-- TCVT on a tile. -/
def Tile.tcvt (t : Tile) (w : DWord) : Tile :=
  match fmtOf (fld w 52 49) with
  | none => t
  | some f =>
    (List.range (cvtRows w)).foldl (fun t i =>
      let r := cvtRow f w ((List.range 32).map fun j => t.m.elem (fld w 57 56) i j) t.rng
      { t with m := t.m.cvtPut f w i r.1 r.2.1, rng := r.2.2 }) t

/-- TCVT. -/
def execTcvt (i : Issue) (s : State) : Res :=
  .next (s.issueM i 0x05 tcvtLegal false fun s x w _ =>
    .done (s.onTile x fun t => t.tcvt w))

/-- Rows and fields of TLDA. -/
def ldaRows (w : DWord) : Nat := fld w 48 45 + 1

/-- TLDA is legal. -/
def tldaLegal (_ : State) (_ : Site) (w : DWord) (_ : Nat) : Bool :=
  let code := fld w 52 49
  onlyBits w 0x03FFFFFE00000000 && (code ≤ 2 || code = 0xD) &&
    (if wideFmt code then fld w 38 36 = 0 && fld w 44 39 + 2 * ldaRows w ≤ 64
     else fld w 38 36 * 8 + rbBytes (fld w 35 33) ≤ 64 && fld w 44 39 + ldaRows w ≤ 64)

/-- The elements that TLDA loads into an accumulator row; those not loaded are zero (R147). -/
def MState.ldaRow (m : MState) (w : DWord) (i : Nat) : List Word :=
  let code := fld w 52 49
  let reg := fld w 55 53
  let tr := fld w 44 39
  let rb := rbBytes (fld w 35 33)
  let words := fun bs : List Byte => (List.range (bs.length / 4)).map fun k => BitVec.ofNat 32 (leNat ((bs.drop (4 * k)).take 4))
  if wideFmt code then
    let pad := fun l : List Word => l ++ List.replicate (16 - l.length) 0
    pad (words (m.row reg (tr + 2 * i) 0 rb)) ++ pad (words (m.row reg (tr + 2 * i + 1) 0 rb))
  else
    match fmtOf code with
    | some f => (rowElems f (m.row reg (tr + i) (fld w 38 36 * 8) rb)).map roundF32
    | none => []

/-- TLDA on an M-tile's state. -/
def MState.tlda (m : MState) (w : DWord) : MState :=
  let ad := fld w 57 56
  let rows := (List.range (ldaRows w)).map fun i => m.ldaRow w i
  (List.range 512).foldl (fun q k => q.putElem ad (k / 32) (k % 32) (((rows[k / 32]?).getD []).getD (k % 32) 0)) m

/-- TLDA. -/
def execTlda (i : Issue) (s : State) : Res :=
  .next (s.issueM i 0x06 tldaLegal false fun s x w _ => .done (s.onM x fun m => m.tlda w))

/-! ## TREL, TDMA, TSEND, WCINV -/

/-- TREL is legal. -/
def trelLegal (_ : State) (_ : Site) (w : DWord) (_ : Nat) : Bool := onlyBits w 0x03FFF00000000000

/-- The registers that TREL names in TMASK. -/
def trelRegs (w : DWord) : List Nat := (List.range 8).filter fun r => bitAt w (50 + r)

/-- TREL on an M-tile's state (R148). -/
def MState.trel (m : MState) (w : DWord) : MState :=
  let m1 := (trelRegs w).foldl MState.clearReg m
  let m2 := ((List.range 4).filter fun a => bitAt w (46 + a)).foldl MState.clearAcc m1
  let m3 := if bitAt w 44 then m2.clearReg latchA else m2
  if bitAt w 45 then m3.clearReg latchB else m3

/-- TREL. -/
def execTrel (i : Issue) (s : State) : Res :=
  .next (s.issueM i 0x07 trelLegal false fun s x w _ => .done (s.onM x fun m => m.trel w))

/-- TDMA is legal. -/
def tdmaLegal (s : State) (x : Site) (w : DWord) (_ : Nat) : Bool := s.homeOk x && onlyBits w 0x03FE000000000000

/-- TDMA: a row's first 32 bytes are posted; a full engine makes it wait (R115, R143). -/
def execTdma (i : Issue) (s : State) : Res :=
  .next (s.issueM i 0x08 tdmaLegal false fun s x w _ =>
    if s.dmaRoom (homeB x) then
      .done (s.dmaPost (homeB x) (BitVec.ofNat 256 (leNat ((s.tile x).m.row (fld w 57 55) (fld w 54 49) 0 32))) (siteSrc x))
    else .wait)

/-- TSEND is legal. -/
def tsendLegal (_ : State) (_ : Site) (w : DWord) (_ : Nat) : Bool :=
  onlyBits w 0x03FFFFFE00000000 && (fmtOf (fld w 42 39)).isSome && fld w 38 33 + (fld w 51 46 + 1) ≤ 64

/-- TSEND: one flit per row, its low bytes the row's. -/
def execTsend (i : Issue) (s : State) : Res :=
  .next (s.issueM i 0x09 tsendLegal false fun s x w ip =>
    s.sendInsn x ip (fld w 54 52) ((List.range (fld w 51 46 + 1)).map fun r =>
      flitOf ((s.tile x).m.row (fld w 57 55) (fld w 38 33 + r) 0 (rbBytes (fld w 45 43)))))

/-- WCINV: the window cache holds nothing (R140). -/
def execWcinv (i : Issue) (s : State) : Res :=
  .next (s.issueM i 0x0A bareLegal true fun s x _ _ =>
    if (s.tile x).m.tldw.isSome then .wait else .done (s.onM x fun m => { m with cache := [] }))

end Sys2Proof.Machine
end

