-- ==== Sys2Proof/Machine/VTile.lean ====
section
/-! DEFINITION. Vector tiles: element-wise operations and masks (R157 to R159), special functions (R160), reductions (R161), lane moves
(R162, R164), conversions (R163), the narrow view, port queues, sends and DMAPOST (R165 to R168). -/

namespace Sys2Proof.Machine

open Sys2Proof

/-! ## Fields (Table VT-2) -/

def vFn (w : DWord) : Nat := fld w 57 52
def vTy (w : DWord) : Nat := fld w 51 50
def vD (w : DWord) : Nat := fld w 49 45
def vA (w : DWord) : Nat := fld w 44 40
def vB (w : DWord) : Nat := fld w 39 35
def vBs (w : DWord) : Bool := bitAt w 34
def vC (w : DWord) : Nat := fld w 33 29
def vMk (w : DWord) : Nat := fld w 28 26
def vMen (w : DWord) : Bool := bitAt w 25
def vMz (w : DWord) : Bool := bitAt w 24
def vRnd (w : DWord) : Bool := bitAt w 23
def vRs (w : DWord) : Bool := bitAt w 22
def vAux (w : DWord) : Nat := fld w 21 16

/-- Elements of a type: 128 for BF16, 64 otherwise (R153). -/
def tyCount (ty : Nat) : Nat := if ty = 1 then 128 else 64

/-- An element of a register. -/
def VState.elem (v : VState) (ty r e : Nat) : Word := if ty = 1 then (v.half r e).setWidth 32 else v.lane r e

/-- The element of the second source: a register's, or the scalar of BS = 1. -/
def VState.elemB (v : VState) (w : DWord) (e : Nat) : Word :=
  if vBs w then
    let x := Map.get 0 v.s (vB w % 16)
    if vTy w = 1 then (x.extractLsb' 0 16).setWidth 32 else x
  else v.elem (vTy w) (vB w) e

/-- Whether an element takes part (R157). -/
def VState.active (v : VState) (w : DWord) (e : Nat) : Bool := !vMen w || (v.mask (vMk w)).getLsbD e

/-- Writes a result's elements to a register under the mask: the others keep the old value, or become zero (R157). -/
def VState.putElems (v : VState) (w : DWord) (ty : Nat) (f : Nat → Word) : VState :=
  let g := fun e => if v.active w e then f e else if vMz w then 0 else v.elem ty (vD w) e
  v.putLanes (vD w) fun l => if ty = 1 then (g (2 * l + 1)).setWidth 16 ++ (g (2 * l)).setWidth 16 else g l

/-- Writes a result's bits to a mask register under the mask; the bits beyond the type's elements are zero (R153, R157). -/
def VState.putBits (v : VState) (w : DWord) (ty : Nat) (f : Nat → Bool) : VState :=
  let d := vD w % 8
  let g := fun e => if v.active w e then f e else !vMz w && (v.mask d).getLsbD e
  v.putMask d ((List.range (tyCount ty)).foldl (fun b e => if g e then b ||| ((1 : BitVec 128) <<< e) else b) 0)

/-- The checks that all vector words share (R157, R159, Table VT-2). AUX is not reserved where an instruction has no use for it, and is
ignored there; RND and RS are fields of VCVT and VRED only, and reserved elsewhere (DEDUCED, log entry 61). -/
def vecLegal (w : DWord) (useC rnd rs sel : Bool) : Bool :=
  fld w 15 0 = 0 && vTy w < 3 && (useC || vC w = 0) && (rnd || !vRnd w) && (rs || !vRs w) &&
    !(vBs w && 16 ≤ vB w) && (vMen w || (!vMz w && (sel || vMk w = 0))) && !(sel && vMen w)

/-- How many cycles the ALU, FMA, SFU or RED unit holds an instruction: its latency (Table VT-6). Other units do not count (R233). -/
def unitCycles (w : DWord) : Nat :=
  match opcodeOf w with
  | 0x01 => 4
  | 0x02 => 6
  | 0x03 => 3
  | 0x04 => if vTy w = 1 then 14 else 12
  | 0x05 => 9
  | 0x06 => 4
  | 0x07 => 4
  | 0x0C => 3
  | 0x0D => 2
  | _ => 0

/-- An instruction that issues now fills its unit (R169, R233). -/
def Eff.inUnit (w : DWord) (x : Site) : Eff → Eff
  | .done s => if unitCycles w = 0 then .done s
    else .done (s.onV x fun v => { v with unitsUntil := max v.unitsUntil (s.clk.fclk + unitCycles w) })
  | e => e

/-- A V-tile instruction. -/
def State.issueV (s : State) (i : Issue) (op : Nat) (legal : State → Site → DWord → Nat → Bool)
    (effect : State → Site → DWord → Nat → Eff) : State :=
  if siteKind i.site = .v then s.issue i op legal false fun s x w ip => (effect s x w ip).inUnit w x else s

/-- A V-tile instruction whose effect is on the tile's own registers. -/
def State.issueVec (s : State) (i : Issue) (op : Nat) (legal : DWord → Bool) (f : DWord → VState → VState) : State :=
  s.issueV i op (fun _ _ w _ => legal w) fun s x w _ => .done (s.onV x (f w))

/-! ## VOP and VFMA (R158) -/

/-- The format of an element of type FP32 or BF16. -/
def tyFmt (ty : Nat) : Fmt := if ty = 1 then bf16 else fp32

/-- The value of a floating-point element. -/
def tyVal (ty : Nat) (x : Word) : Fp := (tyFmt ty).decode x.toNat

/-- A value rounded once to the type. -/
def tyRound (ty : Nat) (x : Fp) : Word := BitVec.ofNat 32 ((tyFmt ty).round .rne false x)

/-- A floating-point VOP on one element. -/
def vopFp (fn ty : Nat) (a b : Word) : Word :=
  let x := tyVal ty a
  let y := tyVal ty b
  match fn with
  | 0 => tyRound ty (x.add y)
  | 1 => tyRound ty (x.add y.neg)
  | 2 => tyRound ty (x.mul y)
  | 3 => tyRound ty (x.min y)
  | 4 => tyRound ty (x.max y)
  | 5 => tyRound ty x.abs
  | _ => tyRound ty x.neg

/-- An INT32 VOP on one lane. -/
def vopInt (fn : Nat) (a b : Word) : Word :=
  match fn with
  | 0 => a + b
  | 1 => a - b
  | 2 => a * b
  | 3 => if b.toInt < a.toInt then b else a
  | 4 => if a.toInt < b.toInt then b else a
  | 5 => if a.toInt < 0 then -a else a
  | 6 => -a
  | 7 => a &&& b
  | 8 => a ||| b
  | 9 => a ^^^ b
  | 10 => a <<< (b.toNat % 32)
  | 11 => a >>> (b.toNat % 32)
  | _ => a.sshiftRight (b.toNat % 32)

/-- VOP is legal (Table VT-3). -/
def vopLegal (w : DWord) : Bool :=
  vecLegal w false false false (vFn w = 14) && vFn w < 15 && (vFn w < 7 || 13 ≤ vFn w || vTy w = 2)

/-- VOP on a V-tile's registers; SEL takes m[MK] as its selector. -/
def VState.vop (w : DWord) (v : VState) : VState :=
  let ty := vTy w
  v.putElems w ty fun e =>
    let a := v.elem ty (vA w) e
    let b := v.elemB w e
    if vFn w = 13 then a
    else if vFn w = 14 then (if (v.mask (vMk w)).getLsbD e then a else b)
    else if ty = 2 then vopInt (vFn w) a b
    else vopFp (vFn w) ty a b

/-- VOP. -/
def execVop (i : Issue) (s : State) : Res := .next (s.issueVec i 0x01 vopLegal VState.vop)

/-- VFMA on a V-tile's registers: one rounding. -/
def VState.vfma (w : DWord) (v : VState) : VState :=
  let ty := vTy w
  v.putElems w ty fun e =>
    tyRound ty (((tyVal ty (v.elem ty (vA w) e)).mul (tyVal ty (v.elemB w e))).add (tyVal ty (v.elem ty (vC w) e)))

/-- VFMA. -/
def execVfma (i : Issue) (s : State) : Res :=
  .next (s.issueVec i 0x02 (fun w => vecLegal w true false false false && vFn w = 0 && vTy w < 2) VState.vfma)

/-! ## VCMP -/

/-- A floating-point compare. -/
def cmpFp (fn : Nat) (x y : Fp) : Bool :=
  match fn with
  | 0 => x.eq y
  | 1 => !x.eq y
  | 2 => x.lt y
  | 3 => x.lt y || x.eq y
  | 4 => y.lt x
  | 5 => y.lt x || x.eq y
  | _ => x.isNan || y.isNan

/-- An INT32 compare; integers are never unordered. -/
def cmpInt (fn : Nat) (a b : Word) : Bool :=
  match fn with
  | 0 => a = b
  | 1 => a ≠ b
  | 2 => a.toInt < b.toInt
  | 3 => a.toInt ≤ b.toInt
  | 4 => b.toInt < a.toInt
  | 5 => b.toInt ≤ a.toInt
  | _ => false

/-- VCMP on a V-tile's registers. -/
def VState.vcmp (w : DWord) (v : VState) : VState :=
  let ty := vTy w
  v.putBits w ty fun e =>
    let a := v.elem ty (vA w) e
    let b := v.elemB w e
    if ty = 2 then cmpInt (vFn w) a b else cmpFp (vFn w) (tyVal ty a) (tyVal ty b)

/-- VCMP. -/
def execVcmp (i : Issue) (s : State) : Res :=
  .next (s.issueVec i 0x03 (fun w => vecLegal w false false false false && vFn w < 7) VState.vcmp)

/-! ## VSF -/

/-- VSF on a V-tile's registers. -/
def VState.vsf (w : DWord) (v : VState) : VState :=
  let ty := vTy w
  v.putElems w ty fun e => tyRound ty (vsfOf (vFn w) (tyVal ty (v.elem ty (vA w) e)))

/-- VSF. -/
def execVsf (i : Issue) (s : State) : Res :=
  .next (s.issueVec i 0x04 (fun w => vecLegal w false false false false && vFn w < 9 && vTy w < 2) VState.vsf)

/-! ## VRED (R161) -/

/-- What an inactive element contributes. -/
def redIdentity (fn ty : Nat) : Word :=
  match fn with
  | 0 => 0
  | 1 => if ty = 2 then 0x80000000 else 0xFF800000
  | _ => if ty = 2 then 0x7FFFFFFF else 0x7F800000

/-- One combination of the tree. -/
def redStep (fn ty : Nat) (a b : Word) : Word :=
  if ty = 2 then (match fn with | 0 => vopInt 0 a b | 1 => vopInt 4 a b | _ => vopInt 3 a b)
  else (match fn with | 0 => vopFp 0 0 a b | 1 => vopFp 4 0 a b | _ => vopFp 3 0 a b)

/-- One level of the pairwise tree. -/
def redLevel (fn ty : Nat) : List Word → List Word
  | a :: b :: r => redStep fn ty a b :: redLevel fn ty r
  | l => l

/-- All levels. -/
def redTree (fn ty : Nat) : Nat → List Word → Word
  | 0, l => l.headD 0
  | k + 1, l => redTree fn ty k (redLevel fn ty l)

/-- The reduced value. -/
def VState.reduce (v : VState) (w : DWord) : Word :=
  let ty := vTy w
  redTree (vFn w) ty 7 ((List.range (tyCount ty)).map fun e =>
    if !v.active w e then redIdentity (vFn w) ty
    else if ty = 1 then widenBf16 (v.half (vA w) e) else v.lane (vA w) e)

/-- VRED on a V-tile's registers. -/
def VState.vred (w : DWord) (v : VState) : VState :=
  let r := v.reduce w
  if vRs w then { v with s := Map.set 0 v.s (vD w % 16) r } else v.putLanes (vD w) fun l => if l = 0 then r else 0

/-- VRED. -/
def execVred (i : Issue) (s : State) : Res :=
  .next (s.issueVec i 0x05
    (fun w => vecLegal w false false true false && vFn w < 3 && (vRs w || !vMz w)) VState.vred)

/-! ## VPERM (R162) -/

/-- The lane a VPERM takes for a lane. -/
def VState.permSource (v : VState) (w : DWord) (l : Nat) : Nat :=
  let r := if vBs w then (Map.get 0 v.s (vB w % 16)).toNat % 64 else vAux w
  match vFn w with
  | 0 => (l + r) % 64
  | 1 => (v.elemB w l).toNat % 64
  | 2 => r
  | _ => 63 - l

/-- VPERM on a V-tile's registers. -/
def VState.vperm (w : DWord) (v : VState) : VState := v.putElems w 0 fun l => v.lane (vA w) (v.permSource w l)

/-- VPERM. -/
def execVperm (i : Issue) (s : State) : Res :=
  .next (s.issueVec i 0x06 (fun w => vecLegal w false false false false && vFn w < 4 && vTy w = 0) VState.vperm)

/-! ## VCVT (R163) -/

/-- F32 to I32: nearest even, saturating, NaN gives 0. -/
def f32ToI32 (x : Word) : Word :=
  match ofF32 x with
  | .nan => 0
  | .inf a => if a then 0x80000000 else 0x7FFFFFFF
  | .fin a m e =>
    let n := signInt a (roundAt .rne m e 0)
    if n < -2147483648 then 0x80000000 else if 2147483647 < n then 0x7FFFFFFF else BitVec.ofInt 32 n

/-- I32 to F32. -/
def i32ToF32 (x : Word) : Word := roundF32 (ofInt x.toInt 0 false)

/-- The largest finite BF16. -/
def bf16Max : Fp := ofBf16 0x7F7F

/-- One element of the pack, with a draw where it is stochastic: a magnitude beyond the largest finite BF16 gives infinity. -/
def packBf16 (draw : Option Nat) (x : Word) : BitVec 16 :=
  let v := ofF32 x
  match draw with
  | none => roundBf16 v
  | some u => if bf16Max.lt v.abs then roundBf16 (.inf (x.toNat / 2 ^ 31 = 1)) else BitVec.ofNat 16 (bf16.round (.stoch u) false v)

/-- The state of the generator before each of `n` draws, and the draws. -/
def drawList : Nat → DWord → List Nat × DWord
  | 0, g => ([], g)
  | n + 1, g => let g1 := rngNext g; let r := drawList n g1; (rngDraw g1 :: r.1, r.2)

/-- A conversion other than the stochastic pack. -/
def VState.vcvt (w : DWord) (draws : Option (List Nat)) (v : VState) : VState :=
  let draw := fun e => draws.map fun d => d.getD e 0
  v.putElems w 0 fun l =>
    let x := v.lane (vA w) l
    match vFn w with
    | 0 => f32ToI32 x
    | 1 => i32ToF32 x
    | 2 => packBf16 (draw (2 * l + 1)) (v.elemB w l) ++ packBf16 (draw (2 * l)) x
    | 3 => widenBf16 (x.extractLsb' 0 16)
    | _ => widenBf16 (x.extractLsb' 16 16)

/-- VCVT is legal: RND with the pack only. -/
def vcvtLegal (_ : State) (_ : Site) (w : DWord) (_ : Nat) : Bool :=
  vecLegal w false (vFn w = 2) false false && vFn w < 5 && vTy w = 0

/-- VCVT: a stochastic pack takes one draw for every element in ascending order. -/
def execVcvt (i : Issue) (s : State) : Res :=
  .next (s.issueV i 0x07 vcvtLegal fun s x w _ =>
    if vRnd w then
      let d := drawList 128 (s.tile x).rng
      .done ((s.onV x (VState.vcvt w (some d.1))).onTile x fun t => { t with rng := d.2 })
    else .done (s.onV x (VState.vcvt w none)))

/-! ## VMOVS and MOP (R164) -/

/-- VMOVS on a V-tile's registers. INS acts under the mask as every instruction does (R157): a lane that is masked off keeps its value, or becomes
zero with MZ; the active lanes but lane AUX keep theirs (DEDUCED, log entry 61). -/
def VState.vmovs (w : DWord) (v : VState) : VState :=
  let x := Map.get 0 v.s (vB w % 16)
  match vFn w with
  | 0 => { v with s := Map.set 0 v.s (vD w % 16) (v.lane (vA w) (vAux w)) }
  | 1 => v.putElems w 0 fun l => if l = vAux w then x else v.lane (vD w) l
  | _ => v.putElems w 0 fun _ => x

/-- VMOVS. -/
def execVmovs (i : Issue) (s : State) : Res :=
  .next (s.issueVec i 0x0C (fun w => vecLegal w false false false false && vFn w < 3 && vTy w = 0) VState.vmovs)

/-- The number of 1 bits. -/
def popCount (b : BitVec 128) : Nat := ((List.range 128).filter fun k => b.getLsbD k).length

/-- MOP on a V-tile's registers. -/
def VState.mop (w : DWord) (v : VState) : VState :=
  let d := vD w % 8
  let a := v.mask (vA w % 8)
  let b := v.mask (vB w % 8)
  let k := vAux w % 4
  let put := fun x => v.putMask d x
  let word : BitVec 128 := 0xFFFFFFFF
  match vFn w with
  | 0 => put (a &&& b)
  | 1 => put (a ||| b)
  | 2 => put (a ^^^ b)
  | 3 => put (a &&& ~~~b)
  | 4 => put (~~~a)
  | 5 => put (~~~(0 : BitVec 128))
  | 6 => put 0
  | 7 => put ((v.mask d &&& ~~~(word <<< (32 * k))) ||| ((Map.get 0 v.s (vB w % 16)).setWidth 128 <<< (32 * k)))
  | 8 => { v with s := Map.set 0 v.s (vD w % 16) (a.extractLsb' (32 * k) 32) }
  | _ => { v with s := Map.set 0 v.s (vD w % 16) (BitVec.ofNat 32 (popCount a)) }

/-- MOP. -/
def execMop (i : Issue) (s : State) : Res :=
  .next (s.issueVec i 0x0D
    (fun w => vecLegal w false false false false && vFn w < 10 && vTy w = 0) VState.mop)

/-! ## The narrow view (R166, R167) -/

/-- Words and offsets of a VLD or VST. -/
def vlWords (w : DWord) : Nat := fld w 52 48 + 1
def vlOff (s : State) (x : Site) (w : DWord) (i : Nat) : Nat :=
  fld w 42 26 * 8 + (if bitAt w 47 then (s.scalar x (fld w 46 43)).toNat % 2 ^ 20 else 0) + i * (fld w 25 12 * 8)

/-- VLD and VST are legal. -/
def vlLegal (_ : State) (_ : Site) (w : DWord) (_ : Nat) : Bool := fld w 11 0 = 0

/-- OFFSET of an access beyond a B-tile that is fused off or parked (Table IG-5). -/
def noView : Nat := 0xFFFFFFFF

/-- The first offset beyond the view, if any. -/
def State.vlBad (s : State) (x : Site) (w : DWord) : Option Nat :=
  if s.homeOk x then
    ((List.range (vlWords w)).map fun i => vlOff s x w i).find? fun o => o % 8 ≠ 0 || btBytes ≤ o
  else some noView

/-- Two lanes of a register take a word. -/
def VState.putPair (v : VState) (r i : Nat) (x : DWord) : VState :=
  (v.putLane r (2 * i) (x.setWidth 32)).putLane r (2 * i + 1) (x.extractLsb' 32 32)

/-- Two lanes of a register as a word. -/
def VState.pair (v : VState) (r i : Nat) : DWord := v.lane r (2 * i + 1) ++ v.lane r (2 * i)

/-- The words of a VLD, in order, until one that cannot be corrected. -/
def State.vldWords (x : Site) (w : DWord) (a : Bool × State) (i : Nat) : Bool × State :=
  if a.1 then a
  else
    let r := a.2.btRead (homeB x) (vlOff a.2 x w i) 8 (siteSrc x)
    if r.2.1 then (true, r.2.2) else (false, r.2.2.onV x fun v => v.putPair (fld w 57 53) i (BitVec.ofNat 64 (leNat r.1)))

/-- Presents the narrow accesses of a VLD or VST. -/
def State.presentNarrow (s : State) (x : Site) (w : DWord) : State :=
  (List.range (vlWords w)).foldl (fun a i => a.present (homeB x) .nv (vlOff s x w i) 8) s

/-- VLD. -/
def execVld (i : Issue) (us : List Upset) (s : State) : Res :=
  .next (s.issueV i 0x08 vlLegal fun s x w ip =>
    match s.vlBad x w with
    | some o => .ended (s.beyondView x ip o)
    | none =>
      let r := (List.range (vlWords w)).foldl (State.vldWords x w) (false, (s.upsetBt (homeB x) us).presentNarrow x w)
      if r.1 then .ended (r.2.uncorrectable x) else .done r.2)

/-- VST. -/
def execVst (i : Issue) (s : State) : Res :=
  .next (s.issueV i 0x09 vlLegal fun s x w ip =>
    match s.vlBad x w with
    | some o => .ended (s.beyondView x ip o)
    | none =>
      .done ((List.range (vlWords w)).foldl (fun a k =>
        a.btPut (homeB x) (vlOff s x w k) (leBytes 8 ((s.tile x).v.pair (fld w 57 53) k).toNat)) (s.presentNarrow x w)))

/-! ## Ports, sends, DMAPOST (R168) -/

/-- VPRD is legal. -/
def vprdLegal (_ : State) (_ : Site) (w : DWord) (_ : Nat) : Bool :=
  fld w 39 0 = 0 && fld w 49 45 < 16 && (!bitAt w 44 || (fld w 49 45 = 0 && fld w 43 40 % 2 = 0))

/-- VPRD's pop of a port queue. -/
def VState.vprd (w : DWord) (v : VState) : VState :=
  let ep := fld w 52 50
  let n := fld w 49 45 + 1
  let q := Map.get [] v.queues ep
  let es := q.take n
  let v1 := { v with queues := Map.set [] v.queues ep (q.drop n) }
  if bitAt w 44 then
    let e := es.headD 0
    let sd := fld w 43 40
    { v1 with s := Map.set 0 (Map.set 0 v1.s sd (e.setWidth 32)) (sd + 1) (e.extractLsb' 32 32) }
  else es.zipIdx.foldl (fun v p => v.putPair (fld w 57 53) p.2 p.1) v1

/-- VPRD: it waits for its entries. -/
def execVprd (i : Issue) (s : State) : Res :=
  .next (s.issueV i 0x0A vprdLegal fun s x w _ =>
    if (Map.get [] (s.tile x).v.queues (fld w 52 50)).length < fld w 49 45 + 1 then .wait
    else .done (s.onV x (VState.vprd w)))

/-- VSEND is legal. -/
def vsendLegal (_ : State) (_ : Site) (w : DWord) (_ : Nat) : Bool := fld w 47 0 = 0

/-- Sixteen lanes as a flit. -/
def VState.flit (v : VState) (r f : Nat) : Flit := flitOf ((List.range 16).flatMap fun l => leBytes 4 (v.lane r (16 * f + l)).toNat)

/-- VSEND. -/
def execVsend (i : Issue) (s : State) : Res :=
  .next (s.issueV i 0x0B vsendLegal fun s x w ip =>
    s.sendInsn x ip (fld w 52 50) ((List.range (fld w 49 48 + 1)).map fun f => (s.tile x).v.flit (fld w 57 53) f))

/-- DMAPOST is legal. -/
def dmapostLegal (_ : State) (_ : Site) (w : DWord) (_ : Nat) : Bool := fld w 52 0 = 0

/-- DMAPOST: lanes 0 to 7 are posted; a full engine makes it wait (R115, R167). -/
def execDmapost (i : Issue) (s : State) : Res :=
  .next (s.issueV i 0x0E dmapostLegal fun s x w ip =>
    if !s.homeOk x then .ended (s.beyondView x ip noView)
    else if s.dmaRoom (homeB x) then
      .done (s.dmaPost (homeB x)
        (BitVec.ofNat 256 (leNat ((List.range 8).flatMap fun l => leBytes 4 ((s.tile x).v.lane (fld w 57 53) l).toNat))) (siteSrc x))
    else .wait)

end Sys2Proof.Machine
end

