-- ==== Sys2Proof/Machine/Answers.lean ====
section
/-! DEFINITION. The path of a memory request and its answers (R418, R119, R140): translation units, HBM controllers with patrol scrub and
refresh (R207 to R210), responses and acknowledgements at their requester, and NAKs at their sender (R71, R183, R249). -/

namespace Sys2Proof.Machine

open Sys2Proof

/-! ## Translation units (R215, R418) -/

/-- A response of a memory unit to the sender of a request. -/
def answerHead (h : Head) (kind : Nat) (src : Src) : Head :=
  { h with vc := true, destDie := BitVec.ofNat 6 (h.src.toNat / 1024), destUnit := BitVec.ofNat 10 (h.src.toNat % 1024), ep := 0,
           kind := BitVec.ofNat 3 kind, src := src }

/-- Whether a requester is an M-tile: its request is a row of a TLDW, and its fault has AGENT 0; another tile's is a DMA row. -/
def isTldwSrc (x : Src) : Bool := match siteOfSrc x with | some y => siteKind y = .m | none => false

/-- ROW of the fault record of a request: a DMA request's `row` is its 64-byte unit. -/
def State.requestRow (s : State) (src : Src) (tag : BitVec 16) (row : Nat) : Nat :=
  match siteOfSrc src with
  | some x =>
    match (s.tile x).b.dmas.find? fun d => d.seq = tag with
    | some d => if siteKind x = .b then d.unitRow row else row
    | none => row
  | none => row

/-- A translation fault of a request (R217, R418): the record and the log entry, and a KIND 4 packet to the requester. -/
def State.translationFault (s : State) (half : Fin 2) (p : Packet) (r : MemReq) (cause level : Nat) : State :=
  let t := p.head.tenant
  let tldw := isTldwSrc p.head.src
  let i : FaultInfo := { va := r.va.toNat, src := p.head.src, agent := if tldw then 0 else 1,
                         row := s.requestRow p.head.src p.head.tag r.row,
                         seq := if tldw then 0 else p.head.tag.toNat, write := r.write }
  let n : Nak := { code := if tldw then E_TLDW_FAULT else E_DMA_FAULT, ofKind := p.head.kind,
                   tagKind := BitVec.ofNat 2 (p.head.tag.toNat / 16384), die := p.head.destDie, mem := true, row := r.row,
                   faultId := (s.ctx t).faultId.toNat }
  (s.memFault t i cause level).addPacket
    { place := .spine half 13, head := answerHead p.head 4 (srcOf (26 + half.val) 16), body := .nak n }

/-- TRANSLATION: the request goes on over the spine to the service port of its stack's controller, or faults. -/
def State.translation (s : State) (k : Nat) : State :=
  match s.net.flow[k]? with
  | some p =>
    match p.place, p.body with
    | .unit d u, .memReq r =>
      if (d.val = 26 || d.val = 27) && u = 16 && !r.window && s.alive && s.power.pstate = .p0 then
        let half : Fin 2 := Fin.ofNat 2 (d.val - 26)
        let w := s.translate half p.head.tenant r.va.toNat { write := r.write }
        let s1 := w.2.dropPacket k
        match w.1 with
        | .ok dpa _ _ =>
          let c := controllerSrc s.pkg.variant (dpa / 2 ^ 36 % 16)
          s1.addPacket { place := .spine half 13, body := .hbmCall { req := r, dpa := BitVec.ofNat 64 dpa }
                         head := { p.head with destDie := BitVec.ofNat 6 (c.toNat / 1024), destUnit := BitVec.ofNat 10 (c.toNat % 1024) } }
        | .fault c l => s1.translationFault half p r c l
      else s
    | _, _ => s
  | none => s

/-- TRANSLATION (R214, R215, R418). -/
def execTranslation (k : Nat) (s : State) : Res := .next (s.translation k)

/-! ## HBM controllers (R207, R208) -/

/-- The stack of a request. -/
def HbmReq.stack (r : HbmReq) : Nat := r.dpa.toNat / 2 ^ 36 % 16

/-- Whether no earlier request waits for the same burst. -/
def reqFirst (rs : List HbmReq) (k : Nat) (r : HbmReq) : Bool := (rs.take k).all fun q => q.dpa.toNat / 64 ≠ r.dpa.toNat / 64

/-- Bursts that a controller holds at most (R207). -/
def burstRoom : Nat := 512

/-- Whether a request is among those that its controller holds: later ones wait in HM-REQ (R207). -/
def held (rs : List HbmReq) (k : Nat) (r : HbmReq) : Bool := ((rs.take k).filter fun q => q.stack = r.stack).length < burstRoom

/-- The spine port of a stack's controller. -/
def State.stackPlace (s : State) (k : Nat) : Place :=
  let a := s.attach (stackDie s.pkg.variant k) 0
  .spine a.1 a.2

/-- The controller performs a request and answers its requester. -/
def State.hbmPerform (s : State) (r : HbmReq) : State :=
  let dpa := r.dpa.toNat
  let t := tenantByte r.head.tenant
  let h := answerHead r.head 3 (channelSrc s.pkg.variant dpa)
  if r.write then
    (s.hbmWrite dpa (flitBytes r.data) r.head.src t).addPacket { place := s.stackPlace r.stack, head := h, body := .writeAck r.row OK }
  else
    let x := s.hbmRead dpa r.bytes r.head.src t
    x.2.2.addPacket
      { place := s.stackPlace r.stack, head := h, body := .readRsp r.row (flitOf x.1) (if x.2.1 then E_ECC_UNCORRECTED else OK) }

/-- An upset of a burst comes about. -/
def State.upsetBurst (s : State) (burst : Nat) : Option EccKind → State
  | some k => s.setBurstErr burst k
  | none => s

/-- HBM_REQUEST. -/
def State.hbmRequest (s : State) (k : Nat) (upset : Option EccKind) : State :=
  match s.mem.reqs[k]? with
  | some r =>
    if s.alive && !s.mem.selfRefresh && held s.mem.reqs k r && reqFirst s.mem.reqs k r then
      ({ s with mem := { s.mem with reqs := s.mem.reqs.eraseIdx k } }.upsetBurst (r.dpa.toNat / 64) upset).hbmPerform r
    else s
  | none => s

/-- HBM_REQUEST (R207, R208, R227). -/
def execHbmRequest (k : Nat) (upset : Option EccKind) (s : State) : Res := .next (s.hbmRequest k upset)

/-- The burst that the patrol of a stack visits next. -/
def State.patrolBurst (s : State) (k : Nat) : Nat := k * 2 ^ 30 + Map.get 0 s.mem.patrol k

/-- PATROL_SCRUB: with no request waiting for the stack, the next burst is read and checked (R209). -/
def State.patrolScrub (s : State) (k : Nat) (upset : Option EccKind) : State :=
  if stackCount s.pkg.variant ≤ k || !s.alive || s.mem.selfRefresh || s.mem.reqs.any (fun r => r.stack = k) then s
  else
    let b := s.patrolBurst k
    let s1 := s.upsetBurst b upset
    let s2 := { s1 with mem := { s1.mem with patrol := Map.set 0 s1.mem.patrol k ((Map.get 0 s1.mem.patrol k + 1) % (stackBytes s.pkg.variant / 64)) } }
    let me := controllerSrc s.pkg.variant k
    match s1.burstErr b with
    | none => s2
    | some .ce => (s2.clearBurstErr b).logHbmEcc HBM_ECC_CE b me noTenant true
    | some .ue => s2.logHbmEcc HBM_ECC_UE b me noTenant true

/-- PATROL_SCRUB (R209). -/
def execPatrolScrub (k : Fin 12) (upset : Option EccKind) (s : State) : Res := .next (s.patrolScrub k.val upset)

/-- REFRESH: the rotation of a stack's pseudo-channels goes on; no data changes (R210). -/
def State.refresh (s : State) (k : Nat) : State :=
  if stackCount s.pkg.variant ≤ k || !s.alive || s.mem.selfRefresh then s
  else { s with mem := { s.mem with refresh := Map.upd 0 s.mem.refresh k fun n => (n + 1) % 32 } }

/-- REFRESH (R210). -/
def execRefresh (k : Fin 12) (s : State) : Res := .next (s.refresh k.val)

/-! ## Answers at a tile -/

/-- READ_RESPONSE at a tile: a line of a TLDW, or a row of a read descriptor (R119, R140). -/
def State.readResponse (s : State) (k : Nat) : State :=
  match s.arrivedAt k with
  | some (x, p) =>
    match p.body with
    | .readRsp row data status =>
      let s1 := s.dropPacket k
      if siteKind x = .m then s1.tldwData x row data status
      else if status = OK then s1.dmaData x p.head.tag row data
      else s1.dmaNak x p.head.tag row status
    | _ => s
  | none => s

/-- READ_RESPONSE (R119, R140, R418). -/
def execReadResponse (k : Nat) (s : State) : Res := .next (s.readResponse k)

/-- HBM_WRITE_ACK at a B-tile. -/
def State.writeAcked (s : State) (k : Nat) : State :=
  match s.arrivedAt k with
  | some (x, p) =>
    match p.body with
    | .writeAck row status =>
      let s1 := s.dropPacket k
      if status = OK then s1.dmaAck x p.head.tag row else s1.dmaNak x p.head.tag row status
    | _ => s
  | none => s

/-- HBM_WRITE_ACK (R119, R418). -/
def execHbmWriteAck (k : Nat) (s : State) : Res := .next (s.writeAcked k)

/-- The first unanswered unit of a GRID_WRITE descriptor whose 64-byte word has an index, at a site. -/
def Dma.gridUnit (d : Dma) (src : Src) (word : Nat) : Option Nat :=
  (List.range d.sent).find? fun u =>
    let dpa := d.unitRem u
    !d.answered.contains u && dpa % 2 ^ 20 / 64 = word &&
      siteSrc (btSite (dpa / 2 ^ 32 % 16) (dpa / 2 ^ 20 % 128)) = src

/-- The descriptor and unit of a GRID_WRITE that an answer belongs to. -/
def State.gridMatch (s : State) (x : Site) (src : Src) (word : Nat) : Option (BitVec 16 × Nat) :=
  ((s.tile x).b.dmas.filter fun d => d.kind = 3 && d.phase = .started).findSome? fun d => (d.gridUnit src word).map fun u => (d.seq, u)

/-- GRID_WRITE_ACK at the sender (R417). -/
def State.gridAcked (s : State) (k : Nat) : State :=
  match s.arrivedAt k with
  | some (x, p) =>
    match p.body with
    | .gridAck =>
      let s1 := s.dropPacket k
      match s1.gridMatch x p.head.src (p.head.tag.toNat % 16384) with
      | some (q, u) => s1.dmaAck x q u
      | none => s1
    | _ => s
  | none => s

/-- GRID_WRITE_ACK (R417). -/
def execGridWriteAck (k : Nat) (s : State) : Res := .next (s.gridAcked k)

/-! ## NAKs (R71, R183, R249) -/

/-- The status of a descriptor or a TLDW row for the code that a NAK carries (Table BT-6). -/
def memStatus (code : Status) : Status :=
  if code = NAK_DOWN then E_DOMAIN_CLOSED
  else if code = NAK_REGION then E_REGION
  else if code = NAK_SEALED then E_SEALED_CLASS
  else if code = NAK_NO_TARGET then E_NO_TARGET
  else if code = NAK_WINDOW then E_WINDOW_PERM
  else code

/-- The status of an OPEN for the code that a NAK carries (R183, R249). -/
def openNakStatus (code : Status) : Status :=
  if code = NAK_DOWN || code = E_DOMAIN_CLOSED then E_PEER_DOWN else memStatus code

/-- Whether a code says that the destination's die is down. -/
def isDown (code : Status) : Bool := code = NAK_DOWN || code = E_DOMAIN_CLOSED

/-- A NAK at the tile that sent the packet. -/
def State.nakAtTile (s : State) (x : Site) (h : Head) (n : Nak) : State :=
  if n.ofKind = 3 then
    if isDown n.code then s.logDownRsp (siteSrc x) h.tenant n.die.toNat h.tag.toNat else s
  else if n.mem then
    if siteKind x = .m then s.tldwNak x n.row (memStatus n.code) n.faultId else s.dmaNak x h.tag n.row (memStatus n.code)
  else if n.ofKind = 1 then
    match s.gridMatch x (srcOf n.die.toNat n.unit.toNat) (h.tag.toNat % 16384) with
    | some (q, u) => s.dmaNak x q u (memStatus n.code)
    | none => s
  else if n.tagKind = 1 then s.openStatus x (tagEp h.tag) (openNakStatus n.code)
  else if n.tagKind = 0 && isDown n.code then
    s.onOut x (tagEp h.tag) fun o => if o.state = .opened then { o with state := .down } else o
  else s

/-- NAK_PACKET: the sender takes the refusal. A unit that sent a response only logs one that a die refused. -/
def State.nakPacket (s : State) (k : Nat) : State :=
  match s.net.flow[k]? with
  | some p =>
    match p.place, p.body with
    | .arrived _, .nak n =>
      match s.arrivedAt k with
      | some (x, _) => (s.dropPacket k).nakAtTile x p.head n
      | none => s
    | .unit d u, .nak n =>
      if s.alive then
        let s1 := s.dropPacket k
        if isDown n.code then s1.logDownRsp (srcOf d.val u.toNat) p.head.tenant n.die.toNat p.head.tag.toNat else s1
      else s
    | _, _ => s
  | none => s

/-- NAK_PACKET (R71, R183, R249). -/
def execNakPacket (k : Nat) (s : State) : Res := .next (s.nakPacket k)

end Sys2Proof.Machine
end

