-- ==== Sys2Proof/Machine/Pacer.lean ====
section
/-! DEFINITION. The pacer: weights, ramp phases, bounds, ballast and holds (R233 to R241), and the steps of clock trees and power switches
(R242, R244). -/

namespace Sys2Proof.Machine

open Sys2Proof

/-! ## Weights (R233, R234) -/

/-- FCLK cycles in one microsecond (R236). -/
def phi (p : Fin 3) : Nat := match p with | 0 => 1600 | 1 => 1200 | _ => 800

/-- Weight of an active M-tile and of an active V-tile, of a die's clock tree, and its leakage (Table EN-2). -/
def weightM (p : Fin 3) : Nat := match p with | 0 => 36 | 1 => 27 | _ => 18
def weightV (p : Fin 3) : Nat := match p with | 0 => 8 | 1 => 6 | _ => 4
def weightTree (p : Fin 3) : Nat := match p with | 0 => 704 | 1 => 528 | _ => 352
def weightLeak : Nat := 256

/-- The tenant and REGIONS byte of a numbered region of a die: 0 holds column 0, 1 is an east region. -/
def State.regionOf (s : State) (d : Nat) (r : Fin 3) : Option (Tenant × Byte) :=
  match r with
  | 2 => none
  | _ =>
    ((List.finRange 16).map fun t => (t, Map.get 0 (s.ctx t).regions d)).find? fun p =>
      if r = 0 then p.2 = 0x08 || p.2.toNat / 16 = 1 else p.2.toNat / 16 = 2

/-- The quads of columns that a REGIONS byte holds. -/
def quads (b : Byte) : Nat := if b = 0x08 then 8 else if b.toNat / 16 = 1 then b.toNat % 16 else 8 - b.toNat % 16

/-- The slew allowance of a region per microsecond (R234). -/
def State.allowance (s : State) (d : Nat) (r : Fin 3) : Nat :=
  match s.regionOf d r with
  | some (_, b) => 20 * quads b
  | none => 160

/-! ## Ramp phases (R235, R236) -/

/-- The dies of a mask in ascending order. -/
def maskDies (m : BitVec 16) : List Nat := (List.range 16).filter fun d => bitAt m d

/-- The RAMP record of a section. -/
def Section.ramp (c : Section) : Option Rec := c.recs.find? fun r => r.kind = 5

/-- M_CEIL and V_CEIL of a phase for a die (Table EN-3). -/
def rampEntry (r : Rec) (dies : List Nat) (k d : Nat) : Nat × Nat :=
  let w := leNat ((r.payload.drop (4 * (k * dies.length + dies.idxOf d))).take 4)
  (w % 2 ^ 13, w / 2 ^ 16 % 2 ^ 12)

/-- The ceiling weight of a phase, with the weights of 1.6 GHz. -/
def rampWeight (r : Rec) (dies : List Nat) (k d : Nat) : Nat := let e := rampEntry r dies k d; 36 * e.1 + 8 * e.2

/-- The phase in force of an instance: the section of its ramp and the phase number (R236). -/
def State.phaseOf (s : State) (i : Instance) : Option (Section × Nat) :=
  match i.run.ramp with
  | some (n, since) =>
    (i.section? n).map fun c => (c, min ((s.clk.fclk - since) / phi s.clk.point) (c.rampSteps - 1))
  | none => none

/-- The ceiling of an instance's phase on a die; zero before its first front. -/
def State.ceiling (s : State) (i : Instance) (d : Nat) : Nat :=
  match s.phaseOf i with
  | some (c, k) => (match c.ramp with | some r => rampWeight r (maskDies i.dieMask) k d | none => 0)
  | none => 0

/-- The instance that runs in a tenant's region of a die. -/
def State.instOn (s : State) (t : Tenant) (d : Nat) : Option Instance :=
  s.instances.find? fun i => i.tenant = t && bitAt i.dieMask d

/-! ## Bounds (R238) -/

/-- What the pacer keeps of a region. -/
def State.pace (s : State) (d : Nat) (r : Fin 3) : PaceRegion := Map.get {} s.power.pace (d * 3 + r.val)

/-- Changes it. -/
def State.onPace (s : State) (d : Nat) (r : Fin 3) (f : PaceRegion → PaceRegion) : State :=
  { s with power := { s.power with pace := Map.upd {} s.power.pace (d * 3 + r.val) f } }

/-- lo and hi of the tick to come, for an allowance and a ceiling. -/
def PaceRegion.bounds (p : PaceRegion) (a c : Nat) : Nat × Nat :=
  let part := (p.weights.take 15).sum
  let prev := ((p.weights.drop 15).take 16).sum
  (prev - (16 * a + part), min c (prev + 16 * a - part))

/-- lo of a region on a die (R241). -/
def State.paceLo (s : State) (d : Nat) (r : Fin 3) : Nat := ((s.pace d r).bounds (s.allowance d r) 0).1

/-- The weight of a tick: what the units want, kept between lo and hi; lo wins over a hi below it (R238, R241). -/
def PaceRegion.weigh (p : PaceRegion) (a c want : Nat) : Nat :=
  let b := p.bounds a c
  if b.2 ≤ b.1 then b.1 else max b.1 (min want b.2)

/-- A tick enters the record, under an allowance; the next begins now. -/
def PaceRegion.push (p : PaceRegion) (w a now : Nat) : PaceRegion :=
  { p with weights := (w :: p.weights).take 31, sum := 0, since := now, allow := a }

/-- Whether a tick of a region has passed: Φ/16 FCLK cycles. -/
def State.tickDue (s : State) (d : Nat) (r : Fin 3) : Bool := (s.pace d r).since + phi s.clk.point / 16 ≤ s.clk.fclk

/-- The average weight of a region's active tiles over the tick that ends now, without ballast (R233). -/
def State.paceWant (s : State) (d : Nat) (r : Fin 3) : Nat := (s.pace d r).sum / (s.clk.fclk - (s.pace d r).since)

/-- Counts a tick of a die once (BALLAST_TICKS, HOLD_TICKS). -/
def countTick (m : Map Word) (d tick : Nat) : Map Word :=
  if Map.get 0 m (64 + d) = BitVec.ofNat 32 (tick + 1) then m
  else Map.set 0 (Map.upd 0 m d fun c => addSat c 1) (64 + d) (BitVec.ofNat 32 (tick + 1))

/-- The number of the pacer tick of now: Φ/16 FCLK cycles each. -/
def State.paceTick (s : State) : Nat := s.clk.fclk / (phi s.clk.point / 16)

/-- Weight of a die's clock tree and leakage as its steps and stages stand (R233, R242). -/
def State.baseWeight (s : State) (d : Nat) : Nat :=
  weightTree s.clk.point * (s.die d).steps / 8 + 128 * (s.die d).stages

/-- Whether the sections that run in a tenant's region of a die are sealed. -/
def State.regionSealed (s : State) (t : Tenant) (d : Nat) : Bool :=
  (dieSites d).any fun x => s.inRegion t x && !s.isFused x && !(s.tile x).parked && s.sealedAt x

/-- The section that a region of a die runs: that of its first configured tile. -/
def State.regionSection (s : State) (t : Tenant) (d : Nat) : Nat :=
  match (dieSites d).find? fun x => s.inRegion t x && !(s.tile x).parked with
  | some x => (s.tile x).active.sect
  | none => 0

/-- PACER_SEAL, once the bounds allow the section to go on (R240). -/
def State.logPacerSeal (s : State) (t : Tenant) (d ticks : Nat) : State :=
  let phase := match s.instOn t d with
    | some i => (match s.phaseOf i with | some p => p.2 | none => 0)
    | none => 0
  s.logEv stewardSrc PACER_SEAL (tenantByte t) ([BitVec.ofNat 8 d, 0] ++ leBytes 2 phase ++ leBytes 4 ticks)

/-- A hold in a sealed section asserts the seal stall (R240). -/
def State.pacerSeal (s : State) (t : Tenant) (d : Nat) : State :=
  match s.instOn t d with
  | some i => if (s.pace d 0).holding || (s.pace d 1).holding then s else s.assertSealInst i.id (s.regionSection t d) 2
  | none => s

/-- A tick with ballast is counted (R239, BALLAST_TICKS). -/
def State.countBallast (s : State) (d : Nat) : State :=
  { s with power := { s.power with ballast := countTick s.power.ballast d s.paceTick } }

/-- One tick of a tenant's region: ballast raises its weight to lo, a hold keeps it at hi, lo wins over the ceiling (R238 to R241). -/
def State.paceRegionTick (s : State) (d : Nat) (r : Fin 3) (t : Tenant) : State :=
  let c := match s.instOn t d with | some i => s.ceiling i d | none => 0
  let a := s.allowance d r
  let p := s.pace d r
  let lo := (p.bounds a c).1
  let hi := (p.bounds a c).2
  let want := s.paceWant d r
  let hold := hi < want || hi < lo
  let s1 := if want < lo then s.countBallast d else s
  let s2 := if hold then { s1 with power := { s1.power with hold := countTick s1.power.hold d s.paceTick } } else s1
  let isSealed := s.regionSealed t d
  let s3 := if hold && isSealed then s2.pacerSeal t d
    else if !hold && isSealed && p.holding then s2.logPacerSeal t d p.heldTicks else s2
  s3.onPace d r fun p =>
    { p.push (p.weigh a c want) a s.clk.fclk with
      holding := hold, holdAll := c < lo, heldTicks := if hold then p.heldTicks + 1 else 0 }

/-- One tick of a region that no context holds now: ballast lets what is left of its weight decay at the allowance it had (R228, R239). -/
def State.paceFreeTick (s : State) (d : Nat) (r : Fin 3) : State :=
  let p := s.pace d r
  let w := p.weigh p.allow 0 (s.paceWant d r)
  (if s.paceWant d r < w then s.countBallast d else s).onPace d r fun p =>
    { p.push w p.allow s.clk.fclk with holding := false, holdAll := false, heldTicks := 0 }

/-- One tick of a die's clock tree and leakage, whose allowance is 160 ru per µs (R234, R238). -/
def State.paceBaseTick (s : State) (d : Nat) : State :=
  s.onPace d 2 fun p => p.push (p.weigh 160 (weightTree 0 + weightLeak) (s.baseWeight d)) 160 s.clk.fclk

/-- Once a tick of a region of a die has passed, its bounds are kept and its weight is recorded. -/
def State.pacerTick (s : State) (d : Nat) (r : Fin 3) : State :=
  if !s.alive || !s.tickDue d r then s
  else if r = 2 then s.paceBaseTick d
  else match s.regionOf d r with
    | some (t, _) => s.paceRegionTick d r t
    | none => s.paceFreeTick d r

/-- PACER_TICK (R238 to R241): the ticks that end at a die, of its first region, its second region, and its clock tree and leakage. -/
def execPacerTick (d : FieldDie) (first second base : Bool) (s : State) : Res :=
  .next (([((0 : Fin 3), first), (1, second), (2, base)].filter fun q => q.2).foldl (fun a q => a.pacerTick d.val q.1) s)

/-! ## Clock trees and power switches (R242, R244) -/

/-- Whether a step of any context runs on a die. -/
def State.stepsOn (s : State) (d : Nat) : Bool :=
  s.instances.any fun i => i.run.running && !(s.ctx i.tenant).preempted && bitAt i.dieMask d

/-- Whether a region's weight is zero: in the tick before, and in the cycles of this one so far. -/
def PaceRegion.quiet (p : PaceRegion) : Bool := p.weights.headD 0 = 0 && p.sum = 0

/-- Whether the tile weight of a die is zero (R242). -/
def State.tilesQuiet (s : State) (d : Nat) : Bool := (s.pace d 0).quiet && (s.pace d 1).quiet

/-- Whether a step of a die may be taken: one per µs (R242). -/
def State.stepDue (s : State) (d : Nat) : Bool :=
  match (s.die d).lastStep with
  | some g => g.toNat + 1000 ≤ s.clk.gts.toNat
  | none => true

/-- One step of a die toward more clock tree. -/
def DiePower.ungate (p : DiePower) : DiePower :=
  if p.stages < 2 then { p with stages := p.stages + 1 }
  else if p.steps < 8 then
    { p with steps := p.steps + 1, state := if p.steps = 7 && p.state = .gated then .on else p.state, gatedSince := none }
  else p

/-- One step of a die toward less: the clock tree in eighths; at none it is GATED. -/
def DiePower.gate (p : DiePower) (now : DWord) : DiePower :=
  if 1 < p.steps then { p with steps := p.steps - 1 }
  else if p.steps = 1 then { p with steps := 0, state := .gated, gatedSince := some now }
  else p

/-- One step of a die toward open: the clock tree in eighths, then the switch in its stages. -/
def DiePower.opened (p : DiePower) : DiePower :=
  if 0 < p.steps then { p with steps := p.steps - 1 } else { p with stages := p.stages - 1 }

/-- The step a die takes: in the descent every die opens; an idle powered field die gates, one on which a step runs ungates, a die on its way up
goes on, and a die that failed its checkers or that has drained opens (R242, R244, R246, R248). -/
def State.nextPower (s : State) (d : Nat) (p : DiePower) : DiePower :=
  if s.power.descent then p.opened
  else match p.state with
    | .on => if d < 16 && !s.stepsOn d then p.gate s.clk.gts else p.ungate
    | .gated => if s.stepsOn d then p.ungate else p.gate s.clk.gts
    | .off => if p.cmd.isSome && !p.drained then p.ungate else p.opened
    | .closing => if p.drained then p.opened else p

/-- POWER_STEP: a die takes a step, one per µs and while its tile weight is zero; in the descent while that of every field die is. -/
def State.powerStep (s : State) (d : Nat) : State :=
  if !s.alive || !s.stepDue d || !s.tilesQuiet d || (s.power.descent && !(List.range 16).all fun e => s.tilesQuiet e) then s
  else
    let p := s.nextPower d (s.die d)
    if p = s.die d then s else s.onDie d fun _ => { p with lastStep := some s.clk.gts }

/-- POWER_STEP (R242). -/
def execPowerStep (d : Die) (s : State) : Res := .next (s.powerStep d.val)

end Sys2Proof.Machine
end

