-- ==== Sys2Proof/Machine/Sections.lean ====
section
/-! DEFINITION. Sections at a tile: the load of the shadow (R85 to R87, R99, R126), done conditions (R91), the swap with its clear mask,
endpoints, pins and sequencer (R84, R85, R92, R93, R96, R402), and the fronts' merge (R90). -/

namespace Sys2Proof.Machine

open Sys2Proof

/-! ## TILE_CFG (Table LY-6) -/

def cfgKind (c : Flit) : Nat := bitsOf c 16 8
def cfgKeep (c : Flit) : Bool := bitAt c 24
def cfgPark (c : Flit) : Bool := bitAt c 25
def cfgClear (c : Flit) : BitVec 32 := c.extractLsb' 32 32
def cfgSealLen (c : Flit) : Nat := bitsOf c 64 32
def cfgEntry (c : Flit) : Nat := bitsOf c 96 32
def cfgSeed (c : Flit) : DWord := c.extractLsb' 128 64

/-- Bits of CLEAR_MASK that Table LY-10 lists for a kind; the others are reserved (R93). -/
def clearBits (k : TileKind) : Nat :=
  match k with
  | .m => 0x10003FFF
  | .v => 0x103FFFFF
  | .b => 0x0001FFFF
  | .p => 0

/-! ## Records of a site -/

/-- Whether a record names a site: ROUTER, TILE_CFG, IMEM, BTILE_IMAGE and PIN_GRANT do (Table LY-5). -/
def Rec.sited (r : Rec) : Bool := r.kind = 1 || r.kind = 2 || r.kind = 3 || r.kind = 4 || r.kind = 6

/-- Whether a record is for a site. -/
def Rec.isAt (r : Rec) (x : Site) : Bool := r.sited && r.die.toNat = x.die.val && r.col.toNat = x.col.val && r.row.toNat = x.row.val

/-- The records of a section for a site, in container order. -/
def Section.recsAt (c : Section) (x : Site) : List Rec := c.recs.filter fun r => r.isAt x

/-- The TILE_CFG of a site in a section. -/
def Section.cfgAt (c : Section) (x : Site) : Option Flit :=
  (c.recs.find? fun r => r.kind = 2 && r.isAt x).map fun r => flitOf r.payload

/-- SEAL_LEN of a section: the largest of its tiles (R346). -/
def Section.sealLen (c : Section) : Nat :=
  (c.recs.filter fun r => r.kind = 2).foldl (fun a r => max a (cfgSealLen (flitOf r.payload))) 0

/-- The PIN_GRANT payloads of a site in a section. -/
def Section.pinsAt (c : Section) (x : Site) : List Word :=
  (c.recs.filter fun r => r.kind = 6 && r.isAt x).map fun r => BitVec.ofNat 32 (leNat (r.payload.take 4))

/-- A bank with a ROUTER record (R83): the router word and five tables of `period` bytes. -/
def Bank.withRouter (b : Bank) (r : Rec) (period : Nat) : Bank :=
  let tables := r.payload.drop 8
  let slots := (tables.zipIdx.take (5 * period)).foldl (fun (m : Map Byte) p => Map.set 0 m (p.2 / period * 256 + p.2 % period) p.1) []
  { b with routerWord := BitVec.ofNat 64 (leNat (r.payload.take 8)), period := max 1 period, slots := slots }

/-- A bank whose router works under a section's ROUTER record for a site (R83). -/
def Bank.routedBy (b : Bank) (c : Section) (x : Site) : Bank :=
  match c.recs.find? fun r => r.kind = 1 && r.isAt x with
  | some r => ({ b with sect := c.index } : Bank).withRouter r c.period
  | none => b

/-- Whole 8-byte words of a payload with their indices from an offset. -/
def payloadWords (off : Nat) (bs : List Byte) : List (Nat × DWord) :=
  (List.range (bs.length / 8)).map fun i => (off / 8 + i, BitVec.ofNat 64 (leNat ((bs.drop (8 * i)).take 8)))

/-- A bank with one record of its site. -/
def Bank.withRec (b : Bank) (r : Rec) (period : Nat) : Bank :=
  match r.kind.toNat with
  | 1 => b.withRouter r period
  | 2 => { b with cfg := flitOf r.payload, configured := true }
  | 3 => { b with imem := (payloadWords r.off r.payload).foldl (fun m (e : Nat × DWord) => Map.put m e.1 e.2) b.imem }
  | 6 => { b with pins := b.pins ++ [BitVec.ofNat 32 (leNat (r.payload.take 4))] }
  | _ => b

/-! ## Loading the shadow (R86, R87, R99, R126) -/

/-- Whether a section keeps a site's active bank. -/
def Section.keepsAt (c : Section) (x : Site) : Bool := match c.cfgAt x with | some f => cfgKeep f && !cfgPark f | none => false

/-- The instruction memory that the layout gives a site's active bank in a section: that section's, or behind KEEP sections that of the one
before them (R85). -/
def Instance.imemAt (i : Instance) (x : Site) : Nat → Nat → Map DWord
  | 0, _ => []
  | k + 1, n =>
    match i.section? n with
    | none => []
    | some c =>
      if c.keepsAt x then i.imemAt x k (if n = 0 then i.sections.length - 1 else n - 1)
      else (((c.recsAt x).filter fun r => r.kind = 3).foldl (fun b r => b.withRec r c.period) ({} : Bank)).imem

/-- The steward starts to load a section into a tile's shadow; a KEEP section needs no load. -/
def State.startLoad (s : State) (x : Site) (i : Instance) (n : Nat) : State :=
  match i.section? n with
  | none => s
  | some c =>
    let keep := c.keepsAt x
    s.onTile x fun t =>
      { t with shadowSection := n, shadowComplete := keep, keepNext := keep, loading := !keep, due := if keep then [] else c.recsAt x,
               loadTries := 0, preload := [] }

/-- The section whose load a tile's shadow awaits. -/
def State.loadSection (s : State) (x : Site) : Option (Instance × Section) :=
  match s.instAt x with
  | some i => (i.section? (s.tile x).shadowSection).map fun c => (i, c)
  | none => none

/-- SHADOW_LOAD: the next record of the load stream reaches the shadow; the bytes of an image wait for idle bank cycles. -/
def State.shadowLoad (s : State) (x : Site) : State :=
  match s.loadSection x, (s.tile x).due with
  | some (_, c), r :: rest =>
    if !s.working || !s.dieUp x.die.val then s
    else s.onTile x fun t =>
      if r.kind = 4 then { t with due := rest, preload := t.preload ++ r.payload.zipIdx.map fun p => (r.off + p.2, p.1) }
      else { t with due := rest, shadow := t.shadow.withRec r c.period }
  | _, _ => s

/-- SHADOW_LOAD (R86). -/
def execShadowLoad (x : Site) (s : State) : Res := .next (s.shadowLoad x)

/-- PRELOAD_WRITE: the next word of the descriptors and then of the images is written when no requester uses its bank, the bank is not clearing, no other word has taken
the bank in this cycle, and no write-back waits for it (R107, R113). -/
def State.preloadWrite (s : State) (x : Site) : State :=
  let t := s.tile x
  let desc := !t.descDue.isEmpty
  match if desc then t.descDue else t.preload with
  | [] => s
  | (off, v) :: rest =>
    let k := bankOf off
    if !s.working || !s.dieUp x.die.val || !s.bankIdle x k || t.b.writeBacks.any fun w => bankOf w = k then s
    else (s.btPut x off ((((off, v) :: rest).take 8).map fun p => p.2)).onTile x fun t =>
      { t with preload := if desc then t.preload else t.preload.drop 8, descDue := t.descDue.drop 8, b := t.b.useIdle s.clk.fclk k }

/-- PRELOAD_WRITE (R87, R107, R126). -/
def execPreloadWrite (x : Site) (s : State) : Res := .next (s.preloadWrite x)

/-! ## Done (R91) -/

/-- Whether a packet is data of a channel of a tile that waits in the tile itself for a slot (Table LY-8). -/
def ownWaiting (x : Site) (p : Packet) : Bool := p.place = .router x 4 && p.head.src = siteSrc x && p.head.kind = 0

/-- Whether a packet lies beyond the local output of a site. -/
def arrivedIs (x : Site) (p : Packet) : Bool := p.place = .arrived x

/-- Whether a packet is inbound to a P-tile: on the spine with a site that it reaches through that tile, or at the tile's spine side. -/
def State.inboundTo (s : State) (x : Site) (p : Packet) : Bool :=
  match p.place with
  | .spine _ _ => (match p.head.site with | some y => atCol y (s.pColumn y) = x | none => false)
  | .router y port => y = x && port = 4
  | _ => false

/-- Whether the inbound data of the ending section for a P-tile has passed, so that the steward sends its front there (R89). -/
def State.inboundOver (s : State) (x : Site) : Bool := !(s.net.flow.any fun p => s.ownerOf x = some p.head.tenant && s.inboundTo x p)

/-- Whether a token stands at a site's port; at an entry's spine side, once the steward has sent it. -/
def State.tokenAt (s : State) (x : Site) (port : Fin 5) : Bool :=
  (s.net.tokens.any fun k => k.site = x && k.port = port && !k.exit && (port ≠ 4 || s.inboundOver x)) ||
    (s.tile x).tokens.any fun k => k.1 = port

/-- FRONT_IN and FRONT_OUT of a router word (R83). -/
def frontIn (w : DWord) : List (Fin 5) := (List.finRange 5).filter fun p => bitAt w (8 + p.val)
def frontOut (w : DWord) : List (Fin 5) := (List.finRange 5).filter fun p => bitAt w (16 + p.val)

/-- Whether a tile's section work is done (Table LY-8, R91); a halted tile is not (Corners of chapter 04), nor a B-tile with OPENs held at a
tally that waits for more contributors (Corners of chapter 08). -/
def State.tileDone (s : State) (x : Site) : Bool :=
  let t := s.tile x
  if s.isFused x || t.parked then true
  else match siteKind x with
    | .b => t.b.dmas.isEmpty && t.b.ports.inb.isEmpty && !(s.net.flow.any fun p => arrivedIs x p) &&
        !t.tallyReady && !(t.ins.any fun (e : Nat × InEp) => match e.2.tally with | some l => !l.held.isEmpty | none => false)
    | .p => !(s.net.flow.any fun p => arrivedIs x p && !p.head.isFor x) &&
        (!(frontIn t.active.routerWord).contains 4 || s.tokenAt x 4)
    | _ => t.seq.secend && !t.debugHalt && t.m.tldw.isNone && t.seq.replay.isEmpty &&
        !(s.isScheduled x && s.net.flow.any fun p => ownWaiting x p)

/-- The step that a tile's next swap into section 0 belongs to: the last one started, or the one after it where the tile is in that one. -/
def Instance.entryStep (i : Instance) (t : Tile) : Nat :=
  if !i.run.running then i.stepNo
  else
    let last := i.stepNo + if i.run.nextStart.isSome then 1 else 0
    if t.stepLo = BitVec.ofNat 16 last then last + 1 else last

/-- Whether a tile's shadow is complete for its swap; at a descriptor B-tile, section 0 also needs the step's descriptor (R86, R284). -/
def State.shadowReady (s : State) (x : Site) : Bool :=
  let t := s.tile x
  t.shadowComplete && (match s.instAt x with
    | some i => match i.binding with
      | some b =>
        if t.shadowSection = 0 && b.descDpas.any (fun d => (bufferAt d 0 0).1 = x) then
          i.entryStep t < i.composedFor && t.descDue.isEmpty
        else true
      | none => true
    | none => true)

/-! ## The load's end -/

/-- Whether every shadow of an instance on a powered die is complete. -/
def State.allLoaded (s : State) (i : Instance) : Bool :=
  (s.instSites i).all fun x => !s.dieUp x.die.val || (s.tile x).shadowComplete

/-- The loads after a return to P0 are over once every shadow of every layout is complete (R245). -/
def State.checkReload (s : State) : State :=
  if s.power.reloading && s.instances.all (fun i => s.allLoaded i) then
    { s with power := { s.power with reloading := false } }
  else s

/-- LOAD_LAYOUT completes once every shadow holds section 0 (R78, R316). -/
def State.checkLoaded (s : State) (i : Instance) : State :=
  if !i.loaded && s.allLoaded i then
    let s1 := s.onInst i.id fun j => { j with loaded := true, loadCmd := none }
    match i.loadCmd with
    | some id => s1.finishId id OK i.id.toNat
    | none => s1
  else s

/-- A load that fails a second time ends the step and is logged; before the layout is loaded, LOAD_LAYOUT completes with the status
(R86; log entry 22). -/
def State.loadFailed (s : State) (x : Site) (i : Instance) : State :=
  let s1 := (s.onTile x fun t => { t with loading := false }).logTile x CFG_CRC ([i.id, 0] ++ leBytes 2 (s.tile x).shadowSection)
  if i.run.running then s1.causeInst i.id E_CFG_CRC (siteSrc x)
  else match i.loadCmd with
    | some id => (s1.onInst i.id fun j => { j with loadCmd := none }).finishId id E_CFG_CRC 0
    | none => s1

/-- SHADOW_LOAD_END: the end marker arrives after every record; a good CRC completes the shadow, a bad one discards the load. -/
def State.shadowLoadEnd (s : State) (x : Site) (good : Bool) : State :=
  let t := s.tile x
  match s.loadSection x with
  | none => s
  | some (i, c) =>
    if !s.working || !t.loading || !t.due.isEmpty || !t.preload.isEmpty || !s.dieUp x.die.val then s
    else if good then
      ((s.onTile x fun t => { t with loading := false, shadowComplete := true }).checkLoaded i).checkReload
    else if t.loadTries = 0 then
      let r := s.fresh
      r.2.onTile x fun t => { t with shadow := { unpredictable := some s.freeCount }, due := c.recsAt x, loadTries := 1 }
    else s.loadFailed x i

/-- SHADOW_LOAD_END (R86). -/
def execShadowLoadEnd (x : Site) (good : Bool) (s : State) : Res := .next (s.shadowLoadEnd x good)

/-! ## Clear masks (R93, Table LY-10) -/

/-- Keeps the bytes of a memory outside the banks of a mask. -/
def clearBanks (m : Memory) (mask : BankMask) : Memory := Map.keep m fun a => !mask.getLsbD (bankOf a)

/-- Banks begin to clear: their words are zero, and no access goes to them for 768 cycles; a bank that still clears is cleared again
after it (R93, Corners of chapter 04). -/
def BState.clear (b : BState) (mask : BankMask) (now : Nat) : BState :=
  (List.range 16).foldl
    (fun b k =>
      if !mask.getLsbD k then b
      else if now < Map.get 0 b.clearing k then { b with clearAgain := b.clearAgain ||| (1 <<< k) }
      else { b with clearing := Map.set 0 b.clearing k (now + 768) })
    { b with mem := clearBanks b.mem mask, bad := Map.keep b.bad fun a => !mask.getLsbD (bankOf a) }

/-- A named set of M-tile state is zeroed. -/
def MState.clearMask (m : MState) (c : BitVec 32) : MState :=
  let m1 := (List.range 8).foldl (fun m r => if bitAt c r then m.clearReg r else m) m
  let m2 := (List.range 4).foldl (fun m a => if bitAt c (8 + a) then m.clearAcc a else m) m1
  let m3 := if bitAt c 12 then (m2.clearReg latchA).clearReg latchB else m2
  if bitAt c 13 then { m3 with q := [] } else m3

/-- A named set of V-tile state is zeroed. -/
def VState.clearMask (v : VState) (c : BitVec 32) : VState :=
  { v with
    v := Map.keep v.v fun k => !bitAt c (k / 64 / 4)
    m := Map.keep v.m fun k => !bitAt c (8 + k)
    s := Map.keep v.s fun k => !bitAt c (16 + k / 4)
    queues := if bitAt c 20 then [] else v.queues }

/-- The generator's seed; zero takes the constant of R137. -/
def seedOf (c : Flit) : DWord := rngSeed (cfgSeed c)

/-- The clear mask of a section acts on a tile. -/
def Tile.clearMask (t : Tile) (kind : TileKind) (mask : BitVec 32) (now : Nat) : Tile :=
  let t1 := if bitAt mask 28 && (kind = .m || kind = .v) then { t with rng := seedOf t.active.cfg } else t
  match kind with
  | .m =>
    let seq := if bitAt mask 13 then { t1.seq with loops := [] } else t1.seq
    { t1 with m := t1.m.clearMask mask, seq := seq }
  | .v =>
    let seq := if bitAt mask 21 then { t1.seq with loops := [], stack := [] } else t1.seq
    { t1 with v := t1.v.clearMask mask, seq := seq }
  | .b =>
    let ins : Map InEp := if bitAt mask 16 then t1.ins.map fun (e : Nat × InEp) => (e.1, { e.2 with ring := none, tally := none }) else t1.ins
    { t1 with b := t1.b.clear (mask.setWidth 16) now, ins := ins }
  | .p => t1

/-- A tile is parked: all of its state is zero, B-tile banks included; registers that only a start resets keep their values (R84). -/
def Tile.park (t : Tile) (kind : TileKind) (now : Nat) : Tile :=
  let b : BState :=
    { clearing := t.b.clearing, bankConflict := t.b.bankConflict, wn := t.b.wn, nw := t.b.nw, ww := t.b.ww, clearWaits := t.b.clearWaits,
      inboundFull := t.b.inboundFull, eccUe := t.b.eccUe, eccCe := t.b.eccCe, ceCount := t.b.ceCount, ueOffset := t.b.ueOffset }
  let m : MState :=
    { faultIp := t.m.faultIp, faultRow := t.m.faultRow, tmmaDone := t.m.tmmaDone, tmmaRestarts := t.m.tmmaRestarts,
      wcHits := t.m.wcHits, wcMisses := t.m.wcMisses }
  { active := { t.active with configured := false, cfg := 0, imem := [], unpredictable := none }
    shadow := t.shadow
    parked := true
    traceEn := t.traceEn, debugHalt := t.debugHalt
    frontHolds := t.frontHolds, holdCycles := t.holdCycles, liveWrites := t.liveWrites, chOrphans := t.chOrphans
    issueStalls := t.issueStalls, ueCount := t.ueCount, swapAt := t.swapAt, descDue := t.descDue
    m := m
    v := { branches := t.v.branches }
    b := if kind = .b && !t.parked then b.clear 0xFFFF now else b }

/-- BANK_CLEAR_DONE: a clear that has run its 768 cycles ends; a bank named again meanwhile is cleared from its start. -/
def State.bankClearDone (s : State) (x : Site) : State :=
  let now := s.bankNow x
  if !s.alive || (s.frozenAt x && !s.drains x) then s
  else s.onTile x fun t =>
    let full := (List.range 16).filter fun k => Map.get 0 t.b.clearing k ≠ 0 && Map.get 0 t.b.clearing k ≤ now
    { t with b := full.foldl (fun b k =>
        if b.clearAgain.getLsbD k then
          { b with clearing := Map.set 0 b.clearing k (now + 768), clearAgain := b.clearAgain &&& ~~~((1 : BitVec 16) <<< k) }
        else { b with clearing := Map.set 0 b.clearing k 0 }) t.b }

/-- BANK_CLEAR_DONE (R93). -/
def execBankClearDone (x : Site) (s : State) : Res := .next (s.bankClearDone x)

/-! ## The swap (R92) -/

/-- The merge of the tokens seen on FRONT_IN with the tile's own hold (R90). -/
def mergeTokens (own : Token) (ts : List Token) : Token :=
  ts.foldl
    (fun a k =>
      let b := a.sealBreak || k.sealBreak
      if a.holdMax.toNat < k.holdMax.toNat || (a.holdMax = k.holdMax && k.holdMax ≠ 0 && k.holder.toNat < a.holder.toNat) then
        { a with sealBreak := b, holdMax := k.holdMax, holder := k.holder }
      else { a with sealBreak := b })
    own

/-- A merged token leaves through one port of FRONT_OUT: to the next router, or at an exit to the steward (R89, R90). -/
def State.sendToken (x : Site) (k : Token) (s : State) (p : Fin 5) : State :=
  let add := fun (e : TokenAt) => { s with net := { s.net with tokens := s.net.tokens ++ [e] } }
  if p = 4 then add { site := x, port := 4, exit := true, token := k }
  else match neighbour x p.val with
    | some y => add { site := y, port := oppositePort p.val, exit := false, token := k }
    | none => s

/-- Marks the flits beyond a tile's local output whose channel is open: a swap that follows still delivers them (Corners of chapter 08). -/
def State.acceptFlits (s : State) (x : Site) : State :=
  let open_ : Packet → Bool := fun p => arrivedIs x p && p.head.kind = 0 && ((s.tile x).inEp p.head.ep.val).openFrom = some p.head.src
  { s with net := { s.net with flow := s.net.flow.map fun p => if open_ p then { p with accepted := true } else p } }

/-- The swap closes every endpoint: open outbound ones send their markers, inbound ones are free (R185, R186). Latched ring and tally pointers
stay. The status of an OPEN that is still pending comes to its scalar when the reply does (R183), and opens nothing (log entry 23). -/
def State.closeEndpoints (s : State) (x : Site) : State :=
  let s1 := (List.range 8).foldl (fun a e => a.closeOut x e) s
  (s1.acceptFlits x).onTile x fun t =>
    { t with outs := (t.outs.filter fun (e : Nat × OutEp) => e.2.state = .pending).map fun (e : Nat × OutEp) => (e.1, { e.2 with swapped := true })
             ins := t.ins.map fun (e : Nat × InEp) =>
               (e.1, { e.2 with openFrom := none, tally := e.2.tally.map fun l => { l with held := [], slots := [], closed := 0, start := l.emitted } }) }

/-- Signals that a sealed section held back leave in issue order (R199), signed as they leave (R365). -/
def State.releaseSignals (s : State) (x : Site) : State :=
  match s.ownerOf x with
  | none => s
  | some t =>
    ((s.tile x).sealedSignals.foldl (fun a (q : BitVec 12 × BitVec 16) =>
      (a.sendSignal t q.1 q.2.toNat (siteSrc x)).signItem x 5 0 q.1.toNat (leBytes 2 q.2.toNat)) s).onTile x fun t => { t with sealedSignals := [] }

/-- Pins at a P-tile's swap: those that the new section names are driven, those it drops become GRANTED again (R96, R402). -/
def State.swapPins (s : State) (x : Site) (old new : List Word) : State :=
  match s.ownerOf x with
  | none => s
  | some t =>
    let keep := new.map fun w => bitsOf w 0 8
    let s1 := old.foldl (fun a w =>
      if keep.contains (bitsOf w 0 8) then a
      else a.onPin (bitsOf w 0 8) fun p => match p.owner with | .driven u => { p with owner := .granted u, drive := false } | _ => p) s
    new.foldl (fun a w =>
      a.onPin (bitsOf w 0 8) fun p =>
        match p.owner with
        | .steward => p
        | _ => { p with owner := .driven t, drive := bitAt w 8, openDrain := bitAt w 9 }) s1

/-- The exchange of the banks at a swap into a section (R85): a KEEP section keeps the active bank with the RWS words written since. -/
def Tile.exchange (t : Tile) (n free : Nat) : Tile :=
  if t.keepNext then
    { t with active := { t.active with cfg := t.rws.foldl (fun c (e : Nat × Word) => setWord c (4 * e.1) e.2) t.active.cfg, sect := n } }
  else { t with active := { t.shadow with sect := n }, shadow := { unpredictable := some free } }

/-- The state that a swap always sets: seal state, tokens, the slot counters' origin (R65), the step (R92), and SEQ of the DMA engine (R115). -/
def Tile.afterSwap (t : Tile) (now : Nat) (k : Token) : Tile :=
  { t with b := { t.b with nextSeq := 0 }, rws := [], tokens := [], holding := none, sealAsserted := 0, sealBroke := false, parityStop := false, swapAt := now,
           stepLo := k.stepLo, gtsrs := if k.sectionNext = 0 then 0 else t.gtsrs }

/-- The sequencer begins the section at ENTRY (R92); the window cache is invalid (R140). -/
def Tile.restart (t : Tile) (kind : TileKind) : Tile :=
  if kind = .m || kind = .v then
    let t1 := { t with seq := { t.seq with secend := false, stopped := false, waiting := false, imemWritten := false, replay := [] },
                       m := { t.m with cache := [], mma := [], tldw := none } }
    t1.goOn kind [] (cfgEntry t.active.cfg) t.seq.loops
  else t

/-- The OPENs that a tile holds for its next section, by endpoint. -/
def Tile.heldOpens (t : Tile) : List (Nat × OpenReq) := (List.range 8).filterMap fun e => (t.inEp e).pending.map fun r => (e, r)

/-- OPENs that the tile held are checked again after the swap, a tile that has parked included (R182, Corners of chapter 08). -/
def State.recheckOpens (s : State) (x : Site) (held : List (Nat × OpenReq)) : State :=
  held.foldl (fun a q => a.openAt x q.1 q.2) (s.onTile x fun t => { t with ins := t.ins.map fun (e : Nat × InEp) => (e.1, { e.2 with pending := none }) })

/-- A tile goes into a section: the banks exchange, the clear mask acts or the tile parks, the sequencer begins. A KEEP section's CLEAR_MASK is
that of its TILE_CFG, or the one written since the last swap (R85, R93; log entry 63). PARK acts as the shadow holds it at the front (R8, R10).
The pins that PIN_GRANT names to a P-tile parked in the section are driven as well: the spec does not say (DESIGN CHOICE, log entry 85). The
router of a fused-off site takes the section's ROUTER record at its swap (DEDUCED, log entry 85). -/
def State.enterSection (s : State) (x : Site) (c : Section) (k : Token) : State :=
  let kind := siteKind x
  let now := s.cycleAt x
  let free := s.freeCount
  let mask : BitVec 32 := match c.cfgAt x with | some f => cfgClear f | none => 0
  let old := (s.tile x).active.pins
  let s1 := { s with freeCount := s.freeCount + 1 }
  let s2 := s1.onTile x fun t =>
    let mask := if t.keepNext then (Map.look t.rws 1).getD mask else cfgClear t.shadow.cfg
    let t1 := t.exchange c.index free
    let t2 := { t1 with active := { (if s.isFused x then t1.active.routedBy c x else t1.active) with pins := c.pinsAt x } }
    let t3 : Tile := if t2.active.configured && !cfgPark t2.active.cfg && !s.isFused x then
        { (t2.clearMask kind mask now) with parked := false }.restart kind
      else t2.park kind now
    t3.afterSwap now k
  let t := s2.tile x
  let s3 := if c.isSealed && t.debugHalt && !t.parked && (kind = .m || kind = .v) then s2.assertSeal x 3 else s2
  if kind = .p then s3.swapPins x old (c.pinsAt x) else s3

/-- SEAL_LEN_MISMATCH: a swap out of a sealed section in another cycle than SEAL_LEN breaks the seal (Corners of chapter 04). -/
def State.checkSealLen (s : State) (x : Site) (i : Instance) : State :=
  let t := s.tile x
  let len := cfgSealLen t.active.cfg
  let actual := s.cycleAt x - t.swapAt
  if t.parked || !s.sealedAt x || len = 0 || actual = len then s
  else
    let s1 := s.logTile x SEAL_LEN_MISMATCH (leBytes 2 t.active.sect ++ leBytes 2 0 ++ leBytes 4 len ++ leBytes 4 actual)
    (s1.onTile x fun t => { t with sealBroke := true }).onInst i.id fun j =>
      { j with run := { j.run with sealCauses := Map.upd 0 j.run.sealCauses t.active.sect fun c => c ||| 0x20 } }

/-- Whether a tile may swap: the front is there on every FRONT_IN port, the tile is done, and its shadow complete (R92); a fused-off site waits
for the front alone (R22; log entry 85). -/
def State.maySwap (s : State) (x : Site) (i : Instance) : Bool :=
  let t := s.tile x
  let ports := frontIn t.active.routerWord
  s.working && (s.die x.die.val).state = .on && !s.frozenAt x && i.run.frontTo = some t.shadowSection && !ports.isEmpty &&
    ports.all (fun p => t.tokens.any fun k => k.1 = p) && s.tileDone x && (s.isFused x || s.shadowReady x) &&
    !s.evicting i.tenant x && !(s.ctx i.tenant).preempted && !i.run.aborting

/-- TILE_SWAP: the merged token leaves by the graph of the ending section, the section's last signals and markers leave, the tile enters the
new section, and the load of the one after it begins (R79). -/
def State.tileSwap (s : State) (x : Site) : State :=
  match s.instAt x with
  | none => s
  | some i =>
    match i.section? (s.tile x).shadowSection with
    | none => s
    | some c =>
      if !s.maySwap x i then s
      else
        let s1 := s.checkSealLen x i
        let t := s1.tile x
        match t.tokens with
        | [] => s
        | (_, k0) :: _ =>
          let h := min 0xFFFF (t.holding.getD 0)
          let own : Token := { k0 with sealBreak := t.sealBroke, holdMax := BitVec.ofNat 16 h, holder := if h = 0 then 0 else siteSrc x }
          let k := mergeTokens own (t.tokens.map fun q => q.2)
          let s2 := (frontOut t.active.routerWord).foldl (State.sendToken x k) s1
          let s3 := (s2.releaseSignals x).closeEndpoints x
          let s4 := (s3.enterSection x c k).recheckOpens x (s3.tile x).heldOpens
          let n := if c.index + 1 < i.sections.length then c.index + 1 else 0
          s4.startLoad x i n

/-- TILE_SWAP (R92). -/
def execTileSwap (x : Site) (s : State) : Res := .next (s.tileSwap x)

end Sys2Proof.Machine
end

