-- ==== Sys2Proof/Machine/Front.lean ====
section
/-! DEFINITION. Fronts and steps: injection, arrival and exit of the front (R79, R88 to R90), the seal (R95, R345, R346, R351), the start and
end of a step (R287, R317, R353, R358, R365), budgets and aborts (R288, R289, R384). -/

namespace Sys2Proof.Machine

open Sys2Proof

/-! ## The front's graph -/

/-- The router word of a site in a section. -/
def Section.routerWord (c : Section) (x : Site) : DWord :=
  match c.recs.find? fun r => r.kind = 1 && r.isAt x with
  | some r => BitVec.ofNat 64 (leNat (r.payload.take 8))
  | none => 0

/-- The site a record names. -/
def Rec.site (r : Rec) : Site := { die := Fin.ofNat 16 r.die.toNat, col := Fin.ofNat 34 r.col.toNat, row := Fin.ofNat 16 r.row.toNat }

/-- The sites of a section whose ROUTER record has a bit set. -/
def Section.routersWith (c : Section) (bit : Nat) : List Site :=
  (c.recs.filter fun r => r.kind = 1 && bitAt (BitVec.ofNat 64 (leNat (r.payload.take 8))) bit).map Rec.site

/-- Entries and exits of a section: P-tiles with bit 4 of FRONT_IN or of FRONT_OUT (R89). -/
def Section.entries (c : Section) : List Site := c.routersWith 12
def Section.exits (c : Section) : List Site := c.routersWith 20

/-- Number of the section that a front into the next one ends: the one behind the last front, or before any front the last one
(log entry 24). -/
def Instance.ending (i : Instance) : Nat := i.run.current.getD (i.sections.length - 1)

/-- The section that the next front goes into. -/
def Instance.nextSection (i : Instance) : Nat :=
  match i.run.current with
  | none => 0
  | some c => if c + 1 < i.sections.length then c + 1 else 0

/-- Whether a section of an instance is sealed. -/
def Instance.isSealed (i : Instance) (n : Nat) : Bool := match i.section? n with | some c => c.isSealed | none => false

/-- Whether a section starts a sealed run at this front: it is sealed, and the section behind it is not (R344, R345). -/
def Instance.startsRun (i : Instance) (n : Nat) : Bool :=
  i.isSealed n && (match i.run.current with | none => true | some c => !i.isSealed c)

/-! ## A region without a front -/

/-- Whether a packet belongs to a channel: an OPEN, its reply, data, or a close marker. -/
def Body.ofChannel : Body → Bool
  | .chan _ => true
  | .openReq _ => true
  | .openRsp _ => true
  | .close => true
  | _ => false

/-- Whether a place lies in the grid at one of the sites. -/
def Place.within (p : Place) (xs : List Site) : Bool :=
  match p with
  | .router x _ => xs.contains x
  | .arrived x => xs.contains x
  | _ => false

/-- What travels in the grid of a region's sites goes: front tokens, scheduled flits, channel packets, and the waits and grants of its
tiles (R288, R385). -/
def State.flushNet (s : State) (t : Tenant) (xs : List Site) : State :=
  let ours := fun (w : Waiter) => match w with | .tile x => xs.contains x | _ => false
  let n := { s.net with
    tokens := s.net.tokens.filter fun k => !xs.contains k.site
    sched := s.net.sched.filter fun f => !xs.contains f.site
    flow := s.net.flow.filter fun p => !(p.body.ofChannel && p.place.within xs)
    ops := s.net.ops.filter fun o => !(o.tenant = t && (match o.wait with | some w => ours w | none => false))
    grants := s.net.grants.filter fun g => !xs.contains g.site }
  { s with net := n }.onCtx t fun c =>
    { c with beacons := dropWaiters ours c.beacons }

/-- Parks one tile outside any section; a P-tile's pins become GRANTED again. -/
def State.parkSite (s : State) (x : Site) : State :=
  let old := (s.tile x).active.pins
  let now := s.cycleAt x
  let s1 := s.onTile x fun t => { t.park (siteKind x) now with shadow := {}, active := {} }
  if siteKind x = .p then s1.swapPins x old [] else s1

/-- A tile of an instance is parked, and section 0 goes to its shadow; until its first front, its router works under its record of the last
section, so that this front takes the graph of the wrap (R78, R89; log entry 24). -/
def State.freshSite (s : State) (i : Instance) (x : Site) : State :=
  let lo := BitVec.ofNat 16 (i.stepNo + 65535)
  let a1 := s.parkSite x
  let a2 := a1.onTile x fun t =>
    { t with stepLo := lo, descDue := [], active := match i.section? (i.sections.length - 1) with
        | some c => t.active.routedBy c x
        | none => t.active }
  a2.startLoad x i 0

/-- Every tile of an instance is parked, and section 0 goes to the shadows. -/
def State.freshRegion (s : State) (l : BitVec 8) : State :=
  match s.inst? l with
  | none => s
  | some i =>
    let xs := s.instSites i
    xs.foldl (fun a x => a.freshSite i x) (s.flushNet i.tenant xs)

/-- Every layout that is not pre-empted begins again from section 0 (R245, R377). -/
def State.reloadAll (s : State) : State :=
  ((s.instances.filter fun i => !(s.ctx i.tenant).preempted).map fun i => i.id).foldl
    (fun a l => (a.onInst l fun i => { i with run := {} }).freshRegion l) s

/-- Every tile of an instance is parked for good (R316). -/
def State.emptyRegion (s : State) (i : Instance) : State :=
  let xs := s.instSites i
  xs.foldl (fun a x => (a.parkSite x).onTile x fun t =>
    { t with shadowComplete := false, keepNext := false, loading := false, due := [], preload := [], descDue := [], shadowSection := 0 }) (s.flushNet i.tenant xs)

/-! ## The start of a step (R287) -/

/-- Whether the ledger lets the front into section 0 go: the step's composition is made. A front that ends a sealed section does not wait for it,
since signals of that section leave only at the swap; where the descriptor is then late, its tile's shadow is (R199, R281, R284; log entry 25). -/
def Instance.ledgerAllows (i : Instance) : Bool :=
  i.binding.isNone ||
    (!i.composing && ((i.stepNo + if i.run.running then 1 else 0) < i.composedFor ||
      (i.run.running && (match i.section? i.ending with | some c => c.isSealed | none => false))))

/-- Whether a die of a mask is OFF or CLOSING. -/
def State.maskDown (s : State) (m : BitVec 16) : Bool := (maskDies m).any fun d => !s.dieUp d

/-- A STEP on the front's way: whether a step of the instance may start (R284, R287, R289, R316, R317, R358). -/
def State.mayStart (s : State) (i : Instance) : Bool :=
  let c := s.ctx i.tenant
  let replay := match c.replay with | some r => r.layout = i.id && !r.diverged | none => false
  (i.stepCmd.isSome || (replay && s.power.pstate = .p0 && !s.power.reloading && !s.maskDown i.dieMask)) && i.stepsLeft ≠ some 0 && !c.quarantined && i.unloadCmd.isNone && !c.closing &&
    (replay || i.ledgerAllows)

/-- The recorded descriptor of a replayed step is written to the instance's buffers (R358, R364). -/
def State.writeRecordedDesc (s : State) (l : BitVec 8) (step : Nat) : State :=
  match s.inst? l with
  | none => s
  | some i =>
    match i.binding, (s.ctx i.tenant).replay with
    | some b, some r =>
      match r.recs.zipIdx.find? fun p => p.1.inStep 2 step && p.1.layout = l with
      | some (d, k) =>
        ((s.writeDesc b step d.payload).markApplied i.tenant k).onInst l fun i => { i with composedFor := max i.composedFor (step + 1), cutoff := none }
      | none => s
    | _, _ => s

/-- Step `k` of an instance starts: recording begins, STEP_BEGIN is recorded, the ledger waits on REPORT_BEACON of the block that governs the step,
or does so once the step is composed (R279, R281, R353, R355). -/
def State.beginStep (s : State) (l : BitVec 8) (k : Nat) : State :=
  match s.inst? l with
  | none => s
  | some i =>
    let t := i.tenant
    let s1 := s.onCtx t fun c => { c with recorder := c.recorder.map fun r => if r.armed.contains l then r else { r with armed := l :: r.armed } }
    let s2 := s1.scriv t 1 l k stewardSrc (leBytes 4 i.crc.toNat ++ leBytes 4 0)
    let s3 := s2.onInst l fun i => { i with stepsLeft := i.stepsLeft.map fun n => n - 1 }
    if s3.replaying t then s3.writeRecordedDesc l k
    else match i.binding with
      | some b => if k < i.composedFor then s3.applyWait t b.reportBeacon 1 (.ledger l) else s3
      | none => s3

/-! ## The end of a step -/

/-- Completes the STEP of an instance when its steps are over (R317). -/
def State.checkStepCmd (s : State) (l : BitVec 8) : State :=
  match s.inst? l with
  | none => s
  | some i =>
    match i.stepCmd with
    | none => s
    | some id =>
      let q := (s.ctx i.tenant).quarantined
      if !i.run.running && (i.stepsLeft = some 0 || q || (s.ctx i.tenant).closing) then
        (s.onInst l fun i => { i with stepCmd := none, stepsLeft := none }).finishId id (if q then E_QUARANTINED else i.firstAbort) i.normal
      else s

/-- UNLOAD_LAYOUT ends: STEP completes with OK, the binding ends, the tiles park, the layout goes (R316). -/
def State.finishUnload (s : State) (l : BitVec 8) : State :=
  match s.inst? l with
  | none => s
  | some i =>
    let s1 := match i.stepCmd with | some id => s.finishId id OK i.normal | none => s
    let s2 := s1.emptyRegion i
    let s2' := match (s2.ctx i.tenant).replay with
      | some r =>
        if r.layout = l && !r.follow then
          let a := s2.onCtx i.tenant fun c => { c with replay := none }
          match r.cmd with | some id => a.finishId id OK 0 | none => a
        else s2
      | none => s2
    let s3 := ({ s2' with insts := Map.del s2'.insts l.toNat }).checkReload
    match i.unloadCmd with
    | some id => s3.finishId id OK 0
    | none => s3

/-- The chunks of a step's report as signed items (Table DR-6, kind 6); the words read are checked (R123). -/
def State.reportSum (s : State) (i : Instance) : BitVec 128 × State :=
  match i.binding with
  | none => (0, s)
  | some b =>
    let r := bufferAt b.reportDpa (reportBytes b) i.stepNo
    let bs := s.btTake r.1 r.2 (reportBytes b) ledgerSrc
    ((List.range ((reportBytes b + 63) / 64)).foldl (fun a k => a + sigHash (signedMessage 6 k 0 ((bs.1.drop (64 * k)).take 64))) 0, bs.2)

/-- The SIGNATURE record of a replayed step, if there is one. -/
def Replay.signature (r : Replay) (step : Nat) : Option (BitVec 128) :=
  (r.recs.find? fun x => x.inStep 8 step).map fun x => BitVec.ofNat 128 (leNat (x.payload.take 16))

/-- What a replayed step's end finds: an unapplied operation or another signature (R360). -/
def Replay.endReason (r : Replay) (step : Nat) (sig : BitVec 128) : Option (Nat × Byte) :=
  match r.recs.find? fun x => x.inStep 3 step with
  | some x => some (x.seq.toNat, 2)
  | none =>
    match r.recs.find? fun x => x.inStep 8 step with
    | some x => if r.signature step = some sig then none else some (x.seq.toNat, 3)
    | none => none

/-- The twin holds its own signature and sends it (R366). -/
def State.twinSign (s : State) (i : Instance) (sig : BitVec 128) : State :=
  let w := s.links.twin
  if w.bound && w.tenant = some i.tenant then
    let own : StepSig := { sig := sig, crc := i.crc, step := BitVec.ofNat 64 i.stepNo, gts := s.clk.gts }
    ({ s with links := { s.links with twin := { w with own := w.own ++ [own] } } }).sendTwin 4 i.stepNo (sig.setWidth 256 ||| ((i.crc.setWidth 256) <<< 128)) []
  else s

/-- Streams that a step batched have their ABORTS at zero after its normal end (R288). -/
def State.clearAborts (s : State) (i : Instance) : State :=
  (Map.get [] i.stepBatches i.stepNo).foldl (fun a (e : Nat × Slot) => a.onStream e.2.stream fun x => { x with aborts := 0 }) s

/-- The step that overlaps the ended one takes its place; without one, none runs. -/
def Run.handOver (r : Run) : Run :=
  match r.nextStart with
  | some g =>
    { r with startGts := g, nextStart := none, budget := r.nextBudget, nextBudget := none, pausedGts := r.nextPaused,
             nextPaused := 0, sigSum := r.nextSum, nextSum := 0 }
  | none => { r with running := false, sigSum := 0, pausedGts := 0 }

/-- A step ends normally: it is signed and recorded, counts, and the next one takes its place (R287, R289, R317, R365). -/
def State.endStep (s : State) (l : BitVec 8) : State :=
  match s.inst? l with
  | none => s
  | some i =>
    let t := i.tenant
    let rep := s.reportSum i
    let sig := i.run.sigSum + rep.1
    let bad : Option (Nat × Byte) := match (s.ctx t).replay with
      | some r => if r.layout = l && !r.diverged then r.endReason i.stepNo sig else none
      | none => none
    match bad with
    | some (q, why) => rep.2.diverge t q why
    | none =>
      let s1 := rep.2.scriv t 8 l i.stepNo stewardSrc (leBytes 16 sig.toNat ++ leBytes 4 i.crc.toNat ++ List.replicate 12 0)
      let s2 := ((s1.twinSign i sig).clearAborts i).onCtx t fun c => { c with overruns := 0, opSeqs := [] }
      let s3 := s2.onInst l fun i =>
        { i with normal := i.normal + 1, stepNo := i.stepNo + 1, stepBatches := Map.del i.stepBatches i.stepNo, run := i.run.handOver }
      let s4 := s3.writeHeader t false
      let s5 := match (s4.ctx t).replay, s4.inst? l with
        | some r, some j =>
          if r.layout = l && !r.diverged && !r.follow && j.stepsLeft = some 0 && !j.run.running then
            let a := s4.onCtx t fun c => { c with replay := none }
            match r.cmd with | some id => a.finishId id OK 0 | none => a
          else s4
        | _, _ => s4
      let s6 := s5.checkStepCmd l
      match s6.inst? l with
      | some j => if j.unloadCmd.isSome && !j.run.running then s6.finishUnload l else s6
      | none => s6

/-! ## FRONT_INJECT (R79, R89, R241, R287) -/

/-- Whether the first phase of a section lets every region's weight stay at its lo (R241); asked in drift mode only. -/
def State.rampAllows (s : State) (i : Instance) (c : Section) : Bool :=
  c.isSealed || (maskDies i.dieMask).all fun d =>
    let w := match c.ramp with | some r => rampWeight r (maskDies i.dieMask) 0 d | none => 0
    (List.finRange 3).all fun r => match s.regionOf d r with
      | some (t, _) => t ≠ i.tenant || s.paceLo d r ≤ w
      | none => true

/-- Whether the running step of an instance is the last for now: its last section runs, and no step will follow it. -/
def State.stepOver (s : State) (i : Instance) : Bool :=
  let c := s.ctx i.tenant
  i.run.running && i.nextSection = 0 && i.run.frontTo.isNone && !s.mayStart i &&
    (i.stepsLeft = some 0 || i.composing || i.stepCmd.isNone || i.unloadCmd.isSome || c.quarantined || c.closing)

/-- Whether every tile of an instance is done, and no front is on its way. -/
def State.allDone (s : State) (i : Instance) : Bool := i.run.frontTo.isNone && (s.instSites i).all fun x => s.tileDone x

/-- The steward sends the front into a section to every entry of the ending one. -/
def State.sendFront (s : State) (i : Instance) (n step : Nat) : State :=
  let k : Token := { tenant := i.tenant, layout := i.id, sectionNext := n, stepLo := BitVec.ofNat 16 step, sealBreak := false, holdMax := 0, holder := 0 }
  let xs := match i.section? i.ending with | some c => c.entries | none => []
  let ks : List TokenAt := xs.map fun x => { site := x, port := 4, exit := false, token := k }
  { s with net := { s.net with tokens := s.net.tokens ++ ks } }.onInst i.id fun i =>
    { i with run := { i.run with frontTo := some n, exitsSeen := [], released := false, ramp := some (n, s.clk.fclk) } }

/-- Injects the front into the next section; into section 0, it starts a step. -/
def State.injectNow (s : State) (i : Instance) (n : Nat) : State :=
  let budget := (s.ctx i.tenant).budget
  if n ≠ 0 then s.sendFront i n i.stepNo
  else if i.run.running then
    ((s.sendFront i n (i.stepNo + 1)).onInst i.id fun i =>
      { i with run := { i.run with nextStart := some s.clk.gts, nextBudget := budget, nextPaused := 0 } }).beginStep i.id (i.stepNo + 1)
  else
    (((s.sendFront i n i.stepNo).onInst i.id fun i =>
      { i with run := { i.run with running := true, startGts := s.clk.gts, budget := budget, pausedGts := 0 } }).onCtx i.tenant fun c =>
        { c with opSeqs := [] }).beginStep i.id i.stepNo

/-- FRONT_INJECT: with no step to follow, the front out of the last section is withheld, and the step ends once its tiles are done
(log entry 25). -/
def State.frontInject (s : State) (l : BitVec 8) : State :=
  match s.inst? l with
  | none => s
  | some i =>
    let c := s.ctx i.tenant
    let n := i.nextSection
    if !s.working || !i.loaded || i.run.frontTo.isSome || i.run.aborting || !i.run.causes.isEmpty || c.preempted || c.preempting.isSome then s
    else match i.section? n with
      | none => s
      | some sec =>
        if n = 0 && !s.mayStart i then
          if s.stepOver i && s.allDone i then s.endStep l else s
        else if n ≠ 0 && !i.run.running then s
        else if !s.rampAllows i sec then s
        else s.injectNow i n

/-- FRONT_INJECT (R89). -/
def execFrontInject (l : BitVec 8) (s : State) : Res := .next (s.frontInject l)

/-! ## FRONT_TOKEN_ARRIVAL (R88, R90, R345, R346) -/

/-- Whether an entry lets its front into the grid: at the seal origin of a run, and in a sealed section in the cycle SEAL_LEN − 1 after
its swap. -/
def State.entryOpen (s : State) (i : Instance) (x : Site) (n : Nat) : Bool :=
  if i.startsRun n then i.run.released
  else match i.run.current with
    | some c => match i.section? c with
      | some sec => !sec.isSealed || (s.tile x).swapAt + sec.sealLen ≤ s.cycleAt x + 1
      | none => true
    | none => true

/-- Removes the token with a number. -/
def State.dropToken (s : State) (k : Nat) : State := { s with net := { s.net with tokens := s.net.tokens.eraseIdx k } }

/-- FRONT_TOKEN_ARRIVAL: a token on a FRONT_IN port waits for the others; on another port it is discarded and logged. One at an entry's spine side
comes behind the last inbound data of the ending section (R89). -/
def State.frontArrival (s : State) (k : Nat) : State :=
  match s.net.tokens[k]? with
  | none => s
  | some e =>
    let x := e.site
    if e.exit || !s.working || (s.die x.die.val).state ≠ .on || s.frozenAt x then s
    else
      let ports := frontIn (s.tile x).active.routerWord
      match s.instAt x with
      | some i =>
        if s.evicting i.tenant x then s
        else if !ports.contains e.port then
          (s.dropToken k).logTile x FRONT_STRAY ([BitVec.ofNat 8 e.port.val, 0] ++ leBytes 2 e.token.sectionNext)
        else if e.port = 4 && !(s.inboundOver x && s.entryOpen i x e.token.sectionNext) then s
        else (s.dropToken k).onTile x fun t => { t with tokens := t.tokens ++ [(e.port, e.token)] }
      | none => (s.dropToken k).logTile x FRONT_STRAY ([BitVec.ofNat 8 e.port.val, 0] ++ leBytes 2 e.token.sectionNext)

/-- FRONT_TOKEN_ARRIVAL (R88, R90). -/
def execFrontTokenArrival (k : Nat) (s : State) : Res := .next (s.frontArrival k)

/-! ## FRONT_EXIT (R79, R287, R351) -/

/-- SEAL_BREAK of the section that a front ended (Table DR-2). -/
def State.logSealBreak (s : State) (i : Instance) (sect : Nat) (k : Token) : State :=
  let causes := Map.get 0 i.run.sealCauses sect
  if !i.isSealed sect || (causes = 0 && !k.sealBreak) then s
  else
    let frozen := min (Map.get 0 i.run.sealFrozen sect) 0xFFFFFFFF
    (s.logEv stewardSrc SEAL_BREAK (tenantByte i.tenant)
      (padTo 32 ([i.id, causes.setWidth 8] ++ leBytes 2 sect ++ leBytes 4 frozen ++ leBytes 8 i.stepNo ++ leBytes 2 k.holder.toNat ++
        leBytes 2 k.holdMax.toNat))).onInst i.id fun j =>
      { j with run := { j.run with sealCauses := Map.set 0 j.run.sealCauses sect 0, sealFrozen := Map.set 0 j.run.sealFrozen sect 0 } }

/-- FRONT_EXIT: with the front of every exit, the section ends; out of the last section, the step ends. -/
def State.frontExit (s : State) (k : Nat) : State :=
  match s.net.tokens[k]? with
  | none => s
  | some e =>
    match s.instAt e.site with
    | none => s
    | some i =>
      if !e.exit || !s.working || s.frozenAt e.site then s
      else
        let seen := i.run.exitsSeen ++ [(e.site, e.token)]
        let exits := match i.section? i.ending with | some c => c.exits | none => []
        let all := exits.all fun x => seen.any fun q => q.1 = x
        let isOver := i.run.nextStart.isSome && e.token.sectionNext = 0
        if all && isOver && !i.run.causes.isEmpty then s
        else
          let s1 := (s.dropToken k).onInst i.id fun i => { i with run := { i.run with exitsSeen := seen } }
          if !all then s1
          else
            let own := { e.token with sealBreak := false, holdMax := 0, holder := 0 }
            let s2 := match i.run.current with
              | some c => s1.logSealBreak i c (mergeTokens own (seen.map fun (q : Site × Token) => q.2))
              | none => s1
            let s3 := s2.onInst i.id fun i => { i with run := { i.run with current := some e.token.sectionNext, frontTo := none, exitsSeen := [] } }
            if isOver then s3.endStep i.id else s3

/-- FRONT_EXIT (R79, R287). -/
def execFrontExit (k : Nat) (s : State) : Res := .next (s.frontExit k)

/-! ## The seal (R95, R345, R346) -/

/-- SEAL_ORIGIN: at a beat edge, with the front at every entry and every good tile ready, the entries release the front. -/
def State.sealOrigin (s : State) (l : BitVec 8) : State :=
  match s.inst? l with
  | none => s
  | some i =>
    match i.run.frontTo, i.section? i.ending with
    | some n, some c =>
      let held := c.entries.all fun x => s.net.tokens.any fun k => k.site = x && k.port = 4 && !k.exit
      let ready := (s.instSites i).all fun x => s.isFused x || (s.tileDone x && s.shadowReady x)
      if s.working && i.startsRun n && !i.run.released && s.clk.units % 480 = 0 && held && ready then
        s.onInst l fun i => { i with run := { i.run with released := true } }
      else s
    | _, _ => s

/-- SEAL_ORIGIN (R345). -/
def execSealOrigin (l : BitVec 8) (s : State) : Res := .next (s.sealOrigin l)

/-- SEAL_LEN at a tile: that of its TILE_CFG, or of the section where it has none. -/
def State.sealLenAt (s : State) (x : Site) : Nat :=
  let n := cfgSealLen (s.tile x).active.cfg
  if n ≠ 0 then n else match s.sectionAt x with | some c => c.sealLen | none => 0

/-- SEAL_CHECK: in the cycle SEAL_LEN − 16 a tile without a complete shadow, or an entry without the front, asserts the seal stall. -/
def State.sealCheck (s : State) (x : Site) : State :=
  match s.instAt x with
  | none => s
  | some i =>
    let t := s.tile x
    if !s.working || i.run.current.isNone && i.run.frontTo.isNone || !s.sealedAt x || s.frozenAt x ||
        s.cycleAt x + 16 ≠ t.swapAt + s.sealLenAt x then s
    else
      let s1 := if !s.shadowReady x && !s.isFused x then (s.assertSeal x 0).onTile x fun t => { t with holding := some 0 } else s
      let last := s.stepOver i && (s.ctx i.tenant).preempting.isNone
      if (frontIn t.active.routerWord).contains 4 && !s.tokenAt x 4 && !last then s1.assertSeal x 1 else s1

/-- SEAL_CHECK (R95, R346). -/
def execSealCheck (x : Site) (s : State) : Res := .next (s.sealCheck x)

/-- Whether what made a tile assert the stall is over: its shadow, its front, its halt, the full queue (R95, R112, R187, R346). -/
def State.sealSatisfied (s : State) (x : Site) : Bool :=
  let t := s.tile x
  let c := t.sealAsserted
  let last : Bool := match s.instAt x with
    | some i => s.stepOver i && (s.ctx i.tenant).preempting.isNone
    | none => false
  (!c.getLsbD 0 || s.shadowReady x) && (!c.getLsbD 1 || s.tokenAt x 4 || last) && (!c.getLsbD 3 || !t.debugHalt) &&
    (!c.getLsbD 4 || s.skidEmpty x)

/-- Whether a pacer hold keeps an instance's stall up. -/
def State.pacerHolds (s : State) (i : Instance) : Bool :=
  (maskDies i.dieMask).any fun d => (List.finRange 3).any fun r =>
    (match s.regionOf d r with | some (t, _) => t = i.tenant | none => false) && (s.pace d r).holding

/-- SEAL_STALL_RELEASE: once every asserting tile is satisfied, the release reaches every element 12 cycles later; a freeze lasts at least
one cycle (R95). -/
def State.sealRelease (s : State) (l : BitVec 8) : State :=
  match s.inst? l with
  | none => s
  | some i =>
    let xs := (s.instSites i).filter fun x => (s.tile x).sealAsserted ≠ 0
    let stalled := i.run.freezeAt.isSome || i.run.frozenSince.isSome
    if !s.working || !stalled || i.run.releaseAt.isSome || s.pacerHolds i || !(xs.all fun x => s.sealSatisfied x) then s
    else
      (xs.foldl (fun a x => a.onTile x fun t => { t with sealAsserted := 0 }) s).onInst l fun i =>
        { i with run := { i.run with releaseAt := some (s.clk.fclk + 12) } }

/-- SEAL_STALL_RELEASE (R95). -/
def execSealStallRelease (l : BitVec 8) (s : State) : Res := .next (s.sealRelease l)

/-! ## Budgets and aborts (R288, R289, R384) -/

/-- The GTS at which the running step's budget expires. -/
def Run.expiry (r : Run) : Option Nat := r.budget.map fun b => r.startGts.toNat + r.pausedGts + 1000 * b

/-- BUDGET_EXPIRY: a cause stamped at the expiry, once it lies in the past: a step that ends at the same GTS ends normally. -/
def State.budgetExpiry (s : State) (l : BitVec 8) : State :=
  match s.inst? l with
  | none => s
  | some i =>
    match i.run.expiry with
    | none => s
    | some e =>
      let known := i.run.causes.any fun c => c.status = E_OVERRUN
      if s.working && i.run.running && !(s.ctx i.tenant).preempted && !known && e < s.clk.gts.toNat then
        s.onInst l fun i => { i with run := { i.run with causes := i.run.causes ++ [⟨E_OVERRUN, BitVec.ofNat 64 e, stewardSrc⟩] } }
      else s

/-- BUDGET_EXPIRY (R288, R384). -/
def execBudgetExpiry (l : BitVec 8) (s : State) : Res := .next (s.budgetExpiry l)

/-- The first of some causes in the order of R51 (R384). -/
def firstCause : List Cause → Option Cause
  | [] => none
  | c :: cs => match firstCause cs with
    | some d => if keyLt (d.gts, d.src) (c.gts, c.src) then some d else some c
    | none => some c

/-- Whether a slot's stream comes back from an abort: it is batched in the instance, or, in the batch of the aborted step, it left by a WAIT or for
want of its slot. One that is DONE or FAILED stays so (R282, R288; log entry 74). -/
def State.comesBack (s : State) (l : BitVec 8) (own : Bool) (e : Nat × Slot) : Bool :=
  let x := s.stream e.2.stream
  streamHandle e.2.stream x = e.2.handle.toNat &&
    ((x.state = stBatched && x.lastLayout = l) || (own && (x.state = stReady || x.state = stIdle)))

/-- A batched stream comes back from an abort: its input returns to the head of its queue, and it is READY with its old ready key; in the batch of
the aborted step it counts an abort, and its second one fails it (R288). -/
def State.returnStream (s : State) (l : BitVec 8) (step : Nat) (status : Status) (own : Bool) (e : Nat × Slot) : State :=
  let n := e.2.stream
  if !s.comesBack l own e then s
  else
    let s1 := s.onStream n fun x =>
      { x with state := stReady
               inputs := match e.2.input with | some d => d :: x.inputs | none => x.inputs
               inHead := match e.2.input with | some _ => (x.inHead + 7) % 8 | none => x.inHead
               aborts := if own then x.aborts + 1 else x.aborts }
    if own && 2 ≤ (s1.stream n).aborts.toNat then s1.endStream l step n stFailed status 0
    else if (s1.stream n).closePending then s1.freeStream n
    else s1.rearm n

/-- The streams of an instance come back from an abort: those of a batch already composed for a later step, then those of the aborted one. -/
def State.returnBatches (s : State) (i : Instance) (status : Status) : State :=
  let later := if i.stepNo + 1 < i.composedFor then i.batch else []
  let s1 := later.foldl (fun a (e : Nat × Slot) => a.returnStream i.id i.stepNo status false e) s
  (Map.get [] i.stepBatches i.stepNo).foldl (fun a (e : Nat × Slot) => a.returnStream i.id i.stepNo status true e) s1

/-- TENANT_QUARANTINE: every instance of the tenant tells of it, and no further step starts (R289). -/
def State.quarantine (s : State) (t : Tenant) (l : BitVec 8) (step : Nat) : State :=
  let s1 := s.onCtx t fun c => { c with quarantined := true }
  let ids := (s1.instances.filter fun i => i.tenant = t).map fun i => i.id
  let s2 := ids.foldl (fun a k =>
    let n := match a.inst? k with | some i => i.stepNo | none => 0
    a.eventEntry k 4 E_QUARANTINED 0xFFFFFFFF n 0 0) s1
  let s3 := s2.logEv stewardSrc TENANT_QUARANTINE (tenantByte t) ([l, 0, 0, 0] ++ leBytes 8 step)
  ids.foldl (fun a k => a.checkStepCmd k) s3

/-- The wait of the ledger for an instance's report goes with the step (log entry 26). -/
def State.dropLedgerWait (s : State) (t : Tenant) (l : BitVec 8) : State :=
  s.onCtx t fun c => { c with beacons := dropWaiters (fun w => w = .ledger l) c.beacons }

/-- The rest of an abort, once every started descriptor has completed: STEP_ABORT is logged, the tiles are parked and section 0 loads, the
streams return, the step's number is consumed (R288, R289, R385). -/
def State.finishAbort (s : State) (l : BitVec 8) (c : Cause) : State :=
  match s.inst? l with
  | none => s
  | some i =>
    let t := i.tenant
    let step := i.stepNo
    let s1 := s.logEv stewardSrc STEP_ABORT (tenantByte t)
      (leBytes 2 c.status.toNat ++ [l, 0] ++ leBytes 2 c.src.toNat ++ leBytes 2 0 ++ leBytes 8 step)
    let s2 := (s1.dropLedgerWait t l).eventEntry l 3 c.status 0xFFFFFFFF step 0 0
    let s3 := s2.returnBatches i c.status
    let s4 := s3.onInst l fun i =>
      { i with stepNo := step + 1, composedFor := step + 1, batch := [], slotHolders := [], stepBatches := [],
               cutoff := i.binding.map fun _ => (s.clk.gts, stewardSrc), composing := false,
               firstAbort := if i.firstAbort = 0 then c.status else i.firstAbort,
               stepsLeft := if i.run.nextStart.isSome then i.stepsLeft.map fun n => n + 1 else i.stepsLeft, run := {} }
    let s5 := (s4.freshRegion l).onCtx t fun c' =>
      { c' with opSeqs := [], overruns := if c.status = E_OVERRUN then c'.overruns + 1 else c'.overruns
                replay := c'.replay.filter fun r => !(r.diverged && r.layout = l && !r.follow) }
    let s6 := if c.status = E_OVERRUN && (s5.ctx t).overruns = 3 then s5.quarantine t l step else s5
    let s7 := (s6.checkStepCmd l).writeHeader t false
    match s7.inst? l with
    | some j => if j.unloadCmd.isSome then s7.finishUnload l else s7
    | none => s7

/-- Whether every DMA engine of an instance's region is empty. -/
def State.dmaQuiet (s : State) (i : Instance) : Bool := (s.instSites i).all fun x => (s.tile x).b.dmas.isEmpty

/-- The abort begins: issue stops, a seal stall ends, and descriptors not yet started end with E_ABORTED (R121, R288). -/
def State.beginAbort (s : State) (i : Instance) : State :=
  let s1 := s.onInst i.id fun i =>
    { i with run := { i.run with aborting := true, freezeAt := none, releaseAt := none, frozenSince := none } }
  (s.instSites i).foldl (fun a x => a.onTile x fun t =>
    { t with b := { t.b with dmas := t.b.dmas.map fun d =>
        if d.phase = .queued then { d with phase := .finished, status := E_ABORTED, failRow := 0xFFFF } else d } }) s1

/-- STEP_ABORT: the first cause of the running step ends it; started descriptors complete before the tiles are parked. -/
def State.stepAbort (s : State) (l : BitVec 8) : State :=
  match s.inst? l with
  | none => s
  | some i =>
    match firstCause i.run.causes with
    | none => s
    | some c =>
      if !s.working || !i.run.running || (s.ctx i.tenant).preempted then s
      else
        let s1 := if i.run.aborting then s else s.beginAbort i
        if s1.dmaQuiet i then s1.finishAbort l c else s1

/-- STEP_ABORT (R288). -/
def execStepAbort (l : BitVec 8) (s : State) : Res := .next (s.stepAbort l)

end Sys2Proof.Machine
end

