-- ==== Sys2Proof/Machine/Layout.lean ====
section
/-! DEFINITION. Layout containers (R80 to R83, R235, Tables LY-1 to LY-7), the checks of LOAD_LAYOUT (R100, R101, R237), the regions it grants
(R313), and the loading and unloading of an instance (R316). -/

namespace Sys2Proof.Machine

open Sys2Proof

/-! ## Parsing (R80 to R82) -/

/-- A container that has been parsed. `order` holds its records in container order. -/
structure Container where
  folded : Bool
  dieMask : BitVec 16
  gradeCrc : Nat
  hbmBytes : Nat
  crc : Word
  images : List (Nat × List Byte)
  sections : List Section
  order : List Rec
deriving DecidableEq, Repr

/-- A little-endian field of bytes. -/
def rd (bs : List Byte) (off n : Nat) : Nat := leNat ((bs.drop off).take n)

/-- Whether bytes are all zero. -/
def allZero (bs : List Byte) : Bool := bs.all fun b => b = 0

/-- One record with its padding, and what follows it (R82, Table LY-4). -/
def parseRec (bs : List Byte) : Option (Rec × List Byte) :=
  let h := bs.take 16
  let n := rd h 8 4
  let body := (bs.drop 16).take (roundUp n 16)
  if h.length < 16 || rd h 1 3 ≠ 0 || rd h 7 1 ≠ 0 || body.length < roundUp n 16 || !allZero (body.drop n) then none
  else some ({ kind := h.getD 0 0, die := h.getD 4 0, col := h.getD 5 0, row := h.getD 6 0, off := rd h 12 4, payload := body.take n },
    bs.drop (16 + roundUp n 16))

/-- A number of records, and what follows them. -/
def parseRecs : Nat → List Byte → Option (List Rec × List Byte)
  | 0, bs => some ([], bs)
  | n + 1, bs =>
    match parseRec bs with
    | none => none
    | some (r, rest) =>
      match parseRecs n rest with
      | none => none
      | some (rs, e) => some (r :: rs, e)

/-- The KIND of a TILE_CFG for a site's kind (Table LY-6). -/
def cfgKindOf (k : TileKind) : Nat := match k with | .m => 0 | .b => 1 | .v => 2 | .p => 3

/-- Whether a TILE_CFG payload is well formed for a kind of site (Table LY-6, R16, R130, R155). -/
def cfgOk (k : TileKind) (bs : List Byte) : Bool :=
  let c := flitOf bs
  bs.length = 64 && cfgKind c = cfgKindOf k && bitsOf c 26 6 = 0 && (cfgClear c).toNat ||| clearBits k = clearBits k &&
    (match k with
      | .m => cfgEntry c % 8 = 0 && cfgEntry c < 8192
      | .v => cfgEntry c % 8 = 0 && cfgEntry c < 16384
      | _ => cfgEntry c = 0) &&
    bitsOf c 192 8 ≤ (if k = .b then 1 else 0) && allZero (bs.drop 25)

/-- Whether a ROUTER payload is well formed (R83, Table GR-1). -/
def routerOk (k : TileKind) (period : Nat) (bs : List Byte) : Bool :=
  let w := rd bs 0 8
  w ||| 0x1F1F01 = 0x1F1F01 && (k = .p || w ||| 0x0F0F01 = 0x0F0F01) && bs.length = 8 + (if w % 2 = 1 then 5 * period else 0) &&
    (bs.drop 8).all fun e => e.toNat % 16 = 0

/-- Whether one record of a section passes check 1 on its own (Table LY-5, R82, R126, Table PN-4; log entry 27). -/
def recOk (period : Nat) (r : Rec) : Bool :=
  let k := kindOf r.col.toNat
  let n := r.payload.length
  let sited := r.die.toNat < 16 && r.col.toNat < 34 && r.row.toNat < 16
  match r.kind.toNat with
  | 1 => sited && r.off = 0 && routerOk k period r.payload
  | 2 => sited && r.off = 0 && cfgOk k r.payload
  | 3 => sited && r.off % 8 = 0 && n % 8 = 0 && ((k = .m && r.off + n ≤ 8192) || (k = .v && r.off + n ≤ 16384))
  | 4 => sited && r.off % 8 = 0 && n % 8 = 0 && k = .b && r.off + n ≤ btBytes
  | 5 => r.die = 0 && r.col = 0 && r.row = 0 && r.off = 0
  | 6 => sited && r.off = 0 && k = .p && n = 4 && rd r.payload 0 1 < 24 && rd r.payload 1 1 < 4 && rd r.payload 2 2 = 0
  | _ => false

/-- Whether a TILE_CFG is the only one of its site in a list of records. -/
def oneCfg (rs : List Rec) : Bool :=
  let keys := (rs.filter fun r => r.kind = 2).map fun r => siteKey r.site
  keys.eraseDups.length = keys.length

/-- Whether a section's RAMP is well formed (R235, Table EN-3). -/
def rampOk (mask : BitVec 16) (c : Section) : Bool :=
  match c.recs.filter fun r => r.kind = 5 with
  | [r] =>
    1 ≤ c.rampSteps && r.payload.length = 4 * c.rampSteps * (maskDies mask).length &&
      (payloadWords 0 (r.payload ++ [0, 0, 0, 0])).all fun e =>
        e.2 &&& 0xF000E000F000E000 = 0
  | _ => false

/-- Whether no image of a section lies in a bank that the section clears (R87). -/
def imagesClear (c : Section) : Bool :=
  c.recs.all fun r =>
    r.kind ≠ 4 || (match c.cfgAt r.site with
      | some f => (List.range (r.payload.length / 8)).all fun w => !bitAt (cfgClear f) (bankOf (r.off + 8 * w))
      | none => true)

/-- The section at the head of some bytes (R81, Tables LY-2, LY-3), with SECTION_BYTES. -/
def parseSection (mask : BitVec 16) (i : Nat) (bs : List Byte) : Option (Section × Nat) :=
  let n := rd bs 12 4
  let body := bs.take n
  let flags := rd bs 2 2
  let period := rd bs 6 1 + 1
  let counts := (List.range 16).map fun d =>
    let o := 64 + 16 * d
    (rd bs o 2, rd bs (o + 2) 2, rd bs (o + 4) 2, rd bs (o + 6) 2, rd bs (o + 8) 8)
  let crc := crc32c (body.take 16 ++ [0, 0, 0, 0] ++ body.drop 20)
  if n < 320 || body.length < n || rd bs 0 2 ≠ i || 7 < flags || rd bs 7 1 ≠ 0 || !allZero ((bs.drop 24).take 40) || crc.toNat ≠ rd bs 16 4 ||
      !((List.range 16).all fun d => bitAt mask d || counts.getD d (0, 0, 0, 0, 0) = (0, 0, 0, 0, 0)) ||
      (bitsOf (BitVec.ofNat 16 flags) 1 1 = 0 && (rd bs 4 2 ≠ i || bitsOf (BitVec.ofNat 16 flags) 2 1 = 1)) then none
  else match parseRecs (rd bs 8 4) (body.drop 320) with
    | some (rs, []) =>
      let c : Section :=
        { index := i, isSealed := flags % 2 = 1, fold := flags / 2 % 2 = 1, foldPart := flags / 4 % 2 = 1, foldOf := rd bs 4 2, period := period,
          rampSteps := rd bs 20 4, counts := counts, recs := rs }
      if rs.all (fun r => recOk period r) && oneCfg rs && rampOk mask c && imagesClear c then some (c, n) else none
    | _ => none

/-- The sections of a container at the offsets of its section table. -/
def parseSections (mask : BitVec 16) (bs : List Byte) : List (Nat × Nat) → Option (List (Section × Nat × Nat))
  | [] => some []
  | (off, i) :: rest =>
    match parseSection mask i (bs.drop off) with
    | none => none
    | some (c, n) =>
      match parseSections mask bs rest with
      | none => none
      | some cs => some ((c, off, n) :: cs)

/-- Whether each fold part stands beside its other part (R102). -/
def foldsOk (cs : List Section) : Bool :=
  cs.all fun c => !c.fold || (c.foldOf < cs.length &&
    match cs[if c.foldPart then c.index - 1 else c.index + 1]? with
    | some o => o.index ≠ c.index && o.fold && o.foldPart ≠ c.foldPart && o.foldOf = c.foldOf
    | none => false)

/-- Whether spans that start at rising offsets do not overlap. -/
def apart : List (Nat × Nat) → Bool
  | (a, n) :: (b, m) :: rest => a + n ≤ b && apart ((b, m) :: rest)
  | _ => true

/-- The container that bytes hold, where they pass check 1 as far as it needs no state (R80 to R83). A DIE_MASK of zero, for which the spec
gives no check, is refused here (DESIGN CHOICE, log entry 27). -/
def parseContainer (bs : List Byte) : Option Container :=
  let count := rd bs 8 2
  let mask := BitVec.ofNat 16 (rd bs 10 2)
  let crc := crc32c (bs.take 36 ++ [0, 0, 0, 0] ++ bs.drop 40)
  if bs.length < 64 + 8 * count || rd bs 0 4 ≠ 0x5459414C || rd bs 4 2 ≠ 1 || 1 < rd bs 6 2 || count = 0 || 4095 < count || mask = 0 ||
      rd bs 16 8 ≠ bs.length || !allZero ((bs.drop 40).take 24) || crc.toNat ≠ rd bs 36 4 then none
  else match parseRecs (rd bs 32 4) (bs.drop (64 + 8 * count)) with
    | none => none
    | some (top, rest) =>
      let offs := (List.range count).map fun i => (rd bs (64 + 8 * i) 8, i)
      let topOk := top.all fun r =>
        r.kind = 7 && r.die = 0 && r.col = 0 && r.row = 0 && r.off = 0 && 8 ≤ r.payload.length && rd r.payload 0 8 + r.payload.length ≤ 2 ^ 48 + 8
      match parseSections mask bs offs with
      | none => none
      | some cs =>
        let secs := cs.map fun q => q.1
        let placed : Map (Section × Nat) := cs.foldl (fun m (q : Section × Nat × Nat) => Map.put m q.2.1 (q.1, q.2.2)) []
        if topOk && foldsOk secs && (rd bs 6 2 = 1) = (secs.any fun c => c.fold) && placed.length = count &&
            apart ((bs.length - rest.length, 0) :: placed.map fun (e : Nat × Section × Nat) => (e.1, e.2.2)) then
          some { folded := rd bs 6 2 = 1, dieMask := mask, gradeCrc := rd bs 12 4, hbmBytes := rd bs 24 8, crc := BitVec.ofNat 32 (rd bs 36 4),
                 images := top.map fun r => (rd r.payload 0 8, r.payload.drop 8), sections := secs,
                 order := placed.flatMap fun (e : Nat × Section × Nat) => e.2.1.recs }
        else none

/-! ## Regions (R70, R313) -/

/-- The REGIONS bytes of a command. -/
def Started.regions (f : Started) : List (Nat × Byte) := (List.range 16).map fun d => (d, BitVec.ofNat 8 (f.p (20 + d) 1))

/-- Whether a REGIONS byte is one of Table HL-11. -/
def regionByteOk (b : Byte) : Bool := b = 0 || (regionCols b).isSome

/-- Whether two column ranges overlap. -/
def colsMeet (a b : Byte) : Bool :=
  match regionCols a, regionCols b with
  | some (x, y), some (u, v) => x ≤ v && u ≤ y
  | _, _ => false

/-- Whether two ranges on one die leave columns between them, so that no boundary of R70 parts them. -/
def colsApart (a b : Byte) : Bool :=
  match regionCols a, regionCols b with
  | some (x, y), some (u, v) => y + 1 < u || v + 1 < x
  | _, _ => false

/-- Why regions may not be granted to a tenant: a byte outside Table HL-11, a region of another context, two regions without a common
boundary, or a held region under a loaded layout (R70, R313; log entry 28). -/
def State.regionsBad (s : State) (t : Tenant) (rs : List (Nat × Byte)) : Option Status :=
  let others := fun (p : Byte → Byte → Bool) => rs.any fun r => (List.finRange 16).any fun u =>
    u != t && p r.2 (Map.get 0 (s.ctx u).regions r.1)
  let under := rs.any fun r =>
    r.2 ≠ 0 && r.2 ≠ Map.get 0 (s.ctx t).regions r.1 && s.instances.any fun i => i.tenant = t && bitAt i.dieMask r.1
  if !(rs.all fun r => regionByteOk r.2) then some E_BAD_FIELD
  else if others colsMeet || under then some E_REGION_BUSY
  else if others colsApart then some E_BAD_FIELD
  else none

/-- Grants the named regions. -/
def State.grantRegions (s : State) (t : Tenant) (rs : List (Nat × Byte)) : State :=
  s.onCtx t fun c => { c with regions := rs.foldl (fun m (r : Nat × Byte) => if r.2 = 0 then m else Map.set 0 m r.1 r.2) c.regions }

/-! ## Checks 1 to 7 (Table LY-11) -/

/-- Check 1 as far as it needs the state: every pin that a PIN_GRANT names is granted to the context (R401). -/
def State.pinsHeld (s : State) (t : Tenant) (k : Container) : Bool :=
  k.order.all fun r => r.kind ≠ 6 || (match (s.pin (rd r.payload 0 1)).owner with
    | .granted u => u = t
    | .driven u => u = t
    | .steward => false)

/-- Good sites of a tenant's region on a die, by kind. -/
def State.regionGood (s : State) (t : Tenant) (d : Nat) (k : TileKind) : Nat :=
  ((dieSites d).filter fun x => siteKind x = k && s.inRegion t x && !s.isFused x).length

/-- The shortfalls of a section on a die: M, B, V, P and B-tile bytes (R101). -/
def State.shortfall (s : State) (t : Tenant) (c : Section) (d : Nat) : List Nat :=
  let n := c.counts.getD d (0, 0, 0, 0, 0)
  let b := s.regionGood t d .b
  [n.1 - s.regionGood t d .m, n.2.1 - b, n.2.2.1 - s.regionGood t d .v, n.2.2.2.1 - s.regionGood t d .p, n.2.2.2.2 - btBytes * b]

/-- HBM that a tenant may still allocate (R213). -/
def Context.hbmFree (c : Context) : Nat := c.hbmQuota - c.charged

/-- The largest value of a list. -/
def listMax (l : List Nat) : Nat := l.foldl max 0

/-- The deficit record of check 2, if the layout is too large (Table LY-12; log entry 29). -/
def State.deficit (s : State) (t : Tenant) (k : Container) : Option (List Byte) :=
  let dies := maskDies k.dieMask
  let tab := k.sections.map fun c => dies.map fun d => s.shortfall t c d
  let sum := fun (i : Nat) (row : List (List Nat)) => (row.map fun x => x.getD i 0).sum
  let most := fun (i : Nat) => listMax (tab.map (sum i))
  let hbm := k.hbmBytes - (s.ctx t).hbmFree
  let first := tab.findIdx? fun row => row.any fun x => x.any fun n => 0 < n
  if first.isNone && hbm = 0 then none
  else
    let row := match first with | some i => tab.getD i [] | none => []
    let tops := row.map fun x => listMax (x.take 4)
    let top := listMax tops
    let die := if top = 0 then 0xFF else dies.getD (tops.idxOf top) 0xFF
    some (leBytes 2 (first.getD 0xFFFF) ++ [BitVec.ofNat 8 die, 0] ++
      ((List.range 4).flatMap fun i => leBytes 2 (min (most i) 0xFFFF)) ++ leBytes 4 0 ++ leBytes 8 (most 4) ++ leBytes 8 hbm)

/-- Check 3: the CRC of the current grade-map records of the layout's dies. -/
def State.gradeCrc (s : State) (mask : BitVec 16) : Nat := (crc32c ((maskDies mask).flatMap s.gradeRecord)).toNat

/-- Check 4 of one record; a die outside DIE_MASK is no part of the region that the layout has (DEDUCED, log entry 27). -/
def State.placeBad (s : State) (t : Tenant) (mask : BitVec 16) (r : Rec) : Option Status :=
  if !r.sited then none
  else if !s.inRegion t r.site || !bitAt mask r.site.die.val then some E_REGION
  else if (r.kind = 2 || r.kind = 3 || r.kind = 4) && s.isFused r.site then some E_FUSED_SITE
  else none

/-- A router of a section: its site's key, the site, FRONT_IN and FRONT_OUT. -/
abbrev FrontNode := Nat × Site × List (Fin 5) × List (Fin 5)

/-- The routers of a section. -/
def Section.nodes (c : Section) : List FrontNode :=
  (c.recs.filter fun r => r.kind = 1).map fun r =>
    let w : DWord := BitVec.ofNat 64 (rd r.payload 0 8)
    (siteKey r.site, r.site, frontIn w, frontOut w)

/-- The key of the router that an edge port leads to. -/
def nextKey (x : Site) (p : Fin 5) : Option Nat := (neighbour x p.val).map siteKey

/-- Whether a port of a router has its counterpart: FRONT_OUT leads to a router with that port in FRONT_IN, and the other way round. -/
def portMatched (ns : List FrontNode) (x : Site) (out : Bool) (p : Fin 5) : Bool :=
  p = 4 || (match nextKey x p with
    | some k => ns.any fun n => n.1 = k && (if out then n.2.2.1 else n.2.2.2).contains (oppositePort p.val)
    | none => false)

/-- Adds nodes until a round adds none: those that `p` admits over the keys admitted so far. -/
def closure (p : List Nat → FrontNode → Bool) (ns : List FrontNode) : Nat → List Nat → List Nat
  | 0, done => done
  | n + 1, done =>
    let more := (ns.filter fun x => !done.contains x.1 && p done x).map fun x => x.1
    if more.isEmpty then done else closure p ns n (done ++ more)

/-- The routers that the front reaches from the entries with every FRONT_IN port served: all of them where the graph is acyclic. -/
def reached (ns : List FrontNode) : List Nat :=
  closure (fun done x => x.2.2.1.all fun p => p = 4 || (match nextKey x.2.1 p with | some k => done.contains k | none => false)) ns ns.length []

/-- The routers from which the front reaches an exit. -/
def leading (ns : List FrontNode) : List Nat :=
  closure (fun done x => x.2.2.2.any fun p => p = 4 || (match nextKey x.2.1 p with | some k => done.contains k | none => false)) ns ns.length []

/-- Whether the slot tables of a router select only ports that exist (Corners of chapter 03). -/
def slotsOk (r : Rec) : Bool :=
  (r.payload.drop 8).all fun e =>
    !bitAt e 7 || (let i := bitsOf e 4 3; i = 4 || (i < 4 && (neighbour r.site i).isSome))

/-- Check 5 of one section (R64, R65, R70, R83, R89; log entry 27). -/
def State.routesOk (s : State) (t : Tenant) (mask : BitVec 16) (c : Section) : Bool :=
  let routers := c.recs.filter fun r => r.kind = 1
  let ns := c.nodes
  let keys := ns.map fun n => n.1
  let sites := (maskDies mask).flatMap fun d => (dieSites d).filter fun x => s.inRegion t x
  let done := reached ns
  let out := leading ns
  let cfgs := c.recs.filter fun r => r.kind = 2
  sites.all (fun x => keys.contains (siteKey x)) && keys.length = sites.length &&
    routers.all (fun r => slotsOk r && (rd r.payload 0 1 % 2 = 1) = c.isSealed) &&
    ns.all (fun n => !n.2.2.1.isEmpty && n.2.2.1.all (fun p => portMatched ns n.2.1 false p) &&
      n.2.2.2.all (fun p => portMatched ns n.2.1 true p) && done.contains n.1) &&
    cfgs.all (fun r =>
      let f := flitOf r.payload
      (cfgPark f || out.contains (siteKey r.site)) && (if c.isSealed then 32 ≤ cfgSealLen f else cfgSealLen f = 0)) &&
    (!c.isSealed || (maskDies mask).all fun d => Map.get 0 (s.ctx t).regions d = 0x08)

/-- The difference of two numbers. -/
def gap (a b : Nat) : Nat := (a - b) + (b - a)

/-- Whether consecutive weights differ by at most an allowance. -/
def gentle (a : Nat) : List Nat → Bool
  | x :: y :: rest => gap x y ≤ a && gentle a (y :: rest)
  | _ => true

/-- Check 6 (R237). -/
def State.rampsOk (s : State) (t : Tenant) (k : Container) : Bool :=
  let dies := maskDies k.dieMask
  let weights := fun (d : Nat) (c : Section) =>
    match c.ramp with | some r => (List.range c.rampSteps).map fun j => rampWeight r dies j d | none => []
  (dies.all fun d =>
    let q := quads (Map.get 0 (s.ctx t).regions d)
    let a := 20 * q
    let ws := k.sections.flatMap (weights d)
    ws.headD 0 ≤ a && gentle a ws && gap (ws.getLastD 0) (ws.headD 0) ≤ a &&
      (s.pkg.variant ≠ .l36 || ws.all fun c => c ≤ 960 * q) &&
      k.sections.all fun c => match c.ramp with
        | some r => (List.range c.rampSteps).all fun j =>
            (rampEntry r dies j d).1 ≤ s.regionGood t d .m && (rampEntry r dies j d).2 ≤ s.regionGood t d .v
        | none => true) &&
    k.sections.all fun c => !c.isSealed || c.rampSteps = (c.sealLen + 1599) / 1600

/-- Pins of a section with the P-tile that each is granted to. -/
def Section.pinSites (c : Section) : List (Nat × Site) := (c.recs.filter fun r => r.kind = 6).map fun r => (rd r.payload 0 1, r.site)

/-- Check 7: no pin goes to another P-tile in the next section, that of the wrap included. -/
def pinsSteady (cs : List Section) : Bool :=
  (cs.zip (cs.drop 1 ++ cs.take 1)).all fun e => e.1.pinSites.all fun a => e.2.pinSites.all fun b => a.1 ≠ b.1 || a.2 = b.2

/-- What the checks of LOAD_LAYOUT answer: the container, or the status of the first failing check with its deficit record. -/
inductive Verdict where
  | ok (k : Container)
  | bad (st : Status)
  | large (record : List Byte)
deriving DecidableEq, Repr

/-- Checks 1 to 7 in order, in the state with the named regions granted (R100). -/
def State.layoutChecks (s : State) (t : Tenant) (bs : List Byte) : Verdict :=
  match parseContainer bs with
  | none => .bad E_BAD_LAYOUT
  | some k =>
    if !s.pinsHeld t k then .bad E_BAD_LAYOUT
    else match s.deficit t k with
      | some r => .large r
      | none =>
        if s.gradeCrc k.dieMask ≠ k.gradeCrc then .bad E_FIT_STALE
        else match k.order.findSome? (s.placeBad t k.dieMask) with
          | some st => .bad st
          | none =>
            if !(k.sections.all fun c => s.routesOk t k.dieMask c) then .bad E_BAD_ROUTE
            else if !s.rampsOk t k then .bad E_RAMP_ENVELOPE
            else if !pinsSteady k.sections then .bad E_BAD_LAYOUT
            else .ok k

/-! ## LOAD_LAYOUT (R316) -/

/-- Marks a started command whose checks have passed and whose effect goes on. -/
def State.accept (s : State) (f : Started) : State :=
  { s with host := { s.host with started := s.host.started.map fun g => if g.id = f.id then { g with accepted := true } else g } }

/-- Maps the unmapped 64 KiB pages of a range with R and W; none where the quota or the stacks do not suffice. -/
def State.mapRange (s : State) (t : Tenant) (va n : Nat) : Option State :=
  ((List.range ((va + n + 65535) / 65536 - va / 65536)).map fun i => (va / 65536 + i) * 65536).foldl
    (fun a p => match a with
      | none => none
      | some s => match (s.ctx t).walk p { write := false } with
        | .fault 1 _ => (s.mapFresh t p 65536 3 false).map fun q => q.2
        | _ => some s)
    (some s)

/-- The first page of some ranges that a tenant may not write, with CAUSE and LEVEL. -/
def Context.unwritable (c : Context) (ims : List (Nat × List Byte)) : Option (Nat × Nat × Nat) :=
  (ims.flatMap fun im => vaPieces im.1 im.2.length).findSome? fun p =>
    match c.walk p.1 { write := true } with
    | .fault k l => some (p.1, k, l)
    | .ok _ _ _ => none

/-- Maps and writes the HBM images, all of them or none, since a refused layout loads nothing (R100): E_TOO_LARGE where pages cannot be mapped,
E_BAD_LAYOUT, with a fault recorded, where one may not be written (log entry 27). -/
def State.placeImages (s : State) (t : Tenant) (ims : List (Nat × List Byte)) : Option Status × State :=
  match ims.foldl (fun a (im : Nat × List Byte) => match a with
      | none => none
      | some q => q.mapRange t im.1 im.2.length) (some s) with
  | none => (some E_TOO_LARGE, s)
  | some s1 =>
    match (s1.ctx t).unwritable ims with
    | some (va, k, l) => (some E_BAD_LAYOUT, s.memFault t { stewardAccess stewardSrc with va := va, write := true } k l)
    | none => (none, ims.foldl (fun a (im : Nat × List Byte) => (a.vaWrite t 0 im.1 im.2 (stewardAccess stewardSrc)).2) s1)

/-- The deficit record of images whose pages cannot be mapped, though HBM_BYTES fits: the bytes of the unmapped pages beyond what the tenant may
allocate (log entry 29). -/
def State.imageDeficit (s : State) (t : Tenant) (ims : List (Nat × List Byte)) : List Byte :=
  let pages := (ims.flatMap fun im => (List.range ((im.1 + im.2.length + 65535) / 65536 - im.1 / 65536)).map fun i => im.1 / 65536 + i).eraseDups
  let new := pages.filter fun p => match (s.ctx t).walk (p * 65536) { write := false } with | .fault 1 _ => true | _ => false
  leBytes 2 0xFFFF ++ [0xFF, 0] ++ leBytes 8 0 ++ leBytes 4 0 ++ leBytes 8 0 ++ leBytes 8 (new.length * 65536 - (s.ctx t).hbmFree)

/-- The next LAYOUT_ID: after the last one assigned, cycling through 0x00 to 0xFE past those that loaded layouts hold. -/
def State.nextLayoutId (s : State) : BitVec 8 :=
  let from_ := match s.lastLayout with | some l => l.toNat + 1 | none => 0
  match ((List.range 255).map fun i => BitVec.ofNat 8 ((from_ + i) % 255)).find? fun l => (s.inst? l).isNone with
  | some l => l
  | none => 0

/-- The container bytes at a tenant's address: CONTAINER_BYTES of them. None where they cannot be read. -/
def State.readContainer (s : State) (t : Tenant) (va : Nat) : Option (List Byte) × State :=
  match s.vaRead t 0 va 64 (stewardAccess stewardSrc) with
  | (none, s1) => (none, s1)
  | (some (h, _), s1) =>
    let n := rd h 16 8
    if n < 64 || 2 ^ 48 < va + n then (none, s1)
    else match s1.vaRead t 0 va n (stewardAccess stewardSrc) with
      | (some (bs, _), s2) => (some bs, s2)
      | (none, s2) => (none, s2)

/-- A container that passed: its instance is made, every tile parked, and section 0 goes to the shadows. -/
def State.acceptLayout (s : State) (f : Started) (k : Container) : State :=
  let l := s.nextLayoutId
  let i : Instance := { id := l, tenant := f.tenant, crc := k.crc, dieMask := k.dieMask, sections := k.sections, loadCmd := some f.id }
  let s1 := ({ s with insts := Map.put s.insts l.toNat i, lastLayout := some l }).accept f
  (s1.freshRegion l).checkLoaded i

/-- LOAD_LAYOUT. -/
def State.loadLayout (ok : Bool) (f : Started) (s : State) : State :=
  let t := f.tenant
  let own := s.instances.filter fun i => i.tenant = t
  if f.accepted then s
  else if s.power.pstate ≠ .p0 then s.fail f E_POWER_BUSY
  else if f.ring ≠ .admin && !(f.regions.all fun r => r.2 = 0) then s.fail f E_BAD_FIELD
  else if (s.ctx t).quarantined then s.fail f E_QUARANTINED
  else if 8 ≤ own.length then s.fail f E_LAYOUT_LIMIT
  else match s.regionsBad t f.regions with
    | some st => s.fail f st
    | none =>
      match s.readContainer t (f.p 40 8) with
      | (none, s1) => s1.fail f E_BAD_LAYOUT
      | (some bs, s1) =>
        let g := s1.grantRegions t f.regions
        match g.layoutChecks t bs with
        | .bad st => s1.fail f st
        | .large r => s1.finishResult f ok E_TOO_LARGE 0 r
        | .ok k =>
          if s1.maskDown k.dieMask then s1.fail f E_DOMAIN_DOWN
          else if own.any fun i => i.dieMask &&& k.dieMask ≠ 0 then s1.fail f E_REGION_BUSY
          else match g.placeImages t k.images with
            | (some st, s2) =>
              let s3 := s2.onCtx t fun c => { c with regions := (s.ctx t).regions }
              if st = E_TOO_LARGE then s3.finishResult f ok st 0 (g.imageDeficit t k.images) else s3.fail f st
            | (none, s2) => s2.acceptLayout f k

/-- LOAD_LAYOUT (R100). -/
def execLoadLayout (c : Serve) (s : State) : Res := .next (s.serve c 0x06 (State.loadLayout c.resultOk))

/-! ## UNLOAD_LAYOUT (R316) -/

/-- UNLOAD_LAYOUT: a running step runs to its end first; a pre-empted context's step will not. -/
def State.unloadLayout (f : Started) (s : State) : State :=
  match s.inst? (BitVec.ofNat 8 (f.p 20 1)) with
  | none => s.fail f E_LAYOUT_ID
  | some i =>
    if i.tenant ≠ f.tenant || !i.loaded then s.fail f E_LAYOUT_ID
    else if f.accepted then s
    else
      let s1 := (s.accept f).onInst i.id fun i => { i with unloadCmd := some f.id }
      if i.run.running && !(s.ctx f.tenant).preempted then s1 else s1.finishUnload i.id

/-- UNLOAD_LAYOUT (R316). -/
def execUnloadLayout (c : Serve) (s : State) : Res := .next (s.serve c 0x07 State.unloadLayout)

end Sys2Proof.Machine
end

