-- ==== Sys2Proof/Machine/Steps.lean ====
section
/-! DEFINITION. STEP and SET_BUDGET (R287, R317), pre-emption and its return (R290 to R293, R203), and REPLAY_START (R358). -/

namespace Sys2Proof.Machine

open Sys2Proof

/-! ## STEP and SET_BUDGET -/

/-- A tenant's loaded layout by its number, once its load is complete. -/
def State.ownInst (s : State) (t : Tenant) (n : Nat) : Option Instance :=
  match s.inst? (BitVec.ofNat 8 n) with
  | some i => if i.tenant = t && i.loaded then some i else none
  | none => none

/-- Why a STEP is refused, if it is (R284, R287, R317, R320, R364; log entry 21). -/
def State.stepRefusal (s : State) (f : Started) : Option Status :=
  let t := f.tenant
  let c := s.ctx t
  if s.power.pstate ≠ .p0 || s.power.reloading then some E_POWER_BUSY
  else if s.isFollow t then some E_TWIN_STATE
  else if c.budget.isNone then some E_NO_BUDGET
  else if c.quarantined then some E_QUARANTINED
  else if c.preempted then some E_CONTEXT_STATE
  else match s.ownInst t (f.p 20 1) with
    | none => some E_LAYOUT_ID
    | some i =>
      if i.stepCmd.isSome || (match c.replay with | some r => r.layout = i.id | none => false) then some E_LAYOUT_BUSY
      else if s.maskDown i.dieMask then some E_DOMAIN_DOWN
      else none

/-- STEP: the instance runs COUNT steps, or with COUNT zero steps until it is pre-empted or unloaded.  On a bound instance whose next step
has no composition behind or ahead of it, the command is that composition's cut-off (R282). -/
def State.stepCommand (f : Started) (s : State) : State :=
  if f.accepted then s
  else match s.stepRefusal f with
    | some st => s.fail f st
    | none =>
      (s.accept f).onInst (BitVec.ofNat 8 (f.p 20 1)) fun i =>
        { i with stepCmd := some f.id, stepsLeft := if f.p 24 4 = 0 then none else some (f.p 24 4), normal := 0, firstAbort := 0,
                 cutoff := if i.binding.isSome && i.composedFor ≤ i.stepNo && !i.composing && i.cutoff.isNone then some (s.clk.gts, stewardSrc)
                           else i.cutoff }

/-- STEP (R317). -/
def execStep (c : Serve) (s : State) : Res := .next (s.serve c 0x08 State.stepCommand)

/-- SET_BUDGET: the budget of the steps that start from now on; CLEAR_QUARANTINE ends a quarantine (R289). -/
def State.setBudget (f : Started) (s : State) : State :=
  let us := f.p 20 4
  if us = 0 || 10000000 < us || 1 < f.p 24 1 then s.fail f E_BAD_FIELD
  else
    (s.onCtx f.tenant fun c =>
      { c with budget := some us, quarantined := c.quarantined && f.p 24 1 = 0, overruns := if f.p 24 1 = 1 then 0 else c.overruns }).done f

/-- SET_BUDGET (R287). -/
def execSetBudget (c : Serve) (s : State) : Res := .next (s.serve c 0x0B State.setBudget)

/-! ## The context switch (R203) -/

/-- The sites of a tenant's regions. -/
def State.regionSites (s : State) (t : Tenant) : List Site :=
  (List.range 16).flatMap fun d => (dieSites d).filter fun x => s.inRegion t x

/-- Live registers that a context switch resets. -/
def Tile.switched (t : Tile) : Tile :=
  { t with traceEn := false, debugHalt := false
           m := { t.m with intOvf := false, sealedClass := false, illegal := false, tldwFault := false }
           v := { t.v with sealedClass := false, view := false, illegal := false } }

/-- The context switch of a tenant's slot: the beacons clear, the generation goes up (R203), and every translation of the old one goes (R216). -/
def State.switchBeacons (s : State) (t : Tenant) : State :=
  (s.onCtx t fun c => { c with beacons := [], opSeqs := [], gen := c.gen + 1 }).tlbDrop t fun _ => true

/-! ## PREEMPT (R290 to R292) -/

/-- Bytes of a site's save slot (Table SL-7). -/
def slotBytes (k : TileKind) : Nat := match k with | .m => 57344 | .v => 26624 | .b => 787456 | .p => 1024

/-- Bytes of save area that a tenant needs (R292). -/
def State.saveNeed (s : State) (t : Tenant) : Nat := 262144 + ((s.regionSites t).map fun x => slotBytes (siteKind x)).sum

/-- The pages of a context's save area. -/
def Context.savePages (c : Context) : List Nat :=
  let a := c.saveVa.toNat
  if c.saveBytes = 0 then [] else (List.range ((a + c.saveBytes + 65535) / 65536 - a / 65536)).map fun i => (a / 65536 + i) * 65536

/-- The first page of the save area that lacks R or W, with the fault (R292). -/
def Context.saveFault (c : Context) : Option (Nat × Bool × Nat × Nat) :=
  c.savePages.findSome? fun p =>
    match c.walk p { write := false }, c.walk p { write := true } with
    | .fault k l, _ => some (p, false, k, l)
    | _, .fault k l => some (p, true, k, l)
    | _, _ => none

/-- The 64 KiB frames that the save area's pages name. -/
def Context.saveFrames (c : Context) : List Nat :=
  c.savePages.filterMap fun p => match c.walk p { write := true } with | .ok dpa _ _ => some (dpa / 65536) | _ => none

/-- Issue stops for an evict: in a section that is not sealed, a TMMA and a TLDW under way are abandoned (R150, R290). -/
def State.evictStart (s : State) (t : Tenant) : State :=
  (s.regionSites t).foldl (fun a x => if siteKind x = .m && !a.sealedAt x then a.onTile x fun k => k.abandon a.clk.fclk else a) s

/-- The instances of a tenant. -/
def State.instsOf (s : State) (t : Tenant) : List Instance := s.instances.filter fun i => i.tenant = t

/-- Whether nothing of a tenant is on its way outside its tiles and routers: no wait or grant, no memory or window request
(log entry 30). -/
def State.contextQuiet (s : State) (t : Tenant) : Bool :=
  !(s.net.ops.any fun o => o.tenant = t && o.wait.isSome) && !(s.net.grants.any fun g => g.tenant = t) && !s.translating t &&
    !(s.net.flow.any fun p => p.head.tenant = t && (match p.place with | .unit _ _ => true | _ => false)) &&
    !(s.links.ports.any fun (e : Nat × Port) => e.2.outReqs.any fun r => r.head.tenant = t)

/-- Whether an instance is ready to be saved: yielded, every tile is done and no front in flight; evicted, its sealed sections are frozen
and elsewhere every started descriptor has completed (R290). -/
def State.instQuiet (s : State) (evict : Bool) (i : Instance) : Bool :=
  let xs := s.instSites i
  !i.run.aborting &&
    (if evict then
      (i.run.frozenSince.isSome || xs.all fun x => (s.tile x).parked || !s.sealedAt x) &&
        xs.all fun x => s.sealedAt x || (s.tile x).b.dmas.all fun d => d.phase = .queued
    else i.run.frontTo.isNone && i.run.frozenSince.isNone && i.run.freezeAt.isNone && xs.all fun x => s.tileDone x)

/-- Whether a pre-emption may save now. -/
def State.preemptReady (s : State) (t : Tenant) (evict : Bool) : Bool :=
  s.contextQuiet t && (s.instsOf t).all fun i => s.instQuiet evict i

/-- The steward writes the context block and the slots: their bytes are its own, and free values to everyone else (R292, log entry 31). -/
def State.fillSaveArea (s : State) (t : Tenant) : State :=
  let c := s.ctx t
  (vaPieces c.saveVa.toNat (s.saveNeed t)).foldl
    (fun a p => match c.walk p.1 { write := true } with
      | .ok dpa _ _ => a.hbmFree dpa p.2
      | _ => a) s

/-- An M-tile's registers without those that hold nothing (R149). -/
def MState.dropEmpty (m : MState) : MState :=
  let m1 := (List.range 10).foldl (fun m r => if m.full.getLsbD (fullBit r) then m else m.clearReg r) m
  (List.range 4).foldl (fun m a => if m.full.getLsbD (8 + a) then m else m.clearAcc a) m1

/-- A tile whose instruction memory no IMW has written since its last swap: the steward restores that from the layout (R149, R178). -/
def State.layoutImem (s : State) (x : Site) (t : Tile) : Tile :=
  match s.instAt x with
  | some i =>
    if t.seq.imemWritten || t.parked then t
    else { t with active := { t.active with imem := i.imemAt x i.sections.length t.active.sect } }
  | none => t

/-- What a save keeps of a tile (R149, R178, R291): a yield leaves out what the next section clears, and the sequencer's control. -/
def State.savedTile (s : State) (evict : Bool) (x : Site) : SavedTile :=
  let t := s.layoutImem x (s.tile x).switched
  let next := match s.instAt x with | some i => i.section? i.nextSection | none => none
  let mask : BitVec 32 := match next with
    | some c => (match c.cfgAt x with | some f => cfgClear f &&& 0xEFFFFFFF | none => 0)
    | none => 0
  let t1 := { t with m := { t.m.dropEmpty with cache := [] } }
  let t2 := if evict then t1 else { t1.clearMask (siteKind x) mask (s.cycleAt x) with seq := { t1.seq with loops := [], stack := [] } }
  { site := siteKey x, tile := t2 }

/-- The save (R290, R291): the image is made, every STEP of the context completes with E_PREEMPTED, the tiles are empty, the regions free,
and the slot has switched. -/
def State.preemptSave (s : State) (t : Tenant) (f : Started) (evict : Bool) : State :=
  let c := s.ctx t
  let xs := s.regionSites t
  let frames := c.saveFrames
  let image : Saved :=
    { evicted := evict, regions := c.regions, tiles := xs.map (s.savedTile evict), beacons := c.beacons
      flow := s.net.flow.filter fun p => p.head.tenant = t
      sched := s.net.sched.filter fun p => p.head.tenant = t
      tokens := s.net.tokens.filter fun k => k.token.tenant = t
      savedAt := s.clk.gts, savedCycle := s.clk.fclk, frames := frames, crcBad := false }
  let s1 := (s.instsOf t).foldl (fun a i => match i.stepCmd with
    | some id => (a.onInst i.id fun j => { j with stepCmd := none, stepsLeft := none }).finishId id E_PREEMPTED i.normal
    | none => a) s
  let s2 := xs.foldl (fun a x => (a.parkSite x).onTile x fun k =>
    { k.switched with shadowComplete := false, keepNext := false, loading := false, due := [], preload := [], descDue := [], shadowSection := 0 }) s1
  let n := { s2.net with
    flow := s2.net.flow.filter fun p => p.head.tenant ≠ t
    sched := s2.net.sched.filter fun p => p.head.tenant ≠ t
    tokens := s2.net.tokens.filter fun k => k.token.tenant ≠ t }
  let bad := Map.keep s2.mem.bad fun b => !frames.contains (b / 1024)
  let s3 := State.fillSaveArea { s2 with net := n, mem := { s2.mem with bad := bad } } t
  let s4 := (s3.switchBeacons t).onCtx t fun c => { c with regions := [], preempted := true, preempting := none, saved := some image }
  s4.finish f OK 0

/-- PREEMPT, both modes: checked, then accepted; it saves as soon as it may. -/
def State.preempt (mode : Nat) (f : Started) (s : State) : State :=
  let t := f.tenant
  let c := s.ctx t
  if f.p 20 1 ≠ mode && f.p 20 1 < 2 then s
  else if f.accepted then
    match c.preempting with
    | some p => if s.preemptReady t p.evict then s.preemptSave t f p.evict else s
    | none => s
  else if 1 < f.p 20 1 || f.p 24 4 = 0 || 1000000 < f.p 24 4 then s.fail f E_BAD_FIELD
  else if c.preempted then s.fail f E_CONTEXT_STATE
  else if c.saveBytes < s.saveNeed t then s.fail f E_SAVE_SPACE
  else match c.saveFault with
    | some (va, w, k, l) => (s.memFault t { stewardAccess stewardSrc with va := va, write := w } k l).fail f E_SAVE_FAULT
    | none =>
      let evict := mode = 1
      let s1 := (s.accept f).onCtx t fun c => { c with preempting := some { cmd := f.id, evict := evict, since := s.clk.gts, limit := f.p 24 4 } }
      let s2 := if evict then s1.evictStart t else s1
      if s2.preemptReady t evict then s2.preemptSave t f evict else s2

/-- PREEMPT with MODE YIELD (R290). -/
def execYield (c : Serve) (s : State) : Res := .next (s.serve c 0x09 (State.preempt 0))

/-- PREEMPT with MODE EVICT (R290). -/
def execEvict (c : Serve) (s : State) : Res := .next (s.serve c 0x09 (State.preempt 1))

/-- YIELD_LIMIT: a yield that has not saved within its limit goes on as an evict. -/
def State.yieldLimit (s : State) (t : Tenant) : State :=
  match (s.ctx t).preempting with
  | none => s
  | some p =>
    if s.working && !p.evict && p.since.toNat + 1000 * p.limit ≤ s.clk.gts.toNat then
      (s.onCtx t fun c => { c with preempting := some { p with evict := true } }).evictStart t
    else s

/-- YIELD_LIMIT (R290). -/
def execYieldLimit (t : Tenant) (s : State) : Res := .next (s.yieldLimit t)

/-! ## RESUME (R293) -/

/-- A saved tile comes back to its site: counters that only a start resets go on, an M- or V-tile fetches its words again
(R149, R178; log entry 84). -/
def Tile.restoreOver (cur : Tile) (kind : TileKind) (t : Tile) : Tile :=
  let m := { t.m with faultIp := cur.m.faultIp, faultRow := cur.m.faultRow, tmmaDone := cur.m.tmmaDone, tmmaRestarts := cur.m.tmmaRestarts,
                      wcHits := cur.m.wcHits, wcMisses := cur.m.wcMisses }
  let b := { t.b with bankConflict := cur.b.bankConflict, wn := cur.b.wn, nw := cur.b.nw, ww := cur.b.ww, clearWaits := cur.b.clearWaits,
                      inboundFull := cur.b.inboundFull, eccUe := cur.b.eccUe, eccCe := cur.b.eccCe, ceCount := cur.b.ceCount,
                      ueOffset := cur.b.ueOffset }
  let t1 := { t with m := m, b := b, v := { t.v with branches := cur.v.branches }, frontHolds := cur.frontHolds, holdCycles := cur.holdCycles,
                     liveWrites := cur.liveWrites, chOrphans := cur.chOrphans, issueStalls := cur.issueStalls, ueCount := cur.ueCount }
  if (kind = .m || kind = .v) && !t1.parked then t1.goOn kind [] t1.seq.ip t1.seq.loops else t1

/-- A saved beacon comes back (R293): the VALUEs add, saved waiters stand first, and the saved setting is in force, be it the default one. -/
def State.restoreBeacon (t : Tenant) (s : State) (e : Nat × Beacon) : State :=
  let i := BitVec.ofNat 12 e.1
  let s1 := s.onBeacon t i fun b =>
    { value := e.2.value, waiters := e.2.waiters ++ b.waiters, thresh := e.2.thresh, mode := e.2.mode, vector := e.2.vector }
  let s2 := s1.addSignal t i (s.beacon t i).value.toNat stewardSrc
  State.grantHeads (s2.beacon t i).waiters.length s2 t i

/-- The cycles and the time that an instance was away do not count in its runs and budgets (R287, R290). -/
def Run.away (r : Run) (cycles gts : Nat) : Run :=
  { r with frozenTotal := r.frozenTotal + cycles, frozenSince := r.frozenSince.map fun c => c + cycles,
           freezeAt := r.freezeAt.map fun c => c + cycles, releaseAt := r.releaseAt.map fun c => c + cycles, pausedGts := r.pausedGts + gts,
           nextPaused := if r.nextStart.isSome then r.nextPaused + gts else 0 }

/-- Whether another tenant holds a region on a place that a saved context needs. -/
def State.savedBusy (s : State) (t : Tenant) (v : Saved) : Bool :=
  v.regions.any fun (e : Nat × Byte) => (List.finRange 16).any fun u => u != t && colsMeet e.2 (Map.get 0 (s.ctx u).regions e.1)

/-- Whether a slot's CRC fails at the restore: something wrote the area, or its memory has an error that cannot be corrected. -/
def State.savedBad (s : State) (v : Saved) : Bool :=
  v.crcBad || s.mem.bad.any fun (e : Nat × EccKind) => e.2 = .ue && v.frames.contains (e.1 / 1024)

/-- The tiles of a saved context are restored, with what their grid held. -/
def State.restoreTiles (s : State) (v : Saved) : State :=
  let s1 := v.tiles.foldl
    (fun a e =>
      let x := siteOfKey e.site
      match a.instAt x with
      | none => a
      | some i =>
        let a1 := a.onTile x fun cur => cur.restoreOver (siteKind x) e.tile
        let a2 := if siteKind x = .p then a1.swapPins x [] e.tile.active.pins else a1
        if v.evicted then a2 else a2.startLoad x i i.nextSection) s
  { s1 with net := { s1.net with flow := s1.net.flow ++ v.flow, sched := s1.net.sched ++ v.sched, tokens := s1.net.tokens ++ v.tokens } }

/-- RESUME. -/
def State.resume (f : Started) (s : State) : State :=
  let t := f.tenant
  match (s.ctx t).saved with
  | none => s.fail f E_CONTEXT_STATE
  | some v =>
    if s.power.pstate ≠ .p0 then s.fail f E_POWER_BUSY
    else if s.savedBusy t v then s.fail f E_REGION_BUSY
    else
      let back := s.onCtx t fun c => { c with regions := v.regions, preempted := false, saved := none }
      let s1 := (s.instsOf t).foldl (fun a i => a.onInst i.id fun j =>
        { j with run := j.run.away (s.clk.fclk - v.savedCycle) (s.clk.gts.toNat - v.savedAt.toNat) }) back
      if s.savedBad v then
        let s2 := (s.instsOf t).foldl (fun a i =>
          if i.run.running then a.finishAbort i.id ⟨E_SAVE_CRC, s.clk.gts, stewardSrc⟩ else a.freshRegion i.id) s1
        s2.fail f E_SAVE_CRC
      else
        let s2 := s1.restoreTiles v
        let others := ((s2.ctx t).beacons.filter fun (e : Nat × Beacon) => (Map.look v.beacons e.1).isNone).map fun e => (e.1, ({} : Beacon))
        ((v.beacons ++ others).foldl (State.restoreBeacon t) s2).done f

/-- RESUME (R293). -/
def execResume (c : Serve) (s : State) : Res := .next (s.serve c 0x0A State.resume)

/-! ## REPLAY_START (R358) -/

/-- The records of a ring from a running byte count on: none where one cannot be read or runs past the end. -/
def State.ringRecords (t : Tenant) (va cap stop : Nat) : Nat → Nat → State → Option (List ReplayRec) × State
  | 0, _, s => (some [], s)
  | k + 1, b, s =>
    if stop ≤ b then (some [], s)
    else
      let at_ := va + 64 + b % cap
      match s.vaRead t 0 at_ 32 (stewardAccess scrivSrc) with
      | (none, s1) => (none, s1)
      | (some (h, _), s1) =>
        let n := rd h 4 4
        if cap < b % cap + 32 + n then (none, s1)
        else
          let got := if h.getD 0 0 = 0 then (some ([], false), s1) else s1.vaRead t 0 (at_ + 32) n (stewardAccess scrivSrc)
          match got with
          | (none, s2) => (none, s2)
          | (some (bs, _), s2) =>
            match State.ringRecords t va cap stop k (b + 32 + roundUp n 32) s2 with
            | (none, s3) => (none, s3)
            | (some rest, s3) =>
              if h.getD 0 0 = 0 then (some rest, s3)
              else
                (some ({ kind := h.getD 0 0, layout := h.getD 2 0, step := BitVec.ofNat 64 (rd h 16 8), src := BitVec.ofNat 16 (rd h 24 2),
                         seq := BitVec.ofNat 32 (rd h 28 4), gts := BitVec.ofNat 64 (rd h 8 8), payload := bs } :: rest), s3)

/-- The replay that a ring gives an instance from a step: the records of that step's layout from that step on; none where no STEP_BEGIN is
there or its LAYOUT_CRC differs. -/
def replayOf (i : Instance) (recs : List ReplayRec) (start : Nat) (cmd : Nat) : Option Replay :=
  match recs.find? fun r => r.kind = 1 && r.step.toNat = start with
  | none => none
  | some b =>
    if leNat (b.payload.take 4) ≠ i.crc.toNat then none
    else
      let own := recs.filter fun r => (r.layout = b.layout || r.layout = 0xFF) && start ≤ r.step.toNat
      some { layout := i.id, cmd := some cmd, recs := own.map fun r => { r with layout := i.id } }

/-- REPLAY_START. A pre-emption, a quarantine or P2 refuses none (Table HL-10, R320): its steps wait until they may start. -/
def State.replayStart (f : Started) (s : State) : State :=
  let t := f.tenant
  let c := s.ctx t
  let va := f.p 24 8
  let n := f.p 32 8
  let start := f.p 40 8
  if f.accepted then s
  else match s.ownInst t (f.p 20 1) with
    | none => s.fail f E_LAYOUT_ID
    | some i =>
      if n % 65536 ≠ 0 || n < 2 ^ 20 || 2 ^ 40 < n || 2 ^ 48 < va + n then s.fail f E_BAD_FIELD
      else if c.recorder.isSome || c.replay.isSome || s.links.twin.tenant = some t || i.binding.isSome || i.stepCmd.isSome || i.run.running then
        s.fail f E_RECORD_STATE
      else match s.vaRead t 0 va 64 (stewardAccess scrivSrc) with
        | (none, s1) => s1.fail f E_BAD_FIELD
        | (some (h, _), s1) =>
          let stop := rd h 16 8
          let first := rd h 24 8
          if rd h 0 4 ≠ 0x52435253 || rd h 4 2 ≠ 1 then s1.fail f E_RECORD_STATE
          else match State.ringRecords t va (n - 64) stop ((stop - first) / 32) first s1 with
            | (none, s2) => s2.fail f E_RECORD_STATE
            | (some recs, s2) => match replayOf i recs start f.id with
              | none => s2.fail f E_RECORD_STATE
              | some r =>
                let steps := (r.recs.filter fun x => x.kind = 1).length
                ((s2.accept f).onInst i.id fun i => { i with stepNo := start, composedFor := start, stepsLeft := some steps }).onCtx t fun c =>
                  { c with replay := some r }

/-- REPLAY_START (R358). -/
def execReplayStart (c : Serve) (s : State) : Res := .next (s.serve c 0x1C State.replayStart)

end Sys2Proof.Machine
end

