-- ==== Sys2Proof/Machine/Safe.lean ====
section
/-! DEFINITION. Starts and the safe state: cold and warm reset, the start assay (R39, R374, R375, R407), the safe state with its causes and
its end in P3 (R246, R387 to R391), thermal and supply events (R231, R232, R410, R412). -/

namespace Sys2Proof.Machine

open Sys2Proof

/-! ## The always-on fault record (R390) -/

/-- A safe-state cause enters the record: VALID with all that it holds, or MORE where it is valid already. -/
def AlwaysOn.record (a : AlwaysOn) (cause detail : Nat) (src : Src) (gts : DWord) : AlwaysOn :=
  if a.valid then { a with more := true }
  else { a with valid := true, cause := BitVec.ofNat 16 cause, detail := BitVec.ofNat 32 detail, source := src.setWidth 32, gts := gts,
                start := a.startCount }

/-- Whether a twin binding with REACTION SAFE exists (R367). -/
def State.safeBound (s : State) : Bool := s.links.twin.bound && s.links.twin.safeMode

/-- SAFE_ENTRY, for every cause but LOCKSTEP and HEARTBEAT while the host link is up and the log ring is enabled (Table IG-9). -/
def State.logSafeEntry (s : State) (cause detail : Nat) : State :=
  if cause ≠ 2 && cause ≠ 3 && s.host.linkUp.getLsbD 0 && s.host.log.enable then
    s.logEv stewardSrc SAFE_ENTRY noTenant (leBytes 2 cause ++ leBytes 4 detail)
  else s

/-- The safe state begins for a cause of Table IG-8; after t0, and in P3, a cause is only recorded (R388 to R390). -/
def State.enterSafe (s : State) (cause detail : Nat) (src : Src) : State :=
  if !s.power.pwrGood then s
  else
    let s1 := { s with ao := s.ao.record cause detail src s.clk.gts }
    if s.host.safePending || s.power.pstate = .p3 then s1
    else
      let p := { s1.power with descent := true, twinSyncOut := s.safeBound }
      ({ s1 with host := { s1.host with safePending := true }, power := p }).logSafeEntry cause detail

/-! ## What is left without the main domains -/

/-- The state of the package with the main domains off: what fuses, the always-on domain, the board and the host hold (R243, R388). -/
def State.mainLost (s : State) (p : PState) : State :=
  { pkg := s.pkg
    iq := { raised := s.iq.raised }
    host := { straps := s.host.straps, mem := s.host.mem }
    power := { pstate := p, pwrGood := s.power.pwrGood, bleeders := s.power.bleeders, limiterOpen := s.power.limiterOpen,
               faultN := s.power.faultN }
    ao := s.ao
    pins := { smb := s.pins.smb, jtag := s.pins.jtag }
    freeCount := s.freeCount
    pending := s.pending }

/-- Whether the descent has gated the clock tree and opened the switch of every field die (R246). -/
def State.descended (s : State) : Bool := (List.range 16).all fun d => (s.die d).steps = 0 && (s.die d).stages = 0

/-- DESCENT_END: the field dies are off, and with them every die; the host link is down, FAULT_N is driven low: P3 (R246, R388). -/
def State.descentEnd (s : State) : State :=
  if s.power.descent && s.descended then
    let s1 := s.mainLost .p3
    { s1 with power := { s1.power with faultN := true } }
  else s

/-- DESCENT_END (R388). -/
def execDescentEnd (s : State) : Res := .next s.descentEnd

/-- PWR_GOOD_DEASSERT: the bleeders switch on and the main domains lose power; FAULT_N stays low after P3 (R231, R410). -/
def State.pwrGoodDeassert (s : State) : State :=
  if s.power.pwrGood then
    let s1 := s.mainLost .off
    { s1 with power := { s1.power with pwrGood := false, bleeders := true } }
  else s

/-- PWR_GOOD_DEASSERT (R231). -/
def execPwrGoodDeassert (s : State) : Res := .next s.pwrGoodDeassert

/-! ## Starts (R39, R407) -/

/-- Every die of the package, ON with its whole clock tree. -/
def diesOn (v : Variant) : Map DiePower :=
  ((List.range 40).filter fun d => (dieKind v d).isSome).map fun d => (d, { state := .on, steps := 8, stages := 2 })

/-- The feeders of a package, all live (R52, R414). -/
def feedersLive (v : Variant) : Map Feeder := ((List.range 40).filter fun d => hasFeeder v d).map fun d => (d, { live := true })

/-- What a start leaves, before its clocks are set: all that a start resets is reset, START_COUNT has gone up (R39). -/
def State.started (s : State) : State :=
  let s1 := s.mainLost .p0
  { s1 with
    merger := { feeders := feedersLive s.pkg.variant }
    power := { s1.power with pwrGood := true, bleeders := false, faultN := false, dies := diesOn s.pkg.variant }
    ao := { s.ao with startCount := s.ao.startCount + 1, confirmed := false } }

/-- COLD_RESET: PWR_GOOD is asserted, the straps are sampled, every clock and the GTS begin at zero (R394, R407; log entry 33). -/
def State.coldReset (s : State) (straps : Straps) : State :=
  let s1 := s.started
  { s1 with clk := { running := true }, host := { s1.host with straps := straps } }

/-- COLD_RESET (R407). -/
def execColdReset (straps : Straps) (s : State) : Res := .next (s.coldReset straps)

/-- WARM_RESET: PERST_N was asserted for 100 µs in P0, P1 or P2.  TCLK, the GTS and the always-on domain go on; HBM holds unpredictable
bytes (R407). -/
def State.warmReset (s : State) (held : Bool) : State :=
  if held && s.power.pwrGood && s.clk.running && !s.host.safePending then
    let s1 := s.started
    { s1 with
      clk := { running := true, gts := s.clk.gts, gtsAcc := s.clk.gtsAcc }
      time := { slips := s.time.slips, ppsOutEdges := s.time.ppsOutEdges, lastPpsOut := s.time.lastPpsOut }
      mem := { epoch := some s.freeCount }
      freeCount := s.freeCount + 1 }
  else s

/-- WARM_RESET (R407). -/
def execWarmReset (held : Bool) (s : State) : Res := .next (s.warmReset held)

/-- The start-assay controller. -/
def assaySrc : Src := 0x6004

/-- What the steward clears after the last step of the start assay: every tile with its registers and banks, and every counter (R374). -/
def State.assayClears (s : State) : State :=
  { s with
    tiles := []
    net := { s.net with slotMiss := [], downRsps := [] }
    power := { s.power with ballast := [], hold := [] }
    log := { s.log with lost := 0 }
    iq := { s.iq with lost := 0 }
    pins := { s.pins with gpio := s.pins.gpio.map fun e => (e.1, { e.2 with edges := 0 }) } }

/-- START_ASSAY: on a pass what it injected is cleared and the package is READY; otherwise it goes to the safe state with cause ASSAY (R374, R375, R405). It begins only once
the new START_COUNT reads back (R39). -/
def State.startAssay (s0 : State) (r : AssayResult) : State :=
  if !s0.alive || s0.host.ready || s0.host.safePending || !s0.host.straps.testModeN then s0
  else
    let s := { s0 with ao := { s0.ao with confirmed := true } }
    match r with
    | .pass us =>
      { s.assayClears with host := { s.host with ready := true } }.logEv assaySrc ASSAY_PASS noTenant (leBytes 4 us.toNat ++ leBytes 2 0x1FF)
    | .clockFail => s.enterSafe 1 0x200 assaySrc
    | .fail c src =>
      (s.logEv assaySrc ASSAY_FAIL noTenant (leBytes 2 1 ++ leBytes 4 (2 ^ c.val))).enterSafe 1 (2 ^ c.val) src

/-- START_ASSAY (R374). -/
def execStartAssay (r : AssayResult) (s : State) : Res := .next (s.startAssay r)

/-! ## Causes from outside the commands -/

/-- THERMTRIP_N (R412). -/
def execThermtripN (s : State) : Res := .next (s.enterSafe 5 0 assaySrc)

/-- HEARTBEAT: the watchdog saw no heartbeat for 25,000 AOCLK cycles (R372). -/
def execHeartbeat (s : State) : Res := .next (if s.alive then s.enterSafe 3 0 stewardSrc else s)

/-- LOCKSTEP: the comparator on SD1 finds a difference (R373, R49). -/
def execLockstep (s : State) : Res := .next (if s.alive then s.enterSafe 2 0 0x6407 else s)

/-- The twin port's source number. -/
def twinSrc : Src := 0x4C50

/-- TWIN_SYNC: a package with a SAFE binding that senses it enters the safe state; otherwise it has no effect (R367). -/
def execTwinSync (s : State) : Res := .next (if s.alive && s.safeBound then s.enterSafe 6 0 twinSrc else s)

/-! ## Thermal sensors (R412, Table PN-9) -/

/-- Warning limit of a die in 1/16 °C; the trip lies 10 °C above. -/
def warnLimit (v : Variant) (d : Nat) : Int := match dieKind v d with | some .hbm => 1520 | _ => 1600

/-- The source number that a thermal trip names: the steward's for its own two dies, since die index 25 is the lockstep comparator's alone
(R49; log entry 32). -/
def thermalSrc (d : Nat) : Src := if d < 16 then srcOf d 549 else if d = 25 then stewardSrc else srcOf d 0

/-- Whether every die that reports has fallen 5 °C below its warning limit. -/
def State.allCool (s : State) : Bool := s.power.temps.all fun (e : Nat × Int) => e.2 ≤ warnLimit s.pkg.variant e.1 - 80

/-- THERMAL_REPORT: a crossing of the warning limit is logged once, its end when all dies are cool again, a trip starts the safe state. -/
def State.thermalReport (s : State) (d : Nat) (t : Int) : State :=
  if !s.alive || (dieKind s.pkg.variant d).isNone || (s.die d).state = .off then s
  else
    let s1 := { s with power := { s.power with temps := Map.put s.power.temps d t } }
    let w := warnLimit s.pkg.variant d
    let s2 :=
      if w ≤ t && !s1.power.warned.getLsbD d then
        { s1 with power := { s1.power with warned := s1.power.warned ||| (1 <<< d) } }.logEv stewardSrc THERMAL_WARN noTenant
          [BitVec.ofNat 8 d, BitVec.ofInt 8 (t / 16)]
      else if s1.power.warned ≠ 0 && s1.allCool then
        { s1 with power := { s1.power with warned := 0 } }.logEv stewardSrc THERMAL_CLEAR noTenant []
      else s1
    if w + 160 ≤ t then s2.enterSafe 5 0 (thermalSrc d) else s2

/-- THERMAL_REPORT (R412). -/
def execThermalReport (d : Die) (t : Int) (s : State) : Res := .next (s.thermalReport d.val t)

/-! ## Supplies (R39, R232, R390, R410) -/

/-- SIDEBAND_LIMIT: the limiter opens; the sideband outputs no longer drive, and a running steward logs it. -/
def State.sidebandLimit (s : State) : State :=
  if s.power.limiterOpen then s
  else
    let s1 := { s with power := { s.power with limiterOpen := true } }
    if s.alive then s1.logEv stewardSrc SIDEBAND_LIMIT noTenant [] else s1

/-- SIDEBAND_LIMIT (R410). -/
def execSidebandLimit (s : State) : Res := .next s.sidebandLimit

/-- VDD_1V8_REMOVAL: the limiter closes again (R232). -/
def execVdd1v8Removal (s : State) : Res := .next { s with power := { s.power with limiterOpen := false } }

/-- VDD_AO_POWER_ON: the fault record is reset, and START_COUNT is read back: the value last written, or the one before where the write was
cut short, which can have happened only where that value has not read back since it was written (R39, R390). -/
def State.vddAoPowerOn (s : State) (stored : Word) : State :=
  if s.power.pwrGood then s
  else
    let n := if !s.ao.confirmed && stored + 1 = s.ao.startCount then stored else s.ao.startCount
    { s with ao := { startCount := n, confirmed := true } }

/-- VDD_AO_POWER_ON (R39, R390). -/
def execVddAoPowerOn (stored : Word) (s : State) : Res := .next (s.vddAoPowerOn stored)

end Sys2Proof.Machine
end

