-- ==== Sys2Proof/Machine/Frames.lean ====
section
/-! DEFINITION. Frames of the media dies: the formats of Table MD-5 (R264 to R266), the scaler (R267 to R269), PCM blocks (Table MD-7). -/

namespace Sys2Proof.Machine

open Sys2Proof

/-! ## Formats (Table MD-5) -/

/-- Half of a size, rounded up: the size of a chroma plane. -/
def halfUp (n : Nat) : Nat := (n + 1) / 2

/-- Whether a format holds 10-bit samples. -/
def formatDeep (f : Nat) : Bool := f % 2 = 1

/-- Bytes of a stored sample. -/
def sampleBytes (f : Nat) : Nat := if formatDeep f then 2 else 1

/-- Pitch of a raster format. -/
def framePitch (f w : Nat) : Nat := roundUp (sampleBytes f * w) 64

/-- Bytes of a grid tile. -/
def gridTile (f : Nat) : Nat := if formatDeep f then 12288 else 6144

/-- Bytes that a frame needs. -/
def frameNeed (f w h : Nat) : Nat :=
  if f < 2 then framePitch f w * (roundUp h 16 + halfUp h) else gridTile f * ((w + 63) / 64) * ((h + 63) / 64)

/-- A sample of one depth at another (R266). -/
def convertDepth (src dst : Bool) (x : Nat) : Nat :=
  if src = dst then x else if src then min 255 ((x + 2) / 4) else x * 4

/-- A stored sample. -/
def storeSample (f x : Nat) : List Byte := if formatDeep f then leBytes 2 (x * 64) else leBytes 1 x

/-- A sample of a plane of a width. -/
def planeAt (p : List Nat) (w x y : Nat) : Nat := p.getD (y * w + x) 0

/-- The pieces that a frame writes: an offset and its bytes each. Bytes between them keep their values (R264). -/
def framePieces (f : Nat) (v : VideoFrame) : List (Nat × List Byte) :=
  let w := v.width
  let h := v.height
  let cw := halfUp w
  let ch := halfUp h
  let put := fun (p : List Nat) (pw x y : Nat) => storeSample f (convertDepth v.deep (formatDeep f) (planeAt p pw x y))
  if f < 2 then
    let pitch := framePitch f w
    ((List.range h).map fun y => (y * pitch, (List.range w).flatMap fun x => put v.luma w x y)) ++
      (List.range ch).map fun y =>
        (pitch * roundUp h 16 + y * pitch, (List.range cw).flatMap fun x => put v.cb cw x y ++ put v.cr cw x y)
  else
    let across := (w + 63) / 64
    let e := sampleBytes f
    (List.range (across * ((h + 63) / 64))).flatMap fun k =>
      let tx := k % across
      let ty := k / across
      ((List.range 64).map fun r =>
        (k * gridTile f + r * 64 * e,
          (List.range 64).flatMap fun c => put v.luma w (min (tx * 64 + c) (w - 1)) (min (ty * 64 + r) (h - 1)))) ++
        (List.range 32).map fun r =>
          (k * gridTile f + 64 * 64 * e + r * 64 * e,
            (List.range 32).flatMap fun c =>
              let x := min (tx * 32 + c) (cw - 1)
              let y := min (ty * 32 + r) (ch - 1)
              put v.cb cw x y ++ put v.cr cw x y)

/-- A stored sample as it is read. -/
def loadSample (f : Nat) (bs : List Byte) (off : Nat) : Nat :=
  if formatDeep f then leNat ((bs.drop off).take 2) / 64 else leNat ((bs.drop off).take 1)

/-- A source frame from its bytes. -/
def frameOf (f w h : Nat) (bs : List Byte) : VideoFrame :=
  let cw := halfUp w
  let ch := halfUp h
  let e := sampleBytes f
  let lumaOff := fun (x y : Nat) =>
    if f < 2 then y * framePitch f w + x * e
    else (y / 64 * ((w + 63) / 64) + x / 64) * gridTile f + y % 64 * 64 * e + x % 64 * e
  let chromaOff := fun (x y : Nat) =>
    if f < 2 then framePitch f w * roundUp h 16 + y * framePitch f w + 2 * x * e
    else (y / 32 * ((w + 63) / 64) + x / 32) * gridTile f + 64 * 64 * e + y % 32 * 64 * e + 2 * (x % 32) * e
  { width := w, height := h, deep := formatDeep f
    luma := (List.range (w * h)).map fun i => loadSample f bs (lumaOff (i % w) (i / w))
    cb := (List.range (cw * ch)).map fun i => loadSample f bs (chromaOff (i % cw) (i / cw))
    cr := (List.range (cw * ch)).map fun i => loadSample f bs (chromaOff (i % cw) (i / cw) + e) }

/-! ## Video standards (R255 to R257, Table MD-2) -/

/-- A plane cut to a window. -/
def cutPlane (p : List Nat) (w x y cw ch : Nat) : List Nat := (List.range (cw * ch)).map fun i => planeAt p w (x + i % cw) (y + i / cw)

/-- The output of a decoded frame: its window, with the mid value as the chroma of 4:0:0 content (R255, R256). -/
def shownFrame (d : DecodedFrame) : VideoFrame :=
  let f := d.full
  let cw := halfUp d.cropW
  let ch := halfUp d.cropH
  let chroma := fun (p : List Nat) =>
    if d.mono then List.replicate (cw * ch) (if f.deep then 512 else 128)
    else cutPlane p (halfUp f.width) (d.cropX / 2) (d.cropY / 2) cw ch
  { f with width := d.cropW, height := d.cropH, luma := cutPlane f.luma f.width d.cropX d.cropY d.cropW d.cropH
           cb := chroma f.cb, cr := chroma f.cr }

/-- A frame takes its place among those that await display. -/
def insertFrame (f : VideoFrame) : List VideoFrame → List VideoFrame
  | [] => [f]
  | g :: gs => if f.order < g.order then f :: g :: gs else g :: insertFrame f gs

/-- The highest level of a codec, times 10 (Table MD-2). -/
def highestLevel (codec : Nat) : Nat := if codec = 1 then 52 else 51

/-- Whether a frame size lies in the range of every codec. -/
def frameSizeOk (w h : Nat) : Bool := 16 ≤ w && w ≤ 4096 && 16 ≤ h && h ≤ 2304

/-- Whether a decoded bitstream lies within Table MD-2: profile, tier, depth, level, chroma and frame sizes. -/
def streamInTable (codec : Nat) (r : DecodeResult) : Bool :=
  (match codec, r.profile with
    | 1, .high => r.bits = 8
    | 1, .high10 => r.bits = 8 || r.bits = 10
    | 2, .main => !r.highTier && r.bits = 8
    | 2, .main10 => !r.highTier && (r.bits = 8 || r.bits = 10)
    | 3, .vp9Profile0 => r.bits = 8
    | 3, .vp9Profile2 => r.bits = 10
    | 4, .av1Main => r.bits = 8 || r.bits = 10
    | _, _ => false) &&
    r.level ≤ highestLevel codec &&
    r.frames.all fun d =>
      d.full.deep == (r.bits == 10) && (!d.mono || (codec = 1 && r.profile = .high)) && frameSizeOk d.cropW d.cropH

/-- Bytes of a LEB128 number of less than 35 bits. -/
def leb128 : Nat → Nat → List Byte
  | 0, _ => []
  | k + 1, n => if n < 128 then [BitVec.ofNat 8 n] else BitVec.ofNat 8 (n % 128 + 128) :: leb128 k (n / 128)

/-- A NAL unit in an Annex B byte stream, or an OBU in the low-overhead format, whose header has its size flag set (R257, log entry 8). -/
def nalBytes (codec : Nat) (u : CodedNal) : List Byte :=
  if codec = 4 then
    (match u.header with
      | h :: rest => (h ||| 2) :: rest
      | [] => []) ++ leb128 5 u.payload.length ++ u.payload
  else (if u.zeroByte then [0] else []) ++ [0, 0, 1] ++ u.header ++ u.payload

/-- The source frames to code now, of those that await coding, in decode order: a forced key frame follows every frame before it (Corners). -/
def codeOrder (forced : Nat → Bool) (uncoded plan : List Nat) : List Nat :=
  plan.foldl
    (fun a q =>
      if a.contains q || !uncoded.contains q then a
      else if forced q then a ++ (uncoded.filter fun e => e < q && !a.contains e) ++ [q]
      else a ++ [q])
    []

/-! ## Scaler profiles (Table MD-6) -/

/-- A field of a profile. -/
def prof (p : BitVec 1024) (off n : Nat) : Nat := byteField p off n

/-- Tensor mode. -/
def profTensor (p : BitVec 1024) : Bool := prof p 0 1 = 0

/-- Bytes of a tensor element. -/
def profElem (p : BitVec 1024) : Nat := if prof p 3 1 = 0 then 2 else 1

/-- Pitch of a tensor plane or image (R269). -/
def profPitch (p : BitVec 1024) : Nat :=
  roundUp (prof p 20 2 * profElem p * (if prof p 4 1 = 0 then 1 else prof p 2 1)) 64

/-- Bytes that an output of a profile needs (R264, R269). -/
def profNeed (p : BitVec 1024) : Nat :=
  if profTensor p then prof p 22 2 * profPitch p * (if prof p 4 1 = 0 then prof p 2 1 else 1)
  else frameNeed (prof p 0 1 - 1) (prof p 16 2) (prof p 18 2)

/-- The crop of a profile: x, y, width, height. -/
structure Crop where
  x : Nat
  y : Nat
  w : Nat
  h : Nat
deriving DecidableEq, Repr

/-- The crop as a profile names it, and clamped to a frame (Corners of chapter 11). -/
def profCrop (p : BitVec 1024) : Crop := ⟨prof p 8 2, prof p 10 2, prof p 12 2, prof p 14 2⟩
def Crop.clampTo (c : Crop) (w h : Nat) : Crop :=
  let x := min c.x w
  let y := min c.y h
  ⟨x, y, min c.w (w - x), min c.h (h - y)⟩

/-- Whether a profile keeps the ranges of Table MD-6 and the constraints of R267 for a source frame; `tap` says that it has slots. -/
def profOk (p : BitVec 1024) (w h : Nat) (tap : Bool) : Bool :=
  let c := profCrop p
  prof p 0 1 ≤ 2 && prof p 1 1 ≤ 1 && (!profTensor p || (prof p 2 1 = 1 || prof p 2 1 = 3)) && prof p 3 1 ≤ 1 && prof p 4 1 ≤ 1 &&
    (!tap || (1 ≤ prof p 5 1 && prof p 5 1 ≤ 64)) && prof p 6 2 < 4096 && prof p 30 2 = 0 && prof p 44 4 = 0 && prof p 120 8 = 0 &&
    c.x % 2 = 0 && c.w % 2 = 0 && c.x + c.w ≤ w && c.y + c.h ≤ h &&
    prof p 24 2 + prof p 16 2 ≤ prof p 20 2 && prof p 26 2 + prof p 18 2 ≤ prof p 22 2 && profNeed p ≤ prof p 40 4

/-! ## The scaler (R268) -/

/-- An integer between two bounds. -/
def clampInt (x lo hi : Int) : Int := max lo (min x hi)

/-- take() of R268 on a plane of a size: 65,536 times a sample. -/
def takeSample (nearest : Bool) (p : List Nat) (w h : Nat) (fx fy : Int) : Nat :=
  let at_ := fun (x y : Int) => planeAt p w (min x.toNat (w - 1)) (min y.toNat (h - 1))
  if nearest then at_ ((fx + 32768) / 65536) ((fy + 32768) / 65536) * 65536
  else
    let i := fx / 65536
    let j := fy / 65536
    let f := (fx / 256 % 256).toNat
    let g := (fy / 256 % 256).toNat
    let h0 := at_ i j * (256 - f) + at_ (i + 1) j * f
    let h1 := at_ i (j + 1) * (256 - f) + at_ (i + 1) (j + 1) * f
    h0 * (256 - g) + h1 * g

/-- The source position of an output pixel: sx, sy, cx, cy in 16.16. -/
def scalePos (c : Crop) (outW outH x y : Nat) : Int × Int × Int × Int :=
  let stx := c.w * 65536 / outW
  let sty := c.h * 65536 / outH
  let sx := clampInt ((c.x * 65536 + x * stx + stx / 2 : Nat) - 32768) (c.x * 65536 : Nat) (((c.x + c.w : Nat) : Int) * 65536 - 65536)
  let sy := clampInt ((c.y * 65536 + y * sty + sty / 2 : Nat) - 32768) (c.y * 65536 : Nat) (((c.y + c.h : Nat) : Int) * 65536 - 65536)
  let cx := clampInt ((sx - 32768) / 2) (c.x / 2 * 65536 : Nat) ((((c.x + c.w) / 2 : Nat) : Int) * 65536 - 65536)
  let cy := clampInt ((sy - 32768) / 2) (c.y / 2 * 65536 : Nat) ((((c.y + c.h + 1) / 2 : Nat) : Int) * 65536 - 65536)
  (sx, sy, cx, cy)

/-- Y, Cb and Cr of an output pixel, 65,536 times a sample each. -/
def scalePixel (p : BitVec 1024) (v : VideoFrame) (c : Crop) (x y : Nat) : Nat × Nat × Nat :=
  let q := scalePos c (prof p 16 2) (prof p 18 2) x y
  let nearest := prof p 1 1 = 0
  let cw := halfUp v.width
  let ch := halfUp v.height
  (takeSample nearest v.luma v.width v.height q.1 q.2.1,
   takeSample nearest v.cb cw ch q.2.2.1 q.2.2.2, takeSample nearest v.cr cw ch q.2.2.1 q.2.2.2)

/-- FP32 operations, each rounded to nearest even. -/
def mulF32 (a b : Word) : Word := roundF32 ((ofF32 a).mul (ofF32 b))
def subF32 (a b : Word) : Word := roundF32 ((ofF32 a).add (ofF32 b).neg)

/-- An integer as FP32. -/
def natF32 (n : Nat) : Word := roundF32 (.fin false n 0)

/-- An FP32 word of a profile. -/
def profF32 (p : BitVec 1024) (off : Nat) : Word := BitVec.ofNat 32 (prof p off 4)

/-- A tensor element of channel `c` from the three samples, in TYPE. -/
def tensorElem (p : BitVec 1024) (q : Nat × Nat × Nat) (c : Nat) : Nat :=
  let d := fun (s i : Nat) => subF32 (mulF32 (natF32 s) 0x37800000) (profF32 p (84 + 4 * i))
  let m := fun i => profF32 p (48 + 12 * c + 4 * i)
  let t0 := mulF32 (m 0) (d q.1 0)
  let t1 := addF32 t0 (mulF32 (m 1) (d q.2.1 1))
  let t2 := addF32 t1 (mulF32 (m 2) (d q.2.2 2))
  let out := mulF32 (subF32 t2 (profF32 p (96 + 4 * c))) (profF32 p (108 + 4 * c))
  if prof p 3 1 = 0 then (roundBf16 (ofF32 out)).toNat
  else match fmtOf 3 with
    | some f => f.round .rne true (ofF32 out)
    | none => 0

/-- One row of a tensor plane or image, with PAD outside the placed area, padded with zeros to the pitch. -/
def tensorRow (p : BitVec 1024) (v : VideoFrame) (crop : Crop) (cs : List Nat) (y : Nat) : List Byte :=
  let e := profElem p
  let ox := prof p 24 2
  let oy := prof p 26 2
  padTo (profPitch p) ((List.range (prof p 20 2)).flatMap fun x =>
    if ox ≤ x && x < ox + prof p 16 2 && oy ≤ y && y < oy + prof p 18 2 then
      let q := scalePixel p v crop (x - ox) (y - oy)
      cs.flatMap fun c => leBytes e (tensorElem p q c)
    else cs.flatMap fun _ => leBytes e (prof p 28 2))

/-- The frame that a profile in frame mode gives; a chroma sample takes the position of its even pixel (log entry 38). -/
def scaledFrame (p : BitVec 1024) (v : VideoFrame) (crop : Crop) : VideoFrame :=
  let w := prof p 16 2
  let h := prof p 18 2
  let cw := halfUp w
  let ch := halfUp h
  let px := fun (x y : Nat) => scalePixel p v crop x y
  let rounded := fun (s : Nat) => (s + 32768) / 65536
  { width := w, height := h, deep := v.deep
    luma := (List.range (w * h)).map fun i => rounded (px (i % w) (i / w)).1
    cb := (List.range (cw * ch)).map fun i => rounded (px (2 * (i % cw)) (2 * (i / cw))).2.1
    cr := (List.range (cw * ch)).map fun i => rounded (px (2 * (i % cw)) (2 * (i / cw))).2.2 }

/-- The pieces that a scaled output writes (R268, R269). -/
def scalePieces (p : BitVec 1024) (v : VideoFrame) : List (Nat × List Byte) :=
  let crop := (profCrop p).clampTo v.width v.height
  if profTensor p then
    let n := prof p 2 1
    let ch := prof p 22 2
    let pitch := profPitch p
    if prof p 4 1 = 0 then
      (List.range (n * ch)).map fun k => (k * pitch, tensorRow p v crop [k / ch] (k % ch))
    else (List.range ch).map fun y => (y * pitch, tensorRow p v crop (List.range n) y)
  else framePieces (prof p 0 1 - 1) (scaledFrame p v crop)

/-- W and H that a record tells of a scaled output. -/
def scaledSize (p : BitVec 1024) : Nat :=
  if profTensor p then prof p 20 2 + 65536 * prof p 22 2 else prof p 16 2 + 65536 * prof p 18 2

/-! ## PCM (Table MD-7) -/

/-- An FP32 word divided by a small count, to nearest even. -/
def divF32 (a : Word) (n : Nat) : Word :=
  match ofF32 a with
  | .fin neg m e =>
    let q := m * 2 ^ 64 / n
    let sticky := if m * 2 ^ 64 % n = 0 then 0 else 1
    roundF32 (.fin neg (2 * q + sticky) (e - 65))
  | x => roundF32 x

/-- A block of an audio decoder in a PCM format. -/
def pcmBytes (format : Nat) (r : AudioResult) : List Byte :=
  match format with
  | 0 => r.s16.flatMap fun x => leBytes 2 x.toNat
  | 1 => r.f32.flatMap fun x => leBytes 4 x.toNat
  | _ =>
    let n := max 1 r.channels
    (List.range (r.f32.length / n)).flatMap fun i =>
      let xs := (r.f32.drop (i * n)).take n
      let sum := match xs with
        | [] => (0 : Word)
        | x :: rest => rest.foldl addF32 x
      leBytes 4 (divF32 sum n).toNat

/-- Sample frames of a block. -/
def sampleFrames (r : AudioResult) : Nat := r.f32.length / max 1 r.channels

/-- Whether a decoded block lies within R270: up to 8 channels, and the rates, families and block sizes of its codec. -/
def audioInRange (codec : Nat) (r : AudioResult) : Bool :=
  r.channels ≤ 8 &&
    (if codec = 8 then 8000 ≤ r.rate && r.rate ≤ 96000 && sampleFrames r ≤ 1024
    else r.rate = 48000 && r.family ≤ 1 && sampleFrames r ≤ 5760)

/-- Bytes of the largest block of a codec in a format: 1,024 sample frames for AAC-LC, 5,760 for Opus, with up to 8 channels (R270;
log entry 37). -/
def pcmNeed (codec format : Nat) : Nat :=
  (if codec = 8 then 1024 else 5760) * (match format with | 0 => 16 | 1 => 32 | _ => 4)

end Sys2Proof.Machine
end

