-- ==== Sys2Proof/Machine/Media.lean ====
section
/-! DEFINITION. Media sessions and jobs (R252 to R263, R270 to R272, R319): opening and closing, the dispatcher's jobs, due outputs, taps and
completion records. -/

namespace Sys2Proof.Machine

open Sys2Proof

/-! ## The parameter block (Table MD-3) -/

/-- A field of a session's block. -/
def Session.f (n : Session) (off size : Nat) : Nat := byteField n.params off size

def Session.codec (n : Session) : Nat := n.f 1 1
def Session.format (n : Session) : Nat := n.f 2 1
def Session.taps (n : Session) : Nat := n.f 3 1
def Session.entries (n : Session) : Nat := n.f 12 4
def Session.maxW (n : Session) : Nat := n.f 44 2
def Session.maxH (n : Session) : Nat := n.f 46 2

/-- JOB_BEACON, DONE_BEACON and FREE_BEACON. -/
def Session.jobBeacon (n : Session) : BitVec 12 := BitVec.ofNat 12 (n.f 4 2)
def Session.doneBeacon (n : Session) : BitVec 12 := BitVec.ofNat 12 (n.f 6 2)
def Session.freeBeacon (n : Session) : BitVec 12 := BitVec.ofNat 12 (n.f 8 2)

/-- Bytes that an output slot needs (R264, Table MD-7). -/
def Session.slotNeed (n : Session) : Nat := if n.kind = 1 then frameNeed n.format n.maxW n.maxH else pcmNeed n.codec n.format

/-- The depth that an encoder works at: H.264 has 8 bits, the others that of FORMAT. -/
def Session.encodeDeep (n : Session) : Bool := n.codec ≠ 1 && formatDeep n.format

/-- Whether a video session has 10 bits: an encoder its own depth, a decoder that of its FORMAT (R260, log entry 35). -/
def Session.codecDeep (n : Session) : Bool := if n.kind = 2 then n.encodeDeep else formatDeep n.format

/-- The work area that a session needs (R260). -/
def Session.workNeed (n : Session) : Nat :=
  if n.kind ≤ 2 then
    let w := roundUp n.maxW 64
    let h := roundUp n.maxH 64
    let f := if n.codecDeep then w * h * 3 else w * h * 3 / 2
    ((if n.codec ≤ 2 then 16 else 8) + 2) * (f + 65536) + 4194304
  else 1048576

/-- Whether bytes of the block are zero. -/
def Session.zero (n : Session) (off size : Nat) : Bool := n.f off size = 0

/-- Whether every field is in its range and the fields that the KIND does not use are zero. -/
def Session.fieldsOk (n : Session) : Bool :=
  let k := n.kind
  let out := k = 1 || k = 3
  1 ≤ k && k ≤ 4 &&
    (match k with
      | 1 => 1 ≤ n.codec && n.codec ≤ 4
      | 2 => 1 ≤ n.codec && n.codec ≤ 4
      | 3 => n.codec = 8 || n.codec = 9
      | _ => n.codec = 0) &&
    n.format ≤ (if k = 3 then 2 else 3) && n.taps ≤ (if k = 1 then 2 else 0) &&
    n.f 4 2 < 4096 && n.f 6 2 < 4096 && n.f 8 2 < (if out then 4096 else 1) &&
    (if out then 1 ≤ n.f 10 2 && n.f 10 2 ≤ 64 else n.zero 10 2) &&
    16 ≤ n.entries && n.entries ≤ 4096 && isPow2 n.entries && n.f 16 8 < 2 ^ 48 && n.f 24 8 < 2 ^ 48 && n.f 32 8 < 2 ^ 48 && n.f 48 8 < 2 ^ 48 &&
    (if out then n.f 40 4 % 64 = 0 && n.slotNeed ≤ n.f 40 4 else n.zero 32 12) &&
    (if k = 3 then n.zero 44 4 else n.maxW % 2 = 0 && n.maxH % 2 = 0 && n.maxW ≠ 0 && n.maxH ≠ 0) &&
    n.zero 68 4 && (1 ≤ n.taps || n.zero 72 8) && (2 ≤ n.taps || n.zero 80 8) &&
    (if k = 2 then
      n.f 88 1 ≤ 2 && (n.f 88 1 ≠ 0 || n.f 89 1 ≤ (if n.codec = 4 then 255 else 51)) && n.f 90 1 ≤ 3 && 1 ≤ n.f 92 2 && n.f 92 2 ≤ 1023
    else n.zero 88 3 && n.zero 92 2 && n.zero 96 16) &&
    n.zero 91 1 && n.zero 94 2 && n.zero 112 16

/-- The level that an encoder signals: the lowest whose limits cover MAX_W, MAX_H, FPS_NUM/FPS_DEN and RATE_KBPS in CBR mode, PEAK_KBPS in the
others (R257). -/
def Session.level (n : Session) : Nat :=
  Config.levelNeed n.codec n.maxW n.maxH (n.f 104 4) (n.f 108 4) (if n.f 88 1 = 1 then n.f 96 4 else n.f 100 4)

/-- Whether a session stays within Table MD-2 and the frame sizes of R255. -/
def Session.supported (n : Session) : Bool :=
  (n.kind ≠ 2 || (n.codec ≠ 3 && n.level ≤ highestLevel n.codec)) && (n.kind = 3 || frameSizeOk n.maxW n.maxH)

/-! ## Handles and waits -/

/-- The handle of a session (R319). -/
def sessHandle (x : SessRef) (n : Session) : Nat := (20 + x.md.val) * 2 ^ 24 + n.gen.toNat * 2 ^ 16 + x.idx.val

/-- The open session of a context that a handle names (R319). -/
def State.sessOf (s : State) (t : Tenant) (h : Nat) : Option SessRef :=
  let d := h / 2 ^ 24 % 256
  if 20 ≤ d ∧ d ≤ 23 ∧ h / 2 ^ 9 % 2 ^ 7 = 0 then
    let x : SessRef := { md := Fin.ofNat 4 (d - 20), idx := Fin.ofNat 512 (h % 512) }
    let n := s.sess x
    if n.isOpen && n.gen.toNat = h / 2 ^ 16 % 256 && n.tenant = t then some x else none
  else none

/-- The sessions of a die, by index. -/
def State.dieSessions (s : State) (md : Nat) : List (SessRef × Session) :=
  s.media.sessions.filterMap fun (e : Nat × Session) =>
    if e.1 / 512 = md && e.2.isOpen then some ({ md := Fin.ofNat 4 md, idx := Fin.ofNat 512 (e.1 % 512) }, e.2) else none

/-- Whether a waiter is one of a session's. -/
def Waiter.ofSess (x : SessRef) : Waiter → Bool
  | .job y => x = y
  | .slot y => x = y
  | .tap y => x = y
  | _ => false

/-- A unit's waits go, from the store, from the image of a pre-empted context and from the way. -/
def State.dropWaits (s : State) (t : Tenant) (p : Waiter → Bool) : State :=
  let n := { s.net with ops := s.net.ops.filter fun o => !(o.tenant = t && (match o.wait with | some w => p w | none => false)) }
  { s with net := n }.onCtx t fun c =>
    { c with beacons := dropWaiters p c.beacons, saved := c.saved.map fun (v : Saved) => { v with beacons := dropWaiters p v.beacons } }

/-- The dispatcher waits for the session's next job (R259). -/
def State.awaitJob (s : State) (x : SessRef) : State :=
  let n := s.sess x
  (s.onSess x fun n => { n with jobGranted := false }).sendWait n.tenant n.jobBeacon 1 (s.sessSrc x) (.job x)

/-- Spine half of a media die. -/
def State.mdHalf (s : State) (x : SessRef) : Fin 2 := halfOf s.pkg.variant (20 + x.md.val)

/-- Accesses of a session's engine (AGENT 4). -/
def State.sessAccess (s : State) (x : SessRef) : FaultInfo := stewardAccess (s.sessSrc x)

/-! ## Closing (R272) -/

/-- A session ends: its waits go, its index is free under the next generation, and the command that closes it completes. -/
def State.endSession (s : State) (x : SessRef) : State :=
  let n := s.sess x
  let s1 := (s.dropWaits n.tenant (Waiter.ofSess x)).onSess x fun n => { gen := n.gen + 1 }
  match n.closingCmd with
  | some id => s1.finishId id OK 0
  | none => s1

/-! ## Completion records (R263, Table MD-8) -/

/-- What a record tells. -/
structure MediaRec where
  status : Status := 0
  op : Byte
  output : Bool := false
  key : Bool := false
  jobEnd : Bool
  tag : Word
  pts : DWord := 0
  slot : BitVec 16 := 0xFFFF
  size : Word := 0
  va : DWord := 0
deriving DecidableEq, Repr

/-- The bytes of a record. -/
def MediaRec.bytes (r : MediaRec) (gts : DWord) (src : Src) : List Byte :=
  leBytes 2 r.status.toNat ++ [r.op, (if r.output then 1 else 0) ||| (if r.key then 2 else 0) ||| (if r.jobEnd then 4 else 0)] ++
    leBytes 4 r.tag.toNat ++ leBytes 8 gts.toNat ++ leBytes 8 r.pts.toNat ++ leBytes 2 r.slot.toNat ++ leBytes 2 src.toNat ++ leBytes 4 r.size.toNat

/-- Writes a completion record, tells the ledger and the scrivener of it, and signals DONE_BEACON.  In a replay the live record is withheld
with its signal (R359). -/
def State.mediaRecord (s : State) (x : SessRef) (r : MediaRec) : State :=
  let n := s.sess x
  let t := n.tenant
  let src := s.sessSrc x
  let g := s.localGts (20 + x.md.val)
  if s.replaying t then s.sendSignal t n.doneBeacon 1 src
  else
    let bs := r.bytes g src
    let s1 := (s.vaWrite t (s.mdHalf x) (n.f 24 8 + (n.recs % n.entries) * 32) bs (s.sessAccess x)).2
    let s2 := (s1.onSess x fun n => { n with recs := n.recs + 1 }).scrivCtx t 5 src bs
    let s3 :=
      if n.f 64 4 = 0xFFFFFFFF then s2
      else
        let i : MediaInput := { handle := BitVec.ofNat 32 (n.f 64 4), status := r.status, output := r.output, va := r.va, size := r.size,
                                tag := r.tag, slot := r.slot, src := src, stamp := g }
        { s2 with media := { s2.media with inputs := s2.media.inputs ++ [i] } }
    s3.sendSignal t n.doneBeacon 1 src

/-! ## Outputs (R262) -/

/-- Whether no signal of a session's DONE_BEACON is on its way to the store (R272). -/
def State.sessQuiet (s : State) (x : SessRef) : Bool :=
  let n := s.sess x
  !s.net.ops.any fun o => o.tenant = n.tenant && o.wait.isNone && o.beacon = n.doneBeacon && o.src.toNat / 1024 = 20 + x.md.val

/-- After a job's last output the dispatcher goes on; a session that closes takes no further job. -/
def State.jobOver (s : State) (x : SessRef) : State :=
  let s1 := s.onSess x fun n => { n with covers := [] }
  if (s1.sess x).closingCmd.isSome then s1 else s1.awaitJob x

/-- The head output waits for a slot. -/
def State.awaitSlot (s : State) (x : SessRef) : State :=
  let n := s.sess x
  (s.onSess x fun n => { n with slotGranted := false }).sendWait n.tenant n.freeBeacon 1 (s.sessSrc x) (.slot x)

/-- The record of the head output; the next one is due, or the job is over. An output that fails ends its job: its record says so, and what the
job would still put out is lost (R271, log entry 39). -/
def State.outputDone (s : State) (x : SessRef) : State :=
  let n := s.sess x
  match n.due with
  | [] => s
  | o :: rest =>
    let r : MediaRec := { status := o.status, op := o.op, output := true, key := o.frame.key, jobEnd := o.last || o.status ≠ OK, tag := o.tag, pts := o.pts,
                          slot := BitVec.ofNat 16 (o.number % n.f 10 2), size := o.size, va := o.inputVa }
    let s1 := s.mediaRecord x r
    if rest.isEmpty || o.status ≠ OK then (s1.onSess x fun n => { n with due := [], outs := o.number + 1 }).jobOver x
    else (s1.onSess x fun n => { n with due := rest }).awaitSlot x

/-- Changes the head output. -/
def State.onDue (s : State) (x : SessRef) (f : MediaOut → MediaOut) : State :=
  s.onSess x fun n => { n with due := match n.due with | o :: r => f o :: r | [] => [] }

/-- The virtual address of a tap's profile. -/
def Session.tapVa (n : Session) (k : Nat) : Nat := n.f (72 + 8 * k) 8

/-- A frame's source size against a tap's profile at an output: the crop is clamped, so only the rest of R267 applies. -/
def tapOk (p : BitVec 1024) : Bool := profOk p 65535 65535 true

/-- The head output goes on to its next tap: the profile is read, and the die waits on that profile's FREE_BEACON; without a further tap the
record is written (R262; Corners). A profile that cannot be read or breaks its constraints ends the output and the job (log entry 39). -/
def State.nextTap (s : State) (x : SessRef) : State :=
  let n := s.sess x
  match n.due with
  | [] => s
  | o :: _ =>
    if n.taps ≤ o.tapsDone then s.outputDone x
    else match s.vaRead n.tenant (s.mdHalf x) (n.tapVa o.tapsDone) 128 (s.sessAccess x) with
      | (none, s1) => (s1.onDue x fun o => { o with status := E_MEDIA_FAULT }).outputDone x
      | (some (bs, bad), s1) =>
        let p : BitVec 1024 := BitVec.ofNat 1024 (leNat bs)
        if bad then (s1.onDue x fun o => { o with status := E_ECC_UNCORRECTED }).outputDone x
        else if !tapOk p then (s1.onDue x fun o => { o with status := E_MEDIA_PARAM }).outputDone x
        else
          ((s1.onDue x fun o => { o with profile := p }).onSess x fun n =>
            { n with tapGranted := false, tapProfiles := n.tapProfiles.set o.tapsDone p }).sendWait n.tenant
            (BitVec.ofNat 12 (prof p 6 2)) 1 (s1.sessSrc x) (.tap x)

/-- Writes the pieces of an output at a base; false after a fault. -/
def State.writePieces (s : State) (x : SessRef) (base : Nat) (ps : List (Nat × List Byte)) : Bool × State :=
  let t := (s.sess x).tenant
  ps.foldl
    (fun (a : Bool × State) p => if a.1 then a.2.vaWrite t (s.mdHalf x) (base + p.1) p.2 (s.sessAccess x) else a)
    (true, s)

/-- Whether a session's outputs may go on: its die has power and its context runs. -/
def State.mediaRuns (s : State) (x : SessRef) : Bool :=
  s.working && s.power.pstate = .p0 && (s.die (20 + x.md.val)).state != .off && (s.sess x).isOpen

/-- MEDIA_OUTPUT: the head output goes to its slot. -/
def State.mediaOutput (s : State) (x : SessRef) : State :=
  let n := s.sess x
  match n.due with
  | [] => s
  | o :: _ =>
    if !s.mediaRuns x || !n.slotGranted || o.written then s
    else
      let slot := n.f 32 8 + (o.number % n.f 10 2) * n.f 40 4
      let ps := if n.kind = 1 then framePieces n.format o.frame else [(0, o.block)]
      let r := s.writePieces x slot ps
      let s1 := (r.2.onSess x fun n => { n with slotGranted := false }).onDue x fun o =>
        { o with written := true, inputVa := BitVec.ofNat 64 slot, status := if r.1 then o.status else E_MEDIA_FAULT }
      if r.1 then s1.nextTap x else s1.outputDone x

/-- MEDIA_OUTPUT (R262). -/
def execMediaOutput (x : SessRef) (s : State) : Res := .next (s.mediaOutput x)

/-- TAP_SCALE: the head output's frame is scaled into the tap's slot. -/
def State.tapScale (s : State) (x : SessRef) : State :=
  let n := s.sess x
  match n.due with
  | [] => s
  | o :: _ =>
    if !s.mediaRuns x || !n.tapGranted || !o.written then s
    else
      let p := o.profile
      let slot := prof p 32 8 + (o.number % prof p 5 1) * prof p 40 4
      let r := s.writePieces x slot (scalePieces p o.frame)
      let s1 := (r.2.onSess x fun n => { n with tapGranted := false }).onDue x fun o =>
        { o with tapsDone := o.tapsDone + 1, inputVa := if o.tapsDone = 0 then BitVec.ofNat 64 slot else o.inputVa,
                 status := if r.1 then o.status else E_MEDIA_FAULT }
      if r.1 then s1.nextTap x else s1.outputDone x

/-- TAP_SCALE (R262, R268). -/
def execTapScale (x : SessRef) (s : State) : Res := .next (s.tapScale x)

/-! ## Jobs (R259, Table MD-4) -/

/-- A field of a job descriptor. -/
def jobF (j : Flit) (off n : Nat) : Nat := byteField j off n

/-- The KIND whose sessions take an OP; none for an unknown one. -/
def opKind : Nat → Option Nat
  | 1 => some 1
  | 2 => some 1
  | 3 => some 2
  | 4 => some 2
  | 5 => some 3
  | 6 => some 3
  | 7 => some 4
  | _ => none

/-- Whether the reserved bytes and bits of a job are zero. -/
def jobReservedOk (j : Flit) : Bool :=
  jobF j 2 2 = 0 && jobF j 20 4 = 0 && jobF j 36 4 = 0 && jobF j 56 8 = 0 && jobF j 1 1 < (if jobF j 0 1 = 3 then 2 else 1)

/-- Whether the fields that an OP does not use are zero and those it uses are in range. -/
def jobFieldsOk (n : Session) (j : Flit) : Bool :=
  let op := jobF j 0 1
  let w := jobF j 16 2
  let h := jobF j 18 2
  (if op = 1 || op = 5 || op = 6 then 1 ≤ jobF j 16 4 && jobF j 16 4 ≤ 16777216
    else if op = 7 then 1 ≤ w && 1 ≤ h && w ≤ n.maxW && h ≤ n.maxH else true) &&
    (op = 3 || op = 4 || op = 7 || jobF j 24 8 = 0) && (op = 7 || jobF j 48 8 = 0)

/-- Whether a job's source frame has a size that its encoder takes: that of R255 within MAX_W by MAX_H (Table MD-9; log entry 36). -/
def sourceOk (n : Session) (j : Flit) : Bool :=
  jobF j 0 1 ≠ 3 || (frameSizeOk (jobF j 16 2) (jobF j 18 2) && jobF j 16 2 ≤ n.maxW && jobF j 18 2 ≤ n.maxH)

/-- The job row that works a descriptor off: that of its OP; one whose OP the session does not take goes to the first row of its KIND. -/
def jobRow (n : Session) (j : Flit) : Nat :=
  if opKind (jobF j 0 1) = some n.kind then jobF j 0 1 else match n.kind with | 1 => 1 | 2 => 3 | 3 => 5 | _ => 7

/-- The first page of a range that a tenant's tables do not allow, with the fault. -/
def Context.rangeFault (c : Context) (va n : Nat) (write : Bool) : Option (Nat × Nat × Nat) :=
  (vaPieces va n).findSome? fun p =>
    match c.walk p.1 { write := write } with
    | .ok _ _ _ => none
    | .fault k l => some (p.1, k, l)

/-- The input of a job: address and bytes; a flush has none. -/
def jobInput (n : Session) (j : Flit) : Option (Nat × Nat) :=
  let op := jobF j 0 1
  if op = 1 || op = 5 || op = 6 then some (jobF j 8 8, jobF j 16 4)
  else if op = 3 || op = 7 then some (jobF j 8 8, frameNeed n.format (jobF j 16 2) (jobF j 18 2)) else none

/-- The buffers that a job covers: address, bytes, and whether it is written. The work area and the tap slots are among them (R253, R261). -/
def jobBuffers (n : Session) (j : Flit) : List (Nat × Nat × Bool) :=
  let op := jobF j 0 1
  let source := match jobInput n j with | some b => [(b.1, b.2, false)] | none => []
  let dest := if op = 3 || op = 4 || op = 7 then [(jobF j 24 8, jobF j 32 4, true)] else []
  let profile := if op = 7 then [(jobF j 48 8, 128, false)] else []
  let pool := if n.kind = 1 || n.kind = 3 then [(n.f 32 8, n.f 10 2 * n.f 40 4, true)] else []
  let work := [(n.f 48 8, n.f 56 8, true)]
  let taps := if n.kind = 1 then
      (List.range n.taps).flatMap fun k =>
        let p := n.tapProfiles.getD k 0
        [(n.tapVa k, 128, false), (prof p 32 8, prof p 5 1 * prof p 40 4, true)]
    else []
  source ++ dest ++ profile ++ pool ++ work ++ taps

/-- A job ends with a status and no output (R271). -/
def State.jobFails (s : State) (x : SessRef) (j : Flit) (status : Status) : State :=
  (s.mediaRecord x { status := status, op := BitVec.ofNat 8 (jobF j 0 1), jobEnd := true, tag := BitVec.ofNat 32 (jobF j 4 4),
                     pts := BitVec.ofNat 64 (jobF j 40 8) }).jobOver x

/-- References count as lost, and the codec sees lost data. -/
def Session.lose (n : Session) : Session := { n with refsLost := true, history := n.history ++ [{ op := 0 }] }

/-- Status of a decoder's fault. -/
def faultStatus : Nat → Status
  | 1 => E_MEDIA_BITSTREAM
  | 2 => E_MEDIA_REF_LOST
  | 3 => E_MEDIA_UNSUPPORTED
  | _ => OK

/-- Outputs become due; without one, the job ends with its record. -/
def State.jobOutputs (s : State) (x : SessRef) (j : Flit) (os : List MediaOut) : State :=
  if os.isEmpty then s.jobFails x j OK
  else
    let s1 := s.onSess x fun n =>
      { n with due := os.zipIdx.map fun p => { p.1 with number := n.outs + p.2, last := p.2 + 1 = os.length }
               outs := n.outs + os.length }
    s1.awaitSlot x

/-- The PTS of the job that a frame comes from (Table MD-8; log entry 35). -/
def ptsOf (h : List MediaTake) (job : Nat) (j : Flit) : DWord := match h[job]? with | some k => k.pts | none => BitVec.ofNat 64 (jobF j 40 8)

/-- What a codec knows of the jobs: all but their PTS, on which no decoded sample and no coded byte depends (R256, R257). -/
def codecInputs (h : List MediaTake) : List MediaTake := h.map fun k => { k with pts := 0 }

/-- The source frames that an encoder took. -/
def Session.sources (n : Session) : List MediaTake := n.history.filter fun k => k.op = 3

/-- A decoded frame's output. -/
def frameOut (n : Session) (j : Flit) (v : VideoFrame) : MediaOut :=
  { frame := v, op := BitVec.ofNat 8 (jobF j 0 1), tag := BitVec.ofNat 32 (jobF j 4 4), pts := ptsOf n.history v.job j,
    size := BitVec.ofNat 32 (v.width + 65536 * v.height) }

/-- Why a decoded access unit fails: 3 outside Table MD-2 or MAX_W by MAX_H, else as the decoder says; a lost reference only while references
count as lost (Table MD-9). -/
def Session.decodeFault (n : Session) (r : DecodeResult) : Nat :=
  if r.fault = 1 then 1
  else if !streamInTable n.codec r || r.frames.any fun d => n.maxW < d.cropW || n.maxH < d.cropH then 3
  else if r.fault = 2 && n.refsLost then 2 else 0

/-- A session whose decoder has new frames: they await display in their order. -/
def Session.decode (n : Session) (r : DecodeResult) : Session :=
  { n with awaiting := r.frames.foldl (fun a d => insertFrame (shownFrame d) a) n.awaiting, refsLost := n.refsLost && !r.rap }

/-- The first frames that await display become due. -/
def State.display (s : State) (x : SessRef) (j : Flit) (count : Nat) : State :=
  let n := s.sess x
  (s.onSess x fun n => { n with awaiting := n.awaiting.drop count }).jobOutputs x j ((n.awaiting.take count).map (frameOut n j))

/-- A DECODE_AU job: the frames of its access unit await display, and some become due. -/
def State.runDecode (s : State) (x : SessRef) (j : Flit) (k : MediaTake) : State :=
  let s1 := s.onSess x fun n => { n with history := n.history ++ [k] }
  let n := s1.sess x
  let r := Config.decodeVideo n.params (codecInputs n.history)
  let fault := n.decodeFault r
  if fault ≠ 0 then (s1.onSess x fun n => { n with refsLost := n.refsLost || fault ≠ 2 }).jobFails x j (faultStatus fault)
  else (s1.onSess x fun n => n.decode r).display x j r.ready

/-- A DECODE_FLUSH job: every frame that awaits display becomes due (R259). -/
def State.flushDecode (s : State) (x : SessRef) (j : Flit) (k : MediaTake) : State :=
  let s1 := s.onSess x fun n => { n with history := n.history ++ [k] }
  s1.display x j (s1.sess x).awaiting.length

/-- Writes coded units one after the other: each is an output with its record (log entry 36). A fault ends the job (R271). -/
def State.writeCoded (s : State) (x : SessRef) (j : Flit) : Nat → List CodedUnit → State
  | _, [] => s
  | va, u :: us =>
    let n := s.sess x
    let w := s.vaWrite n.tenant (s.mdHalf x) va u.bytes (s.sessAccess x)
    let r : MediaRec := { status := if w.1 then OK else E_MEDIA_FAULT, op := BitVec.ofNat 8 (jobF j 0 1), output := true, key := u.key,
                          jobEnd := us.isEmpty || !w.1, tag := BitVec.ofNat 32 (jobF j 4 4), pts := ptsOf n.sources u.frame j,
                          size := BitVec.ofNat 32 u.bytes.length, va := BitVec.ofNat 64 va }
    if w.1 then State.writeCoded (w.2.mediaRecord x r) x j (va + u.bytes.length) us else w.2.mediaRecord x r

/-- A source frame awaits coding; every GOP frames, and with FORCE_KEY, it becomes a key frame (R257, Table MD-3; log entry 36). -/
def Session.takeFrame (n : Session) (k : MediaTake) : Session :=
  let key := k.forceKey || n.toKey = 0
  { n with uncoded := n.uncoded ++ [(n.sources.length, key)], toKey := (if key then n.f 92 2 else n.toKey) - 1, history := n.history ++ [k] }

/-- The coded access unit of a source frame (R257). -/
def Session.unitOf (n : Session) (q : Nat × Bool) : CodedUnit :=
  { bytes := (Config.encodeUnit n.params n.level (codecInputs n.sources) q.1 q.2).flatMap (nalBytes n.codec), key := q.2, frame := q.1 }

/-- The encoder codes the source frames of a plan. -/
def Session.code (n : Session) (plan : List Nat) : Session :=
  let now := codeOrder (fun q => (n.sources.getD q default).forceKey) (n.uncoded.map fun e => e.1) plan
  { n with uncoded := n.uncoded.filter fun e => !now.contains e.1
           coded := n.coded ++ now.filterMap fun q => (n.uncoded.find? fun e => e.1 = q).map n.unitOf }

/-- The units that are ready go to OUT_VA, or all stay queued when they do not fit (R271). -/
def State.putCoded (s : State) (x : SessRef) (j : Flit) : State :=
  let n := s.sess x
  if jobF j 32 4 < (n.coded.map fun u => u.bytes.length).sum then s.jobFails x j E_MEDIA_OUT_SMALL
  else if n.coded.isEmpty then s.jobFails x j OK
  else (((s.onSess x fun n => { n with coded := [] }).writeCoded x j (jobF j 24 8) n.coded)).jobOver x

/-- An ENCODE_FRAME job: the units that become ready with the frame are written (R259). -/
def State.runEncode (s : State) (x : SessRef) (j : Flit) (k : MediaTake) : State :=
  (s.onSess x fun n =>
    let n1 := n.takeFrame k
    n1.code (Config.encodePlan n1.params (codecInputs n1.sources))).putCoded x j

/-- An ENCODE_FLUSH job: the rest is written, in the order of the encoder's plan and then of the frames (R259). -/
def State.flushEncode (s : State) (x : SessRef) (j : Flit) (k : MediaTake) : State :=
  (s.onSess x fun n =>
    let n1 := { n with history := n.history ++ [k] }
    n1.code (Config.encodePlan n1.params (codecInputs n1.sources ++ [{ k with pts := 0 }]) ++ n1.uncoded.map fun e => e.1)).putCoded x j

/-- An audio packet's block. -/
def State.runAudio (s : State) (x : SessRef) (j : Flit) (k : MediaTake) : State :=
  let s1 := s.onSess x fun n => { n with history := n.history ++ [k] }
  let n := s1.sess x
  let r := Config.decodeAudio n.params (codecInputs n.history)
  let bs := pcmBytes n.format r
  if r.fault = 1 then s1.jobFails x j E_MEDIA_BITSTREAM
  else if !audioInRange n.codec r then s1.jobFails x j E_MEDIA_UNSUPPORTED
  else if k.op = 6 || bs.isEmpty then s1.jobFails x j OK
  else s1.jobOutputs x j
    [{ block := bs, op := 5, tag := BitVec.ofNat 32 (jobF j 4 4), pts := BitVec.ofNat 64 (jobF j 40 8),
       size := BitVec.ofNat 32 (sampleFrames r % 65536 + 65536 * r.channels) }]

/-- A SCALE job (R267 to R269). -/
def State.runScale (s : State) (x : SessRef) (j : Flit) (v : VideoFrame) : State :=
  let n := s.sess x
  match s.vaRead n.tenant (s.mdHalf x) (jobF j 48 8) 128 (s.sessAccess x) with
  | (none, s1) => s1.jobFails x j E_MEDIA_FAULT
  | (some (bs, bad), s1) =>
    let p : BitVec 1024 := BitVec.ofNat 1024 (leNat bs)
    if bad then s1.jobFails x j E_ECC_UNCORRECTED
    else if !profOk p v.width v.height false || jobF j 32 4 < profNeed p then s1.jobFails x j E_MEDIA_PARAM
    else
      let w := s1.writePieces x (jobF j 24 8) (scalePieces p v)
      (w.2.mediaRecord x { status := if w.1 then OK else E_MEDIA_FAULT, op := 7, output := true, jobEnd := true,
                           tag := BitVec.ofNat 32 (jobF j 4 4), pts := BitVec.ofNat 64 (jobF j 40 8),
                           size := BitVec.ofNat 32 (scaledSize p), va := BitVec.ofNat 64 (jobF j 24 8) }).jobOver x

/-- A job whose checks passed, with its input bytes. -/
def State.runJob (s : State) (x : SessRef) (j : Flit) (bs : List Byte) : State :=
  let n := s.sess x
  let pts := BitVec.ofNat 64 (jobF j 40 8)
  let v := frameOf n.format (jobF j 16 2) (jobF j 18 2) bs
  match jobF j 0 1 with
  | 1 => s.runDecode x j { op := 1, pts := pts, bytes := bs }
  | 2 => s.flushDecode x j { op := 2, pts := pts }
  | 3 =>
    let conv := fun (q : Nat) => convertDepth v.deep n.encodeDeep q
    s.runEncode x j { op := 3, forceKey := bitAt j 8, pts := pts, width := v.width, height := v.height,
                      samples := v.luma.map conv ++ v.cb.map conv ++ v.cr.map conv }
  | 4 => s.flushEncode x j { op := 4, pts := pts }
  | 5 =>
    if n.configured then s.runAudio x j { op := 5, pts := pts, bytes := bs } else s.jobFails x j E_MEDIA_PARAM
  | 6 =>
    if n.jobs = 1 then (s.onSess x fun n => { n with configured := true }).runAudio x j { op := 6, pts := pts, bytes := bs }
    else s.jobFails x j E_MEDIA_PARAM
  | _ => s.runScale x j v

/-- The engine keeps its session's state in the work area: the bytes there are its own, and free values to everyone else (R253, log entry 8). -/
def State.fillWork (s : State) (x : SessRef) : State :=
  let n := s.sess x
  (vaPieces (n.f 48 8) (n.f 56 8)).foldl
    (fun a p => match (s.ctx n.tenant).walk p.1 { write := true } with
      | .ok dpa _ _ => a.hbmFree dpa p.2
      | _ => a) s

/-- The descriptor is checked, every buffer is translated, the input is read, and the job runs (R261, R271). -/
def State.startJob (s : State) (x : SessRef) (j : Flit) : State :=
  let n := s.sess x
  let t := n.tenant
  if (opKind (jobF j 0 1)).isNone || !jobReservedOk j then s.jobFails x j E_BAD_FIELD
  else if opKind (jobF j 0 1) ≠ some n.kind || !jobFieldsOk n j then s.jobFails x j E_MEDIA_PARAM
  else if !sourceOk n j then s.jobFails x j E_MEDIA_UNSUPPORTED
  else
    let bufs := jobBuffers n j
    match bufs.findSome? fun b => ((s.ctx t).rangeFault b.1 b.2.1 b.2.2).map fun q => (q, b.2.2) with
    | some ((va, k, l), w) => (s.memFault t { s.sessAccess x with va := va, write := w } k l).jobFails x j E_MEDIA_FAULT
    | none =>
      let s1 := s.onSess x fun n => { n with covers := bufs.map fun b => (b.1, b.2.1) }
      match jobInput n j with
      | none => (s1.fillWork x).runJob x j []
      | some b =>
        match s1.vaRead t (s.mdHalf x) b.1 b.2 (s.sessAccess x) with
        | (none, s2) => s2.jobFails x j E_MEDIA_FAULT
        | (some (bs, bad), s2) =>
          if bad then (s2.onSess x Session.lose).jobFails x j E_ECC_UNCORRECTED else (s2.fillWork x).runJob x j bs

/-- Whether a session has a job for the dispatcher: granted, no output of the job before it due, not closing. -/
def Session.ready (n : Session) : Bool := n.isOpen && n.jobGranted && n.due.isEmpty && n.closingCmd.isNone

/-- The session of a kind on a die that the dispatcher serves next: round robin by session number after the one served last (R254). -/
def State.nextSession (s : State) (md kind : Nat) : Option SessRef :=
  let last := Map.get 0 s.media.lastServed (md * 8 + kind)
  let rs := (s.dieSessions md).filter fun e => e.2.ready && e.2.kind = kind
  match rs.find? fun e => last ≤ e.1.idx.val with
  | some e => some e.1
  | none => (rs.head?).map fun e => e.1

/-- The engines of a session's kind on its die that other sessions' jobs may still hold: their outputs are not all written. -/
def State.heldEngines (s : State) (x : SessRef) : List Nat :=
  (s.dieSessions x.md.val).filterMap fun e =>
    if e.1 ≠ x && e.2.kind = (s.sess x).kind && !e.2.due.isEmpty then some e.2.engine else none

/-- The lowest-numbered idle engine of a session's kind on its die: `busy` says which of those that other jobs may hold have not finished
(R254, log entry 7). -/
def State.freeEngine (s : State) (x : SessRef) (count busy : Nat) : Option Nat :=
  (List.range count).find? fun e => !(busy.testBit e && (s.heldEngines x).contains e)

/-- The session's next job is taken, and the session served last on its die for its kind is this one (R254). -/
def State.takeJob (s : State) (x : SessRef) : State :=
  let s1 := s.onSess x fun n => { n with jobs := n.jobs + 1, jobGranted := false }
  { s1 with media := { s1.media with lastServed := Map.set 0 s1.media.lastServed (x.md.val * 8 + (s.sess x).kind) (x.idx.val + 1) } }

/-- A job row: the dispatcher gives the session's next job to an engine when the job is of this row (R254, R259). -/
def State.mediaJob (row : Nat) (x : SessRef) (count busy : Nat) (s : State) : State :=
  let n := s.sess x
  let t := n.tenant
  if !s.mediaRuns x || !s.dieUp (20 + x.md.val) || s.nextSession x.md.val n.kind ≠ some x then s
  else match s.freeEngine x count busy with
    | none => s
    | some engine =>
      let s0 := s.onSess x fun n => { n with engine := engine }
      match s0.vaRead t (s0.mdHalf x) (n.f 16 8 + (n.jobs % n.entries) * 64) 64 (s0.sessAccess x) with
      | (none, s1) => if row = jobRow n 0 then (s1.takeJob x).jobFails x 0 E_MEDIA_FAULT else s
      | (some (bs, bad), s1) =>
        let j := flitOf bs
        if row ≠ jobRow n j then s
        else if bad then ((s1.takeJob x).onSess x Session.lose).jobFails x j E_ECC_UNCORRECTED
        else (s1.takeJob x).startJob x j

/-- DECODE_AU (R259). -/
def execDecodeAu (x : SessRef) (busy : BitVec 16) (s : State) : Res := .next (s.mediaJob 1 x 16 busy.toNat)

/-- DECODE_FLUSH (R259). -/
def execDecodeFlush (x : SessRef) (busy : BitVec 16) (s : State) : Res := .next (s.mediaJob 2 x 16 busy.toNat)

/-- ENCODE_FRAME (R259). -/
def execEncodeFrame (x : SessRef) (busy : BitVec 8) (s : State) : Res := .next (s.mediaJob 3 x 8 busy.toNat)

/-- ENCODE_FLUSH (R259). -/
def execEncodeFlush (x : SessRef) (busy : BitVec 8) (s : State) : Res := .next (s.mediaJob 4 x 8 busy.toNat)

/-- AUDIO_PACKET (R270). -/
def execAudioPacket (x : SessRef) (busy : BitVec 8) (s : State) : Res := .next (s.mediaJob 5 x 8 busy.toNat)

/-- AUDIO_CONFIG (R259). -/
def execAudioConfig (x : SessRef) (busy : BitVec 8) (s : State) : Res := .next (s.mediaJob 6 x 8 busy.toNat)

/-- SCALE (R268). -/
def execScale (x : SessRef) (busy : BitVec 16) (s : State) : Res := .next (s.mediaJob 7 x 16 busy.toNat)

/-! ## MEDIA_SESSION_OPEN and MEDIA_SESSION_CLOSE (R258, R272) -/

/-- The lowest free index of a die's session table. -/
def State.freeSession (s : State) (md : Nat) : Option (Fin 512) :=
  (List.finRange 512).find? fun i => !(s.sess { md := Fin.ofNat 4 md, idx := i }).isOpen

/-- The media die that a command names, or that the steward chooses: the powered one with the fewest open sessions (R258). -/
def State.chooseDie (s : State) (d : Nat) : Option Nat :=
  if d ≠ 0xFF then (if s.dieUp d then some (d - 20) else none)
  else
    ((List.range 4).filter fun k => s.dieUp (20 + k)).foldl
      (fun (a : Option Nat) k =>
        match a with
        | none => some k
        | some b => if (s.dieSessions k).length < (s.dieSessions b).length then some k else some b) none

/-- Reads the profiles of a session's taps: none when one cannot be read. -/
def State.readTaps (s : State) (t : Tenant) (n : Session) : Option (List (BitVec 1024)) × State :=
  (List.range n.taps).foldl
    (fun (a : Option (List (BitVec 1024)) × State) k =>
      match a.1 with
      | none => a
      | some ps =>
        match a.2.vaRead t 0 (n.tapVa k) 128 (stewardAccess stewardSrc) with
        | (none, s1) => (none, s1)
        | (some (bs, _), s1) => (some (ps ++ [BitVec.ofNat 1024 (leNat bs)]), s1))
    (some [], s)

/-- MEDIA_SESSION_OPEN. -/
def State.sessionOpen (f : Started) (s : State) : State :=
  let t := f.tenant
  let d := f.p 20 1
  if (d < 20 || 23 < d) && d ≠ 0xFF then s.fail f E_BAD_FIELD
  else if s.power.pstate ≠ .p0 then s.fail f E_POWER_BUSY
  else match s.chooseDie d with
    | none => s.fail f E_DOMAIN_DOWN
    | some md =>
      match s.vaRead t 0 (f.p 24 8) 128 (stewardAccess stewardSrc) with
      | (none, s1) => s1.fail f E_MEDIA_FAULT
      | (some (bs, _), s1) =>
        let n : Session := { isOpen := true, tenant := t, params := BitVec.ofNat 1024 (leNat bs) }
        if !n.fieldsOk then s1.fail f E_MEDIA_PARAM
        else match s1.readTaps t n with
          | (none, s2) => s2.fail f E_MEDIA_FAULT
          | (some ps, s2) =>
            if !(ps.all fun p => profOk p n.maxW n.maxH true) then s2.fail f E_MEDIA_PARAM
            else if !n.supported then s2.fail f E_MEDIA_UNSUPPORTED
            else if n.f 56 8 < n.workNeed then s2.fail f E_MEDIA_WORK
            else match s2.freeSession md with
              | none => s2.fail f E_MEDIA_CAPACITY
              | some i =>
                if n.f 64 4 ≠ 0xFFFFFFFF && (s2.streamOf t (n.f 64 4)).isNone then s2.fail f E_STREAM_HANDLE
                else
                  let x : SessRef := { md := Fin.ofNat 4 md, idx := i }
                  let n1 := { n with gen := (s2.sess x).gen, tapProfiles := ps }
                  let s3 := s2.onSess x fun _ => n1
                  let s4 := if n.kind = 1 || n.kind = 3 then s3.applySignal t n.freeBeacon (n.f 10 2) stewardSrc else s3
                  let s5 := ps.foldl (fun a p => a.applySignal t (BitVec.ofNat 12 (prof p 6 2)) (prof p 5 1) stewardSrc) s4
                  (s5.awaitJob x).finish f OK (sessHandle x n1)

/-- MEDIA_SESSION_OPEN (R258). -/
def execMediaSessionOpen (c : Serve) (s : State) : Res := .next (s.serve c 0x18 State.sessionOpen)

/-- MEDIA_SESSION_CLOSE: no job is taken any more. The session ends once the job in progress has written its last output and its last signal
has reached the store, so that no beacon of the session is signalled after the completion. -/
def State.sessionClose (f : Started) (s : State) : State :=
  match s.sessOf f.tenant (f.p 20 4) with
  | none => if f.accepted then s else s.fail f E_MEDIA_SESSION
  | some x =>
    let s1 := if f.accepted then s else (s.accept f).onSess x fun n => { n with closingCmd := some f.id }
    if (s1.sess x).closingCmd = some f.id && (s1.sess x).due.isEmpty && s1.sessQuiet x then s1.endSession x else s1

/-- MEDIA_SESSION_CLOSE (R272). -/
def execMediaSessionClose (c : Serve) (s : State) : Res := .next (s.serve c 0x19 State.sessionClose)

/-- The open sessions that satisfy a test end at once. -/
def State.endSessions (s : State) (p : SessRef → Session → Bool) : State :=
  ((List.range 4).flatMap fun md => (s.dieSessions md).filter fun e => p e.1 e.2).foldl (fun a e => a.endSession e.1) s

/-- The sessions of a media die that goes down by FORCE: a job in progress ends with E_DOMAIN_CLOSED, and the session closes (R272). -/
def State.forceSessions (s : State) (md : Nat) : State :=
  (s.dieSessions md).foldl
    (fun a e =>
      match e.2.due with
      | o :: _ =>
        ((a.mediaRecord e.1 { status := E_DOMAIN_CLOSED, op := o.op, jobEnd := true, tag := o.tag, pts := o.pts }).endSession e.1)
      | [] => a.endSession e.1) s

end Sys2Proof.Machine
end

