-- ==== Sys2Proof/Machine/Windows.lean ====
section
/-! DEFINITION. Remote windows: MAP_WINDOW and UNMAP_WINDOW (R220 to R224), requests and their answers at the importer, and the owner's
engine (R222, R332, R333, R336 to R339). -/

namespace Sys2Proof.Machine

open Sys2Proof

/-! ## Ports by die and lane -/

/-- The port that a die index and a lane name, where they name one. -/
def portOfDie (v : Variant) (die lane : Nat) : Option PortRef :=
  if dieKind v die = some .xd ∧ lane < 8 then some { xd := Fin.ofNat 8 (xdNumber die), lane := Fin.ofNat 8 lane } else none

/-- The port of a window table entry. -/
def State.windowPort (s : State) (w : Window) : Option PortRef := portOfDie s.pkg.variant (w.port.toNat / 256) (w.port.toNat % 256)

/-- Modes of Table LK-1: Ethernet, and Karex Link without the twin port. -/
def isEthMode (m : Byte) : Bool := 1 ≤ m.toNat && m.toNat ≤ 7
def isWindowMode (m : Byte) : Bool := 16 ≤ m.toNat && m.toNat ≤ 19

/-- The ports of the package in ascending order. -/
def allPorts : List PortRef := (List.finRange 8).flatMap fun x => (List.finRange 8).map fun l => { xd := x, lane := l }

/-- Whether an import of any context names a port (R324). -/
def State.importNames (s : State) (p : PortRef) : Bool :=
  (List.finRange 16).any fun t => (s.ctx t).imports.any fun (e : Nat × Window) => e.2.isOpen && s.windowPort e.2 = some p

/-! ## MAP_WINDOW (R220, R221) -/

/-- The lowest handle of a table that holds no entry. -/
def freeHandle (m : Map Window) : Option Nat := (List.range 4096).find? fun h => !(Map.get ({} : Window) m h).isOpen

/-- Whether every page of an HBM window allows windows and what the window grants. -/
def Context.windowPages (c : Context) (base size : Nat) (r w : Bool) : Bool :=
  (List.range ((base + size + 65535) / 65536 - base / 65536)).all fun i =>
    let a := (base / 65536 + i) * 65536
    (!r || (match c.walk a { write := false, window := true } with | .ok _ _ _ => true | _ => false)) &&
      (!w || (match c.walk a { write := true, window := true } with | .ok _ _ _ => true | _ => false))

/-- The entry that a MAP_WINDOW makes. -/
def Started.window (f : Started) (imported : Bool) : Window :=
  { isOpen := true, btile := f.p 21 1 = 1, permR := f.p 22 1 % 2 = 1, permW := f.p 22 1 / 2 = 1, tenant := tenantByte f.tenant
    peerTenant := BitVec.ofNat 8 (f.p 23 1), peerHandle := if imported then BitVec.ofNat 16 (f.p 24 2) else 0
    base := if imported then 0 else BitVec.ofNat 64 (f.p 32 8), size := BitVec.ofNat 64 (f.p 40 8)
    peerId := BitVec.ofNat 64 (f.p 48 8), port := if imported then BitVec.ofNat 16 (f.p 26 2) else 0 }

/-- Whether the fields that both directions use are out of their ranges, and those that describe an export (R220). -/
def Started.windowBad (f : Started) : Bool := 1 < f.p 20 1 || 1 < f.p 21 1 || 3 < f.p 22 1 || 15 < f.p 23 1
def Started.exportBad (f : Started) : Bool := f.p 22 1 = 0 || f.p 40 8 = 0 || f.p 40 8 % 64 ≠ 0 || 2 ^ 40 < f.p 40 8

/-- Why an EXPORT is refused, if it is. -/
def State.exportRefusal (s : State) (f : Started) : Option Status :=
  let base := f.p 32 8
  let size := f.p 40 8
  let w := f.window false
  if f.p 48 8 = s.pkg.packageId.toNat then some E_WINDOW_PERM
  else if w.btile then
    match s.btTarget base with
    | some (x, off) => if !s.inRegion f.tenant x then some E_REGION else if btBytes < off + size then some E_BAD_FIELD else none
    | none => some E_REGION
  else if !(s.ctx f.tenant).windowPages base size w.permR w.permW then some E_WINDOW_PERM
  else none

/-- MAP_WINDOW with DIR EXPORT. -/
def State.mapExport (f : Started) (s : State) : State :=
  if f.p 20 1 = 1 then s
  else if f.windowBad || f.exportBad then s.fail f E_BAD_FIELD
  else match s.exportRefusal f with
    | some st => s.fail f st
    | none => match freeHandle s.mem.exports with
      | none => s.fail f E_WINDOW_LIMIT
      | some h => { s with mem := { s.mem with exports := Map.set {} s.mem.exports h (f.window false) } }.finish f OK h

/-- MAP_WINDOW with DIR EXPORT (R220). -/
def execMapWindowExport (c : Serve) (s : State) : Res := .next (s.serve c 0x0F State.mapExport)

/-- MAP_WINDOW with DIR IMPORT: the port has a mode of 16 to 19 (R337). -/
def State.mapImport (f : Started) (s : State) : State :=
  if f.p 20 1 ≠ 1 then s
  else if f.windowBad || 4095 < f.p 24 2 then s.fail f E_BAD_FIELD
  else
    let mode := match s.windowPort (f.window true) with | some p => (s.port p).mode | none => 0
    if !isWindowMode mode then s.fail f E_LINK_MODE
    else match freeHandle (s.ctx f.tenant).imports with
      | none => s.fail f E_WINDOW_LIMIT
      | some h => (s.onCtx f.tenant fun c => { c with imports := Map.set {} c.imports h (f.window true) }).finish f OK h

/-- MAP_WINDOW with DIR IMPORT (R221). -/
def execMapWindowImport (c : Serve) (s : State) : Res := .next (s.serve c 0x0F State.mapImport)

/-! ## UNMAP_WINDOW (R223) -/

/-- The export that a handle names. -/
def State.exportOf (s : State) (h : Nat) : Window := Map.get {} s.mem.exports h

/-- Whether a request that reached the owner before its window began to close still waits. -/
def State.exportBusy (s : State) (h : Nat) : Bool :=
  s.links.ports.any fun (e : Nat × Port) => e.2.rx.any fun (m : LinkMsg × Bool) =>
    (m.1.op = 1 || m.1.op = 2) && m.1.handle.toNat = h && !m.2

/-- Whether a descriptor names an import. -/
def Dma.names (d : Dma) (h : Nat) : Bool := 6 ≤ d.kind && d.remote / 2 ^ 48 = h

/-- Whether a descriptor of a tenant that names an import has not completed, on its tiles or in its save image. -/
def State.importBusy (s : State) (t : Tenant) (h : Nat) : Bool :=
  (s.regionSites t).any (fun x => (s.tile x).b.dmas.any fun d => d.names h) ||
    (match (s.ctx t).saved with
      | some v => v.tiles.any fun e => e.tile.b.dmas.any fun d => d.names h
      | none => false)

/-- UNMAP_WINDOW of an export. -/
def State.unmapExport (s : State) (f : Started) (h : Nat) : State :=
  let w := s.exportOf h
  let free := { s with mem := { s.mem with exports := Map.del s.mem.exports h } }
  if f.accepted then (if w.closing = some f.id && !s.exportBusy h then free.done f else s)
  else if !w.isOpen || w.closing.isSome || w.tenant ≠ tenantByte f.tenant then s.fail f E_WINDOW_PERM
  else if s.exportBusy h then
    ({ s with mem := { s.mem with exports := Map.set {} s.mem.exports h { w with closing := some f.id } } }).accept f
  else free.done f

/-- UNMAP_WINDOW of an import. -/
def State.unmapImport (s : State) (f : Started) (h : Nat) : State :=
  let t := f.tenant
  let w := Map.get {} (s.ctx t).imports h
  let free := s.onCtx t fun c => { c with imports := Map.del c.imports h }
  if f.accepted then (if w.closing = some f.id && !s.importBusy t h then free.done f else s)
  else if !w.isOpen || w.closing.isSome then s.fail f E_WINDOW_PERM
  else if s.importBusy t h then
    (s.onCtx t fun c => { c with imports := Map.set {} c.imports h { w with closing := some f.id } }).accept f
  else free.done f

/-- UNMAP_WINDOW: it completes at once, or goes on until earlier requests or descriptors are over. -/
def State.unmapWindow (f : Started) (s : State) : State :=
  if 1 < f.p 20 1 then s.fail f E_BAD_FIELD
  else if f.p 20 1 = 0 then s.unmapExport f (f.p 24 2)
  else s.unmapImport f (f.p 24 2)

/-- UNMAP_WINDOW (R223). -/
def execUnmapWindow (c : Serve) (s : State) : Res := .next (s.serve c 0x10 State.unmapWindow)

/-! ## WINDOW_REQUEST (R336, R337) -/

/-- The source number of the remote-window engine of an I/O die (Table TM-4). -/
def engineSrc (x : Fin 8) : Src := srcOf (xdDie x.val) 64

/-- The engine of an I/O die answers a requester: data, or an acknowledgement, with a status. -/
def State.windowAnswer (s : State) (die : Nat) (h : Head) (row : Nat) (read : Bool) (data : Flit) (status : Status) : State :=
  let a := s.attach die 64
  s.addPacket { place := .spine a.1 a.2, head := answerHead h 3 (srcOf die 64),
                body := if read then .readRsp row data status else .writeAck row status }

/-- WINDOW_PEER (Table IG-5). -/
def State.logPeer (s : State) (die : Nat) (t : Tenant) (h : Nat) (expected found : DWord) : State :=
  s.logEv (srcOf die 64) WINDOW_PEER (tenantByte t) (leBytes 2 h ++ leBytes 2 0 ++ leBytes 8 expected.toNat ++ leBytes 8 found.toNat)

/-- Why a request is not sent, if it is not (R337, in the order of its table; log entry 21). -/
def Port.windowRefusal (p : Port) (w : Window) : Option (Status × Bool) :=
  if p.state ≠ .up then some (E_PEER_DOWN, false)
  else if p.peerId ≠ w.peerId then some (E_WINDOW_PERM, true)
  else if !isWindowMode p.mode then some (E_WINDOW_PERM, false)
  else none

/-- The message of a window request (Table LK-5). -/
def windowMsg (r : MemReq) (t : Tenant) (w : Window) (own : DWord) (tag : Word) : LinkMsg :=
  { op := if r.write then 1 else 2, tenant := tenantByte t, handle := w.peerHandle, status := 0, offset := r.va, srcId := own, tag := tag,
    reqCredits := 0, rspCredits := 0, body := 0, badReserved := false, data := if r.write then [r.data] else [] }

/-- A request at the importer's engine goes out on the port of its import, waits for credits, or is answered with an error. -/
def State.windowRequestAt (s : State) (k : Nat) (pk : Packet) (die : Nat) (r : MemReq) : State :=
  let t := pk.head.tenant
  let w := Map.get {} (s.ctx t).imports r.handle.toNat
  match s.windowPort w with
  | none => (s.dropPacket k).windowAnswer die pk.head r.row (!r.write) 0 E_WINDOW_PERM
  | some q =>
    let p := s.port q
    if !w.isOpen || w.port.toNat / 256 ≠ die then (s.dropPacket k).windowAnswer die pk.head r.row (!r.write) 0 E_WINDOW_PERM
    else match p.windowRefusal w with
      | some (st, peer) =>
        let s1 := if peer then s.logPeer die t r.handle.toNat w.peerId p.peerId else s
        (s1.dropPacket k).windowAnswer die pk.head r.row (!r.write) 0 st
      | none =>
        let m := windowMsg r t w s.pkg.packageId p.nextTag
        if p.txWait.any (fun x => !isResponse x.op) || !p.maySend m then s
        else (s.dropPacket k).onPort q fun p =>
          { p.send m s.clk.gts with nextTag := p.nextTag + 1,
                                    outReqs := p.outReqs ++ [{ tag := p.nextTag, head := pk.head, row := r.row, read := !r.write }] }

/-- WINDOW_REQUEST. -/
def State.windowRequest (s : State) (k : Nat) : State :=
  match s.net.flow[k]? with
  | some p =>
    match p.place, p.body with
    | .unit d u, .memReq r =>
      if dieKind s.pkg.variant d.val = some .xd && u = 64 && r.window && s.alive && firstAtPlace s.net.flow k p then
        s.windowRequestAt k p d.val r
      else s
    | _, _ => s
  | none => s

/-- WINDOW_REQUEST (R336). -/
def execWindowRequest (k : Nat) (s : State) : Res := .next (s.windowRequest k)

/-! ## Received messages (R332, R333) -/

/-- The first received message of a class, with its mark and its index. -/
def Port.next (p : Port) (ofClass : BitVec 8 → Bool) : Option ((LinkMsg × Bool) × Nat) :=
  p.rx.zipIdx.find? fun (x : (LinkMsg × Bool) × Nat) => ofClass x.1.1.op

/-- Classes of messages: requests with TWIN messages, and CREDIT. -/
def isRequest (op : BitVec 8) : Bool := op = 1 || op = 2 || op = 7

/-- A CREDIT message. -/
def creditMsg (own : DWord) (req rsp : Nat) : LinkMsg :=
  { op := 6, tenant := 0, handle := 0, status := 0, offset := 0, srcId := own, tag := 0, reqCredits := BitVec.ofNat 16 req,
    rspCredits := BitVec.ofNat 16 rsp, body := 0, badReserved := false, data := [] }

/-- A received message leaves the receiver, which returns its credits (R333). -/
def State.takeMsg (s : State) (q : PortRef) (n : Nat) (m : LinkMsg) : State :=
  let s1 := s.onPort q fun p => { p with rx := p.rx.eraseIdx n }
  if msgFree m then s1
  else if isResponse m.op then s1.linkSend q (creditMsg s.pkg.packageId 0 (msgFlits m))
  else s1.linkSend q (creditMsg s.pkg.packageId (msgFlits m) 0)

/-! ## The owner's engine (R222, R338) -/

/-- An answer to a request. -/
def answerMsg (m : LinkMsg) (op : BitVec 8) (status : Status) (data : List Flit) : LinkMsg :=
  { m with op := op, status := status, data := data, body := 0, reqCredits := 0, rspCredits := 0, badReserved := false }

/-- The checks of R222, and the window was not closing when the request arrived (R223). -/
def State.inboundOk (s : State) (m : LinkMsg) (late : Bool) : Bool :=
  let w := s.exportOf m.handle.toNat
  let off := m.offset.toNat
  !late && m.handle.toNat < 4096 && w.isOpen && m.srcId = w.peerId && m.tenant = w.peerTenant && off + 64 ≤ w.size.toNat &&
    (if m.op = 1 then w.permW else w.permR)

/-- How an inbound access ends: a status, data, and the state after. -/
structure Inbound where
  status : Status
  data : List Byte := []
  state : State

/-- An access to an HBM window: translated in the owner's context, a fault has AGENT 3 (R222). -/
def State.inboundHbm (s : State) (q : PortRef) (w : Window) (m : LinkMsg) : Inbound :=
  let t : Tenant := Fin.ofNat 16 w.tenant.toNat
  let half := halfOf s.pkg.variant (xdDie q.xd.val)
  let va := w.base.toNat + m.offset.toNat
  let x := s.translate half t va { write := m.op = 1, window := true }
  match x.1 with
  | .fault c l =>
    { status := E_DMA_FAULT, state := x.2.memFault t { va := va, src := engineSrc q.xd, agent := 3, write := m.op = 1 } c l }
  | .ok dpa _ _ =>
    if m.op = 1 then { status := OK, state := x.2.hbmWrite dpa (flitBytes (m.data.headD 0)) (engineSrc q.xd) w.tenant }
    else
      let r := x.2.hbmRead dpa 64 (engineSrc q.xd) w.tenant
      { status := if r.2.1 then E_ECC_UNCORRECTED else OK, data := r.1, state := r.2.2 }

/-- An access to a B-tile window; a B-tile that is no longer the owner's, or on a die that is down, refuses (log entry 43). -/
def State.inboundBt (s : State) (q : PortRef) (w : Window) (m : LinkMsg) : Inbound :=
  match s.btTarget (w.base.toNat + m.offset.toNat) with
  | none => { status := NAK_WINDOW, state := s }
  | some (x, off) =>
    if !s.inRegion (Fin.ofNat 16 w.tenant.toNat) x || s.dieDown x.die.val then { status := NAK_WINDOW, state := s }
    else if m.op = 1 then { status := OK, state := (s.btPut x off (flitBytes (m.data.headD 0))).present x .inb off 64 }
    else
      let r := s.btRead x off 64 (engineSrc q.xd)
      { status := if r.2.1 then E_ECC_UNCORRECTED else OK, data := r.1, state := r.2.2.present x .inb off 64 }

/-- The owner's engine performs an inbound request. -/
def State.inbound (s : State) (q : PortRef) (m : LinkMsg) (late : Bool) : Inbound :=
  let w := s.exportOf m.handle.toNat
  if !s.inboundOk m late then { status := NAK_WINDOW, state := s }
  else if w.btile then s.inboundBt q w m
  else s.inboundHbm q w m

/-- The answer to an inbound request. -/
def Inbound.answer (i : Inbound) (m : LinkMsg) : LinkMsg :=
  if i.status ≠ OK then answerMsg m 5 i.status []
  else if m.op = 1 then answerMsg m 4 0 []
  else answerMsg m 3 0 [flitOf i.data]

/-- Whether a request is a write for a B-tile whose inbound queue has no room now: it waits (R112). -/
def State.inboundWaits (s : State) (m : LinkMsg) (late : Bool) : Bool :=
  let w := s.exportOf m.handle.toNat
  s.inboundOk m late && w.btile && m.op = 1 &&
    (match s.btTarget (w.base.toNat + m.offset.toNat) with | some (x, _) => !s.inRoom x | none => false)

/-- The first request of a port, when it has an OP, is performed and answered; requests are performed in delivery order (R338). -/
def State.inboundRow (s : State) (q : PortRef) (op : BitVec 8) : State :=
  match (s.port q).next isRequest with
  | some ((m, late), n) =>
    if s.alive && !s.mem.selfRefresh && m.op = op && isWindowMode (s.port q).mode && !s.inboundWaits m late then
      let i := (s.takeMsg q n m).inbound q m late
      i.state.linkSend q (i.answer m)
    else s
  | none => s

/-- WRITE (R222, R336). -/
def execWrite (q : PortRef) (s : State) : Res := .next (s.inboundRow q 1)

/-- READ (R222, R336). -/
def execRead (q : PortRef) (s : State) : Res := .next (s.inboundRow q 2)

/-! ## Answers at the importer (R336, R337) -/

/-- WINDOW_DATA: a response row of a WINDOW_READ is recorded (Table DR-5, R355). -/
def State.recordWindow (s : State) (r : OutReq) (handle : Nat) (data : Flit) : State :=
  match siteOfSrc r.head.src with
  | some x =>
    match (s.tile x).b.dmas.find? fun d => d.seq = r.head.tag with
    | some d =>
      s.scrivCtx r.head.tenant 7 r.head.src
        (leBytes 2 handle ++ leBytes 2 r.head.src.toNat ++ leBytes 2 d.seq.toNat ++ leBytes 2 (d.unitRow r.row) ++
          leBytes 2 (r.row % (d.rowBytes / 64)) ++ List.replicate 6 0 ++ flitBytes data)
    | none => s
  | none => s

/-- The import handle of a descriptor's request. -/
def State.handleOf (s : State) (r : OutReq) : Nat :=
  match siteOfSrc r.head.src with
  | some x => (match (s.tile x).b.dmas.find? fun d => d.seq = r.head.tag with | some d => d.remote / 2 ^ 48 | none => 0)
  | none => 0

/-- The first response of a port, when it has an OP, goes to its requester; one that answers nothing is dropped. -/
def State.responseRow (s : State) (q : PortRef) (op : BitVec 8) : State :=
  match (s.port q).next isResponse with
  | some ((m, _), n) =>
    if s.alive && m.op = op then
      let s1 := s.takeMsg q n m
      match (s.port q).outReqs.find? fun r => r.tag = m.tag with
      | none => s1
      | some r =>
        let s2 := s1.onPort q fun p => { p with outReqs := p.outReqs.filter fun x => x.tag ≠ m.tag }
        let die := xdDie q.xd.val
        let data := m.data.headD 0
        if op = 5 then s2.windowAnswer die r.head r.row r.read 0 (memStatus m.status)
        else (if op = 3 then s2.recordWindow r (s.handleOf r) data else s2).windowAnswer die r.head r.row r.read data OK
    else s
  | none => s

/-- READ_DATA (R336). -/
def execReadData (q : PortRef) (s : State) : Res := .next (s.responseRow q 3)

/-- WRITE_ACK (R336). -/
def execWriteAck (q : PortRef) (s : State) : Res := .next (s.responseRow q 4)

/-- NAK (R337). -/
def execNak (q : PortRef) (s : State) : Res := .next (s.responseRow q 5)

/-- CREDIT: the credits come back, and what waited for them is sent (R333). -/
def State.credit (s : State) (q : PortRef) : State :=
  match (s.port q).next (fun op => op = 6) with
  | some ((m, _), n) =>
    if s.alive then
      (s.takeMsg q n m).onPort q fun p =>
        Port.pump (p.txWait.length + 1)
          { p with reqCredits := p.reqCredits + m.reqCredits.toNat, rspCredits := p.rspCredits + m.rspCredits.toNat } s.clk.gts
    else s
  | none => s

/-- CREDIT (R333). -/
def execCredit (q : PortRef) (s : State) : Res := .next (s.credit q)

end Sys2Proof.Machine
end

