-- ==== Sys2Proof/Machine/Twin.lean ====
section
/-! DEFINITION. Twin lockstep: the binding and its messages (R362, R363), the records of a LEAD at its FOLLOW (R364), the comparison of
signatures and the reactions (R366, R367). -/

namespace Sys2Proof.Machine

open Sys2Proof

/-! ## The end of a binding (R367) -/

/-- The assayer, which compares signatures. -/
def twinAssaySrc : Src := 0x6006

/-- Changes the binding. -/
def State.onTwin (s : State) (f : Twin → Twin) : State := { s with links := { s.links with twin := f s.links.twin } }

/-- The binding ends: a FOLLOW's replay ends with it, and a waiting TWIN_UNBIND completes. -/
def State.endBinding (s : State) : State :=
  let w := s.links.twin
  let s1 := s.onTwin fun _ => {}
  let s2 := match w.tenant with
    | some t => if w.follow then s1.onCtx t fun c => { c with replay := c.replay.filter fun r => !r.follow } else s1
    | none => s1
  match w.unbindCmd with
  | some id => s2.finishId id OK 0
  | none => s2

/-- The reaction SAFE: a TWIN SAFE message goes out, TWIN_SYNC is driven, the safe state begins. -/
def State.twinSafe (s : State) (step : Nat) : State := (s.sendTwin 5 step 6 []).enterSafe 6 0 twinAssaySrc

/-- TWIN_LOST, and the reaction. -/
def State.twinLost (s : State) (step : Nat) (reason : Byte) : State :=
  let w := s.links.twin
  if !w.bound then s
  else
    let s1 := s.logEv twinAssaySrc TWIN_LOST (optTenant w.tenant) (leBytes 8 step ++ [reason, 0, 0, 0])
    if w.safeMode then s1.twinSafe step else s1.endBinding

/-! ## TWIN_BIND and TWIN_UNBIND (R362, R363) -/

/-- BODY of BIND and BIND_ACK (Table DR-8). -/
def Twin.body (w : Twin) : BitVec 256 := BitVec.ofNat 256 ((if w.follow then 1 else 0) + 256 * if w.safeMode then 1 else 0)

/-- Whether the twin port is UP. -/
def State.twinUp (s : State) : Bool := (s.port twinPort).mode = 20 && (s.port twinPort).state = .up

/-- TWIN_BIND: accepted, it sends BIND and waits for the peer. -/
def State.twinBind (f : Started) (s : State) : State :=
  if f.accepted then s
  else if 1 < f.p 20 1 || 1 < f.p 21 1 then s.fail f E_BAD_FIELD
  else if !s.twinUp then s.fail f E_LINK_DOWN
  else if s.links.twin.tenant.isSome || (s.ctx f.tenant).replay.isSome then s.fail f E_TWIN_STATE
  else if (s.port twinPort).peerId.toNat ≠ f.p 24 8 then s.fail f E_TWIN_PEER
  else
    let w : Twin := { cmd := some f.id, since := s.clk.gts, tenant := some f.tenant, safeMode := f.p 20 1 = 1, follow := f.p 21 1 = 1 }
    ((s.accept f).onTwin fun _ => w).sendTwin 1 0 w.body []

/-- TWIN_BIND (R362). -/
def execTwinBind (c : Serve) (s : State) : Res := .next (s.serve c 0x1D State.twinBind)

/-- TWIN_PEER_TIMEOUT: the peer has not bound within 10 s. -/
def State.twinPeerTimeout (s : State) : State :=
  let w := s.links.twin
  match w.cmd with
  | some id => if s.alive && w.since.toNat + 10000000000 ≤ s.clk.gts.toNat then (s.onTwin fun _ => {}).finishId id E_TWIN_PEER 0 else s
  | none => s

/-- TWIN_PEER_TIMEOUT (R362). -/
def execTwinPeerTimeout (s : State) : Res := .next s.twinPeerTimeout

/-- Whether the steps that ran when TWIN_UNBIND was accepted have ended and are compared. -/
def State.unbindReady (s : State) : Bool :=
  let w := s.links.twin
  w.unbindSteps.all fun (e : Nat × Nat) => match Map.look s.insts e.1 with
    | some i => e.2 < i.stepNo && w.own.all fun g => !(g.crc = i.crc && g.step.toNat ≤ e.2)
    | none => true

/-- UNBIND goes out and the binding ends. -/
def State.sendUnbind (s : State) : State := (s.sendTwin 6 0 0 []).endBinding

/-- TWIN_UNBIND: at once, or after the comparison of the running step. -/
def State.twinUnbind (f : Started) (s : State) : State :=
  let w := s.links.twin
  if f.accepted then (if w.unbindCmd = some f.id && s.unbindReady then s.sendUnbind else s)
  else if !w.bound || w.tenant ≠ some f.tenant || w.unbindCmd.isSome then s.fail f E_TWIN_STATE
  else
    let run := ((s.instsOf f.tenant).filter fun i => i.run.running).map fun i => (i.id.toNat, i.stepNo)
    let s1 := (s.accept f).onTwin fun w => { w with unbindCmd := some f.id, unbindSteps := run }
    if s1.unbindReady then s1.sendUnbind else s1

/-- TWIN_UNBIND (R363). -/
def execTwinUnbind (c : Serve) (s : State) : Res := .next (s.serve c 0x1E State.twinUnbind)

/-! ## Messages (R363, Tables DR-7, DR-8) -/

/-- The first request of the twin port, where it is a TWIN message of a kind. -/
def State.twinNext (s : State) (kind : BitVec 16) : Option (LinkMsg × Nat) :=
  match (s.port twinPort).next isRequest with
  | some ((m, _), n) => if s.alive && m.op = 7 && m.handle = kind then some (m, n) else none
  | none => none

/-- The binding exists once BIND_ACK was sent and received. -/
def State.checkBound (s : State) : State :=
  let w := s.links.twin
  match w.cmd with
  | some id => if w.sentAck && w.gotAck then (s.onTwin fun w => { w with bound := true, cmd := none }).finishId id OK 0 else s
  | none => s

/-- Whether a BIND or BIND_ACK matches the own command: the opposite ROLE, the same REACTION. -/
def Twin.matches (w : Twin) (m : LinkMsg) : Bool :=
  m.body = BitVec.ofNat 256 ((if w.follow then 0 else 1) + 256 * if w.safeMode then 1 else 0)

/-- BIND: it waits for the own command; a matching one is answered with BIND_ACK. -/
def State.bindRow (s : State) : State :=
  match s.twinNext 1 with
  | none => s
  | some (m, n) =>
    let w := s.links.twin
    if w.bound then (s.takeMsg twinPort n m).twinLost 0 2
    else if w.cmd.isNone then s
    else
      let s1 := (s.takeMsg twinPort n m).onTwin fun w => { w with gotCount := 1 }
      if m.tag = 0 && w.matches m then
        ((s1.sendTwin 2 0 w.body []).onTwin fun w => { w with sentAck := true }).checkBound
      else s1

/-- BIND (R363). -/
def execBind (s : State) : Res := .next s.bindRow

/-- A TWIN message after BIND is taken; a count other than the next loses the binding (R363). -/
def State.twinTake (s : State) (kind : BitVec 16) (k : LinkMsg → State → State) : State :=
  match s.twinNext kind with
  | none => s
  | some (m, n) =>
    let s1 := s.takeMsg twinPort n m
    let w := s1.links.twin
    if w.bound || w.cmd.isSome then
      if m.tag = w.gotCount then k m (s1.onTwin fun w => { w with gotCount := w.gotCount + 1 })
      else s1.twinLost m.offset.toNat 2
    else s1

/-- BIND_ACK: it confirms the own BIND. -/
def State.bindAckRow (s : State) : State :=
  s.twinTake 2 fun m s => if s.links.twin.matches m then (s.onTwin fun w => { w with gotAck := true }).checkBound else s

/-- BIND_ACK (R363). -/
def execBindAck (s : State) : Res := .next s.bindAckRow

/-- A record as a RECORD message carries it. -/
def parseRecord (bs : List Byte) : ReplayRec :=
  { kind := bs.getD 0 0, layout := bs.getD 2 0, step := BitVec.ofNat 64 (rd bs 16 8), src := BitVec.ofNat 16 (rd bs 24 2),
    seq := BitVec.ofNat 32 (rd bs 28 4), gts := BitVec.ofNat 64 (rd bs 8 8), payload := (bs.drop 32).take (rd bs 4 4) }

/-- The own layout that pairs with a STEP_BEGIN record: the tenant's with its LAYOUT_CRC (R362). -/
def State.pairOf (s : State) (t : Tenant) (x : ReplayRec) : Option Instance :=
  (s.instsOf t).find? fun i => i.crc.toNat = rd x.payload 0 4

/-- A record reaches the FOLLOW: a STEP_BEGIN lets its paired layout run one more step as a replay; the rest is applied in its order
(R359, R364). -/
def State.followRecord (s : State) (t : Tenant) (x : ReplayRec) : State :=
  let s1 :=
    if x.kind = 1 then
      match s.pairOf t x with
      | some i =>
        let had : Bool := match (s.ctx t).replay with | some r => r.layout = i.id | none => false
        let r : Replay := match (s.ctx t).replay with
          | some r => { r with layout := i.id }
          | none => { layout := i.id, cmd := none, recs := [], follow := true }
        (s.onCtx t fun c => { c with replay := some r }).onInst i.id fun i =>
          { i with stepsLeft := some ((if had then i.stepsLeft.getD 0 else 0) + 1) }
      | none => s
    else s
  (s1.onCtx t fun c => { c with replay := c.replay.map fun r =>
    { r with recs := (r.recs.filter fun y => !y.applied) ++ [{ x with layout := r.layout }] } }).replayRun t

/-- RECORD. -/
def State.recordRow (s : State) : State :=
  s.twinTake 3 fun m s =>
    match s.links.twin.tenant with
    | some t => if s.links.twin.bound && s.links.twin.follow then s.followRecord t (parseRecord (m.data.flatMap flitBytes)) else s
    | none => s

/-- RECORD (R364). -/
def execRecord (s : State) : Res := .next s.recordRow

/-- SIGNATURE: the assayer holds the peer's signature (R366). -/
def State.signatureRow (s : State) : State :=
  s.twinTake 4 fun m s =>
    s.onTwin fun w =>
      if w.bound then
        { w with peer := w.peer ++ [{ sig := m.body.extractLsb' 0 128, crc := m.body.extractLsb' 128 32, step := m.offset, gts := s.clk.gts }] }
      else w

/-- SIGNATURE (R366). -/
def execSignature (s : State) : Res := .next s.signatureRow

/-- SAFE: a bound package enters the safe state (R367). -/
def State.safeRow (s : State) : State := s.twinTake 5 fun _ s => if s.safeBound then s.enterSafe 6 0 twinSrc else s

/-- SAFE (R367). -/
def execSafe (s : State) : Res := .next s.safeRow

/-- UNBIND: the binding ends (R363). -/
def State.unbindRow (s : State) : State := s.twinTake 6 fun _ s => if s.links.twin.bound then s.endBinding else s

/-- UNBIND (R363). -/
def execUnbind (s : State) : Res := .next s.unbindRow

/-! ## The comparison (R366, R367) -/

/-- The signatures to compare: the first own one that a peer's signature of the same LAYOUT_CRC has met, or else, where the peer's first one
names a LAYOUT_CRC that the tenant does not run, the first of each (log entry 44). -/
def State.twinPair (s : State) : Option (StepSig × StepSig) :=
  let w := s.links.twin
  match w.own.findSome? fun o => (w.peer.find? fun p => p.crc = o.crc).map fun p => (o, p) with
  | some x => some x
  | none =>
    match w.tenant, w.own, w.peer with
    | some t, o :: _, p :: _ => if (s.instsOf t).any fun i => i.crc = p.crc then none else some (o, p)
    | _, _, _ => none

/-- TWIN_MISMATCH, and the reaction: REPORT marks the LEAD's STEP, SAFE enters the safe state. -/
def State.twinMismatch (s : State) (o p : StepSig) : State :=
  let w := s.links.twin
  let s1 := s.logEv twinAssaySrc TWIN_MISMATCH (optTenant w.tenant) (leBytes 8 o.step.toNat ++ leBytes 16 o.sig.toNat ++ leBytes 16 p.sig.toNat)
  if w.safeMode then s1.twinSafe o.step.toNat
  else if w.follow then s1
  else match w.tenant with
    | some t =>
      ((s1.instsOf t).filter fun i => i.crc = o.crc && i.stepCmd.isSome).foldl
        (fun a i => a.onInst i.id fun j => { j with firstAbort := if j.firstAbort = 0 then E_TWIN_MISMATCH else j.firstAbort }) s1
    | none => s1

/-- TWIN_COMPARE: signatures, STEP and LAYOUT_CRC that differ are a mismatch. -/
def State.twinCompare (s : State) : State :=
  if !s.alive || !s.links.twin.bound then s
  else match s.twinPair with
    | none => s
    | some (o, p) =>
      let s1 := s.onTwin fun w => { w with own := w.own.erase o, peer := w.peer.erase p }
      if o.sig = p.sig && o.step = p.step && o.crc = p.crc then s1 else s1.twinMismatch o p

/-- TWIN_COMPARE (R366). -/
def execTwinCompare (s : State) : Res := .next s.twinCompare

/-- TWIN_SIGNATURE_LOST: the peer's signature has not arrived 10 ms after the own step end. -/
def State.twinSignatureLost (s : State) : State :=
  match s.links.twin.own with
  | o :: _ =>
    if s.alive && s.links.twin.bound && s.twinPair.isNone && o.gts.toNat + 10000000 ≤ s.clk.gts.toNat then
      (s.onTwin fun w => { w with own := w.own.drop 1 }).twinLost o.step.toNat 0
    else s
  | [] => s

/-- TWIN_SIGNATURE_LOST (R366). -/
def execTwinSignatureLost (s : State) : Res := .next s.twinSignatureLost

end Sys2Proof.Machine
end

