-- ==== Sys2Proof/Machine/Links.lean ====
section
/-! DEFINITION. Ports: LINK_CONFIG and training (R323 to R326), codewords and retry (R331 to R334), retrain and failure (R335, R339). -/

namespace Sys2Proof.Machine

open Sys2Proof

/-! ## LINK_CONFIG (R323, R324) -/

/-- Lanes of a mode (Table LK-1); none for a number that is no mode. -/
def modeLanes (m : Nat) : Option Nat :=
  match m with
  | 0 => some 0
  | 1 => some 4 | 2 => some 4 | 3 => some 2 | 4 => some 1 | 5 => some 4 | 6 => some 1 | 7 => some 1
  | 16 => some 1 | 17 => some 2 | 18 => some 4 | 19 => some 8 | 20 => some 2
  | _ => none

/-- Whether a mode is allowed at a first lane of an I/O die. -/
def modeAllowed (m xd lane : Nat) : Bool :=
  match modeLanes m with
  | none => false
  | some n => lane < 8 && (n = 0 || lane % n = 0) && (m ≠ 20 || (xd = 3 && lane = 6))

/-- Whether a lane of a mode's port at a first lane belongs to another configured port of its die. -/
def State.lanesTaken (s : State) (p : PortRef) (m : Nat) : Bool :=
  (List.finRange 8).any fun l =>
    let q : PortRef := { p with lane := l }
    let n := (modeLanes (s.port q).mode.toNat).getD 0
    let k := (modeLanes m).getD 0
    l ≠ p.lane && 0 < n && l.val < p.lane.val + k && p.lane.val < l.val + n

/-- Whether a port may not be taken down: an enabled Ethernet ring, an import, or a twin binding on the twin port. -/
def State.portHeld (s : State) (p : PortRef) : Bool :=
  (s.ethPort p).rx.enable || (s.ethPort p).tx.enable || s.importNames p || (p = twinPort && s.links.twin.tenant.isSome)

/-- Why a LINK_CONFIG is refused, if it is, in the order of R324's table. -/
def State.linkRefusal (s : State) (f : Started) : Option Status :=
  let die := f.p 20 1
  if dieKind s.pkg.variant die ≠ some .xd || 63 < f.p 23 1 then some E_BAD_FIELD
  else if !s.dieUp die then some E_DOMAIN_STATE
  else if !modeAllowed (f.p 22 1) (xdNumber die) (f.p 21 1) then some E_LINK_MODE
  else
    let p : PortRef := { xd := Fin.ofNat 8 (xdNumber die), lane := Fin.ofNat 8 (f.p 21 1) }
    if s.lanesTaken p (f.p 22 1) || s.portHeld p then some E_LINK_BUSY else none

/-- LINK_CONFIG: the old port is taken down, its registers are reset, and the new mode trains. -/
def State.linkConfig (f : Started) (s : State) : State :=
  if f.accepted then s
  else match s.linkRefusal f with
    | some st => s.fail f st
    | none =>
      let p : PortRef := { xd := Fin.ofNat 8 (xdNumber (f.p 20 1)), lane := Fin.ofNat 8 (f.p 21 1) }
      let s1 := s.onEth p fun _ => {}
      if f.p 22 1 = 0 then (s1.onPort p fun _ => {}).done f
      else
        let q : Port := { mode := BitVec.ofNat 8 (f.p 22 1), tenant := Fin.ofNat 16 (f.p 23 1 % 16), noAn := f.p 23 1 / 16 % 2 = 1,
                          pause := f.p 23 1 / 32 = 1, state := .training, cmd := some f.id, trainSince := s.clk.gts }
        (s1.onPort p fun _ => q).accept f

/-- LINK_CONFIG (R324). -/
def execLinkConfig (c : Serve) (s : State) : Res := .next (s.serve c 0x27 State.linkConfig)

/-! ## UP, RETRAIN, FAILED (R324, R325, R335, R339) -/

/-- The source number that a port's events carry: the first lane's, or unit 80 for the twin port. -/
def State.linkSrc (s : State) (p : PortRef) : Src := if (s.port p).mode = 20 then twinSrc else portSrc p

/-- The port reaches UP: LINK_CONFIG completes, and what waited is sent. -/
def State.portUp (s : State) (p : PortRef) : State :=
  let cmd := (s.port p).cmd
  let s1 := s.onPort p fun q =>
    Port.pump (q.txWait.length + 1) { q with state := .up, cmd := none, attempts := 0, between := false, askedReplay := false,
                                             replaysNoAdvance := 0, lastAdvance := s.clk.gts } s.clk.gts
  match cmd with
  | some id => s1.finishId id OK 0
  | none => s1

/-- LINK_RETRAIN (Table IG-5). -/
def State.logRetrain (s : State) (p : PortRef) (reason : Byte) (attempt : Nat) : State :=
  s.logEv (s.linkSrc p) LINK_RETRAIN noTenant [reason, BitVec.ofNat 8 attempt, 0, 0]

/-- The port enters RETRAIN, with its retry buffer (R335). -/
def State.retrain (s : State) (p : PortRef) (reason : Byte) : State :=
  (s.onPort p fun q => { q with state := .retrain, attempts := 1, trainSince := s.clk.gts, retrains := addSat q.retrains 1 }).logRetrain p reason 1

/-- LINK_DOWN: the port goes to FAILED, and the requests that have no answer end without one (R339). -/
def State.portFailed (s : State) (p : PortRef) (reason : Byte) : State :=
  let q := s.port p
  let answered := fun (r : OutReq) => q.rx.any fun (m : LinkMsg × Bool) => isResponse m.1.op && m.1.tag = r.tag
  let lost := q.outReqs.filter fun r => !answered r
  let s1 := s.logEv (s.linkSrc p) LINK_DOWN noTenant ([reason, 0, 0, 0] ++ leBytes 8 q.peerId.toNat)
  let s2 := s1.onPort p fun q =>
    { q with state := .failed, trainSince := s.clk.gts, attempts := 0, between := true, reqCredits := 0, rspCredits := 0, rxExpect := 0,
             askedReplay := false, txNext := 0, unacked := [], replaysNoAdvance := 0, txWait := [],
             rx := q.rx.filter (fun m => isResponse m.1.op), outReqs := q.outReqs.filter answered }
  let s3 := lost.foldl (fun a r => a.windowAnswer (xdDie p.xd.val) r.head r.row r.read 0 E_PEER_DOWN) s2
  if p = twinPort && q.mode = 20 then s3.twinLost 0 1 else s3

/-- One retrain attempt has failed: the next one begins, or after three the port fails (R335). -/
def State.attemptFailed (s : State) (p : PortRef) (reason : Byte) : State :=
  let n := (s.port p).attempts
  if 3 ≤ n then s.portFailed p 0
  else (s.onPort p fun q => { q with attempts := n + 1, trainSince := s.clk.gts, retrains := addSat q.retrains 1 }).logRetrain p reason (n + 1)

/-- A protocol error (R332, R335): an UP port retrains, a retrain attempt fails, a first training begins again (log entry 45). -/
def State.protocolError (s : State) (p : PortRef) : State :=
  match (s.port p).state with
  | .up => s.retrain p 3
  | .retrain => s.attemptFailed p 3
  | .training => s.logRetrain p 3 1
  | _ => s

/-- LANE_SIGNAL_LOSS: signal or block lock, or a clock's lock, is lost. -/
def State.laneSignalLoss (s : State) (p : PortRef) (why : LaneLoss) : State :=
  if s.alive && (s.port p).state = .up then s.retrain p (match why with | .signal => 1 | .clockLock => 2) else s

/-- LANE_SIGNAL_LOSS (R335). -/
def execLaneSignalLoss (p : PortRef) (why : LaneLoss) (s : State) : Res := .next (s.laneSignalLoss p why)

/-- PLL_LOCK: a PLL of the locked group, or the TCLK PLL, loses lock: the safe state. The loss of an I/O die's KCLK is a fault of that die's
links, whose ports retrain with REASON clock lock (R34, R335; log entry 34). -/
def State.pllLock (s : State) (p : PllSel) : State :=
  if !s.alive then s
  else match p with
    | .locked _ => s.enterSafe 4 0 stewardSrc
    | .tclk => s.enterSafe 4 0 0x6005
    | .kclk x => (List.finRange 8).foldl (fun a l => a.laneSignalLoss { xd := x, lane := l } .clockLock) s

/-- PLL_LOCK (R34). -/
def execPllLock (p : PllSel) (s : State) : Res := .next (s.pllLock p)

/-- TRAINING_TIMEOUT: 500 ms without UP. The first training's failure completes LINK_CONFIG. -/
def State.trainingTimeout (s : State) (p : PortRef) : State :=
  let q := s.port p
  if !s.alive || s.clk.gts.toNat < q.trainSince.toNat + 500000000 || q.between then s
  else match q.state with
    | .training =>
      let s1 := s.onPort p fun q => { q with between := true, trainSince := s.clk.gts, cmd := none }
      match q.cmd with
      | some id => s1.finishId id E_LINK_DOWN 0
      | none => s1
    | .retrain => s.attemptFailed p 1
    | _ => s

/-- TRAINING_TIMEOUT (R325). -/
def execTrainingTimeout (p : PortRef) (s : State) : Res := .next (s.trainingTimeout p)

/-- TRAINING_RETRY: a configured port that is down trains again once per second, with RESUME clear (R324, R326). -/
def State.trainingRetry (s : State) (p : PortRef) : State :=
  let q := s.port p
  if s.alive && q.mode ≠ 0 && q.between && q.trainSince.toNat + 1000000000 ≤ s.clk.gts.toNat then
    s.onPort p fun q => { q with state := .training, between := false, trainSince := s.clk.gts }
  else s

/-- TRAINING_RETRY (R324). -/
def execTrainingRetry (p : PortRef) (s : State) : Res := .next (s.trainingRetry p)

/-- AUTO_NEGOTIATION_DONE: the training of an Ethernet port ends. -/
def State.autoNegotiationDone (s : State) (p : PortRef) : State :=
  let q := s.port p
  if s.alive && isEthMode q.mode && !q.between && (q.state = .training || q.state = .retrain) then s.portUp p else s

/-- AUTO_NEGOTIATION_DONE (R325). -/
def execAutoNegotiationDone (p : PortRef) (s : State) : Res := .next (s.autoNegotiationDone p)

/-! ## IDENT (R326) -/

/-- How far a sequence number lies behind another, modulo 512. -/
def seqDist (a b : BitVec 9) : Nat := (b - a).toNat

/-- OLDEST_SEQ of a port. -/
def Port.oldest (q : Port) : BitVec 9 := q.unacked.headD q.txNext

/-- Codewords that an acknowledgement leaves in the retry buffer. -/
def afterAck (l : List (BitVec 9)) (ack : BitVec 9) : List (BitVec 9) := if l.contains ack then (l.dropWhile fun x => x ≠ ack).drop 1 else l

/-- Flits of the received messages of a class that a port has not taken. -/
def Port.heldFlits (q : Port) (ofClass : BitVec 8 → Bool) : Nat :=
  ((q.rx.filter fun m => ofClass m.1.op && !msgFree m.1).map fun m => msgFlits m.1).sum

/-- The IDENT flit that a port sends (R326): what its receiver has free, and its retry state when it retrains; a first training starts over. -/
def Port.identOut (q : Port) (own : DWord) (resume : Bool) : IdentFlit :=
  { magic := 0x544E4449, version := 1, mode := q.mode, resume := resume, reservedZero := true, packageId := own
    reqCredits := if resume then BitVec.ofNat 16 (512 - q.heldFlits fun op => !isResponse op) else 512
    rspCredits := if resume then BitVec.ofNat 16 (512 - q.heldFlits isResponse) else 512
    ackSeq := if resume then q.rxExpect - 1 else 511
    nextSeq := if resume then q.txNext else 0
    oldestSeq := if resume then q.oldest else 0 }

/-- The IDENT exchange ends well: the credits and, when resuming, the retry buffer follow the peer's. -/
def Port.identified (q : Port) (f : IdentFlit) (resume : Bool) : Port :=
  let q1 := { q with peerId := f.packageId, reqCredits := f.reqCredits.toNat, rspCredits := f.rspCredits.toNat }
  if resume then { q1 with unacked := afterAck q1.unacked f.ackSeq }
  else { q1 with unacked := [], txNext := 0, rxExpect := 0 }

/-- IDENT: the peer's MODE, identity and retry state decide. -/
def State.ident (s : State) (p : PortRef) (f : IdentFlit) : State :=
  let q := s.port p
  let resume : Bool := q.state = .retrain
  if !s.alive || q.mode.toNat < 16 || q.between || !(q.state = .training || q.state = .retrain) then s
  else if f.magic ≠ 0x544E4449 || f.version ≠ 1 || !f.reservedZero then s.protocolError p
  else if f.mode ≠ q.mode then s
  else if resume && f.packageId ≠ q.peerId then s.portFailed p 1
  else if f.resume ≠ resume then s.portFailed p 2
  else if resume && seqDist q.oldest q.txNext < seqDist q.oldest (f.ackSeq + 1) then s.portFailed p 2
  else (s.onPort p fun q => { q.identified f resume with sentIdent := some (q.identOut s.pkg.packageId resume) }).portUp p

/-- IDENT (R326). -/
def execIdent (p : PortRef) (f : IdentFlit) (s : State) : Res := .next (s.ident p f)

/-! ## Codewords (R331 to R334) -/

/-- A replay: everything not acknowledged is sent again, in order; the eighth without progress retrains the port (R334, R335). -/
def State.replayLink (s : State) (p : PortRef) : State :=
  let q := s.port p
  if q.unacked.isEmpty then s
  else
    let n := addSat q.retries 1
    let s1 := (s.onPort p fun q => { q with retries := n, replaysNoAdvance := q.replaysNoAdvance + 1, lastAdvance := s.clk.gts }).logEv
      (s.linkSrc p) LINK_RETRY noTenant (leBytes 2 q.oldest.toNat ++ leBytes 2 (q.unacked.getLastD 0).toNat ++ leBytes 4 n.toNat)
    if 8 ≤ q.replaysNoAdvance + 1 then s1.retrain p 0 else s1

/-- ACKSEQ of a received codeword. -/
def Port.acked (q : Port) (ack : BitVec 9) (now : DWord) : Port :=
  if q.unacked.contains ack then
    Port.pump (q.txWait.length + 1) { q with unacked := afterAck q.unacked ack, lastAdvance := now, replaysNoAdvance := 0 } now
  else q

/-- Whether a message is a protocol error: a reserved OP or a reserved byte that is not zero (R332). -/
def badMsg (m : LinkMsg) : Bool := 7 < m.op.toNat || m.badReserved

/-- Whether a port carries a message: the twin port only TWIN messages and credits, the others none of TWIN (log entry 45). -/
def carries (mode : Byte) (m : LinkMsg) : Bool := m.op = 6 || (if mode = 20 then m.op = 7 else m.op ≠ 7 && m.op ≠ 0)

/-- The messages of an accepted codeword enter the receiver; a request that finds its window closing is marked (R223). -/
def State.deliverMsgs (s : State) (p : PortRef) (ms : List LinkMsg) : State :=
  let marked := (ms.filter fun m => carries (s.port p).mode m).map fun m =>
    (m, (m.op = 1 || m.op = 2 : Bool) && (s.exportOf m.handle.toNat).closing.isSome)
  s.onPort p fun q => { q with rx := q.rx ++ marked }

/-- The receiver asks for a replay, once until the expected SEQ arrives. -/
def State.askReplay (s : State) (p : PortRef) : State := s.onPort p fun q => { q with askedReplay := true }

/-- What the header of a good codeword tells the sender of this end. A REPLAY for a codeword that is acknowledged is ignored (Corners). -/
def State.takeHeader (s : State) (p : PortRef) (c : Codeword) : State :=
  let s1 := s.onPort p fun q => q.acked c.ackSeq s.clk.gts
  if c.replay && (s1.port p).oldest = c.ackSeq + 1 then s1.replayLink p else s1

/-- CODEWORD_RX: taken in SEQ order; one that cannot be corrected, or is out of order, is discarded and a replay asked for. A codeword with
both NULL and REPLAY is an IDENT, which an UP port ignores. -/
def State.codewordRx (s : State) (p : PortRef) (c : Codeword) : State :=
  let q := s.port p
  if !s.alive || q.mode.toNat < 16 || q.state ≠ .up then s
  else if !c.correctable then (s.onPort p fun q => { q with fecUncorrected := addSat q.fecUncorrected 1 }).askReplay p
  else
    let s1 := if c.corrected then s.onPort p fun q => { q with fecCorrected := addSat q.fecCorrected 1 } else s
    if c.isNull then (if c.replay then s1 else s1.takeHeader p c)
    else if c.seq ≠ q.rxExpect then s1.askReplay p
    else
      let s2 := s1.onPort p fun q => { q with rxExpect := q.rxExpect + 1, askedReplay := false }
      if c.msgs.any badMsg then s2.protocolError p
      else (s2.deliverMsgs p c.msgs).takeHeader p c

/-- CODEWORD_RX (R334). -/
def execCodewordRx (p : PortRef) (c : Codeword) (s : State) : Res := .next (s.codewordRx p c)

/-- RETRY_TIMEOUT: ACKSEQ has not advanced for 2 µs with codewords unacknowledged. -/
def State.retryTimeout (s : State) (p : PortRef) : State :=
  let q := s.port p
  if s.alive && q.state = .up && !q.unacked.isEmpty && q.lastAdvance.toNat + 2000 ≤ s.clk.gts.toNat then s.replayLink p else s

/-- RETRY_TIMEOUT (R334). -/
def execRetryTimeout (p : PortRef) (s : State) : Res := .next (s.retryTimeout p)

end Sys2Proof.Machine
end

