-- ==== Sys2Proof/Machine/Ether.lean ====
section
/-! DEFINITION. Ethernet rings: enabling, reception and transmission of frames, PAUSE (R327 to R330). -/

namespace Sys2Proof.Machine

open Sys2Proof

/-- Whether a tenant owns an Ethernet port (R327). -/
def State.ownsPort (s : State) (t : Tenant) (p : PortRef) : Bool := isEthMode (s.port p).mode && (s.port p).tenant = t

/-- Whether a port's engines may start new work: the main domains run and the die is not closing (R248). -/
def State.ethStarts (s : State) (p : PortRef) : Bool := s.alive && !s.dieDown (xdDie p.xd.val)

/-- Ring address of the entry that a ring comes to next. -/
def EthRing.entryVa (g : EthRing) : Nat := g.baseHi.toNat * 2 ^ 32 + g.baseLo.toNat + g.next.toNat % 2 ^ g.sizeLog2.toNat * 32

/-- The half whose translation unit serves a port. -/
def State.portHalf (s : State) (p : PortRef) : Fin 2 := halfOf s.pkg.variant (xdDie p.xd.val)

/-- The fault information of a port's accesses (AGENT 4). -/
def portAccess (p : PortRef) : FaultInfo := stewardAccess (portSrc p)

/-- A ring of a direction. -/
def EthPort.ring (e : EthPort) : EthDir → EthRing
  | .rx => e.rx
  | .tx => e.tx

/-- Changes a ring. -/
def State.onEthRing (s : State) (p : PortRef) (d : EthDir) (f : EthRing → EthRing) : State :=
  s.onEth p fun e => match d with | .rx => { e with rx := f e.rx } | .tx => { e with tx := f e.tx }

/-- A port waits on the beacon that counts posted entries, where it does not already (R328, R329). A receive ring waits while a frame is in
the buffer. -/
def State.ethAwait (s : State) (p : PortRef) (d : EthDir) : State :=
  let e := s.ethPort p
  let g := e.ring d
  let work : Bool := match d with | .rx => !e.buffer.isEmpty | .tx => true
  if g.enable && !g.waiting && !g.granted && work then
    (s.onEthRing p d fun g => { g with waiting := true }).sendWait (s.port p).tenant g.beaconA 1 (portSrc p) (.eth p d)
  else s

/-- A ring is taken out of use: its wait goes with it (log entry 46). -/
def State.ethDisable (s : State) (p : PortRef) (d : EthDir) : State :=
  (s.dropWaits (s.port p).tenant fun w => w = .eth p d).onEthRing p d fun g => { g with enable := false, waiting := false, granted := false }

/-- A ring's CFG register takes a value while ENABLE is 0. -/
def EthRing.withCfg (g : EthRing) (v : Word) : EthRing :=
  let n := bitsOf v 24 5
  let on := bitAt v 31 && 4 ≤ n && n ≤ 14
  { g with sizeLog2 := BitVec.ofNat 5 n, beaconA := BitVec.ofNat 12 (bitsOf v 12 12), beaconB := BitVec.ofNat 12 (bitsOf v 0 12),
           enable := on, next := if on then 0 else g.next }

/-- A write of a ring's CFG register by the owning tenant: it sets the ring up, or takes it out of use. -/
def State.ethCfgWrite (s : State) (p : PortRef) (d : EthDir) (v : Word) : State :=
  let g := (s.ethPort p).ring d
  if g.enable then (if bitAt v 31 then s else s.ethDisable p d)
  else (s.onEthRing p d fun g => g.withCfg v).ethAwait p d

/-- ETH_RING_ENABLE: the write that sets ENABLE. -/
def State.ethRingEnable (s : State) (t : Tenant) (p : PortRef) (d : EthDir) (v : Word) : State :=
  if s.fnLive (.vf t) && s.ownsPort t p && bitAt v 31 then s.ethCfgWrite p d v else s

/-- ETH_RING_ENABLE (R327). -/
def execEthRingEnable (t : Tenant) (p : PortRef) (d : EthDir) (v : Word) (s : State) : Res := .next (s.ethRingEnable t p d v)

/-- A ring's own address faults: the record is written, ENABLE clears, RING_FAULT is logged (R328). -/
def State.ethRingFault (s : State) (p : PortRef) (d : EthDir) (index : Word) : State :=
  let t := (s.port p).tenant
  (s.ethDisable p d).logEv stewardSrc RING_FAULT (tenantByte t)
    ([(match d with | .rx => 7 | .tx => 8), tenantByte t] ++ leBytes 2 (xdDie p.xd.val * 256 + p.lane.val) ++ leBytes 4 index.toNat)

/-! ## Reception (R328, R330) -/

/-- Bytes in the receive buffer. -/
def EthPort.buffered (e : EthPort) : Nat := (e.buffer.map fun f => f.bytes.length).sum

/-- PAUSE goes out at 192 KiB, and ends below 64 KiB. -/
def State.sendPause (s : State) (p : PortRef) : State :=
  let e := s.ethPort p
  if (s.port p).pause && !e.pauseSent && 196608 ≤ e.buffered then
    s.onEth p fun e => { e with pauseSent := true, pausesOut := e.pausesOut ++ [0xFFFF] }
  else if e.pauseSent && e.buffered < 65536 then
    s.onEth p fun e => { e with pauseSent := false, pausesOut := e.pausesOut ++ [0] }
  else s

/-- An address or an EtherType as a frame carries it, first byte first. -/
def frameField (bytes : List Byte) (off n : Nat) : Nat := ((bytes.drop off).take n).foldl (fun a b => a * 256 + b.toNat) 0

/-- Whether a frame is one of PTP (R342). -/
def isPtpFrame (bytes : List Byte) : Bool := frameField bytes 0 6 = 0x011B19000000 && frameField bytes 12 2 = 0x88F7

/-- Whether a frame is a PAUSE frame of IEEE 802.3 Annex 31B (R330). -/
def isPauseFrame (bytes : List Byte) : Bool := frameField bytes 12 2 = 0x8808 && frameField bytes 14 2 = 1

/-- Whether the PTP unit of a port's die takes PTP messages (R342). -/
def State.ptpTakes (s : State) (p : PortRef) : Bool := s.time.source = .ptp && s.time.xd.toNat = xdDie p.xd.val

/-- A PAUSE frame is obeyed with PAUSE set, and discarded without (R330). -/
def State.pauseFrame (s : State) (p : PortRef) (quanta : BitVec 16) : State :=
  if s.alive && isEthMode (s.port p).mode && (s.port p).state = .up && (s.port p).pause then
    s.onEth p fun e => { e with paused := quanta ≠ 0 }
  else s

/-- ETH_FRAME_RX: `bytes` is the frame without its FCS. A PAUSE frame goes no further than the MAC, and the PTP unit takes its messages, whose
content is PTP_MESSAGE's (R330, R342). A closing die takes no frame up and drops it (log entry 49). -/
def State.ethFrameRx (s : State) (p : PortRef) (bytes : List Byte) (fcsOk : Bool) : State :=
  let q := s.port p
  let e := s.ethPort p
  let n := bytes.length + 4
  if !s.alive || !isEthMode q.mode || q.state ≠ .up then s
  else if !fcsOk || n < 64 || 9216 < n then s.onEth p fun e => { e with rxErrors := addSat e.rxErrors 1 }
  else if isPauseFrame bytes then s.pauseFrame p (BitVec.ofNat 16 (frameField bytes 16 2))
  else if s.ptpTakes p && isPtpFrame bytes then s
  else if s.replaying q.tenant then s.suppress q.tenant (portSrc p)
  else if !s.ethStarts p || !e.rx.enable || 262144 < e.buffered + bytes.length then s.onEth p fun e => { e with rxDrops := addSat e.rxDrops 1 }
  else
    ((s.onEth p fun e => { e with buffer := e.buffer ++ [{ bytes := bytes, gts := s.localGts (xdDie p.xd.val) }] }).ethAwait p .rx).sendPause p

/-- ETH_FRAME_RX (R328). -/
def execEthFrameRx (p : PortRef) (bytes : List Byte) (fcsOk : Bool) (s : State) : Res := .next (s.ethFrameRx p bytes fcsOk)

/-- The receive entry as written (Table LK-3). -/
def rxEntry (e : List Byte) (len : Nat) (status : Status) (gts : DWord) (src : Src) (trunc : Bool) : List Byte :=
  e.take 12 ++ leBytes 2 len ++ leBytes 2 status.toNat ++ leBytes 8 gts.toNat ++ leBytes 2 src.toNat ++ [if trunc then 1 else 0] ++
    (e.drop 27).take 5

/-- Every buffered frame is dropped and counted. -/
def State.dropFrames (s : State) (p : PortRef) : State :=
  s.onEth p fun e => { e with rxDrops := addSat e.rxDrops e.buffer.length, buffer := [] }

/-- The frame has been dealt with: the next entry and frame. -/
def State.rxNext (s : State) (p : PortRef) : State :=
  ((s.onEth p fun e => { e with buffer := e.buffer.drop 1, rx := { e.rx with next := e.rx.next + 1, granted := false } }).ethAwait p .rx).sendPause p

/-- The frame and its entry are written, DONE_BEACON is signalled, the frame is recorded. -/
def State.rxDeliver (s : State) (p : PortRef) (f : Frame) (e : List Byte) : State :=
  let t := (s.port p).tenant
  let half := s.portHalf p
  let g := (s.ethPort p).rx
  let va := rd e 0 8
  let room := rd e 8 4
  let data := f.bytes.take room
  let fault := (s.ctx t).rangeFault va data.length true
  let s1 := match fault with
    | some (a, c, l) => s.memFault t { portAccess p with va := a, write := true } c l
    | none => (s.vaWrite t half va data (portAccess p)).2
  let entry := rxEntry e f.bytes.length (if fault.isSome then E_DMA_FAULT else OK) f.gts (portSrc p) (room < f.bytes.length)
  match s1.vaWrite t half g.entryVa entry (portAccess p) with
  | (false, s2) => (s2.ethRingFault p .rx g.next).dropFrames p
  | (true, s2) =>
    let s3 := s2.onEth p fun e =>
      if fault.isSome then { e with rxDrops := addSat e.rxDrops 1 } else { e with rxFrames := addSat e.rxFrames 1 }
    ((s3.sendSignal t g.beaconB 1 (portSrc p)).scrivCtx t 6 (portSrc p) (entry ++ f.bytes)).rxNext p

/-- RX_ENTRY_WRITE: with FREE_BEACON's grant, the next entry takes the oldest frame. -/
def State.rxEntryWrite (s : State) (p : PortRef) : State :=
  let e := s.ethPort p
  let t := (s.port p).tenant
  match e.buffer with
  | [] => s
  | f :: _ =>
    if s.ethStarts p && e.rx.enable && e.rx.granted then
      match s.vaRead t (s.portHalf p) e.rx.entryVa 32 (portAccess p) with
      | (none, s1) => (s1.ethRingFault p .rx e.rx.next).dropFrames p
      | (some (bs, _), s1) => s1.rxDeliver p f bs
    else s

/-- RX_ENTRY_WRITE (R328). -/
def execRxEntryWrite (p : PortRef) (s : State) : Res := .next (s.rxEntryWrite p)

/-- PAUSE_FRAME (R330). -/
def execPauseFrame (p : PortRef) (quanta : BitVec 16) (s : State) : Res := .next (s.pauseFrame p quanta)

/-- PAUSE_EXPIRY (R330). -/
def execPauseExpiry (p : PortRef) (s : State) : Res := .next (s.onEth p fun e => { e with paused := false })

/-! ## Transmission (R329) -/

/-- The transmit entry as written (Table LK-3). -/
def txEntry (e : List Byte) (status : Status) (gts : DWord) (src : Src) : List Byte :=
  e.take 14 ++ leBytes 2 status.toNat ++ leBytes 8 gts.toNat ++ leBytes 2 src.toNat ++ (e.drop 26).take 6

/-- Whether a transmit entry is one: LEN in range, reserved fields zero. -/
def txEntryOk (e : List Byte) : Bool :=
  60 ≤ rd e 8 2 && rd e 8 2 ≤ 9212 && rd e 10 2 = 0 && rd e 12 2 = 0 && rd e 26 6 = 0

/-- A transmit entry completes with a status: it is written, DONE_BEACON is signalled, the port goes on to the next. -/
def State.txComplete (s : State) (p : PortRef) (e : List Byte) (status : Status) : State :=
  let t := (s.port p).tenant
  let g := (s.ethPort p).tx
  let s0 := s.onEth p fun e => { e with sending := none }
  match s0.vaWrite t (s.portHalf p) g.entryVa (txEntry e status (s.localGts (xdDie p.xd.val)) (portSrc p)) (portAccess p) with
  | (false, s1) => s1.ethRingFault p .tx g.next
  | (true, s1) =>
    ((s1.onEthRing p .tx fun g => { g with next := g.next + 1, granted := false }).sendSignal t g.beaconB 1 (portSrc p)).ethAwait p .tx

/-- ETH_TX: with POST_BEACON's grant, the next entry is read and its frame goes out; data with an error that cannot be corrected does not
(log entry 46). -/
def State.ethTx (s : State) (p : PortRef) : State :=
  let e := s.ethPort p
  let t := (s.port p).tenant
  if !s.ethStarts p || !e.tx.enable || !e.tx.granted || e.paused || e.sending.isSome || (s.port p).state ≠ .up then s
  else match s.vaRead t (s.portHalf p) e.tx.entryVa 32 (portAccess p) with
    | (none, s1) => s1.ethRingFault p .tx e.tx.next
    | (some (bs, _), s1) =>
      if !txEntryOk bs then s1.txComplete p bs E_BAD_FIELD
      else match s1.vaRead t (s.portHalf p) (rd bs 0 8) (rd bs 8 2) (portAccess p) with
        | (none, s2) => s2.txComplete p bs E_DMA_FAULT
        | (some (data, bad), s2) => if bad then s2.txComplete p bs E_ECC_UNCORRECTED else s2.onEth p fun e => { e with sending := some data }

/-- ETH_TX (R329). -/
def execEthTx (p : PortRef) (s : State) : Res := .next (s.ethTx p)

/-- ETH_TX_DONE: the last bit has left. -/
def State.ethTxDone (s : State) (p : PortRef) : State :=
  let e := s.ethPort p
  match e.sending with
  | none => s
  | some data =>
    if !s.alive || (s.port p).state ≠ .up then s
    else match s.vaRead (s.port p).tenant (s.portHalf p) e.tx.entryVa 32 (portAccess p) with
      | (none, s1) => (s1.onEth p fun e => { e with sending := none, wire := e.wire ++ [data], txFrames := addSat e.txFrames 1 }).ethRingFault p .tx e.tx.next
      | (some (bs, _), s1) =>
        (s1.onEth p fun e => { e with wire := e.wire ++ [data], txFrames := addSat e.txFrames 1 }).txComplete p bs OK

/-- ETH_TX_DONE (R329). -/
def execEthTxDone (p : PortRef) (s : State) : Res := .next (s.ethTxDone p)

end Sys2Proof.Machine
end

