-- ==== Sys2Proof/Machine/Time.lean ====
section
/-! DEFINITION. The discipline of the GTS: time sources, TAI_OFFSET, holdover, the rate (R43 to R46), PPS_OUT (R47), the copies of the GTS
(R40, R42), and PTP (R341 to R343). -/

namespace Sys2Proof.Machine

open Sys2Proof

/-- Changes the discipline. -/
def State.onTime (s : State) (f : TimeState → TimeState) : State := { s with time := f s.time }

/-- SOURCE as SET_TIME_SOURCE numbers it. -/
def sourceNum : TimeSource → Byte
  | .none => 0
  | .gtsRef => 1
  | .ppsIn => 2
  | .ptp => 3

/-- The source of a number. -/
def sourceOf : Nat → TimeSource
  | 1 => .gtsRef
  | 2 => .ppsIn
  | 3 => .ptp
  | _ => .none

/-- TAI_OFFSET as it reads: zero with the source NONE or GTS_REF (R45). -/
def TimeState.tai (t : TimeState) : DWord := if t.source = .ppsIn || t.source = .ptp then t.taiOffset else 0

/-- TIME_HOLDOVER and TIME_LOCKED (Table IG-5). -/
def State.logTime (s : State) (code : BitVec 16) (offset : DWord) : State :=
  s.logEv stewardSrc code noTenant ([sourceNum s.time.source, s.time.xd, 0, 0] ++ leBytes 8 offset.toNat)

/-- The largest rate offset: 100 ppm in units of 2^-32 (R44). -/
def maxRate : Nat := 429496

/-- The loop steers the rate: a free value within 100 ppm (log entry 11). -/
def State.steer (s : State) : State :=
  let x := s.fresh
  x.2.onTime fun t => { t with rateOffset := BitVec.ofInt 64 ((x.1.toNat % (2 * maxRate + 1) : Nat) - (maxRate : Int)) }

/-- The lock of a source: TIME_LOCKED. -/
def State.timeLock (s : State) : State :=
  let s1 := s.onTime fun t => { t with locked := true, holdover := false }
  s1.logTime TIME_LOCKED s1.time.tai

/-! ## SET_TIME_SOURCE (R43, R45, R342) -/

/-- Whether an Ethernet port of an I/O die is UP. -/
def State.ethUp (s : State) (die : Nat) : Bool :=
  (List.finRange 8).any fun l =>
    match portOfDie s.pkg.variant die l.val with
    | some p => isEthMode (s.port p).mode && (s.port p).state = .up
    | none => false

/-- SET_TIME_SOURCE. A later selection of PPS_IN in a start keeps TAI_OFFSET and ignores TAI_SECONDS (R45). DESIGN CHOICE (log entry 11): the
rate offset in force right after a selection, of which R43 to R46 say nothing, is 0 whatever source was selected. -/
def State.setTimeSource (f : Started) (s : State) : State :=
  let n := f.p 20 1
  let die := f.p 21 1
  if 3 < n || (n = 3 && dieKind s.pkg.variant die ≠ some .xd) then s.fail f E_BAD_FIELD
  else if n = 3 && !s.ethUp die then s.fail f E_LINK_DOWN
  else
    (s.onTime fun t =>
      { t with source := sourceOf n, xd := if n = 3 then BitVec.ofNat 8 die else 0, taiSeconds := if n = 2 then BitVec.ofNat 64 (f.p 24 8) else 0,
               ppsEdges := 0, nearest := t.taiSet, phaseTarget := 0, phaseError := 0, locked := false, holdover := false, rateOffset := 0, lastRate := s.clk.gts, lastSync := s.clk.gts }).done f

/-- SET_TIME_SOURCE. -/
def execSetTimeSource (c : Serve) (s : State) : Res := .next (s.serve c 0x24 State.setTimeSource)

/-! ## PPS_IN (R45) -/

/-- One second in the counts of the GTS. -/
def oneSecond : Nat := 1000000000

/-- The whole second nearest to a disciplined time; half a second counts up. -/
def nearestSecond (t : DWord) : DWord := BitVec.ofNat 64 ((t.toNat + oneSecond / 2) / oneSecond * oneSecond)

/-- The disciplined time that an edge of PPS_IN marks (R45): the n-th after the lock TAI_SECONDS + n; with TAI_OFFSET set before the
selection, the nearest whole second. -/
def State.edgeTarget (s : State) : DWord :=
  if s.time.nearest then nearestSecond (s.clk.gts + s.time.tai)
  else (s.time.taiSeconds + BitVec.ofNat 64 s.time.ppsEdges) * BitVec.ofNat 64 oneSecond

/-- The loop learns where GTS + TAI_OFFSET should stand, and steers the rate towards it (R44, R45). -/
def State.steerTo (s : State) (target : DWord) : State :=
  (s.onTime fun t => { t with phaseTarget := target, phaseError := target - (s.clk.gts + t.tai) }).steer

/-- PPS_IN_EDGE: the first edge after the selection is the lock; TAI_OFFSET is set once within a start. Later edges steer. With the source
GTS_REF the edge is stamped and handed to the merger as an event of the GTS master, and disciplines nothing (Corners; log entry 11). -/
def State.ppsInEdge (s : State) : State :=
  if s.alive && s.time.source = .gtsRef then s.emit 0x6005 .ppsEdge
  else if !s.alive || s.time.source ≠ .ppsIn || s.time.holdover then s
  else
    let s1 := s.onTime fun t => { t with ppsEdges := t.ppsEdges + 1 }
    if s.time.locked then s1.steerTo s.edgeTarget
    else if s.time.taiSet then s1.timeLock.steerTo s.edgeTarget
    else (s1.onTime fun t => { t with taiSet := true, taiOffset := t.taiSeconds * 1000000000 - s.clk.gts }).timeLock

/-- PPS_IN_EDGE (R45). -/
def execPpsInEdge (s : State) : Res := .next s.ppsInEdge

/-! ## Holdover (R46) -/

/-- Whether a disciplined source is selected and not lost. -/
def TimeState.disciplined (t : TimeState) : Bool := t.source ≠ .none && !t.holdover

/-- The source is lost: the rate holds, TIME_HOLDOVER is logged, the source stays selected. -/
def State.loseSource (s : State) : State := (s.onTime fun t => { t with holdover := true }).logTime TIME_HOLDOVER 0

/-- TIME_HOLDOVER (R46). -/
def execTimeHoldover (s : State) : Res := .next (if s.alive && s.time.disciplined then s.loseSource else s)

/-- PTP_SYNC_TIMEOUT: no Sync from the selected master for 4 s (R343). -/
def State.ptpSyncTimeout (s : State) : State :=
  if s.alive && s.time.disciplined && s.time.source = .ptp && s.time.locked && s.time.lastSync.toNat + 4000000000 ≤ s.clk.gts.toNat then
    s.loseSource
  else s

/-- PTP_SYNC_TIMEOUT (R343). -/
def execPtpSyncTimeout (s : State) : Res := .next s.ptpSyncTimeout

/-- TIME_SOURCE_RETURN: discipline resumes, TIME_LOCKED is logged; a source that had not locked yet locks with its first edge or exchange. -/
def State.timeSourceReturn (s : State) : State :=
  if s.alive && s.time.holdover then
    let s1 := s.onTime fun t => { t with holdover := false, lastSync := s.clk.gts }
    if s.time.locked || s.time.source = .gtsRef then s1.logTime TIME_LOCKED s1.time.tai else s1
  else s

/-- TIME_SOURCE_RETURN (R46). -/
def execTimeSourceReturn (s : State) : Res := .next s.timeSourceReturn

/-! ## The rate (R44) -/

/-- TIME_RATE: once in each second of discipline the rate offset is logged. -/
def State.timeRate (s : State) : State :=
  if s.alive && s.time.disciplined && s.time.lastRate.toNat + 1000000000 ≤ s.clk.gts.toNat then
    let s1 := if s.time.source = .gtsRef then s.steer else s
    (s1.onTime fun t => { t with lastRate := s.clk.gts }).logEv stewardSrc TIME_RATE noTenant (leBytes 8 s1.time.rateOffset.toNat)
  else s

/-- TIME_RATE (R44). -/
def execTimeRate (s : State) : Res := .next s.timeRate

/-! ## Copies of the GTS (R40) -/

/-- Changes the slip of a die's copy. -/
def State.onSlip (s : State) (d : Nat) (f : DWord → DWord) : State := s.onTime fun t => { t with slips := Map.upd 0 t.slips d f }

/-- GTS_SYNC: in the cycle in which the GTS reaches a multiple of 1,024, a die's copy, which has slipped by the row's drift since, is compared
with the master; one that disagrees is corrected and logged. In any other cycle no strobe comes: the row then is the copy's slip alone, and
stamps and reads of the die show it until the next strobe (Corners). DESIGN CHOICE (log entry 11): the SOURCE of GTS_SLIP, for which R40 names
no unit, is the die's clock unit 548 on a field die, unit 0 of the die on one without a clock unit, and the steward's number for SD1, whose
index R49 keeps for the lockstep comparator. -/
def State.gtsSync (s : State) (d : Nat) (drift : DWord) : State :=
  let copy := s.localGts d + drift
  if !s.alive || (dieKind s.pkg.variant d).isNone then s
  else if !s.gtsReached 1024 then s.onSlip d fun x => x + drift
  else if copy = s.clk.gts then s.onTime fun t => { t with slips := Map.set 0 t.slips d 0 }
  else (s.onTime fun t => { t with slips := Map.set 0 t.slips d 0 }).logEv (if d = 25 then stewardSrc else portUnit d) GTS_SLIP noTenant
    (leBytes 8 copy.toNat ++ leBytes 8 s.clk.gts.toNat)

/-- GTS_SYNC (R40). -/
def execGtsSync (d : Die) (drift : DWord) (s : State) : Res := .next (s.gtsSync d.val drift)

/-! ## PPS_OUT (R47) -/

/-- Whether PPS_OUT may rise: after TIME_LOCKED with PPS_IN or PTP, always with the others. -/
def TimeState.ppsReady (t : TimeState) : Bool := if t.source = .ppsIn || t.source = .ptp then t.locked else true

/-- Whether PPS_OUT may rise in this cycle: with PPS_IN or PTP within 5 ns of a whole second of GTS + TAI_OFFSET, with NONE and GTS_REF in
the cycle in which the GTS reaches a whole multiple of 1,000,000,000. -/
def State.ppsDue (s : State) : Bool :=
  if s.time.source = .ppsIn || s.time.source = .ptp then ((s.clk.gts + s.time.tai).toNat + 5) % oneSecond ≤ 10 else s.gtsReached oneSecond

/-- PPS_OUT: a rise at a whole second, once for each second. -/
def State.ppsOut (s : State) : State :=
  if s.alive && s.time.ppsReady && s.ppsDue &&
      (s.time.ppsOutEdges = 0 || s.time.lastPpsOut.toNat + 1000 ≤ s.clk.gts.toNat) then
    s.onTime fun t => { t with ppsOutEdges := t.ppsOutEdges + 1, lastPpsOut := s.clk.gts }
  else s

/-- PPS_OUT (R47). -/
def execPpsOut (s : State) : Res := .next s.ppsOut

/-! ## PTP (R342, R343) -/

/-- Whether a port brings PTP messages to the selected unit. -/
def State.ptpPort (s : State) (p : PortRef) : Bool :=
  s.alive && s.ptpTakes p && isEthMode (s.port p).mode && (s.port p).state = .up

/-- PTP_MESSAGE: a Sync feeds the watchdog; a complete exchange locks or steers. -/
def State.ptpMessage (s : State) (p : PortRef) (e : PtpEvent) : State :=
  if !s.ptpPort p then s
  else match e with
    | .other => s
    | .sync => s.onTime fun t => { t with lastSync := s.clk.gts }
    | .exchange master off =>
      if s.time.holdover then s
      else if s.time.locked then s.steerTo (s.clk.gts + s.time.tai + BitVec.ofInt 64 off)
      else
        let s1 := if s.time.taiSet then s
          else s.onTime fun t => { t with taiSet := true, taiOffset := BitVec.ofInt 64 (master - s.clk.gts.toNat) }
        s1.timeLock

/-- PTP_MESSAGE (R342, R343). -/
def execPtpMessage (p : PortRef) (e : PtpEvent) (s : State) : Res := .next (s.ptpMessage p e)

end Sys2Proof.Machine
end

