-- ==== Sys2Proof/Machine/Contexts.lean ====
section
/-! DEFINITION. Contexts: OPEN_CONTEXT and CLOSE_CONTEXT (R313 to R315), FLR, VF Enable and the loss of a host link (R301, R407), and
FAULT_RESOLVE (R219). -/

namespace Sys2Proof.Machine

open Sys2Proof

/-! ## OPEN_CONTEXT (R314) -/

/-- Streams that the contexts other than one may hold (R274). -/
def State.otherStreams (s : State) (t : Tenant) : Nat :=
  (((List.finRange 16).filter fun u => u != t).map fun u => (s.ctx u).streamQuota).sum

/-- Why an OPEN_CONTEXT is refused, if it is (log entry 21). -/
def State.openRefusal (s : State) (f : Started) : Option Status :=
  let t := f.tenant
  let c := s.ctx t
  if c.isOpen || c.closing then some E_CONTEXT_STATE
  else if !s.host.vfEnabled.getLsbD t.val then some E_NOT_PERMITTED
  else if !c.fault.enable || f.p 40 8 % 65536 ≠ 0 then some E_BAD_FIELD
  else match s.regionsBad t f.regions with
    | some st => some st
    | none =>
      if s.hbmUncommitted < f.p 40 8 then some E_HBM_QUOTA
      else if 2097152 < s.otherStreams t + f.p 36 4 then some E_STREAM_QUOTA
      else none

/-- The context as it opens: the generation goes up, the rings stay, the first page comes from stack H0 (log entry 47). -/
def Context.opened (c : Context) (f : Started) (nStacks : Nat) : Context :=
  { isOpen := true, gen := c.gen + 1, hbmQuota := f.p 40 8, streamQuota := f.p 36 4, saveVa := BitVec.ofNat 64 (f.p 48 8),
    saveBytes := f.p 56 8, lastStack := nStacks - 1, csq := c.csq, ccq := c.ccq, fault := c.fault }

/-- OPEN_CONTEXT. -/
def State.openContext (f : Started) (s : State) : State :=
  match s.openRefusal f with
  | some st => s.fail f st
  | none =>
    ((s.onCtx f.tenant fun c => c.opened f (stackCount s.pkg.variant)).grantRegions f.tenant f.regions).done f

/-- OPEN_CONTEXT (R314). -/
def execOpenContext (c : Serve) (s : State) : Res := .next (s.serve c 0x03 State.openContext)

/-! ## The close (R315) -/

/-- The close begins: every running step ends with E_PEER_DOWN, and STEPs without a running step complete. -/
def State.beginClose (s : State) (t : Tenant) : State :=
  let s1 := s.onCtx t fun c => { c with closing := true }
  (s1.instsOf t).foldl (fun a i => (if (a.ctx t).preempted then a else a.causeInst i.id E_PEER_DOWN stewardSrc).checkStepCmd i.id) s1

/-- Whether a started command is the CLOSE_CONTEXT of a tenant. -/
def isClose (t : Tenant) (f : Started) : Bool := f.op = 0x04 && f.tenant = t

/-- Whether a started command acts on a context. -/
def onContext (t : Tenant) (f : Started) : Bool :=
  (match cmdInfo f.op with | some i => !i.pkg | none => false) && f.tenant = t

/-- A replay ends with the context: its REPLAY_START completes (log entry 48). -/
def State.endReplay (s : State) (t : Tenant) : State :=
  match (s.ctx t).replay with
  | none => s
  | some r =>
    let s1 := s.onCtx t fun c => { c with replay := none }
    match r.cmd with
    | some id => s1.finishId id E_PEER_DOWN 0
    | none => s1

/-- Whether the steps of a context have ended and its other started commands are complete. -/
def State.closeReady (s : State) (t : Tenant) : Bool :=
  ((s.ctx t).preempted || (s.instsOf t).all fun i => !i.run.running) &&
    s.host.started.all fun f => !onContext t f || isClose t f

/-- Every grant of a context is revoked (R401). -/
def State.revokeAll (s : State) (t : Tenant) : State :=
  (List.range 24).foldl (fun a n => a.onPin n fun p =>
    match p.owner with
    | .steward => p
    | .granted u => if u = t then { p with owner := .steward, drive := false, openDrain := false } else p
    | .driven u => if u = t then { p with owner := .steward, drive := false, openDrain := false } else p) s

/-- The Ethernet rings of a context go out of use (R327). -/
def State.closeRings (s : State) (t : Tenant) : State :=
  allPorts.foldl (fun a p => if a.ownsPort t p then (a.ethDisable p .rx).ethDisable p .tx else a) s

/-- The windows of a context close. -/
def State.closeWindows (s : State) (t : Tenant) : State :=
  ({ s with mem := { s.mem with exports := s.mem.exports.filter fun (e : Nat × Window) => e.2.tenant ≠ tenantByte t } }).onCtx t fun c =>
    { c with imports := [] }

/-- The actions of R315 in their order, ending with the context switch of R203. -/
def State.closeNow (s : State) (t : Tenant) : State :=
  let s1 := (s.instsOf t).foldl (fun a i => a.finishUnload i.id) (s.endReplay t)
  let s2 := ((s1.streams.filter fun (e : Nat × Stream) => e.2.state ≠ stFree && e.2.tenant = tenantByte t).map
    fun (e : Nat × Stream) => e.1).foldl State.freeStream s1
  let s3 := (s2.endSessions fun _ n => n.tenant = t).closeWindows t
  let s4 := (s3.stopRecorder t false).onCtx t fun c => { c with replay := none }
  let s5 := if s4.links.twin.tenant = some t then s4.endBinding else s4
  let s6 := (s5.revokeAll t).closeRings t
  (s6.switchBeacons t).onCtx t fun c => { gen := c.gen, csq := c.csq, ccq := c.ccq, fault := c.fault }

/-- CLOSE_CONTEXT. -/
def State.closeContext (f : Started) (s : State) : State :=
  let t := f.tenant
  let s1 := if f.accepted then s else (s.accept f).beginClose t
  let s2 := if (s1.ctx t).replay.isSome && (s1.instsOf t).all (fun i => !i.run.running) then s1.endReplay t else s1
  if s2.closeReady t then (s2.closeNow t).finishId f.id OK 0 else s2

/-- CLOSE_CONTEXT (R315). -/
def execCloseContext (c : Serve) (s : State) : Res := .next (s.serve c 0x04 State.closeContext)

/-- A close that no command asked for goes on as soon as it may (R301). -/
def State.goOnClosing (s : State) (t : Tenant) : State :=
  if (s.ctx t).closing && !(s.host.started.any (isClose t)) && !s.host.safePending then
    let s1 := if (s.instsOf t).all fun i => !i.run.running then s.endReplay t else s
    if s1.closeReady t then s1.closeNow t else s1
  else s

/-! ## FLR, VF Enable, link loss (R301, R407) -/

/-- The started commands of a ring write no completion any more (R301). -/
def State.muteRing (s : State) (r : SubRing) : State :=
  { s with host := { s.host with started := s.host.started.map fun f => if f.ring = r then { f with muted := true } else f } }

/-- The registers of a VF return to their reset values, its rings and its Ethernet rings with them; its rings take no entry of what went
before, and its context closes. -/
def State.flrVf (s : State) (t : Tenant) : State :=
  let s0 := allPorts.foldl (fun a p => if a.ownsPort t p then (a.dropWaits t fun w => w = .eth p .rx || w = .eth p .tx).onEth p fun e =>
    { e with rx := {}, tx := {}, rxFrames := 0, rxDrops := 0, rxErrors := 0, txFrames := 0 } else a) s
  let s1 := ({ s0 with host := { s0.host with vfs := Map.del s0.host.vfs t.val } }.muteRing (.ctx t)).onCtx t fun c =>
    { c with csq := {}, ccq := {}, fault := {}, notes := [], muted := c.isOpen || c.closing }
  if (s1.ctx t).isOpen && !(s1.ctx t).closing then (s1.beginClose t).goOnClosing t else s1

/-- Entries that wait for the interrupt-queue ring are discarded and counted (R381). -/
def Iq.discard (q : Iq) : Iq :=
  { q with queue := [], lost := addSat q.lost q.queue.length, lostFlag := q.lostFlag || !q.queue.isEmpty }

/-- The registers of PF0 return to their reset values, every admin ring is out of use. -/
def State.flrPf0 (s0 : State) : State :=
  let s := s0.muteRing .admin
  let s1 := if s.host.iq.enable then { s with iq := s.iq.discard } else s
  { s1 with host := { s1.host with asq := {}, acq := {}, log := {}, iq := {}, pf0 := {}, dbgBase := 0 } }

/-- The tenants whose VF belongs to a PF. -/
def State.vfsOf (s : State) (f : Fn) : List Tenant :=
  match f with
  | .pf0 => (List.finRange 16).filter fun t => !s.host.straps.hostBif || t.val < 8
  | .pf1 => (List.finRange 16).filter fun t => s.host.straps.hostBif && 8 ≤ t.val
  | .vf t => [t]

/-- What an FLR of a function does. -/
def State.flrOf (s : State) (f : Fn) : State :=
  let s1 := match f with
    | .pf0 => s.flrPf0
    | .pf1 => { s with host := { s.host with pf1 := {} } }
    | .vf _ => s
  (s.vfsOf f).foldl State.flrVf s1

/-- FLR (R301). -/
def execFlr (f : Fn) (s : State) : Res := .next (if s.fnLive f then s.flrOf f else s)

/-- VF_ENABLE_CLEAR: an FLR of the VF, which is then not enabled. -/
def State.vfEnableClear (s : State) (t : Tenant) : State :=
  if s.fnLive (.vf t) then
    let s1 := s.flrOf (.vf t)
    { s1 with host := { s1.host with vfEnabled := s1.host.vfEnabled &&& ~~~((1 : BitVec 16) <<< t.val) } }
  else s

/-- VF_ENABLE_CLEAR (R301). -/
def execVfEnableClear (t : Tenant) (s : State) : Res := .next (s.vfEnableClear t)

/-- HOST_LINK_DOWN: the port's link goes down, its PF and VFs are handled as by an FLR; the port retrains. -/
def State.hostLinkDown (s : State) (port : Fin 2) : State :=
  if s.alive && s.host.linkUp.getLsbD port.val then
    let s1 := { s with host := { s.host with linkUp := s.host.linkUp &&& ~~~((1 : BitVec 2) <<< port.val), configReady := s.host.configReady &&& ~~~((1 : BitVec 2) <<< port.val) } }
    (s1.logEv stewardSrc HOST_LINK_DOWN noTenant [BitVec.ofNat 8 port.val]).flrOf (if port = 0 then .pf0 else .pf1)
  else s

/-- HOST_LINK_DOWN (R407). -/
def execHostLinkDown (port : Fin 2) (s : State) : Res := .next (s.hostLinkDown port)

/-! ## FAULT_RESOLVE (R219) -/

/-- The M-tile of a tenant whose TLDW waits on a FAULT_ID. -/
def State.faultTile (s : State) (t : Tenant) (id : Nat) : Option Site :=
  (s.regionSites t).find? fun x =>
    match (s.tile x).m.tldw with
    | some d => d.waiting && (match d.fault with | some (_, n) => n = id | none => false)
    | none => false

/-- FAULT_RESOLVE: RESUME restarts the TLDW from row 0, ABORT ends its step. -/
def State.faultResolve (action : Nat) (f : Started) (s : State) : State :=
  if f.p 22 1 ≠ action && f.p 22 1 < 2 then s
  else if 1 < f.p 22 1 then s.fail f E_BAD_FIELD
  else match s.faultTile f.tenant (f.p 20 2) with
    | none => s.fail f E_FAULT_FINAL
    | some x => (if action = 0 then s.tldwRestart x else s.causeAt x E_TLDW_FAULT (siteSrc x)).done f

/-- FAULT_RESOLVE with ACTION RESUME (R219). -/
def execFaultResolveResume (c : Serve) (s : State) : Res := .next (s.serve c 0x0E (State.faultResolve 0))

/-- FAULT_RESOLVE with ACTION ABORT (R219). -/
def execFaultResolveAbort (c : Serve) (s : State) : Res := .next (s.serve c 0x0E (State.faultResolve 1))

end Sys2Proof.Machine
end

