-- ==== Sys2Proof/Machine/Pins.lean ====
section
/-! DEFINITION. GPIO pins (R395 to R402), the SMBus target (R404) and the test access port (R405). -/

namespace Sys2Proof.Machine

open Sys2Proof

/-! ## Pins -/

/-- FUNCTION, TRIG and DRIVE of a pin's MODE (Table PN-2). -/
def Pin.function (p : Pin) : Nat := bitsOf p.mode 5 3
def Pin.trig (p : Pin) : Nat := bitsOf p.mode 2 3
def Pin.driveMode (p : Pin) : Nat := bitsOf p.mode 0 2

/-- The source number of a pin (R400). -/
def pinSrc (n : Nat) : Src := srcOf 24 (64 + n)

/-- The die whose pacer holds one of its regions (R240). -/
def State.pacerBusy (s : State) : Bool := s.power.pace.any fun (e : Nat × PaceRegion) => e.2.holding

/-- Whether PPS_OUT is high: for 100 µs from its edge (R47, Table PN-7). -/
def State.ppsHigh (s : State) : Bool := s.time.ppsOutEdges != 0 && (s.clk.gts - s.time.lastPpsOut).toNat < 100000

/-- The output value of a STEWARD pin: its latch, or its function's signal (Table PN-2). -/
def State.outValue (s : State) (p : Pin) : Bool :=
  match p.function with
  | 1 => s.pacerBusy
  | 2 => s.host.ready
  | 3 => s.ppsHigh
  | _ => p.out

/-- What GPIO_OUT reads for a pin (R398). -/
def Pin.commanded (p : Pin) : Bool :=
  match p.owner with
  | .steward => p.out
  | .granted _ => false
  | .driven _ => p.drive

/-- The level to which a pin's output driver drives its pad; none where it is Hi-Z (R395, R396, R402, R403). -/
def State.padDriven (s : State) (n : Nat) : Option Bool :=
  let p := s.pin n
  let drives (v od : Bool) : Option Bool := if od && v then none else some v
  if s.power.pstate ≠ .p0 || s.power.limiterOpen || s.pins.jtag.hiZ then none
  else match p.owner with
    | .granted _ => none
    | .driven _ => drives p.drive p.openDrain
    | .steward => if p.driveMode = 0 then none else drives (s.outValue p) (p.driveMode = 2)

/-- Whether a level trigger is met (R400). -/
def Pin.levelMet (p : Pin) : Bool := (p.trig = 4 && p.level) || (p.trig = 5 && !p.level)

/-- PEND becomes 1: an event where it was 0 (R400). -/
def State.pinPend (s : State) (n : Nat) : State :=
  if (s.pin n).pend then s
  else (s.onPin n fun p => { p with pend := true }).raise (pinSrc n) .pf0 (s.pin n).vector 4

/-- Sets PEND where a level trigger is met. -/
def State.pinLevel (s : State) (n : Nat) : State := if (s.pin n).levelMet then s.pinPend n else s

/-- Whether a change of LEVEL to a value fires an edge trigger (R400). -/
def Pin.edgeFires (p : Pin) (v : Bool) : Bool := p.trig = 3 || (p.trig = 1 && v) || (p.trig = 2 && !v)

/-- A tick edge (R399). -/
def State.gpioTick (s : State) (n : Nat) (pad : Bool) : State :=
  if !s.alive then s
  else
    let s1 := s.onPin n fun p => { p with pad := pad }
    let p := s1.pin n
    if pad = p.level then (s1.onPin n fun p => { p with count := 0 }).pinLevel n
    else if p.count < p.debounce.toNat then (s1.onPin n fun p => { p with count := p.count + 1 }).pinLevel n
    else
      let s2 := s1.onPin n fun p => { p with level := pad, count := 0, edges := addSat p.edges 1 }
      if p.edgeFires pad then s2.pinPend n else s2.pinLevel n

/-- GPIO_TICK (R399). -/
def execGpioTick (pin : Fin 24) (pad : Bool) (s : State) : Res := .next (s.gpioTick pin.val pad)

/-- GPIO_OUT_WRITE: the latches of the STEWARD pins take the value; each other pin is logged (R398). -/
def State.gpioOutWrite (s : State) (value : Word) : State :=
  if !s.alive then s
  else (List.range 24).foldl (fun a n =>
    if (a.pin n).owner = .steward then a.onPin n fun p => { p with out := bitAt value n }
    else a.logEv stewardSrc PIN_WRITE_IGNORED noTenant [BitVec.ofNat 8 n]) s

/-- GPIO_OUT_WRITE (R398). -/
def execGpioOutWrite (value : Word) (s : State) : Res := .next (s.gpioOutWrite value)

/-! ## GPIO_CONFIG (R396) -/

/-- Whether a MODE byte is allowed for a pin (Table PN-2). -/
def modeOk (n mode : Nat) : Bool :=
  let fn := mode / 32 % 8
  (fn = 0 || (fn ≤ 3 && n = fn - 1)) && mode / 4 % 8 ≤ 5 && mode % 4 ≤ 2

/-- GPIO_CONFIG. -/
def State.gpioConfig (f : Started) (s : State) : State :=
  let n := f.p 20 1
  if 24 ≤ n || !modeOk n (f.p 21 1) || f.p 24 2 = 0 || !s.vectorOk .pf0 (f.p 26 2) then s.fail f E_BAD_FIELD
  else if (s.pin n).owner ≠ .steward then s.fail f E_PIN_BUSY
  else
    let s1 := s.onPin n fun p =>
      { p with mode := BitVec.ofNat 8 (f.p 21 1), debounce := BitVec.ofNat 8 (f.p 22 1), tick := BitVec.ofNat 16 (f.p 24 2),
               vector := BitVec.ofNat 11 (f.p 26 2), count := 0, level := p.pad }
    (s1.pinLevel n).done f

/-- GPIO_CONFIG (R396). -/
def execGpioConfig (c : Serve) (s : State) : Res := .next (s.serve c 0x26 State.gpioConfig)

/-! ## GPIO_GRANT (R401) -/

/-- Whether a loaded layout of a context holds a PIN_GRANT record for a pin. -/
def State.pinNamed (s : State) (t : Tenant) (n : Nat) : Bool :=
  (s.instsOf t).any fun i => i.sections.any fun c => c.recs.any fun r => r.kind = 6 && (r.payload.headD 0).toNat = n

/-- The context that holds a pin, if one does. -/
def Pin.holder (p : Pin) : Option Tenant :=
  match p.owner with
  | .steward => none
  | .granted t => some t
  | .driven t => some t

/-- Whether GPIO_GRANT refuses a pin to a context with either FLAGS. -/
def Pin.refuses (p : Pin) (t : Tenant) : Bool := (p.holder ≠ none && p.holder ≠ some t) || p.function ≠ 0

/-- GPIO_GRANT without REVOKE. -/
def State.grantPin (s : State) (t : Tenant) (n : Nat) (f : Started) : State :=
  let p := s.pin n
  if p.refuses t then s.fail f E_PIN_BUSY
  else (if p.owner = .steward then s.onPin n fun p => { p with owner := .granted t } else s).done f

/-- GPIO_GRANT with REVOKE. -/
def State.revokePin (s : State) (t : Tenant) (n : Nat) (f : Started) : State :=
  let p := s.pin n
  if p.refuses t || s.pinNamed t n || p.owner = .driven t then s.fail f E_PIN_BUSY
  else (s.onPin n fun p => { p with owner := .steward, drive := false, openDrain := false }).done f

/-- GPIO_GRANT with a value of REVOKE. -/
def State.gpioGrantCmd (withdraw : Bool) (f : Started) (s : State) : State :=
  if 24 ≤ f.p 20 1 || 2 ≤ f.p 21 1 then s.fail f E_BAD_FIELD
  else if (f.p 21 1 = 1) ≠ (withdraw = true) then s
  else if withdraw then s.revokePin f.tenant (f.p 20 1) f
  else s.grantPin f.tenant (f.p 20 1) f

/-- GPIO_GRANT (R401). -/
def execGpioGrant (c : Serve) (s : State) : Res := .next (s.serve c 0x25 (State.gpioGrantCmd false))

/-- GPIO_GRANT with REVOKE (R401). -/
def execRevoke (c : Serve) (s : State) : Res := .next (s.serve c 0x25 (State.gpioGrantCmd true))

/-! ## SMBus (R404, Table PN-5) -/

/-- The SMBus target's source number (Table TM-4). -/
def smbSrc : Src := 0x6060

/-- The target's answer. -/
def State.smbReply (s : State) (r : SmbReply) : State := { s with pins := { s.pins with smb := r } }

/-- The target logs, where the merger runs. -/
def State.smbLog (s : State) (code : BitVec 16) (bs : List Byte) : State := if s.alive then s.logEv smbSrc code noTenant bs else s

/-- A write: discarded, the PEC byte not acknowledged and the transaction logged, where its PEC is wrong. -/
def State.smbWrite (s : State) (command : Byte) (x : SmbXfer) (act : State → State) : State :=
  if x.pecOk then (act s).smbReply .ack else (s.smbLog SMBUS_PEC [command]).smbReply .nack

/-- Bytes of IDENT. -/
def smbIdentBytes (v : Variant) : List Byte :=
  leBytes 2 0x1D2B ++ leBytes 2 (deviceId v) ++ ([0xB0, 2, 4, (match v with | .m40 => 0 | .n40 => 1 | .l36 => 2)] : List Byte)

/-- SMBUS_IDENT. -/
def execSmbusIdent (_x : SmbXfer) (s : State) : Res := .next (s.smbReply (.block (smbIdentBytes s.pkg.variant)))

/-- The package's power state as Table EN-4 numbers it: P1 is P0 with every powered field die GATED. -/
def State.pstateNum (s : State) : Nat :=
  let up := (List.range 16).filter fun d => (s.die d).state ≠ .off
  match s.power.pstate with
  | .p0 => if !up.isEmpty && up.all (fun d => (s.die d).state = .gated) then 1 else 0
  | .p2 => 2
  | .p3 => 3
  | .off => 3

/-- The byte of STATE. -/
def State.smbState (s : State) : Byte :=
  let b (x : Bool) (n : Nat) : Nat := if x then n else 0
  BitVec.ofNat 8 (s.pstateNum + b s.host.ready 4 + b s.host.safePending 8 + b s.power.limiterOpen 16 + b (!s.host.straps.testModeN) 32)

/-- SMBUS_STATE. -/
def execSmbusState (_x : SmbXfer) (s : State) : Res := .next (s.smbReply (.byte s.smbState))

/-- AO_FAULT_STATUS (R390). -/
def AlwaysOn.status (a : AlwaysOn) : Word :=
  a.cause.setWidth 32 ||| (if a.more then 0x40000000 else 0) ||| (if a.valid then 0x80000000 else 0)

/-- The 24 bytes of the fault record, offsets 0x7000 to 0x7017 (R390). -/
def AlwaysOn.recordBytes (a : AlwaysOn) : List Byte :=
  leBytes 4 a.status.toNat ++ leBytes 4 a.detail.toNat ++ leBytes 4 a.source.toNat ++ leBytes 8 a.gts.toNat ++ leBytes 4 a.start.toNat

/-- SMBUS_FAULT. -/
def execSmbusFault (_x : SmbXfer) (s : State) : Res := .next (s.smbReply (.block s.ao.recordBytes))

/-- A write of AO_FAULT_STATUS: ones clear VALID and MORE. -/
def AlwaysOn.clear (a : AlwaysOn) (w : Word) : AlwaysOn := { a with valid := a.valid && !bitAt w 31, more := a.more && !bitAt w 30 }

/-- FAULT_CLEAR: 0xC0 clears VALID and MORE, any other value is ignored. -/
def execFaultClear (x : SmbXfer) (s : State) : Res :=
  .next (s.smbWrite 0x04 x fun s => if x.data = 0xC0 then { s with ao := s.ao.clear 0xC0000000 } else s)

/-- The temperatures that the steward can give: of dies that are powered and have reported. -/
def State.tempsKnown (s : State) : Map Int :=
  if s.alive then s.power.temps.filter fun (e : Nat × Int) => (s.die e.1).state ≠ .off else []

/-- The word of TEMP. -/
def State.smbTemp (s : State) : BitVec 16 :=
  match s.tempsKnown with
  | [] => 0x8000
  | e :: es => BitVec.ofInt 16 (es.foldl (fun (a : Int) (e : Nat × Int) => max a e.2) e.2)

/-- TEMP. -/
def execTemp (_x : SmbXfer) (s : State) : Res := .next (s.smbReply (.word s.smbTemp))

/-- The bytes of TEMP_DIE. -/
def State.smbTempDie (s : State) : List Byte :=
  (List.range 40).map fun d => match Map.look s.tempsKnown d with | some t => BitVec.ofInt 8 (t / 16) | none => 0x80

/-- TEMP_DIE. -/
def execTempDie (_x : SmbXfer) (s : State) : Res := .next (s.smbReply (.block s.smbTempDie))

/-- POWER: the measured package input power, where the steward can give it. -/
def execPower (_x : SmbXfer) (watts : Option (BitVec 16)) (s : State) : Res :=
  .next (s.smbReply (.word (if s.alive then watts.getD 0xFFFF else 0xFFFF)))

/-- START_COUNT. -/
def execStartCount (_x : SmbXfer) (s : State) : Res := .next (s.smbReply (.block (leBytes 4 s.ao.startCount.toNat)))

/-- What a SHUTDOWN byte does: 0xA5 enters the safe state with cause 7 and has no effect in P3; any other is logged. -/
def State.smbShutdown (s : State) (v : Byte) : State :=
  if v ≠ 0xA5 then s.smbLog SMBUS_BAD [0x10, v]
  else if s.power.pstate = .p3 then s
  else s.enterSafe 7 0 smbSrc

/-- SHUTDOWN. -/
def execShutdown (x : SmbXfer) (s : State) : Res := .next (s.smbWrite 0x10 x fun s => s.smbShutdown x.data)

/-- The target's 7-bit address (R404). -/
def smbAddress (x : Straps) : Nat := 0x58 + (if x.smbAddr1 then 2 else 0) + (if x.smbAddr0 then 1 else 0)

/-- Whether SMB_ALERT_N is low: VALID is set, or a die is at or above its warning limit. -/
def State.smbAlert (s : State) : Bool :=
  s.ao.valid || s.tempsKnown.any fun (e : Nat × Int) => warnLimit s.pkg.variant e.1 ≤ e.2

/-- ALERT_RESPONSE: a target that alerts answers with its address. -/
def execAlertResponse (s : State) : Res :=
  .next (s.smbReply (if s.smbAlert then .byte (BitVec.ofNat 8 (smbAddress s.host.straps)) else .nack))

/-! ## JTAG (R405) -/

/-- Whether the package is in test mode. -/
def State.testMode (s : State) : Bool := s.power.pwrGood && !s.host.straps.testModeN

/-- A TAP instruction: what it leaves in the port, TDO being Hi-Z in P2 and P3 (R403). -/
def State.tap (s : State) (ir : Byte) (out : List Bool) (f : Jtag → Jtag) : State :=
  let j := { s.pins.jtag with ir := ir, pins := none, hiZ := false, out := if s.power.pstate = .p0 then out else [] }
  { s with pins := { s.pins with jtag := f j } }

/-- The pins follow the boundary register, in test mode. -/
def State.drivePins (s : State) (j : Jtag) : Jtag := if s.testMode then { j with pins := some j.boundary } else j

/-- An instruction that loads the boundary register and drives the pins from it. -/
def State.extestWith (s : State) (ir : Byte) (outputs : List Bool) : State :=
  s.tap ir s.pins.jtag.boundary fun j => s.drivePins { j with boundary := outputs }

/-- The number's bits, the lowest first. -/
def bitList : Nat → Nat → List Bool
  | 0, _ => []
  | n + 1, v => (v % 2 = 1) :: bitList n (v / 2)

/-- IDCODE. -/
def idcodeOf : Variant → Nat
  | .m40 => 0x170405AB
  | .n40 => 0x170415AB
  | .l36 => 0x170365AB

/-- TAP_RESET: IDCODE is selected. -/
def execTapReset (s : State) : Res := .next (s.tap 0x02 [] fun j => j)

/-- EXTEST. -/
def execExtest (outputs : List Bool) (s : State) : Res := .next (s.extestWith 0x00 outputs)

/-- SAMPLE/PRELOAD: the captured pins are shifted out while the boundary register is loaded. -/
def execSamplePreload (captured shifted : List Bool) (s : State) : Res :=
  .next (s.tap 0x01 captured fun j => { j with boundary := shifted })

/-- IDCODE. -/
def execIdcode (s : State) : Res := .next (s.tap 0x02 (bitList 32 (idcodeOf s.pkg.variant)) fun j => j)

/-- EXTEST_PULSE. -/
def execExtestPulse (outputs : List Bool) (s : State) : Res := .next (s.extestWith 0x03 outputs)

/-- EXTEST_TRAIN. -/
def execExtestTrain (outputs : List Bool) (s : State) : Res := .next (s.extestWith 0x04 outputs)

/-- CLAMP: the pins hold what the boundary register gives; the bypass bit is shifted out. -/
def execClamp (s : State) : Res := .next (s.tap 0x05 [false] s.drivePins)

/-- HIGHZ: the outputs are Hi-Z in test mode; the bypass bit is shifted out. -/
def execHighz (s : State) : Res := .next (s.tap 0x06 [false] fun j => { j with hiZ := s.testMode })

/-- BYPASS, and every code that the port does not define. -/
def execBypass (code : BitVec 8) (s : State) : Res := .next (if code.toNat ≤ 6 then s else s.tap code [false] fun j => j)

end Sys2Proof.Machine
end

