-- ==== Sys2Proof/Machine/Domains.lean ====
section
/-! DEFINITION. Powering dies down and up (R247 to R251), the package's power states (R243, R245, R246), the operating point (R33, R244), and
ASSAY_RUN (R376, R377). -/

namespace Sys2Proof.Machine

open Sys2Proof

/-! ## DOMAIN_DOWN (R247, R248) -/

/-- Whether DOMAIN_DOWN and DOMAIN_UP name a die of this kind. -/
def State.domainKind (s : State) (d : Nat) : Bool :=
  match dieKind s.pkg.variant d with
  | some .field => true
  | some .xd => true
  | some .md => true
  | _ => false

/-- Whether a die carries a port of the host link. -/
def State.carriesHost (s : State) (d : Nat) : Bool := d = 16 || (d = 17 && s.host.straps.hostBif)

/-- Whether a field die lies in a region of a loaded layout, a media die has an open session, an I/O die an open window. -/
def State.domainUsed (s : State) (d : Nat) : Bool :=
  match dieKind s.pkg.variant d with
  | some .field => s.instances.any fun i => bitAt i.dieMask d
  | some .md => !(s.dieSessions (d - 20)).isEmpty
  | some .xd => allPorts.any fun p => xdDie p.xd.val = d && s.importNames p
  | _ => false

/-- Why a DOMAIN_DOWN is refused, if it is. -/
def State.downRefusal (s : State) (f : Started) : Option Status :=
  let d := f.p 20 1
  if 1 < f.p 21 1 || !s.domainKind d then some E_BAD_FIELD
  else if s.dieDown d then some E_DOMAIN_STATE
  else if s.carriesHost d || (d = 19 && s.links.twin.tenant.isSome) || (f.p 21 1 = 0 && s.domainUsed d) then some E_DOMAIN_IN_USE
  else none

/-- DOMAIN_CLOSING and DOMAIN_OFF, under the die's power controller. -/
def State.logDomain (s : State) (code : BitVec 16) (d : Nat) (force : Bool) : State :=
  s.logEv (thermalSrc d) code noTenant [BitVec.ofNat 8 d, if force then 1 else 0]

/-- The sites of a field die. -/
def sitesOf (d : Nat) : List Site := if d < 16 then dieSites d else []

/-- Stage 1: the die is CLOSING, its tiles stop issue as an evict stops it, its engines start nothing new. -/
def State.closeDie (s : State) (d : Nat) (cmd : Option Nat) (force : Bool) : State :=
  let s1 := (s.onDie d fun p => { p with state := .closing, cmd := cmd, force := force, closingAt := s.clk.gts, drained := false }).logDomain
    DOMAIN_CLOSING d force
  (sitesOf d).foldl (fun a x => if siteKind x = .m && !a.sealedAt x then a.onTile x fun k => k.abandon a.clk.fclk else a) s1

/-- What FORCE ends: the steps that run on the die, and the sessions of a media die. -/
def State.forceDie (s : State) (d : Nat) : State :=
  match dieKind s.pkg.variant d with
  | some .field => (s.instances.filter fun i => bitAt i.dieMask d).foldl (fun a i => a.causeInst i.id E_PEER_DOWN stewardSrc) s
  | some .md => s.forceSessions (d - 20)
  | _ => s

/-- DOMAIN_DOWN. -/
def State.domainDown (f : Started) (s : State) : State :=
  if f.accepted then s
  else match s.downRefusal f with
    | some st => s.fail f st
    | none =>
      let d := f.p 20 1
      let force := f.p 21 1 = 1
      let s1 := (s.accept f).closeDie d (some f.id) force
      if force then s1.forceDie d else s1

/-- DOMAIN_DOWN (R247, R248). -/
def execDomainDown (c : Serve) (s : State) : Res := .next (s.serve c 0x20 State.domainDown)

/-! ## The drain (R248, R249) -/

/-- The die on which a packet stands, if it stands on one. -/
def placeDie : Place → Option Nat
  | .router x _ => some x.die.val
  | .arrived x => some x.die.val
  | .unit d _ => some d.val
  | .spine _ _ => none

/-- Where an answer to a packet on a die begins its way. -/
def State.answerPlace (s : State) : Place → Place
  | .router x _ => .router x 4
  | .arrived x => .router x 4
  | .unit d u => let a := s.attach d.val u.toNat; .spine a.1 a.2
  | .spine h g => .spine h g

/-- A packet inside the ingress that its destination has not taken returns with E_DOMAIN_CLOSED; a response is logged (R249). -/
def State.returnPacket (s : State) (d : Nat) (a : List Packet × State) (p : Packet) : List Packet × State :=
  if placeDie p.place = some d && p.head.destDie.toNat = d then
    if p.head.kind = 4 then (a.1, a.2.logDownRsp p.head.src p.head.tenant d p.head.tag.toNat)
    else (a.1 ++ [nakOf p (srcOf d p.head.destUnit.toNat) (s.answerPlace p.place) E_DOMAIN_CLOSED], a.2)
  else (a.1 ++ [p], a.2)

/-- The ports of an I/O die that work go down with it (log entry 49). -/
def State.failPorts (s : State) (d : Nat) : State :=
  (allPorts.filter fun p => xdDie p.xd.val = d && xdPresent s.pkg.variant p.xd.val).foldl
    (fun a p =>
      let a1 := (a.ethDisable p .rx).ethDisable p .tx
      match (a.port p).state with
      | .up => a1.portFailed p 0
      | .retrain => a1.portFailed p 0
      | _ => a1) s

/-- DRAIN_END: 2 µs after CLOSING. -/
def State.drainEnd (s : State) (d : Nat) : State :=
  let p := s.die d
  if !s.alive || p.state ≠ .closing || p.drained || s.clk.gts.toNat < p.closingAt.toNat + 2000 then s
  else
    let s1 := if 16 ≤ d then s.failPorts d else s
    let r := s1.net.flow.foldl (s1.returnPacket d) ([], s1)
    ({ r.2 with net := { r.2.net with flow := r.1 } }).onDie d fun p => { p with drained := true }

/-- DRAIN_END (R248). -/
def execDrainEnd (d : Die) (s : State) : Res := .next (s.drainEnd d.val)

/-! ## Off (R248) -/

/-- Whether a die's sites hold anything in flight. -/
def State.dieEmpty (s : State) (d : Nat) : Bool := !(s.net.flow.any fun p => placeDie p.place = some d)

/-- The tiles of a die lose their state; the count of uncorrectable errors is the steward's (R371). -/
def State.clearTiles (s : State) (d : Nat) : State :=
  let n := { s.net with sched := s.net.sched.filter (fun f => f.site.die.val ≠ d), tokens := s.net.tokens.filter (fun k => k.site.die.val ≠ d),
                        grants := s.net.grants.filter fun g => g.site.die.val ≠ d }
  (sitesOf d).foldl (fun a x => (a.parkSite x).onTile x fun t => { ueCount := t.ueCount }) { s with net := n }

/-- What a die holds is lost with its power. -/
def State.loseDie (s : State) (d : Nat) : State :=
  let l := { s.links with ports := if 16 ≤ d then s.links.ports.filter (fun (e : Nat × Port) => xdDie (e.1 / 8) ≠ d) else s.links.ports,
                          eth := if 16 ≤ d then s.links.eth.filter (fun (e : Nat × EthPort) => xdDie (e.1 / 8) ≠ d) else s.links.eth }
  let p := { s.power with temps := s.power.temps.filter fun (e : Nat × Int) => e.1 ≠ d }
  ({ s with links := l, power := p }).clearTiles d

/-- The SET_POWER_STATE commands to a state that are in progress. -/
def State.powerCmds (s : State) (n : Nat) : List Nat :=
  (s.host.started.filter fun f => f.op = 0x22 && f.accepted && f.p 20 1 = n).map fun f => f.id

/-- Whether every field and media die is OFF. -/
def State.allOff (s : State) : Bool := (List.range 16 ++ [20, 21, 22, 23]).all fun d => (s.die d).state = DieState.off

/-- In P2, once every field and media die is OFF, the HBM stacks enter self-refresh and SET_POWER_STATE completes (R245). -/
def State.checkP2 (s : State) : State :=
  if s.power.pstate = .p2 && !s.mem.selfRefresh && s.allOff then
    (s.powerCmds 2).foldl (fun a id => a.finishId id OK 0) { s with mem := { s.mem with selfRefresh := true } }
  else s

/-- DOMAIN_OFF: the drain has ended, the clock tree is gated and the switch open, nothing is left on the die. Its feeder stays live until the
last event on its way has arrived (R52). -/
def State.domainOff (s : State) (d : Nat) : State :=
  let p := s.die d
  if !s.alive || p.state ≠ .closing || !p.drained || p.steps ≠ 0 || p.stages ≠ 0 || !s.dieEmpty d then s
  else
    let s1 := ((s.logDomain DOMAIN_OFF d p.force).onFeeder d fun f => { f with live := !f.queue.isEmpty }).loseDie d
    let s2 := s1.onDie d fun _ => {}
    (match p.cmd with | some id => s2.finishId id OK 0 | none => s2).checkP2

/-- DOMAIN_OFF (R248). -/
def execDomainOff (d : Die) (s : State) : Res := .next (s.domainOff d.val)

/-! ## DOMAIN_UP (R251, R376) -/

/-- The classes of the checkers that DOMAIN_UP runs on a die (Table IG-2). -/
def State.upClasses (s : State) (d : Nat) : BitVec 9 :=
  match dieKind s.pkg.variant d with
  | some .field => 0x00F
  | some .md => 0x001
  | _ => 0x021

/-- Whether a die's switch is closed and its clock tree ungated. -/
def DiePower.full (p : DiePower) : Bool := p.steps = 8 && p.stages = 2

/-- The die comes up: ON, its feeder live, every tile zero and parked. -/
def State.dieOn (s : State) (d : Nat) : State :=
  ((s.onDie d fun p => { state := .on, steps := p.steps, stages := p.stages, lastStep := p.lastStep }).onFeeder d fun f =>
    { f with live := true, reached := s.clk.gts, lastItem := s.clk.gts }).clearTiles d

/-- Section 0 goes to the shadows of the layouts that use the die and are not pre-empted. -/
def State.loadDie (s : State) (d : Nat) : State :=
  (s.instances.filter fun i => bitAt i.dieMask d && !(s.ctx i.tenant).preempted).foldl
    (fun a i => ((a.instSites i).filter fun x => x.die.val = d).foldl (fun a x => a.freshSite i x) a) s

/-- DOMAIN_UP: powered under R242, checked, and put to work; a die whose checkers fail stays OFF, and its tree and switch open again in
steps. -/
def State.domainUp (failing : BitVec 9) (f : Started) (s : State) : State :=
  let d := f.p 20 1
  if f.accepted then
    if !(s.die d).full then s
    else if failing &&& s.upClasses d ≠ 0 then
      (s.onDie d fun p => { steps := p.steps, stages := p.stages, lastStep := p.lastStep }).fail f E_ASSAY
    else ((s.dieOn d).loadDie d).done f
  else if s.power.pstate = .p2 then s.fail f E_POWER_BUSY
  else if !s.domainKind d then s.fail f E_BAD_FIELD
  else if (s.die d).state ≠ .off then s.fail f E_DOMAIN_STATE
  else (s.onDie d fun p => { p with cmd := some f.id }).accept f

/-- DOMAIN_UP (R251). -/
def execDomainUp (c : Serve) (failing : BitVec 9) (s : State) : Res := .next (s.serve c 0x21 (State.domainUp failing))

/-! ## SET_POWER_STATE (R245, R246) -/

/-- Whether a step runs now; one of a pre-empted context does not. -/
def State.stepRuns (s : State) : Bool := s.instances.any fun i => i.run.running && !(s.ctx i.tenant).preempted

/-- Whether a media session is open. -/
def State.sessionRuns (s : State) : Bool := s.media.sessions.any fun (e : Nat × Session) => e.2.isOpen

/-- Whether a DOMAIN_DOWN or a DOMAIN_UP is in progress. -/
def State.domainRuns (s : State) : Bool := s.host.started.any fun f => (f.op = 0x20 || f.op = 0x21) && f.accepted

/-- The field and media dies. -/
def p2Dies : List Nat := List.range 16 ++ [20, 21, 22, 23]

/-- SET_POWER_STATE P2: every field and media die powers down; the command completes with HBM in self-refresh. -/
def State.enterP2 (f : Started) (s : State) : State :=
  if f.accepted then s
  else if s.power.pstate = .p2 then (if s.mem.selfRefresh then s.done f else s.accept f)
  else if s.stepRuns || s.sessionRuns || s.domainRuns then s.fail f E_POWER_BUSY
  else
    let s1 := { s.accept f with power := { s.power with pstate := .p2 } }
    (p2Dies.foldl (fun a d => if a.dieUp d then a.closeDie d none false else a) s1).checkP2

/-- The dies come up together, every tile is parked, and section 0 goes to the shadows of every layout. -/
def State.wake (s : State) : State :=
  let s1 := p2Dies.foldl (fun a d => a.dieOn d) s
  ({ s1 with power := { s1.power with pstate := .p0, reloading := true } }).reloadAll.checkReload

/-- SET_POWER_STATE P0: HBM leaves self-refresh and the dies power up; STEP waits for the loads (log entry 50). -/
def State.enterP0 (f : Started) (s : State) : State :=
  if s.power.pstate ≠ .p2 then s.done f
  else if f.accepted then (if p2Dies.all fun d => (s.die d).full then s.wake.done f else s)
  else if !s.mem.selfRefresh then s
  else
    let s1 := { s.accept f with mem := { s.mem with selfRefresh := false } }
    p2Dies.foldl (fun a d => a.onDie d fun p => { p with cmd := some f.id }) s1

/-- SET_POWER_STATE to one of its states. -/
def State.setPowerState (n : Nat) (act : Started → State → State) (f : Started) (s : State) : State :=
  if f.p 20 1 ≠ 0 && f.p 20 1 ≠ 2 && f.p 20 1 ≠ 3 then s.fail f E_BAD_FIELD
  else if f.p 20 1 = n then act f s else s

/-- SET_POWER_STATE P0 (R245). -/
def execSetPowerStateP0 (c : Serve) (s : State) : Res := .next (s.serve c 0x22 (State.setPowerState 0 State.enterP0))

/-- SET_POWER_STATE P2 (R245). -/
def execSetPowerStateP2 (c : Serve) (s : State) : Res := .next (s.serve c 0x22 (State.setPowerState 2 State.enterP2))

/-- SET_POWER_STATE P3: the safe state with cause COMMAND; the command never completes (R246, R388). -/
def execSetPowerStateP3 (c : Serve) (s : State) : Res :=
  .next (s.serve c 0x22 (State.setPowerState 3 fun _ s => s.enterSafe 7 0 stewardSrc))

/-! ## SET_FCLK (R33, R244) -/

/-- Whether every powered field die has been GATED for 1 µs; one whose switch or clock tree is not all off is powered. -/
def State.fieldGated (s : State) : Bool :=
  (List.range 16).all fun d =>
    let p := s.die d
    (p.state = .off && p.cmd.isNone && p.steps = 0 && p.stages = 0) ||
      (p.state = .gated && (match p.gatedSince with | some g => g.toNat + 1000 ≤ s.clk.gts.toNat | none => false))

/-- SET_FCLK: the divider switches at a beat edge. -/
def State.setFclk (f : Started) (s : State) : State :=
  if 3 ≤ f.p 20 1 then s.fail f E_BAD_FIELD
  else if !s.fieldGated then s.fail f E_POWER_BUSY
  else if s.clk.units % 480 ≠ 0 then s
  else ({ s with clk := { s.clk with point := Fin.ofNat 3 (f.p 20 1) } }).done f

/-- SET_FCLK (R33, R244). -/
def execSetFclk (c : Serve) (s : State) : Res := .next (s.serve c 0x23 State.setFclk)

/-! ## ASSAY_RUN (R320, R376, R377) -/

/-- What the steps of classes 0 to 3 leave: every tile parked, its state zero, section 0 on its way to the shadows. -/
def State.assayTiles (s : State) : State :=
  ((List.range 16).foldl (fun a d => if a.dieUp d then (sitesOf d).foldl State.parkSite a else a) s).reloadAll

/-- ASSAY_RUN. -/
def State.assayRun (failing : BitVec 9) (source : Src) (f : Started) (s : State) : State :=
  let mask : BitVec 9 := BitVec.ofNat 9 (f.p 20 2)
  if f.accepted then
    if s.instances.all fun i => (s.ctx i.tenant).preempted || s.allLoaded i then s.done f else s
  else if 0x1FF < f.p 20 2 then s.fail f E_BAD_FIELD
  else if s.power.pstate = .p2 then s.fail f E_POWER_BUSY
  else if s.stepRuns || s.sessionRuns then s.fail f E_ASSAY_BUSY
  else if failing &&& mask ≠ 0 then
    let bits := (failing &&& mask).toNat
    ((s.finish f E_ASSAY bits).logEv assaySrc ASSAY_FAIL noTenant (leBytes 2 1 ++ leBytes 4 bits)).enterSafe 1 bits source
  else if mask &&& 0x00F = 0 then s.done f
  else
    let s1 := (s.accept f).assayTiles
    if s1.instances.all fun i => (s1.ctx i.tenant).preempted || s1.allLoaded i then s1.done f else s1

/-- ASSAY_RUN (R377). -/
def execAssayRun (c : Serve) (failing : BitVec 9) (source : Src) (s : State) : Res := .next (s.serve c 0x1F (State.assayRun failing source))

end Sys2Proof.Machine
end

