-- ==== Sys2Proof/Machine/TileView.lean ====
section
/-! DEFINITION. The control-space slot of a tile (R211, R212): the active and the shadow view with the live registers, writes to a running tile
(R97 to R99), and DEBUG_HALT (R150, R178). -/

namespace Sys2Proof.Machine

open Sys2Proof

/-! ## Reading -/

/-- A bit of a register. -/
def regBit (b : Bool) (n : Nat) : Nat := if b then 2 ^ n else 0

/-- The eight bits that a test gives for the endpoints 0 to 7. -/
def epMask (f : Nat → Bool) : Nat := ((List.range 8).map fun e => regBit (f e) e).sum

/-- The word of TILE_CFG at an index (Table LY-6; log entry 52). -/
def cfgWord (c : Flit) (i : Nat) : Word := c.extractLsb' (32 * i) 32

/-- Bits of the RWS words of TILE_CFG that its fields take at a kind of site: bits [31:26] of the first word, the bits of CLEAR_MASK that
Table LY-10 does not list and, but on a B-tile, BMODE are reserved; a word beyond them has no field (R7, R93, Table LY-6). -/
def rwsMask (k : TileKind) : Nat → Word
  | 0 => 0x03FFFFFF
  | 1 => BitVec.ofNat 32 (clearBits k)
  | 6 => if k = .b then 0x000000FF else 0
  | n => if n < 6 then 0xFFFFFFFF else 0

/-- STATE of TILE_STATE: a frozen tile reads STALLED and one that holds the front HOLDING, parked or not (R94, R95). -/
def State.tileStateNum (s : State) (x : Site) : Nat :=
  let t := s.tile x
  if s.frozenAt x then 3 else if t.holding.isSome && !s.sealedAt x then 2 else if t.parked then 0 else 1

/-- TILE_STATE. -/
def State.tileStateReg (s : State) (x : Site) : Nat :=
  let t := s.tile x
  s.tileStateNum x * 2 ^ 30 + regBit t.shadowComplete 29 + regBit t.keepNext 28 + t.shadowSection % 4096 * 65536 +
    (if t.parked then 0 else t.active.sect % 4096)

/-- CH_STATE. -/
def Tile.chState (t : Tile) : Nat :=
  epMask (fun e => (t.outEp e).state = .pending) * 2 ^ 24 + epMask (fun e => (t.outEp e).state = .opened) * 2 ^ 16 +
    epMask (fun e => (t.inEp e).openFrom.isSome || (match (t.inEp e).tally with | some l => !l.slots.isEmpty | none => false)) * 2 ^ 8 +
    epMask (fun e => (t.inEp e).pending.isSome || (match (t.inEp e).tally with | some l => !l.held.isEmpty | none => false))

/-- PORT_LEVEL0 and PORT_LEVEL1: the entry counts of four queues. -/
def Tile.portLevel (t : Tile) (first : Nat) : Nat :=
  ((List.range 4).map fun k => min 16 (Map.get [] t.v.queues (first + k)).length * 2 ^ (8 * k)).sum

/-- The live registers of an M-tile. -/
def Tile.readM (t : Tile) : Nat → Option Nat
  | 0x3F40 => some (regBit (!t.seq.replay.isEmpty) 5 + regBit (match t.m.tldw with | some d => d.waiting | none => false) 4 +
      regBit t.m.intOvf 3 + regBit t.m.sealedClass 2 + regBit t.m.illegal 1 + regBit t.m.tldwFault 0)
  | 0x3F44 => some (t.seq.ip % 8192)
  | 0x3F48 => some (t.m.faultIp % 8192 * 65536 + t.m.faultRow % 64)
  | 0x3F4C => some t.m.full.toNat
  | 0x3F50 => some t.m.tmmaDone.toNat
  | 0x3F54 => some t.m.tmmaRestarts.toNat
  | 0x3F58 => some t.m.wcHits.toNat
  | 0x3F5C => some t.m.wcMisses.toNat
  | 0x3F60 => some t.issueStalls.toNat
  | _ => none

/-- The live registers of a V-tile. -/
def Tile.readV (t : Tile) : Nat → Option Nat
  | 0x3F40 => some (regBit t.v.sealedClass 2 + regBit t.v.view 1 + regBit t.v.illegal 0)
  | 0x3F44 => some (t.seq.stack.length * 65536 + t.seq.ip % 16384)
  | 0x3F48 => some t.seq.loops.length
  | 0x3F50 => some t.issueStalls.toNat
  | 0x3F54 => some t.v.branches.toNat
  | 0x3FC4 => some (t.portLevel 0)
  | 0x3FC8 => some (t.portLevel 4)
  | _ => none

/-- The live registers of a B-tile. -/
def Tile.readB (t : Tile) (o : Nat) : Option Nat :=
  if 0x3F40 ≤ o ∧ o < 0x3F80 then some (Map.get 0 t.b.bankConflict ((o - 0x3F40) / 4)).toNat
  else match o with
    | 0x3F80 => some t.b.wn.toNat
    | 0x3F84 => some t.b.nw.toNat
    | 0x3F88 => some t.b.ww.toNat
    | 0x3F8C => some t.b.clearWaits.toNat
    | 0x3F90 => some t.b.inboundFull.toNat
    | 0x3F94 => some (min 16 t.b.ports.inb.length * 16 + regBit (cfgSplit t.active.cfg) 0)
    | 0x3FA0 => some (regBit t.b.eccUe 1 + regBit t.b.eccCe 0)
    | 0x3FA4 => some t.b.ceCount.toNat
    | 0x3FA8 => some t.b.ueOffset.toNat
    | _ => none

/-- The registers of a tile's kind, with those of its channels. -/
def Tile.readKind (t : Tile) (k : TileKind) (o : Nat) : Option Nat :=
  match k with
  | .p => none
  | _ =>
    if o = 0x3FC0 then some t.chState
    else if o = 0x3FCC then some t.chOrphans.toNat
    else match k with
      | .m => t.readM o
      | .v => t.readV o
      | _ => t.readB o

/-- A register of the active view, at an aligned offset. -/
def State.activeRead (s : State) (x : Site) (o : Nat) : Option Nat :=
  let t := s.tile x
  if o < 64 then some (cfgWord t.active.cfg (o / 4)).toNat
  else match o with
    | 0x3F00 => some (regBit t.traceEn 1 + regBit t.debugHalt 0)
    | 0x3F04 => some (s.tileStateReg x)
    | 0x3F08 => some t.frontHolds.toNat
    | 0x3F0C => some t.holdCycles.toNat
    | 0x3F10 => some t.liveWrites.toNat
    | _ => t.readKind (siteKind x) o

/-- A word of the shadow view: what the shadow holds, or was written to it, else what the exchange left there (R85); reserved bits read zero
(R7). -/
def Tile.shadowRead (t : Tile) (k : TileKind) (o : Nat) : Option Nat :=
  if 28 ≤ o then none
  else if t.shadow.configured then some (cfgWord t.shadow.cfg (o / 4) &&& rwsMask k (o / 4)).toNat
  else match Map.look t.rws (o / 4), t.shadow.unpredictable with
    | some w, _ => some w.toNat
    | none, some n => some ((Config.freeBankWord n (2 ^ 20 + o / 4)).setWidth 32 &&& rwsMask k (o / 4)).toNat
    | none, none => some 0

/-- A register of a tile's slot. -/
def State.slotRead (s : State) (x : Site) (o : Nat) : Option Nat := if o < 0x4000 then s.activeRead x o else (s.tile x).shadowRead (siteKind x) (o - 0x4000)

/-! ## Writing -/

/-- A word lands in the shadow (R10, R85): in what its load has brought, and for a section that keeps the bank. -/
def Tile.putShadow (t : Tile) (k : TileKind) (i : Nat) (v : Word) : Tile :=
  let w := v &&& rwsMask k i
  { t with shadow := { t.shadow with cfg := setWord t.shadow.cfg (4 * i) w }, rws := Map.put t.rws i w }

/-- CFG_LIVE_WRITE (R98). -/
def State.logLiveWrite (s : State) (x : Site) (writer : Src) (o : Nat) (v : Word) : State :=
  (s.onTile x fun t => { t with liveWrites := addSat t.liveWrites 1 }).logTile x CFG_LIVE_WRITE
    (leBytes 2 writer.toNat ++ leBytes 2 (s.tile x).active.sect ++ leBytes 4 o ++ leBytes 4 v.toNat)

/-- DEBUG_HALT becomes 1: issue stops, an M-tile abandons what it computes, a sealed section freezes (R150, R178, corner of chapter 04). -/
def State.haltOn (s : State) (x : Site) : State :=
  let t := s.tile x
  if t.debugHalt then s
  else
    let s1 := s.onTile x fun t => { t with debugHalt := true }
    if t.parked || !(siteKind x = .m || siteKind x = .v) then s1
    else if s.sealedAt x then s1.assertSeal x 3
    else if siteKind x = .m then s1.onTile x fun t => t.abandon s.clk.fclk
    else s1

/-- DEBUG_HALT becomes 0: the held words are fetched again; the replay slot issues first (R150, R178; log entry 84). -/
def State.haltOff (s : State) (x : Site) : State :=
  let t := s.tile x
  if !t.debugHalt then s
  else
    let s1 := s.onTile x fun t => { t with debugHalt := false }
    if t.parked || !(siteKind x = .m || siteKind x = .v) || s.sealedAt x then s1
    else s1.onTile x fun t => t.goOn (siteKind x) [] t.seq.ip t.seq.loops

/-- TILE_LIVE_CTRL takes a value. -/
def State.liveCtrl (s : State) (x : Site) (v : Word) : State :=
  let s1 := s.onTile x fun t => { t with traceEn := bitAt v 1 }
  if bitAt v 0 then s1.haltOn x else s1.haltOff x

/-- The W1C and RWL registers of an M-tile. -/
def MState.regWrite (m : MState) (o : Nat) (v : Word) : MState :=
  match o with
  | 0x3F40 => { m with intOvf := m.intOvf && !bitAt v 3, sealedClass := m.sealedClass && !bitAt v 2, illegal := m.illegal && !bitAt v 1,
                       tldwFault := m.tldwFault && !bitAt v 0 }
  | 0x3F50 => { m with tmmaDone := v }
  | 0x3F54 => { m with tmmaRestarts := v }
  | 0x3F58 => { m with wcHits := v }
  | 0x3F5C => { m with wcMisses := v }
  | _ => m

/-- The W1C and RWL registers of a V-tile. -/
def VState.regWrite (w : VState) (o : Nat) (v : Word) : VState :=
  match o with
  | 0x3F40 => { w with sealedClass := w.sealedClass && !bitAt v 2, view := w.view && !bitAt v 1, illegal := w.illegal && !bitAt v 0 }
  | 0x3F54 => { w with branches := v }
  | _ => w

/-- The W1C and RWL registers of a B-tile. -/
def BState.regWrite (b : BState) (o : Nat) (v : Word) : BState :=
  if 0x3F40 ≤ o ∧ o < 0x3F80 then { b with bankConflict := Map.set 0 b.bankConflict ((o - 0x3F40) / 4) v }
  else match o with
    | 0x3F80 => { b with wn := v }
    | 0x3F84 => { b with nw := v }
    | 0x3F88 => { b with ww := v }
    | 0x3F8C => { b with clearWaits := v }
    | 0x3F90 => { b with inboundFull := v }
    | 0x3FA0 => { b with eccUe := b.eccUe && !bitAt v 1, eccCe := b.eccCe && !bitAt v 0 }
    | 0x3FA4 => { b with ceCount := v }
    | _ => b

/-- The W1C and RWL registers of a tile by its kind; those of ISSUE_STALLS lie apart in an M-tile and a V-tile. -/
def Tile.regWrite (t : Tile) (k : TileKind) (o : Nat) (v : Word) : Tile :=
  match o with
  | 0x3F08 => { t with frontHolds := v }
  | 0x3F0C => { t with holdCycles := v }
  | 0x3F10 => { t with liveWrites := v }
  | _ =>
    if k ≠ .p && o = 0x3FCC then { t with chOrphans := v }
    else match k with
      | .m => if o = 0x3F60 then { t with issueStalls := v } else { t with m := t.m.regWrite o v }
      | .v => if o = 0x3F50 then { t with issueStalls := v } else { t with v := t.v.regWrite o v }
      | .b => { t with b := t.b.regWrite o v }
      | .p => t

/-- A write through the active view (R97): RWS fields land in the shadow, logged where STATE does not read PARKED; the others act by their
access code. -/
def State.activeWrite (s : State) (x : Site) (writer : Src) (o : Nat) (v : Word) : State :=
  if o < 64 then
    if rwsMask (siteKind x) (o / 4) = 0 then s
    else
      let s1 := s.onTile x fun t => t.putShadow (siteKind x) (o / 4) v
      if s.tileStateNum x = 0 then s1 else s1.logLiveWrite x writer o v
  else if o = 0x3F00 then s.liveCtrl x v
  else s.onTile x fun t => t.regWrite (siteKind x) o v

/-- A write through the shadow view. -/
def State.shadowWrite (s : State) (x : Site) (o : Nat) (v : Word) : State :=
  if rwsMask (siteKind x) (o / 4) = 0 then s else s.onTile x fun t => t.putShadow (siteKind x) (o / 4) v

/-- Whether a tile's slot takes accesses: a site that is not fused off, on a die that is up. -/
def State.slotUp (s : State) (x : Site) : Bool := s.alive && !s.isFused x && s.dieUp x.die.val

/-- ACTIVE_VIEW_WRITE (R97). -/
def execActiveViewWrite (x : Site) (writer : Src) (offset : BitVec 14) (value : Word) (s : State) : Res :=
  .next (if s.slotUp x && offset.toNat % 4 = 0 && (s.activeRead x offset.toNat).isSome then s.activeWrite x writer offset.toNat value else s)

/-- SHADOW_VIEW_WRITE (R97). -/
def execShadowViewWrite (x : Site) (_writer : Src) (offset : BitVec 14) (value : Word) (s : State) : Res :=
  .next (if s.slotUp x && offset.toNat % 4 = 0 then s.shadowWrite x offset.toNat value else s)

/-- DEBUG_HALT_SET (R150). -/
def execDebugHaltSet (x : Site) (s : State) : Res := .next (if s.slotUp x then s.haltOn x else s)

/-- DEBUG_HALT_CLEAR (R150). -/
def execDebugHaltClear (x : Site) (s : State) : Res := .next (if s.slotUp x then s.haltOff x else s)

end Sys2Proof.Machine
end

