-- ==== Sys2Proof/Machine/HostRegs.lean ====
section
/-! DEFINITION. What the host reaches: BAR0 (R302 to R304), BAR4 with control space and the window tables (R211, R212, R224, R298), BAR2 (R225,
R226), configuration requests (R408) and the timeout of a read that the P7 issued (R300). -/

namespace Sys2Proof.Machine

open Sys2Proof

/-! ## Ring groups (R303) -/

/-- The SIZE_LOG2 range of a ring (Table HL-5). -/
def sizeRange : RingSel → Nat × Nat
  | .log => (8, 16)
  | .iq => (8, 16)
  | .fault _ => (6, 12)
  | _ => (4, 12)

/-- Whether the host's doorbell, not its CONS, drives a ring. -/
def isSubmission : RingSel → Bool
  | .asq => true
  | .csq _ => true
  | _ => false

/-- The CFG word of a ring group. -/
def Ring.cfg (g : Ring) : Nat := regBit g.enable 31 + regBit g.stopped 30 + g.vector.toNat * 32 + g.sizeLog2.toNat

/-- A register of a ring group. -/
def Ring.read (g : Ring) : Nat → Option Nat
  | 0x00 => some g.baseLo.toNat
  | 0x04 => some g.baseHi.toNat
  | 0x08 => some g.cfg
  | 0x0C => some g.prod.toNat
  | 0x10 => some g.cons.toNat
  | _ => none

/-- A write of CFG: VECTOR, SIZE_LOG2 while ENABLE is 0, and ENABLE, which zeroes the indices as it becomes 1. -/
def Ring.withCfg (g : Ring) (range : Nat × Nat) (v : Word) : Ring :=
  let g1 := { g with vector := v.extractLsb' 5 11 }
  if g.enable then { g1 with enable := bitAt v 31 }
  else
    let n := bitsOf v 0 5
    let on := bitAt v 31 && range.1 ≤ n && n ≤ range.2
    let g2 := { g1 with sizeLog2 := BitVec.ofNat 5 n }
    if on then { g2 with enable := true, stopped := false, prod := 0, cons := 0 } else g2

/-- A write of a ring's CFG; the interrupt queue's entries are discarded when its ring goes out of use (R381). -/
def State.ringCfg (s : State) (r : RingSel) (v : Word) : State :=
  let s1 := s.onRing r fun g => g.withCfg (sizeRange r) v
  if r = .iq && s.host.iq.enable && !bitAt v 31 then { s1 with iq := s1.iq.discard } else s1

/-- A write of a register of a ring group. -/
def State.ringReg (s : State) (r : RingSel) (o : Nat) (v : Word) : State :=
  match o with
  | 0x00 => s.onRing r fun g => if g.enable then g else { g with baseLo := v &&& 0xFFFFFFC0 }
  | 0x04 => s.onRing r fun g => if g.enable then g else { g with baseHi := v }
  | 0x08 => s.ringCfg r v
  | 0x10 => if isSubmission r then s else s.onRing r fun g => { g with cons := v }
  | _ => s

/-- The offset of a ring's group in its block, as a BAR0 offset. -/
def ringOffset : RingSel → Nat
  | .asq => 0x1000
  | .acq => 0x1020
  | .log => 0x1040
  | .iq => 0x1060
  | .csq t => ctxOffset t 0x0020
  | .ccq t => ctxOffset t 0x0040
  | .fault t => ctxOffset t 0x0060

/-- The tenant of a ring's context page. -/
def ringTenant : RingSel → Option Tenant
  | .csq t => some t
  | .ccq t => some t
  | .fault t => some t
  | _ => none

/-- A write of a context page's register, or of one of PF0's blocks, by a function: by its owner it acts, a PF's to a page is logged, any other
names no target (R302). -/
def State.ownedWrite (s : State) (f : Fn) (t : Option Tenant) (off value : Nat) (act : State → State) : State :=
  if !s.fnLive f then s
  else match t with
    | none => if f = .pf0 then act s else s.noTarget f off
    | some t =>
      if ownPage f t then act s
      else if seesPage f t then s.cfgHostRo f t off value
      else s.noTarget f off

/-- A write of a ring's CFG that sets or clears ENABLE. -/
def State.ringRow (s : State) (f : Fn) (r : RingSel) (v : Word) (on : Bool) : State :=
  if bitAt v 31 ≠ on then s else s.ownedWrite f (ringTenant r) (ringOffset r + 8) v.toNat fun s => s.ringCfg r v

/-- RING_ENABLE (R303). -/
def execRingEnable (f : Fn) (r : RingSel) (value : Word) (s : State) : Res := .next (s.ringRow f r value true)

/-- RING_DISABLE (R303, R381). -/
def execRingDisable (f : Fn) (r : RingSel) (value : Word) (s : State) : Res := .next (s.ringRow f r value false)

/-! ## Doorbells (R304) -/

/-- A doorbell of a submission ring: its value becomes PROD unless it passes the ring's entries or lies behind PROD. -/
def State.doorbell (s : State) (r : RingSel) (tenant : Byte) (off : Nat) (v : Word) : State :=
  let g := s.ring r
  if g.size < (v - g.cons).toNat || (v - g.cons).toNat < (g.prod - g.cons).toNat then s.logDoorbellBad tenant off v.toNat
  else s.onRing r fun g => { g with prod := v }

/-- An ADB write of PF0, which is an event of its I/O die (R50). -/
def State.adb (s : State) (v : Word) : State := (s.doorbellEvent (s.fnPort .pf0)).doorbell .asq noTenant 0x1100 v

/-- A CDB write of a tenant's own function, which is an event of its I/O die (R50). -/
def State.cdb (s0 : State) (t : Tenant) (v : Word) : State :=
  let s := s0.doorbellEvent (s0.fnPort (.vf t))
  let off := ctxOffset t 0x0100
  if !(s.ctx t).isOpen || (s.ctx t).closing then s.logDoorbellBad (tenantByte t) off v.toNat
  else s.doorbell (.csq t) (tenantByte t) off v

/-- ADB_WRITE (R304). -/
def execAdbWrite (f : Fn) (size : Nat) (value : Word) (s : State) : Res :=
  .next (if size = 4 then s.ownedWrite f none 0x1100 value.toNat fun s => s.adb value
    else if s.fnLive f then s.noTarget f 0x1100 else s)

/-- CDB_WRITE (R304). -/
def execCdbWrite (f : Fn) (t : Tenant) (size : Nat) (value : Word) (s : State) : Res :=
  .next (if size = 4 then s.ownedWrite f (some t) (ctxOffset t 0x0100) value.toNat fun s => s.cdb t value
    else if s.fnLive f then s.noTarget f (ctxOffset t 0x0100) else s)

/-! ## The function block (R302, R42) -/

/-- The GTS as a function's I/O die holds it. -/
def State.fnGts (s : State) (f : Fn) : DWord := s.localGts (portDie (s.fnPort f))

/-- FN_STATUS. -/
def State.fnStatus (s : State) (f : Fn) : Nat :=
  s.pstateNum % 4 * 2 ^ 30 + regBit s.host.ready 29 + regBit s.host.safePending 28 +
    (match f with | .vf t => t.val * 2 ^ 24 + 2 ^ 23 | .pf0 => 2 ^ 22 | .pf1 => 0)

/-- A register of the function block. -/
def State.fnRead (s : State) (f : Fn) : Nat → Option Nat
  | 0x000 => some (s.fnStatus f)
  | 0x004 => some s.ao.startCount.toNat
  | 0x008 => some ((s.fnGts f).toNat % 2 ^ 32)
  | 0x00C => some (s.fnRegs f).gtsLatch.toNat
  | 0x010 => some 0xB0020400
  | 0x018 => some (s.fnRegs f).apLo.toNat
  | 0x01C => some (s.fnRegs f).apHi.toNat
  | _ => none

/-- APERTURE_BASE_HI takes a value, and the base with it. -/
def State.apertureHi (s : State) (f : Fn) (hi : Word) : State :=
  s.onFnRegs f fun g => { g with apHi := hi, apBase := hi ++ g.apLo }

/-- A write of the function block. -/
def State.fnWrite (s : State) (f : Fn) (o : Nat) (v : Word) : State :=
  match o with
  | 0x018 => s.onFnRegs f fun g => { g with apLo := v &&& 0xFFE00000 }
  | 0x01C => s.apertureHi f v
  | _ => s

/-- APERTURE_BASE_WRITE (R302). -/
def execApertureBaseWrite (f : Fn) (hi : Word) (s : State) : Res := .next (if s.fnLive f then s.apertureHi f hi else s)

/-- The answer to a read of the host. -/
def State.answer (s : State) (n : Nat) (v : Nat) : State := { s with host := { s.host with reply := .data (leBytes n v) false } }

/-- A read of GTS_LO: with GTS_HI as one access, or alone, which latches the high word (R42). -/
def State.gtsRead (s : State) (f : Fn) (size : Nat) : State :=
  let g := s.fnGts f
  if size = 8 then s.answer 8 g.toNat
  else if size = 4 then (s.onFnRegs f fun r => { r with gtsLatch := g.extractLsb' 32 32 }).answer 4 (g.toNat % 2 ^ 32)
  else s.noTarget f 0x008

/-- GTS_LO_READ (R42). -/
def execGtsLoRead (f : Fn) (size : Nat) (s : State) : Res := .next (if s.fnLive f then s.gtsRead f size else s)

/-! ## The admin block and the context pages -/

/-- The ring whose group holds an offset of the admin block, and the register's offset in it. -/
def adminRing (o : Nat) : Option (RingSel × Nat) :=
  if o < 0x80 then some (match o / 32 with | 0 => .asq | 1 => .acq | 2 => .log | _ => .iq, o % 32) else none

/-- A register of the admin block. -/
def State.adminRead (s : State) (o : Nat) : Option Nat :=
  match adminRing o with
  | some (r, k) => (s.ring r).read k
  | none => match o with
    | 0x100 => some 0
    | 0x180 => some s.log.lost.toNat
    | 0x184 => some s.iq.lost.toNat
    | _ => none

/-- A write of the admin block. -/
def State.adminWrite (s : State) (o : Nat) (v : Word) : State :=
  match adminRing o with
  | some (r, k) => s.ringReg r k v
  | none => match o with
    | 0x100 => s.adb v
    | 0x180 => { s with log := { s.log with lost := v } }
    | 0x184 => { s with iq := { s.iq with lost := v } }
    | _ => s

/-- CTX_STATUS. -/
def State.ctxStatus (s : State) (t : Tenant) : Nat :=
  let c := s.ctx t
  c.gen.toNat * 2 ^ 24 + regBit c.closing 3 + regBit c.quarantined 2 + regBit c.preempted 1 + regBit c.isOpen 0

/-- The CFG word of an Ethernet ring (Table LK-2). -/
def EthRing.cfg (g : EthRing) : Nat := regBit g.enable 31 + g.sizeLog2.toNat * 2 ^ 24 + g.beaconA.toNat * 4096 + g.beaconB.toNat

/-- A register of an Ethernet ring. -/
def EthRing.read (g : EthRing) : Nat → Option Nat
  | 0x00 => some g.baseLo.toNat
  | 0x04 => some g.baseHi.toNat
  | 0x08 => some g.cfg
  | 0x0C => some g.next.toNat
  | _ => none

/-- The port of a slot and the offset in it (R327). -/
def slotPort (o : Nat) : PortRef × Nat :=
  let j := (o - 0x2000) / 0x40
  ({ xd := Fin.ofNat 8 (j / 8), lane := Fin.ofNat 8 (j % 8) }, (o - 0x2000) % 0x40)

/-- ETH_STATUS of a port that the tenant owns. -/
def State.ethStatus (s : State) (p : PortRef) : Nat :=
  2 ^ 31 + regBit ((s.port p).state = .up) 30 + regBit (s.ethPort p).paused 29 + (s.port p).mode.toNat

/-- A register of a port slot; one of a port that the tenant does not own reads as zero. -/
def State.ethRead (s : State) (t : Tenant) (p : PortRef) (o : Nat) : Option Nat :=
  let e := s.ethPort p
  let v : Option Nat :=
    if o < 0x10 then e.rx.read o
    else if o < 0x20 then e.tx.read (o - 0x10)
    else match o with
      | 0x20 => some (s.ethStatus p)
      | 0x24 => some e.rxFrames.toNat
      | 0x28 => some e.rxDrops.toNat
      | 0x2C => some e.rxErrors.toNat
      | 0x30 => some e.txFrames.toNat
      | _ => none
  if s.ownsPort t p then v else v.map fun _ => 0

/-- A write of an Ethernet ring's register. -/
def State.ethRingReg (s : State) (p : PortRef) (d : EthDir) (o : Nat) (v : Word) : State :=
  match o with
  | 0x00 => s.onEthRing p d fun g => if g.enable then g else { g with baseLo := v &&& 0xFFFFFFC0 }
  | 0x04 => s.onEthRing p d fun g => if g.enable then g else { g with baseHi := v &&& 0xFFFF }
  | 0x08 => s.ethCfgWrite p d v
  | _ => s

/-- A write of a port slot by its tenant. -/
def State.ethWrite (s : State) (t : Tenant) (p : PortRef) (o : Nat) (v : Word) : State :=
  if !s.ownsPort t p then s
  else if o < 0x10 then s.ethRingReg p .rx o v
  else if o < 0x20 then s.ethRingReg p .tx (o - 0x10) v
  else match o with
    | 0x24 => s.onEth p fun e => { e with rxFrames := v }
    | 0x28 => s.onEth p fun e => { e with rxDrops := v }
    | 0x2C => s.onEth p fun e => { e with rxErrors := v }
    | 0x30 => s.onEth p fun e => { e with txFrames := v }
    | _ => s

/-- The ring whose group holds an offset of a context page. -/
def ctxRing (t : Tenant) (o : Nat) : Option (RingSel × Nat) :=
  if 0x20 ≤ o ∧ o < 0x80 then some (match o / 32 with | 1 => .csq t | 2 => .ccq t | _ => .fault t, o % 32) else none

/-- A register of a context page. -/
def State.ctxRead (s : State) (t : Tenant) (o : Nat) : Option Nat :=
  match ctxRing t o with
  | some (r, k) => (s.ring r).read k
  | none =>
    if 0x2000 ≤ o ∧ o < 0x3000 then s.ethRead t (slotPort o).1 (slotPort o).2
    else match o with
      | 0x0000 => some (s.ctxStatus t)
      | 0x0100 => some 0
      | 0x0800 => some 0
      | 0x0804 => some 0
      | _ => none

/-- A write of a context page by its own function. -/
def State.ctxWrite (s : State) (t : Tenant) (o : Nat) (v : Word) : State :=
  match ctxRing t o with
  | some (r, k) => s.ringReg r k v
  | none =>
    if 0x2000 ≤ o ∧ o < 0x3000 then s.ethWrite t (slotPort o).1 (slotPort o).2 v
    else match o with
      | 0x0100 => s.cdb t v
      | 0x0800 => s.beaconDoorbell (.vf t) t 4 (v.setWidth 64) 0
      | 0x0804 => s.beaconDoorbell (.vf t) t 4 (v.setWidth 64) 0
      | _ => s

/-- CFG_HOST_RO: a PF's write of a context page that it sees (R302). -/
def execCfgHostRo (f : Fn) (t : Tenant) (offset : BitVec 16) (value : Word) (s : State) : Res :=
  .next (if s.fnLive f && seesPage f t && !ownPage f t && (s.ctxRead t offset.toNat).isSome then
      s.cfgHostRo f t (ctxOffset t offset.toNat) value.toNat
    else s)

/-! ## The MSI-X table (R299; log entry 51) -/

/-- The pending bits of 32 vectors. -/
def FnRegs.pbaWord (g : FnRegs) (i : Nat) : Nat := ((List.range 32).map fun b => regBit (g.pba.contains (32 * i + b)) b).sum

/-- A write of the MSI-X table; a vector that is unmasked while it is pending sends its message. -/
def State.msixWrite (s : State) (f : Fn) (i : Nat) (v : Word) : State :=
  let w : Word := match i % 4 with | 0 => v &&& 0xFFFFFFFC | 3 => (v &&& 1) ^^^ 1 | _ => v
  let s1 := s.onFnRegs f fun g => { g with msix := Map.set 0 g.msix i w }
  if i % 4 = 3 && !bitAt v 0 && (s.fnRegs f).pba.contains (i / 4) then
    (s1.onFnRegs f fun g => { g with pba := g.pba.filter fun b => b ≠ i / 4 }).sendMsix f (i / 4)
  else s1

/-! ## BAR0 -/

/-- Where an aligned word of BAR0 lies, as a function sees it. -/
inductive Bar0 where
  | fn (o : Nat)
  | admin (o : Nat)
  | page (t : Tenant) (o : Nat)
  | msix (i : Nat)
  | pba (i : Nat)
  | none
deriving DecidableEq, Repr

/-- The place of an offset (Table HL-3). -/
def bar0Of (f : Fn) (off : Nat) : Bar0 :=
  if off < 0x1000 then .fn off
  else if off < 0x2000 then (if f = .pf0 then .admin (off - 0x1000) else .none)
  else if 0x01000000 ≤ off ∧ off < 0x01100000 then
    let t : Tenant := Fin.ofNat 16 ((off - 0x01000000) / 0x10000)
    if seesPage f t then .page t (off % 0x10000) else .none
  else if 0x02000000 ≤ off ∧ off < 0x02008000 then .msix ((off - 0x02000000) / 4)
  else if 0x02008000 ≤ off ∧ off < 0x02009000 then .pba ((off - 0x02008000) / 4)
  else .none

/-- A word of BAR0. -/
def State.bar0Read (s : State) (f : Fn) (off : Nat) : Option Nat :=
  match bar0Of f off with
  | .fn o => s.fnRead f o
  | .admin o => s.adminRead o
  | .page t o => s.ctxRead t o
  | .msix i => if i / 4 < s.vectors f then some ((s.fnRegs f).msixWord i).toNat else none
  | .pba i => if i * 32 < s.vectors f then some ((s.fnRegs f).pbaWord i) else none
  | .none => none

/-- A write of a word of BAR0 that has a register. -/
def State.bar0Write (s : State) (f : Fn) (off : Nat) (v : Word) : State :=
  match bar0Of f off with
  | .fn o => s.fnWrite f o v
  | .admin o => s.adminWrite o v
  | .page t o => if ownPage f t then s.ctxWrite t o v else s.cfgHostRo f t off v.toNat
  | .msix i => s.msixWrite f i v
  | .pba _ => s
  | .none => s

/-! ## Control space through BAR4 (R211, R212) -/

/-- STATE and WEIGHT of PACER_DIE: the average of the last 16 ticks of every region (R233). -/
def State.pacerDie (s : State) (d : Nat) : Nat :=
  let w := ((List.finRange 3).map fun r => ((s.pace d r).weights.take 16).sum).sum / 16
  (match (s.die d).state with | .off => 0 | .on => 1 | .gated => 2 | .closing => 3) * 2 ^ 30 + w % 2 ^ 14 * 65536

/-- A register of the pacer's slot. -/
def State.pacerRead (s : State) (o : Nat) : Option Nat :=
  if o < 0x40 then some (s.pacerDie (o / 4))
  else if 0x100 ≤ o ∧ o < 0x180 then
    some (Map.get 0 (if o % 8 = 0 then s.power.ballast else s.power.hold) ((o - 0x100) / 8)).toNat
  else none

/-- A write of the pacer's slot. -/
def State.pacerWrite (s : State) (o : Nat) (v : Word) : State :=
  if 0x100 ≤ o ∧ o < 0x180 then
    let d := (o - 0x100) / 8
    if o % 8 = 0 then { s with power := { s.power with ballast := Map.set 0 s.power.ballast d v } }
    else { s with power := { s.power with hold := Map.set 0 s.power.hold d v } }
  else s

/-- GPIO_CFG and GPIO_CFG2 of a pin. -/
def Pin.cfgReg (p : Pin) : Nat :=
  (match p.owner with | .steward => 0 | .granted t => 2 ^ 30 + t.val * 2 ^ 26 | .driven t => 2 ^ 31 + t.val * 2 ^ 26) +
    p.debounce.toNat * 65536 + p.mode.toNat * 256
def Pin.cfg2Reg (p : Pin) : Nat := p.vector.toNat * 65536 + p.tick.toNat

/-- A word with one bit per pin. -/
def State.pinWord (s : State) (f : Pin → Bool) : Nat := ((List.range 24).map fun n => regBit (f (s.pin n)) n).sum

/-- A register of a pin's slot; the bank registers lie in that of GPIO0. -/
def State.gpioRead (s : State) (n o : Nat) : Option Nat :=
  let p := s.pin n
  match o with
  | 0x0000 => some p.cfgReg
  | 0x0004 => some p.cfg2Reg
  | 0x0008 => some (regBit p.level 16 + regBit p.pend 0)
  | 0x000C => some p.edges.toNat
  | 0x0100 => if n = 0 then some (s.pinWord fun p => p.pad) else none
  | 0x0104 => if n = 0 then some (s.pinWord Pin.commanded) else none
  | _ => none

/-- A write of a pin's slot; a level interrupt stays pending while its level holds (R400). -/
def State.gpioWrite (s : State) (n o : Nat) (v : Word) : State :=
  match o with
  | 0x0008 => if bitAt v 0 then s.onPin n fun p => { p with pend := p.pend && p.levelMet } else s
  | 0x000C => s.onPin n fun p => { p with edges := v }
  | 0x0104 => if n = 0 then s.gpioOutWrite v else s
  | _ => s

/-- STATE of PORT_STATE. -/
def linkStateNum : LinkState → Nat
  | .off => 0
  | .training => 1
  | .up => 2
  | .retrain => 3
  | .failed => 4

/-- A register of a lane unit's slot. -/
def State.laneRead (s : State) (p : PortRef) (o : Nat) : Option Nat :=
  let q := s.port p
  match o with
  | 0x00 => some (linkStateNum q.state * 2 ^ 29 + q.mode.toNat)
  | 0x04 => some (q.peerId.toNat % 2 ^ 32)
  | 0x08 => some (q.peerId.toNat / 2 ^ 32)
  | 0x0C => some q.retries.toNat
  | 0x10 => some q.retrains.toNat
  | 0x14 => some q.fecCorrected.toNat
  | 0x18 => some q.fecUncorrected.toNat
  | _ => none

/-- A write of a lane unit's slot. -/
def State.laneWrite (s : State) (p : PortRef) (o : Nat) (v : Word) : State :=
  match o with
  | 0x0C => s.onPort p fun q => { q with retries := v }
  | 0x10 => s.onPort p fun q => { q with retrains := v }
  | 0x14 => s.onPort p fun q => { q with fecCorrected := v }
  | 0x18 => s.onPort p fun q => { q with fecUncorrected := v }
  | _ => s

/-- A register of the always-on fault record (R390). -/
def AlwaysOn.read (a : AlwaysOn) : Nat → Option Nat
  | 0x7000 => some a.status.toNat
  | 0x7004 => some a.detail.toNat
  | 0x7008 => some a.source.toNat
  | 0x700C => some (a.gts.toNat % 2 ^ 32)
  | 0x7010 => some (a.gts.toNat / 2 ^ 32)
  | 0x7014 => some a.start.toNat
  | _ => none

/-- The unit of a slot that has registers. -/
inductive Slot32 where
  | tile (x : Site)
  | clock (d : Nat)
  | lane (p : PortRef)
  | pacer
  | assay
  | pin (n : Nat)
  | none
deriving DecidableEq, Repr

/-- The unit behind a control-space slot; none on a die that is down (log entry 55). -/
def State.slotOf (s : State) (d u : Nat) : Slot32 :=
  if !s.dieUp d then .none
  else if d < 16 then
    match siteOf d u with
    | some x => .tile x
    | none => if u = 548 then .clock d else .none
  else if d = 24 then
    if u = 2 then .pacer
    else if u = 4 then .assay
    else if 64 ≤ u ∧ u < 88 then .pin (u - 64)
    else .none
  else if 32 ≤ u ∧ u < 40 then
    match portOfDie s.pkg.variant d (u - 32) with
    | some p => .lane p
    | none => .none
  else .none

/-- A word of control space. -/
def State.ctlRead (s : State) (d u o : Nat) : Option Nat :=
  match s.slotOf d u with
  | .tile x => s.slotRead x o
  | .clock d => if o = 0x100 then some (Map.get 0 s.net.slotMiss d).toNat
      else if o = 0x104 then some (Map.get 0 s.net.slotMissLast d).toNat else none
  | .lane p => s.laneRead p o
  | .pacer => s.pacerRead o
  | .assay => s.ao.read o
  | .pin n => s.gpioRead n o
  | .none => none

/-- A write of a word of control space that has a register, by the host. -/
def State.ctlWrite (s : State) (d u o : Nat) (v : Word) : State :=
  match s.slotOf d u with
  | .tile x => if o < 0x4000 then s.activeWrite x hostSrc o v else s.shadowWrite x (o - 0x4000) v
  | .clock d => if o = 0x100 then { s with net := { s.net with slotMiss := Map.set 0 s.net.slotMiss d v } } else s
  | .lane p => s.laneWrite p o v
  | .pacer => s.pacerWrite o v
  | .assay => if o = 0x7000 then { s with ao := s.ao.clear v } else s
  | .pin n => s.gpioWrite n o v
  | .none => s

/-! ## The remote-window tables (R224) -/

/-- STATE of a window table entry. -/
def Window.stateNum (w : Window) : Nat := if !w.isOpen then 0 else if w.closing.isSome then 2 else 1

/-- A window table entry (Table MM-6). -/
def Window.entry (w : Window) : List Byte :=
  [BitVec.ofNat 8 w.stateNum, if w.btile then 1 else 0, (if w.permR then 1 else 0) ||| (if w.permW then 2 else 0), w.tenant] ++
    leBytes 2 w.peerTenant.toNat ++ leBytes 2 w.peerHandle.toNat ++ leBytes 8 w.base.toNat ++ leBytes 8 w.size.toNat ++
    leBytes 8 w.peerId.toNat ++ leBytes 2 w.port.toNat ++ List.replicate 30 0

/-- A word of the window tables (Table MM-5). -/
def State.windowWord (s : State) (dpa : Nat) : Option Nat :=
  let o := dpa % 2 ^ 40
  let w : Option Window :=
    if o < 64 * 4096 then some (s.exportOf (o / 64))
    else if 0x01000000 ≤ o ∧ o < 0x01000000 + 16 * 2 ^ 18 then
      some (Map.get {} (s.ctx (Fin.ofNat 16 ((o - 0x01000000) / 2 ^ 18))).imports (o % 2 ^ 18 / 64))
    else none
  w.map fun w => leNat ((w.entry.drop (o % 64)).take 4)

/-! ## BAR4 (R298) -/

/-- The DPA that an offset of BAR4 reaches. -/
def State.bar4Dpa (s : State) (off : Nat) : Nat := (s.host.dbgBase.toNat + (off - 0x01000000)) % 2 ^ 64

/-- A word of BAR4, for PF0. -/
def State.bar4Read (s : State) (f : Fn) (off : Nat) : Option Nat :=
  if f ≠ .pf0 then none
  else if off = 0 then some (s.host.dbgBase.toNat % 2 ^ 32)
  else if off = 4 then some (s.host.dbgBase.toNat / 2 ^ 32)
  else if off < 0x01000000 ∨ 0x02000000 ≤ off then none
  else
    let dpa := s.bar4Dpa off
    match s.ctlTarget dpa with
    | some (d, u, o) => s.ctlRead d u o
    | none => if dpa / 2 ^ 40 = 4 then s.windowWord dpa else none

/-- A write of a word of BAR4 that has a register; the window tables take none. -/
def State.bar4Write (s : State) (f : Fn) (off : Nat) (v : Word) : State :=
  if off = 0 then { s with host := { s.host with dbgBase := s.host.dbgBase.extractLsb' 32 32 ++ (v &&& 0xFF000000) } }
  else if off = 4 then { s with host := { s.host with dbgBase := v ++ s.host.dbgBase.extractLsb' 0 32 } }
  else match s.ctlTarget (s.bar4Dpa off) with
    | some (d, u, o) => s.ctlWrite d u o v
    | none => s.noTarget f off

/-! ## Register accesses -/

/-- A word that a function reads through BAR0 or BAR4. -/
def State.regWord (s : State) (four : Bool) (f : Fn) (off : Nat) : Option Nat := if four then s.bar4Read f off else s.bar0Read f off

/-- Offsets at which a register takes an access of 8 bytes: GTS_LO, BEACON_DB and DBG_BASE (R298, R302). -/
def wideReg (four : Bool) (f : Fn) (off : Nat) : Bool :=
  if four then off = 0
  else match bar0Of f off with
    | .fn o => o = 0x008
    | .page _ o => o = 0x0800
    | _ => false

/-- Whether an access of a size at an offset may name registers. -/
def accessOk (four : Bool) (f : Fn) (off size : Nat) : Bool :=
  (size = 4 && off % 4 = 0) || (size = 8 && off % 8 = 0 && wideReg four f off)

/-- A register read through BAR0 or BAR4. -/
def State.regRead (s : State) (four : Bool) (f : Fn) (off size : Nat) : State :=
  if !accessOk four f off size then s.noTarget f off
  else if !four && off = 0x008 then s.gtsRead f size
  else match s.regWord four f off, (if size = 8 then s.regWord four f (off + 4) else some 0) with
    | some a, some b => s.answer size (a + b * 2 ^ 32)
    | _, _ => s.noTarget f off

/-- A write of one word that has a register. -/
def State.putWord (s : State) (four : Bool) (f : Fn) (off : Nat) (v : Word) : State :=
  if four then s.bar4Write f off v else s.bar0Write f off v

/-- A register write through BAR0 or BAR4. BEACON_DB takes its 8 bytes at once. -/
def State.regWrite (s : State) (four : Bool) (f : Fn) (off size : Nat) (v : DWord) : State :=
  if !accessOk four f off size || (s.regWord four f off).isNone then s.noTarget f off
  else if size = 8 then
    match (if four then Bar0.none else bar0Of f off) with
    | .page t _ => s.beaconDoorbell f t 8 v (if bitsOf v 28 4 = 1 then 1 else 0)
    | _ => (s.putWord four f off (v.extractLsb' 0 32)).putWord four f (off + 4) (v.extractLsb' 32 32)
  else s.putWord four f off (v.extractLsb' 0 32)

/-- REGISTER_WRITE (R8). -/
def execRegisterWrite (space : RegSpace) (offset : BitVec 26) (size : Nat) (value : DWord) (s : State) : Res :=
  .next (match space with
    | .bar0 f => if s.fnLive f then s.regWrite false f offset.toNat size value else s
    | .bar4 f => if s.fnLive f then s.regWrite true f offset.toNat size value else s)

/-! ## BAR2 (R225, R226) -/

/-- The half that translates for a function. -/
def State.fnHalf (s : State) (f : Fn) : Fin 2 := halfOf s.pkg.variant (portDie (s.fnPort f))

/-- What a piece of an access leads to: a device physical address, a fault, no target. -/
inductive Reach where
  | dpa (a : Nat)
  | fault (va cause level : Nat)
  | none
deriving DecidableEq, Repr

/-- Where a function's access of some bytes goes: of PF0 and PF1 to HBM by DPA, of a VF through its tenant's tables. -/
def State.reach (s : State) (f : Fn) (a n : Nat) (write : Bool) : Reach × State :=
  match f with
  | .vf t =>
    if !(s.ctx t).isOpen || (s.ctx t).closing then (.none, s)
    else match s.translate (s.fnHalf f) t a { write := write, host := true } with
      | (.ok d _ _, s1) => (.dpa d, s1)
      | (.fault c l, s1) => (.fault a c l, s1)
  | _ => (if hbmRangeOk s.pkg.variant a n then .dpa a else .none, s)

/-- The pieces of an access with where they go, or the first that goes nowhere. -/
def State.reachAll (s : State) (f : Fn) (write : Bool) : List (Nat × Nat) → Except Reach (List (Nat × Nat × Nat)) × State
  | [] => (.ok [], s)
  | (a, n) :: ps =>
    match s.reach f a n write with
    | (.dpa d, s1) =>
      match s1.reachAll f write ps with
      | (.ok r, s2) => (.ok ((a, d, n) :: r), s2)
      | e => e
    | (e, s1) => (.error e, s1)

/-- A BAR2 access is refused: a fault leaves its record, the request completes with Unsupported Request. -/
def State.bar2Refuse (s : State) (f : Fn) (write : Bool) (off : Nat) (e : Reach) : State :=
  match e, f with
  | .fault va c l, .vf t => (s.memFault t { va := va, src := hostSrc, agent := 2, write := write } c l).noTarget f off
  | _, _ => s.noTarget f off

/-- Stored bits of the bursts of a piece that have gone bad since. -/
def State.upsetPiece (s : State) (base : Nat) (us : List Upset) (p : Nat × Nat × Nat) : State :=
  us.foldl (fun a u => if p.1 ≤ base + u.off && base + u.off < p.1 + p.2.2 then a.setBurstErr ((p.2.1 + (base + u.off - p.1)) / 64) u.kind else a) s

/-- The address that an offset of a function's aperture names (R225, R226). -/
def State.fnBase (s : State) (f : Fn) (off : Nat) : Nat := (s.fnRegs f).apBase.toNat + off

/-- A BAR2 read: data, poisoned data, or Unsupported Request. -/
def State.bar2Read (s : State) (f : Fn) (off n : Nat) (us : List Upset) : State :=
  let base := s.fnBase f off
  match s.reachAll f false (vaPieces base n) with
  | (.error e, s1) => s1.bar2Refuse f false off e
  | (.ok ps, s1) =>
    let r := ps.foldl
      (fun (a : List Byte × Bool × State) p =>
        let x := (a.2.2.upsetPiece base us p).hbmRead p.2.1 p.2.2 hostSrc (fnTenant f)
        (a.1 ++ x.1, a.2.1 || x.2.1, x.2.2)) ([], false, s1)
    let s2 := { r.2.2 with host := { r.2.2.host with reply := .data r.1 r.2.1 } }
    if r.2.1 then s2.pcieError f 0 off else s2

/-- BAR2_READ, and a register read through BAR0 or BAR4 (R226, R302); HBM in self-refresh answers when it has left it (log entry 50). -/
def execBar2Read (f : Fn) (bar : BarSel) (offset : BitVec 36) (len : Fin 4097) (upsets : List Upset) (s : State) : Res :=
  .next (if !s.fnLive f then s
    else match bar with
      | .bar0 => if offset.toNat < 2 ^ 26 then s.regRead false f offset.toNat len.val else s.noTarget f offset.toNat
      | .bar4 => if offset.toNat < 2 ^ 25 then s.regRead true f offset.toNat len.val else s.noTarget f offset.toNat
      | .bar2 => if s.mem.selfRefresh then s else s.bar2Read f offset.toNat len.val upsets)

/-- Writes the enabled bytes of a piece: one access per burst, which ends an error only when it covers the whole burst (R207, R208). -/
def State.hbmWriteEnabled (s : State) (dpa : Nat) (bs : List (Byte × Bool)) (tenant : Byte) : State :=
  let on (b : Nat) : Nat := ((List.range 64).filter fun i => dpa ≤ b * 64 + i && (bs.getD (b * 64 + i - dpa) (0, false)).2).length
  let s1 := (bursts dpa bs.length).foldl (fun a b => if on b = 0 then a else a.writeBurst b (on b = 64) hostSrc tenant) s
  let h := bs.zipIdx.foldl (fun h e => if e.1.2 then Memory.put h (dpa + e.2) (e.1.1 ^^^ s1.mem.pad (dpa + e.2)) else h) s1.mem.hbm
  ({ s1 with mem := { s1.mem with hbm := h } }).markSaved dpa bs.length

/-- A BAR2 write: every piece lands, or nothing does. -/
def State.bar2Write (s : State) (f : Fn) (off : Nat) (bs : List (Byte × Bool)) (us : List Upset) : State :=
  let base := s.fnBase f off
  match s.reachAll f true (vaPieces base bs.length) with
  | (.error e, s1) => s1.bar2Refuse f true off e
  | (.ok ps, s1) =>
    ps.foldl (fun a p => (a.upsetPiece base us p).hbmWriteEnabled p.2.1 ((bs.drop (p.1 - base)).take p.2.2) (fnTenant f)) s1

/-- BAR2_WRITE (R226). -/
def execBar2Write (f : Fn) (offset : BitVec 36) (bytes : List (Byte × Bool)) (upsets : List Upset) (s : State) : Res :=
  .next (if s.fnLive f && !s.mem.selfRefresh then s.bar2Write f offset.toNat bytes upsets else s)

/-! ## Configuration requests (R408) and the P7's own reads (R300) -/

/-- The port of the request is there. -/
def State.portThere (s : State) (p : Fin 2) : Bool := s.alive && (p = 0 || s.host.straps.hostBif)

/-- Whether a port carries a function that configuration space shows (R294, R297). -/
def State.fnThere (s : State) (p : Fin 2) (f : Fn) : Bool :=
  s.fnPort f = p.val &&
    (match f with
      | .vf t => s.host.vfEnabled.getLsbD t.val
      | .pf0 => true
      | .pf1 => s.host.straps.hostBif)

/-- An identification read of a function: the value answers where the port carries the function, else Unsupported Request. -/
def State.configIds (s : State) (p : Fin 2) (f : Fn) (v : Nat) : State :=
  if s.fnThere p f then { s with host := { s.host with reply := .data (leBytes 4 v) false } }
  else { s with host := { s.host with reply := .unsupported } }

/-- What a configuration request that is served does: VF Enable of a VF of the port (R297, R301), and the identification of a function
(R296). -/
def State.configServe (s : State) (p : Fin 2) (r : CfgRequest) : State :=
  let s1 := { s with host := { s.host with reply := .ok } }
  match r with
  | .other => s1
  | .ids f => s.configIds p f (vendorId + s.fnDeviceId f * 65536)
  | .classRev f => s.configIds p f (revisionId + classCode * 256)
  | .enableVf t =>
    if s1.fnPort (.vf t) = p.val then { s1 with host := { s1.host with vfEnabled := s1.host.vfEnabled ||| ((1 : BitVec 16) <<< t.val) } } else s1

/-- CONFIG_REQUEST: the first after a start or a lost link is answered with Request Retry Status, later ones are served (log entry 54). -/
def State.configRequest (s : State) (p : Fin 2) (r : CfgRequest) : State :=
  if !s.portThere p then s
  else if s.host.configReady.getLsbD p.val then s.configServe p r
  else
    let bit : BitVec 2 := (1 : BitVec 2) <<< p.val
    { s with host := { s.host with reply := .retry, linkUp := s.host.linkUp ||| bit, configReady := s.host.configReady ||| bit } }

/-- CONFIG_REQUEST (R408). -/
def execConfigRequest (port : Fin 2) (req : CfgRequest) (s : State) : Res := .next (s.configRequest port req)

/-- The submission ring of a function. -/
def fnRing : Fn → Option SubRing
  | .pf0 => some .admin
  | .pf1 => none
  | .vf t => some (.ctx t)

/-- COMPLETION_TIMEOUT: the error is signalled and logged; where the read was a ring's fetch, the ring stops (R300, R308). -/
def State.completionTimeout (s : State) (f : Fn) (e : HostError) (addr : Nat) : State :=
  if !s.fnLive f then s
  else match fnRing f with
    | some r =>
      let g := s.ring (subSel r)
      if s.mayFetch r && addr = g.addr g.cons 64 then s.fetchFailed r e else s.pcieError f (hostErrorKind e) addr
    | none => s.pcieError f (hostErrorKind e) addr

/-- COMPLETION_TIMEOUT (R300). -/
def execCompletionTimeout (f : Fn) (err : HostError) (addr : DWord) (s : State) : Res := .next (s.completionTimeout f err addr.toNat)

end Sys2Proof.Machine
end

