-- ==== Sys2Proof/Machine/Dispatch.lean ====
section
/-! DEFINITION. The dispatch of a command to its meaning: one arm per constructor of Instr. -/

namespace Sys2Proof.Machine

open Sys2Proof

def exec (i : Instr) (s : State) : Host.Outcome State Fault Refusal :=
  match i with
  | .identify c => Sys2Proof.Machine.execIdentify c s
  | .getGradeMap c => Sys2Proof.Machine.execGetGradeMap c s
  | .openContext c => Sys2Proof.Machine.execOpenContext c s
  | .closeContext c => Sys2Proof.Machine.execCloseContext c s
  | .setShares c => Sys2Proof.Machine.execSetShares c s
  | .loadLayout c => Sys2Proof.Machine.execLoadLayout c s
  | .unloadLayout c => Sys2Proof.Machine.execUnloadLayout c s
  | .step c => Sys2Proof.Machine.execStep c s
  | .yield c => Sys2Proof.Machine.execYield c s
  | .evict c => Sys2Proof.Machine.execEvict c s
  | .resume c => Sys2Proof.Machine.execResume c s
  | .setBudget c => Sys2Proof.Machine.execSetBudget c s
  | .memMap c => Sys2Proof.Machine.execMemMap c s
  | .memUnmap c => Sys2Proof.Machine.execMemUnmap c s
  | .faultResolveResume c => Sys2Proof.Machine.execFaultResolveResume c s
  | .faultResolveAbort c => Sys2Proof.Machine.execFaultResolveAbort c s
  | .mapWindowExport c => Sys2Proof.Machine.execMapWindowExport c s
  | .mapWindowImport c => Sys2Proof.Machine.execMapWindowImport c s
  | .unmapWindow c => Sys2Proof.Machine.execUnmapWindow c s
  | .openStream c => Sys2Proof.Machine.execOpenStream c s
  | .closeStream c => Sys2Proof.Machine.execCloseStream c s
  | .streamInput c => Sys2Proof.Machine.execStreamInput c s
  | .streamQuery c => Sys2Proof.Machine.execStreamQuery c s
  | .ledgerBind c => Sys2Proof.Machine.execLedgerBind c s
  | .setPlacement c => Sys2Proof.Machine.execSetPlacement c s
  | .beaconConfig c => Sys2Proof.Machine.execBeaconConfig c s
  | .mediaSessionOpen c => Sys2Proof.Machine.execMediaSessionOpen c s
  | .mediaSessionClose c => Sys2Proof.Machine.execMediaSessionClose c s
  | .recordStart c => Sys2Proof.Machine.execRecordStart c s
  | .recordStop c => Sys2Proof.Machine.execRecordStop c s
  | .replayStart c => Sys2Proof.Machine.execReplayStart c s
  | .twinBind c => Sys2Proof.Machine.execTwinBind c s
  | .twinUnbind c => Sys2Proof.Machine.execTwinUnbind c s
  | .assayRun c failing source => Sys2Proof.Machine.execAssayRun c failing source s
  | .domainDown c => Sys2Proof.Machine.execDomainDown c s
  | .domainUp c failing => Sys2Proof.Machine.execDomainUp c failing s
  | .setPowerStateP0 c => Sys2Proof.Machine.execSetPowerStateP0 c s
  | .setPowerStateP2 c => Sys2Proof.Machine.execSetPowerStateP2 c s
  | .setPowerStateP3 c => Sys2Proof.Machine.execSetPowerStateP3 c s
  | .setFclk c => Sys2Proof.Machine.execSetFclk c s
  | .setTimeSource c => Sys2Proof.Machine.execSetTimeSource c s
  | .gpioGrant c => Sys2Proof.Machine.execGpioGrant c s
  | .revoke c => Sys2Proof.Machine.execRevoke c s
  | .gpioConfig c => Sys2Proof.Machine.execGpioConfig c s
  | .linkConfig c => Sys2Proof.Machine.execLinkConfig c s
  | .nopCommand c => Sys2Proof.Machine.execNopCommand c s
  | .commandFetch r answer => Sys2Proof.Machine.execCommandFetch r answer s
  | .adbWrite f size value => Sys2Proof.Machine.execAdbWrite f size value s
  | .cdbWrite f t size value => Sys2Proof.Machine.execCdbWrite f t size value s
  | .doorbellSignal f t size value => Sys2Proof.Machine.execDoorbellSignal f t size value s
  | .doorbellTake f t size value => Sys2Proof.Machine.execDoorbellTake f t size value s
  | .ringEnable f r value => Sys2Proof.Machine.execRingEnable f r value s
  | .ringDisable f r value => Sys2Proof.Machine.execRingDisable f r value s
  | .ethRingEnable t p d value => Sys2Proof.Machine.execEthRingEnable t p d value s
  | .apertureBaseWrite f hi => Sys2Proof.Machine.execApertureBaseWrite f hi s
  | .gtsLoRead f size => Sys2Proof.Machine.execGtsLoRead f size s
  | .cfgHostRo f t offset value => Sys2Proof.Machine.execCfgHostRo f t offset value s
  | .registerWrite space offset size value => Sys2Proof.Machine.execRegisterWrite space offset size value s
  | .activeViewWrite x writer offset value => Sys2Proof.Machine.execActiveViewWrite x writer offset value s
  | .shadowViewWrite x writer offset value => Sys2Proof.Machine.execShadowViewWrite x writer offset value s
  | .debugHaltSet x => Sys2Proof.Machine.execDebugHaltSet x s
  | .debugHaltClear x => Sys2Proof.Machine.execDebugHaltClear x s
  | .bar2Read f bar offset len upsets => Sys2Proof.Machine.execBar2Read f bar offset len upsets s
  | .bar2Write f offset bytes upsets => Sys2Proof.Machine.execBar2Write f offset bytes upsets s
  | .configRequest port req => Sys2Proof.Machine.execConfigRequest port req s
  | .completionTimeout f err addr => Sys2Proof.Machine.execCompletionTimeout f err addr s
  | .flr f => Sys2Proof.Machine.execFlr f s
  | .vfEnableClear t => Sys2Proof.Machine.execVfEnableClear t s
  | .hostLinkDown port => Sys2Proof.Machine.execHostLinkDown port s
  | .coldReset straps => Sys2Proof.Machine.execColdReset straps s
  | .warmReset held100us => Sys2Proof.Machine.execWarmReset held100us s
  | .pwrGoodDeassert => Sys2Proof.Machine.execPwrGoodDeassert s
  | .startAssay r => Sys2Proof.Machine.execStartAssay r s
  | .pllLock p => Sys2Proof.Machine.execPllLock p s
  | .thermtripN => Sys2Proof.Machine.execThermtripN s
  | .thermalReport d sixteenths => Sys2Proof.Machine.execThermalReport d sixteenths s
  | .sidebandLimit => Sys2Proof.Machine.execSidebandLimit s
  | .heartbeat => Sys2Proof.Machine.execHeartbeat s
  | .lockstep => Sys2Proof.Machine.execLockstep s
  | .descentEnd => Sys2Proof.Machine.execDescentEnd s
  | .twinSync => Sys2Proof.Machine.execTwinSync s
  | .ppsInEdge => Sys2Proof.Machine.execPpsInEdge s
  | .timeHoldover => Sys2Proof.Machine.execTimeHoldover s
  | .ptpSyncTimeout => Sys2Proof.Machine.execPtpSyncTimeout s
  | .timeRate => Sys2Proof.Machine.execTimeRate s
  | .gtsSync d drift => Sys2Proof.Machine.execGtsSync d drift s
  | .ppsOut => Sys2Proof.Machine.execPpsOut s
  | .eventArrival d => Sys2Proof.Machine.execEventArrival d s
  | .watermark d => Sys2Proof.Machine.execWatermark d s
  | .commitTimeout => Sys2Proof.Machine.execCommitTimeout s
  | .feederSilent d => Sys2Proof.Machine.execFeederSilent d s
  | .logWrite => Sys2Proof.Machine.execLogWrite s
  | .iqCopy => Sys2Proof.Machine.execIqCopy s
  | .pendingNotification t => Sys2Proof.Machine.execPendingNotification t s
  | .tld u upsets => Sys2Proof.Machine.execTld u upsets s
  | .tst u => Sys2Proof.Machine.execTst u s
  | .tldw u => Sys2Proof.Machine.execTldw u s
  | .tldwFault x => Sys2Proof.Machine.execTldwFault x s
  | .tmma u => Sys2Proof.Machine.execTmma u s
  | .tcvt u => Sys2Proof.Machine.execTcvt u s
  | .tlda u => Sys2Proof.Machine.execTlda u s
  | .trel u => Sys2Proof.Machine.execTrel u s
  | .tdma u => Sys2Proof.Machine.execTdma u s
  | .tsend u => Sys2Proof.Machine.execTsend u s
  | .wcinv u => Sys2Proof.Machine.execWcinv u s
  | .vop u => Sys2Proof.Machine.execVop u s
  | .vfma u => Sys2Proof.Machine.execVfma u s
  | .vcmp u => Sys2Proof.Machine.execVcmp u s
  | .vsf u => Sys2Proof.Machine.execVsf u s
  | .vred u => Sys2Proof.Machine.execVred u s
  | .vperm u => Sys2Proof.Machine.execVperm u s
  | .vcvt u => Sys2Proof.Machine.execVcvt u s
  | .vld u upsets => Sys2Proof.Machine.execVld u upsets s
  | .vst u => Sys2Proof.Machine.execVst u s
  | .vprd u => Sys2Proof.Machine.execVprd u s
  | .vsend u => Sys2Proof.Machine.execVsend u s
  | .vmovs u => Sys2Proof.Machine.execVmovs u s
  | .mop u => Sys2Proof.Machine.execMop u s
  | .dmapost u => Sys2Proof.Machine.execDmapost u s
  | .nop u => Sys2Proof.Machine.execNop u s
  | .secend u => Sys2Proof.Machine.execSecend u s
  | .loop u => Sys2Proof.Machine.execLoop u s
  | .br u => Sys2Proof.Machine.execBr u s
  | .jmp u => Sys2Proof.Machine.execJmp u s
  | .call u => Sys2Proof.Machine.execCall u s
  | .ret u => Sys2Proof.Machine.execRet u s
  | .sli u => Sys2Proof.Machine.execSli u s
  | .sop u => Sys2Proof.Machine.execSop u s
  | .imw u => Sys2Proof.Machine.execImw u s
  | .ifence u => Sys2Proof.Machine.execIfence u s
  | .openCh u => Sys2Proof.Machine.execOpenCh u s
  | .closeCh u => Sys2Proof.Machine.execCloseCh u s
  | .bsig u => Sys2Proof.Machine.execBsig u s
  | .bwait u => Sys2Proof.Machine.execBwait u s
  | .gtsr u => Sys2Proof.Machine.execGtsr u s
  | .copyLocal x upsets => Sys2Proof.Machine.execCopyLocal x upsets s
  | .fill x => Sys2Proof.Machine.execFill x s
  | .gridWrite x upsets => Sys2Proof.Machine.execGridWrite x upsets s
  | .hbmRead x => Sys2Proof.Machine.execHbmRead x s
  | .hbmWrite x upsets => Sys2Proof.Machine.execHbmWrite x upsets s
  | .windowRead x => Sys2Proof.Machine.execWindowRead x s
  | .windowWrite x upsets => Sys2Proof.Machine.execWindowWrite x upsets s
  | .dmaCompletion x => Sys2Proof.Machine.execDmaCompletion x s
  | .gridWriteFlit pkt => Sys2Proof.Machine.execGridWriteFlit pkt s
  | .gridWriteAck pkt => Sys2Proof.Machine.execGridWriteAck pkt s
  | .readResponse pkt => Sys2Proof.Machine.execReadResponse pkt s
  | .hbmWriteAck pkt => Sys2Proof.Machine.execHbmWriteAck pkt s
  | .nakPacket pkt => Sys2Proof.Machine.execNakPacket pkt s
  | .flowPacketHop pkt badParity => Sys2Proof.Machine.execFlowPacketHop pkt badParity s
  | .scheduledFlit flit parity => Sys2Proof.Machine.execScheduledFlit flit parity s
  | .openRequest pkt => Sys2Proof.Machine.execOpenRequest pkt s
  | .openReply pkt => Sys2Proof.Machine.execOpenReply pkt s
  | .closeMarker pkt => Sys2Proof.Machine.execCloseMarker pkt s
  | .portFlit pkt => Sys2Proof.Machine.execPortFlit pkt s
  | .ringFlit pkt => Sys2Proof.Machine.execRingFlit pkt s
  | .tallyFlit pkt => Sys2Proof.Machine.execTallyFlit pkt s
  | .tallyEmit x ep upsets => Sys2Proof.Machine.execTallyEmit x ep upsets s
  | .beaconSignal op => Sys2Proof.Machine.execBeaconSignal op s
  | .beaconWait op => Sys2Proof.Machine.execBeaconWait op s
  | .beaconGrant op => Sys2Proof.Machine.execBeaconGrant op s
  | .shadowLoad x => Sys2Proof.Machine.execShadowLoad x s
  | .shadowLoadEnd x crcGood => Sys2Proof.Machine.execShadowLoadEnd x crcGood s
  | .preloadWrite x => Sys2Proof.Machine.execPreloadWrite x s
  | .eccWriteBack x => Sys2Proof.Machine.execEccWriteBack x s
  | .bankClearDone x => Sys2Proof.Machine.execBankClearDone x s
  | .frontInject layout => Sys2Proof.Machine.execFrontInject layout s
  | .frontTokenArrival tok => Sys2Proof.Machine.execFrontTokenArrival tok s
  | .tileSwap x => Sys2Proof.Machine.execTileSwap x s
  | .frontExit tok => Sys2Proof.Machine.execFrontExit tok s
  | .sealOrigin layout => Sys2Proof.Machine.execSealOrigin layout s
  | .sealCheck x => Sys2Proof.Machine.execSealCheck x s
  | .sealStallRelease layout => Sys2Proof.Machine.execSealStallRelease layout s
  | .pacerTick d first second base => Sys2Proof.Machine.execPacerTick d first second base s
  | .powerStep d => Sys2Proof.Machine.execPowerStep d s
  | .drainEnd d => Sys2Proof.Machine.execDrainEnd d s
  | .domainOff d => Sys2Proof.Machine.execDomainOff d s
  | .budgetExpiry layout => Sys2Proof.Machine.execBudgetExpiry layout s
  | .stepAbort layout => Sys2Proof.Machine.execStepAbort layout s
  | .yieldLimit t => Sys2Proof.Machine.execYieldLimit t s
  | .compose layout => Sys2Proof.Machine.execCompose layout s
  | .mediaRecordInput rec => Sys2Proof.Machine.execMediaRecordInput rec s
  | .decodeAu x busy => Sys2Proof.Machine.execDecodeAu x busy s
  | .decodeFlush x busy => Sys2Proof.Machine.execDecodeFlush x busy s
  | .encodeFrame x busy => Sys2Proof.Machine.execEncodeFrame x busy s
  | .encodeFlush x busy => Sys2Proof.Machine.execEncodeFlush x busy s
  | .audioPacket x busy => Sys2Proof.Machine.execAudioPacket x busy s
  | .audioConfig x busy => Sys2Proof.Machine.execAudioConfig x busy s
  | .scale x busy => Sys2Proof.Machine.execScale x busy s
  | .mediaOutput x => Sys2Proof.Machine.execMediaOutput x s
  | .tapScale x => Sys2Proof.Machine.execTapScale x s
  | .hbmRequest req upset => Sys2Proof.Machine.execHbmRequest req upset s
  | .patrolScrub stack upset => Sys2Proof.Machine.execPatrolScrub stack upset s
  | .refresh stack => Sys2Proof.Machine.execRefresh stack s
  | .translation req => Sys2Proof.Machine.execTranslation req s
  | .windowRequest pkt => Sys2Proof.Machine.execWindowRequest pkt s
  | .ethFrameRx p bytes fcsOk => Sys2Proof.Machine.execEthFrameRx p bytes fcsOk s
  | .rxEntryWrite p => Sys2Proof.Machine.execRxEntryWrite p s
  | .pauseFrame p quanta => Sys2Proof.Machine.execPauseFrame p quanta s
  | .ethTx p => Sys2Proof.Machine.execEthTx p s
  | .ethTxDone p => Sys2Proof.Machine.execEthTxDone p s
  | .ptpMessage p e => Sys2Proof.Machine.execPtpMessage p e s
  | .codewordRx p c => Sys2Proof.Machine.execCodewordRx p c s
  | .retryTimeout p => Sys2Proof.Machine.execRetryTimeout p s
  | .laneSignalLoss p why => Sys2Proof.Machine.execLaneSignalLoss p why s
  | .ident p f => Sys2Proof.Machine.execIdent p f s
  | .trainingTimeout p => Sys2Proof.Machine.execTrainingTimeout p s
  | .trainingRetry p => Sys2Proof.Machine.execTrainingRetry p s
  | .write p => Sys2Proof.Machine.execWrite p s
  | .read p => Sys2Proof.Machine.execRead p s
  | .readData p => Sys2Proof.Machine.execReadData p s
  | .writeAck p => Sys2Proof.Machine.execWriteAck p s
  | .nak p => Sys2Proof.Machine.execNak p s
  | .credit p => Sys2Proof.Machine.execCredit p s
  | .bind => Sys2Proof.Machine.execBind s
  | .bindAck => Sys2Proof.Machine.execBindAck s
  | .record => Sys2Proof.Machine.execRecord s
  | .signature => Sys2Proof.Machine.execSignature s
  | .safe => Sys2Proof.Machine.execSafe s
  | .unbind => Sys2Proof.Machine.execUnbind s
  | .twinCompare => Sys2Proof.Machine.execTwinCompare s
  | .twinSignatureLost => Sys2Proof.Machine.execTwinSignatureLost s
  | .gpioTick pin pad => Sys2Proof.Machine.execGpioTick pin pad s
  | .gpioOutWrite value => Sys2Proof.Machine.execGpioOutWrite value s
  | .smbusIdent x => Sys2Proof.Machine.execSmbusIdent x s
  | .smbusState x => Sys2Proof.Machine.execSmbusState x s
  | .smbusFault x => Sys2Proof.Machine.execSmbusFault x s
  | .faultClear x => Sys2Proof.Machine.execFaultClear x s
  | .temp x => Sys2Proof.Machine.execTemp x s
  | .tempDie x => Sys2Proof.Machine.execTempDie x s
  | .power x watts => Sys2Proof.Machine.execPower x watts s
  | .startCount x => Sys2Proof.Machine.execStartCount x s
  | .shutdown x => Sys2Proof.Machine.execShutdown x s
  | .alertResponse => Sys2Proof.Machine.execAlertResponse s
  | .tapReset => Sys2Proof.Machine.execTapReset s
  | .extest outputs => Sys2Proof.Machine.execExtest outputs s
  | .samplePreload captured shifted => Sys2Proof.Machine.execSamplePreload captured shifted s
  | .idcode => Sys2Proof.Machine.execIdcode s
  | .extestPulse outputs => Sys2Proof.Machine.execExtestPulse outputs s
  | .extestTrain outputs => Sys2Proof.Machine.execExtestTrain outputs s
  | .clamp => Sys2Proof.Machine.execClamp s
  | .highz => Sys2Proof.Machine.execHighz s
  | .bypass code => Sys2Proof.Machine.execBypass code s
  | .vddAoPowerOn stored => Sys2Proof.Machine.execVddAoPowerOn stored s
  | .vdd1v8Removal => Sys2Proof.Machine.execVdd1v8Removal s
  | .timeSourceReturn => Sys2Proof.Machine.execTimeSourceReturn s
  | .twinPeerTimeout => Sys2Proof.Machine.execTwinPeerTimeout s
  | .autoNegotiationDone p => Sys2Proof.Machine.execAutoNegotiationDone p s
  | .pauseExpiry p => Sys2Proof.Machine.execPauseExpiry p s

end Sys2Proof.Machine
end

