-- ==== Sys2Proof/Machine/Tick.lean ====
section
/-! DEFINITION. One FCLK cycle: what the passage of time does when no command waits (log entry 2). -/

namespace Sys2Proof.Machine

open Sys2Proof

/-- Advances the GTS by one FCLK cycle at the steered rate (R39, R44). -/
def Clock.advance (c : Clock) (rate : DWord) : Clock :=
  let acc := c.gtsAcc + c.gtsStep rate
  { c with units := c.units + fclkUnits c.point, fclk := c.fclk + 1, gts := c.gts + BitVec.ofNat 64 (acc / gtsCount), gtsAcc := acc % gtsCount }

/-- The listed tiles of a state. -/
def State.sites (s : State) : List Site := s.tiles.map fun (e : Nat × Tile) => siteOfKey e.1

/-- The banks of a B-tile that is not frozen arbitrate the accesses at its ports (R108 to R110); a frozen one only empties the inbound queue
that the freeze waits for (R112). -/
def State.bankCycle (s : State) (x : Site) : State :=
  if siteKind x ≠ .b || (s.die x.die.val).state = .off then s
  else if s.frozenAt x then (if s.drains x then s.onTile x fun t => { t with b := t.b.drainCycle (s.bankNow x) } else s)
  else
    s.onTile x fun t => { t with b := t.b.cycle (cfgSplit t.active.cfg) (s.net.flow.any fun p => arrivedIs x p) (s.cycleAt x) }

/-- The weight of a tile in the cycle that ends: an M-tile whose matrix unit computes, a V-tile one of whose units holds an instruction
(R233). -/
def State.cycleWeight (s : State) (x : Site) : Nat :=
  let t := s.tile x
  match siteKind x with
  | .m => if t.m.mma.any fun r => r.until_ - mmaCycles r.w < s.clk.fclk && s.clk.fclk ≤ r.until_ then weightM s.clk.point else 0
  | .v => if s.clk.fclk < t.v.unitsUntil then weightV s.clk.point else 0
  | _ => 0

/-- The die power controller adds a tile's weight to the tick of its region (R238). -/
def State.weighCycle (s : State) (x : Site) : State :=
  if s.cycleWeight x = 0 then s
  else { s with power := { s.power with pace := Map.upd {} s.power.pace (s.paceKey x) fun p => { p with sum := p.sum + s.cycleWeight x } } }

/-- Whether the front and the tile's own work leave only its shadow to wait for (R94). -/
def State.awaitsShadow (s : State) (x : Site) : Bool :=
  match s.instAt x with
  | none => false
  | some i =>
    let t := s.tile x
    let ports := frontIn t.active.routerWord
    i.run.frontTo = some t.shadowSection && !ports.isEmpty && ports.all (fun p => t.tokens.any fun k => k.1 = p) &&
      s.tileDone x && !s.shadowReady x && !s.isFused x && !s.frozenAt x && !(s.ctx i.tenant).preempted

/-- A tile that only its shadow keeps from the swap holds the front: FRONT_HOLDS counts the hold, HOLD_CYCLES its cycles (R94). In a sealed
section the length of the hold counts from the assertion of the seal stall (log entry 53). Both counters hold their maximum (R9). -/
def State.holdCycle (s : State) (x : Site) : State :=
  let t := s.tile x
  if s.sealedAt x then
    match t.holding with
    | some n => if s.shadowReady x then s else s.onTile x fun t => { t with holding := some (n + 1) }
    | none => s
  else if s.awaitsShadow x then
    s.onTile x fun t =>
      { t with holding := some (t.holding.getD 0 + 1), holdCycles := addSat t.holdCycles 1,
               frontHolds := if t.holding.isSome then t.frontHolds else addSat t.frontHolds 1 }
  else s

/-- The freeze of an instance begins 12 cycles after the assertion and ends 12 cycles after the last asserting tile is satisfied; it lasts at
least one cycle. Its cycles count for every section whose seal is broken and not yet reported (R95, R347, R351). -/
def Run.freeze (r : Run) (now : Nat) : Run :=
  match r.frozenSince with
  | none =>
    match r.freezeAt with
    | some c => if c ≤ now then { r with frozenSince := some now, freezeAt := none } else r
    | none => if r.releaseAt.isSome then { r with releaseAt := none } else r
  | some c =>
    match r.releaseAt with
    | some e =>
      if e ≤ now && c < now then
        { r with frozenSince := none, releaseAt := none, frozenTotal := r.frozenTotal + (now - c)
                 sealFrozen := r.sealCauses.foldl (fun m (e : Nat × BitVec 6) => Map.upd 0 m e.1 fun n => n + (now - c)) r.sealFrozen }
      else r
    | none => r

/-- The freezes of every instance in the cycle that begins. -/
def State.freezes (s : State) : State :=
  s.instances.foldl (fun a i => a.onInst i.id fun j => { j with run := j.run.freeze s.clk.fclk }) s

/-- One FCLK cycle: the banks arbitrate, holds count, tiles are weighed, the clock advances, freezes begin and end, and closes that no command asked for go
on. -/
def State.tick (s : State) : State :=
  if s.alive then
    let s1 := s.sites.foldl State.bankCycle s
    let s2 := s.sites.foldl State.weighCycle (s.sites.foldl State.holdCycle s1)
    let s3 := State.freezes { s2 with clk := s2.clk.advance s2.time.rateOffset }
    (List.finRange 16).foldl State.goOnClosing s3
  else s

end Sys2Proof.Machine
end

