-- ==== Sys2Proof/Safety.lean ====
section
/-! DEFINITION. What a safe run is, and the terms that the statements use: how a tile comes to issue an instruction, what a command leaves as
it was, and the invariant that every step keeps. -/

namespace Sys2Proof.Machine

open Sys2Proof

/-! ## Safe runs -/

/-- A step that goes on: the block neither faults nor refuses. -/
def Goes (s : State) : Prop := ∃ t, step s = .next t

/-- The invariant of every step: the bytes that the P7 wrote to host memory and HBM are held in canonical form (log entry 5), and the log
buffer and the interrupt queue hold no more than their sizes (R378, R381), and the package keeps the good tiles of its grade (R20). -/
structure State.Sound (s : State) : Prop where
  hostMem : Memory.wf s.host.mem = true
  hbm : Memory.wf s.mem.hbm = true
  log : s.log.buffer.length ≤ logBufferSize
  iq : s.iq.queue.length ≤ iqSize
  pkg : s.pkg.meets

/-! ## Frames -/

/-- Two states agree on everything but the tile at a site. -/
def OnlyTile (x : Site) (s t : State) : Prop := { t with tiles := s.tiles } = s ∧ ∀ y, y ≠ x → t.tile y = s.tile y

/-- Two states agree on everything but the tile at a site and the packets in flight. -/
def OnlyTileFlow (x : Site) (s t : State) : Prop :=
  { t with tiles := s.tiles, net := { t.net with flow := s.net.flow } } = s ∧ ∀ y, y ≠ x → t.tile y = s.tile y

/-- Two states agree on everything but the tile at a site and the beacon operations on their way. -/
def OnlyTileOps (x : Site) (s t : State) : Prop :=
  { t with tiles := s.tiles, net := { t.net with ops := s.net.ops } } = s ∧ ∀ y, y ≠ x → t.tile y = s.tile y

/-- Two tiles agree on everything but the sequencer and ISSUE_STALLS. -/
def OnlySeq (a b : Tile) : Prop := { b with seq := a.seq, issueStalls := a.issueStalls } = a

/-- A tile's issue counts its stalls and goes on behind the word (R131, R171). -/
def Follows (a b : Tile) (i : Issue) : Prop :=
  b.issueStalls = addSat a.issueStalls i.stalls ∧ b.seq.ip = (nextAddr a.seq.ip a.seq.loops).1 ∧
    b.seq.loops = (nextAddr a.seq.ip a.seq.loops).2 ∧ b.seq.stack = a.seq.stack ∧ b.seq.secend = a.seq.secend ∧ b.seq.stopped = a.seq.stopped

/-! ## Issue -/

/-- A tile issues a word with an opcode from its stream: it may issue, the pacer does not hold it, no parity error is met, the word at its
IP, which does not come from the replay slot, is `w`, and no instruction in flight still needs a register of it (R131, R150, R183, R240,
R369). -/
abbrev Issues (s : State) (i : Issue) (op : Nat) (w : DWord) : Prop :=
  s.mayIssue i.site = true ∧ s.paceHeld i.site op = false ∧ i.parity = none ∧
    (s.tile i.site).nextWord (siteKind i.site) = (w, (s.tile i.site).seq.ip, false) ∧ opcodeOf w = op ∧
    (s.tile i.site).hazard (siteKind i.site) s.clk.fclk w = false

/-- The byte address of the word that a tile issues next. -/
abbrev ipOf (s : State) (i : Issue) : Nat := (s.tile i.site).seq.ip

end Sys2Proof.Machine
end

