-- ==== Sys2Proof/WellFormed.lean ====
section
/-! DEFINITION. Which commands the outside can bring: the ranges that the spec gives the operands and that their types do not. -/

namespace Sys2Proof

/-- Size of an access over PCIe that names registers: a power of two up to eight bytes (R302). -/
def sizeOk (n : Nat) : Bool := n = 1 || n = 2 || n = 4 || n = 8

/-- Bytes of a B-tile (R103). -/
def btileBytes : Nat := 786432

/-- Upsets lie in the bytes that hold them. -/
def upsetsOk (limit : Nat) (us : List Upset) : Bool := us.all fun u => decide (u.off < limit)

/-- A received codeword: one of type NULL completes no message (R334). -/
def Codeword.ok (c : Codeword) : Bool := !c.isNull || c.msgs.isEmpty

/-- Well-formed commands. -/
def Instr.wf : Instr → Bool
  | .adbWrite _ size _ => sizeOk size
  | .cdbWrite _ _ size _ => sizeOk size
  | .doorbellSignal _ _ size _ => sizeOk size
  | .doorbellTake _ _ size _ => sizeOk size
  | .gtsLoRead _ size => sizeOk size
  | .registerWrite _ _ size _ => sizeOk size
  | .activeViewWrite _ _ offset _ => offset.toNat % 4 = 0
  | .shadowViewWrite _ _ offset _ => offset.toNat % 4 = 0
  | .bar2Read _ _ _ len us => decide (0 < len.val) && upsetsOk len.val us
  | .bar2Write _ _ bytes us => !bytes.isEmpty && decide (bytes.length ≤ 4096) && upsetsOk bytes.length us
  | .tld _ us => upsetsOk btileBytes us
  | .vld _ us => upsetsOk btileBytes us
  | .copyLocal _ us => upsetsOk btileBytes us
  | .gridWrite _ us => upsetsOk btileBytes us
  | .hbmWrite _ us => upsetsOk btileBytes us
  | .windowWrite _ us => upsetsOk btileBytes us
  | .tallyEmit _ _ us => upsetsOk btileBytes us
  | .codewordRx _ c => c.ok
  | .bypass code => decide (6 < code.toNat)
  | _ => true

end Sys2Proof
end

