-- ==== Sys2Proof/Certificates/Slice0/Obligations.lean ====
section
/-! DEFINITION. The statements for the provers, each from the rules of spec/. -/

namespace Sys2Proof.Claims

end Sys2Proof.Claims

open Sys2Proof Sys2Proof.Machine Sys2Proof.Claims

/-! ## The common control subset (Table VT-7) -/

namespace Sys2Proof.Claims

/-- What a taken branch leaves: everything but the sequencer, ISSUE_STALLS and, on a V-tile, BRANCHES, which counts it (R172). -/
def Branched (a b : Tile) (x : Site) (i : Issue) (ip : Nat) (loops : List HwLoop) : Prop :=
  { b with seq := a.seq, issueStalls := a.issueStalls, v := { b.v with branches := a.v.branches } } = a ∧
    b.v.branches = (if siteKind x = .v then addSat a.v.branches 1 else a.v.branches) ∧
    b.issueStalls = addSat a.issueStalls i.stalls ∧ b.seq.ip = ip ∧ b.seq.loops = loops ∧
    b.seq.secend = a.seq.secend ∧ b.seq.stopped = a.seq.stopped

end Sys2Proof.Claims

/-- NOP goes on behind its word; SECEND does so too and ends the section's program; IFENCE fetches the next word anew. Nothing else changes. -/
def Obligations.NopSecendIfenceMoveOnlyTheSequencer : Prop :=
  (∀ (i : Issue) (s : State) (w : DWord), Issues s i 0x30 w → onlyBits w 0 = true →
    ∃ t, exec (.nop i) s = .next t ∧ OnlyTile i.site s t ∧ OnlySeq (s.tile i.site) (t.tile i.site) ∧
      Follows (s.tile i.site) (t.tile i.site) i) ∧
  (∀ (i : Issue) (s : State) (w : DWord), Issues s i 0x31 w → onlyBits w 0 = true →
    ∃ t, exec (.secend i) s = .next t ∧ OnlyTile i.site s t ∧ OnlySeq (s.tile i.site) (t.tile i.site) ∧
      (t.tile i.site).seq.secend = true ∧ (t.tile i.site).seq.ip = (nextAddr (ipOf s i) (s.tile i.site).seq.loops).1) ∧
  (∀ (i : Issue) (s : State) (w : DWord), Issues s i 0x3A w → onlyBits w 0 = true →
    ∃ t, exec (.ifence i) s = .next t ∧ OnlyTile i.site s t ∧ OnlySeq (s.tile i.site) (t.tile i.site) ∧
      Follows (s.tile i.site) (t.tile i.site) i ∧
      (t.tile i.site).seq.held = [((t.tile i.site).seq.ip, (s.tile i.site).insn (siteKind i.site) (t.tile i.site).seq.ip)])

namespace Sys2Proof.Claims

/-- JMP, CALL and RET go where the spec sends them; CALL pushes the address behind it, RET takes it off; JMP leaves active the loops whose body
holds the target (R172). -/
def JumpsGoToTheirTargets : Prop :=
  (∀ (i : Issue) (s : State) (w : DWord), Issues s i 0x34 w → jmpLegal s i.site w (ipOf s i) = true →
    ∃ t, exec (.jmp i) s = .next t ∧ OnlyTile i.site s t ∧ (t.tile i.site).seq.stack = (s.tile i.site).seq.stack ∧
      Branched (s.tile i.site) (t.tile i.site) i.site i (targetOf (ipOf s i) (sfld w 45 32))
        (loopsWith (s.tile i.site).seq.loops (targetOf (ipOf s i) (sfld w 45 32)))) ∧
  (∀ (i : Issue) (s : State) (w : DWord), Issues s i 0x35 w → callLegal s i.site w (ipOf s i) = true →
    ∃ t, exec (.call i) s = .next t ∧ OnlyTile i.site s t ∧
      (t.tile i.site).seq.stack = (ipOf s i + 8) :: (s.tile i.site).seq.stack ∧
      Branched (s.tile i.site) (t.tile i.site) i.site i (targetOf (ipOf s i) (sfld w 45 32)) (s.tile i.site).seq.loops) ∧
  (∀ (i : Issue) (s : State) (w : DWord) (a : Nat) (rest : List Nat), Issues s i 0x36 w → onlyBits w 0 = true →
    (s.tile i.site).seq.stack = a :: rest →
    ∃ t, exec (.ret i) s = .next t ∧ OnlyTile i.site s t ∧ (t.tile i.site).seq.stack = rest ∧
      Branched (s.tile i.site) (t.tile i.site) i.site i a (s.tile i.site).seq.loops)

/-- The second operand of BR. -/
def brOperand (s : State) (x : Site) (w : DWord) : Word :=
  if fld w 49 49 = 1 then BitVec.ofNat 32 (fld w 31 0) else s.scalar x (fld w 53 50)

/-- BR goes to its target when its condition holds and on behind its word otherwise; LOOP opens its body, or with a count of 0 skips it
(R171, R172). -/
def BranchesAndLoopsFollowTheirOperands : Prop :=
  (∀ (i : Issue) (s : State) (w : DWord), Issues s i 0x33 w → brLegal s i.site w (ipOf s i) = true →
    brTaken (fld w 48 46) (s.scalar i.site (fld w 57 54)) (brOperand s i.site w) = true →
    ∃ t, exec (.br i) s = .next t ∧ OnlyTile i.site s t ∧ (t.tile i.site).seq.stack = (s.tile i.site).seq.stack ∧
      Branched (s.tile i.site) (t.tile i.site) i.site i (targetOf (ipOf s i) (sfld w 45 32))
        (loopsWith (s.tile i.site).seq.loops (targetOf (ipOf s i) (sfld w 45 32)))) ∧
  (∀ (i : Issue) (s : State) (w : DWord), Issues s i 0x33 w → brLegal s i.site w (ipOf s i) = true →
    brTaken (fld w 48 46) (s.scalar i.site (fld w 57 54)) (brOperand s i.site w) = false →
    ∃ t, exec (.br i) s = .next t ∧ OnlyTile i.site s t ∧ OnlySeq (s.tile i.site) (t.tile i.site) ∧
      Follows (s.tile i.site) (t.tile i.site) i) ∧
  (∀ (i : Issue) (s : State) (w : DWord), Issues s i 0x32 w → loopLegal s i.site w (ipOf s i) = true → loopCount s i.site w ≠ 0 →
    ∃ t, exec (.loop i) s = .next t ∧ OnlyTile i.site s t ∧ OnlySeq (s.tile i.site) (t.tile i.site) ∧
      (t.tile i.site).seq.ip = ipOf s i + 8 ∧ (t.tile i.site).seq.stack = (s.tile i.site).seq.stack ∧
      (t.tile i.site).seq.loops =
        { first := ipOf s i + 8, last := ipOf s i + 8 * loopLen w, count := loopCount s i.site w } :: (s.tile i.site).seq.loops) ∧
  (∀ (i : Issue) (s : State) (w : DWord), Issues s i 0x32 w → loopLegal s i.site w (ipOf s i) = true → loopCount s i.site w = 0 →
    ∃ t, exec (.loop i) s = .next t ∧ OnlyTile i.site s t ∧ OnlySeq (s.tile i.site) (t.tile i.site) ∧
      (t.tile i.site).seq.ip = ipOf s i + 8 * (loopLen w + 1) ∧ (t.tile i.site).seq.loops = (s.tile i.site).seq.loops)

/-- Two tiles agree on everything but the sequencer, ISSUE_STALLS and the scalars, and on every scalar but one. -/
def OnlyScalar (a b : Tile) (kind : TileKind) (k : Nat) : Prop :=
  { b with seq := a.seq, issueStalls := a.issueStalls, m := { b.m with q := a.m.q }, v := { b.v with s := a.v.s } } = a ∧
    (∀ j, j ≠ k → Map.get 0 b.m.q j = Map.get 0 a.m.q j ∧ Map.get 0 b.v.s j = Map.get 0 a.v.s j) ∧
    (kind = .m → b.v.s = a.v.s) ∧ (kind = .v → b.m.q = a.m.q)

/-- Two tiles agree on everything but the sequencer, ISSUE_STALLS and the active instruction memory. -/
def OnlyImem (a b : Tile) : Prop :=
  { b with seq := a.seq, issueStalls := a.issueStalls, active := { b.active with imem := a.active.imem } } = a

end Sys2Proof.Claims

/-- SLI and SOP write their one scalar; IMW writes its one word of the active instruction memory, and the words already held keep their form
(R173, R174, Table VT-7). -/
def Obligations.ScalarsAndInstructionWordsAreWritten : Prop :=
  (∀ (i : Issue) (s : State) (w : DWord), Issues s i 0x37 w → sliLegal s i.site w (ipOf s i) = true →
    ∃ t, exec (.sli i) s = .next t ∧ OnlyTile i.site s t ∧ t.scalar i.site (fld w 57 54) = BitVec.ofNat 32 (fld w 31 0) ∧
      OnlyScalar (s.tile i.site) (t.tile i.site) (siteKind i.site) (fld w 57 54) ∧ Follows (s.tile i.site) (t.tile i.site) i) ∧
  (∀ (i : Issue) (s : State) (w : DWord), Issues s i 0x38 w → sopLegal s i.site w (ipOf s i) = true →
    ∃ t, exec (.sop i) s = .next t ∧ OnlyTile i.site s t ∧
      t.scalar i.site (fld w 57 54) = sopOf (fld w 44 41) (s.scalar i.site (fld w 53 50))
        (if fld w 45 45 = 1 then BitVec.ofNat 32 (fld w 31 0) else s.scalar i.site (fld w 49 46)) ∧
      OnlyScalar (s.tile i.site) (t.tile i.site) (siteKind i.site) (fld w 57 54) ∧ Follows (s.tile i.site) (t.tile i.site) i) ∧
  (∀ (i : Issue) (s : State) (w : DWord), Issues s i 0x39 w → imwLegal s i.site w (ipOf s i) = true →
    ∃ t, exec (.imw i) s = .next t ∧ OnlyTile i.site s t ∧
      OnlyImem (s.tile i.site) (t.tile i.site) ∧
      (t.tile i.site).active.word (imwAddr s i.site w / 8) = s.scalar i.site (fld w 53 50 + 1) ++ s.scalar i.site (fld w 53 50) ∧
      (∀ k, k ≠ imwAddr s i.site w / 8 → (t.tile i.site).active.word k = (s.tile i.site).active.word k))

/-- OPEN sends its request and leaves the endpoint pending; CLOSE sends the marker of an open endpoint and closes it; BSIG sends its signal;
BWAIT sends its wait, and the sequencer waits for its grant with the BWAIT still the next word; GTSR takes the die's copy of the GTS (R182, R185, R197, R199, R177). -/
def Obligations.TilesSendTheirMessages : Prop :=
  (∀ (i : Issue) (s : State) (w : DWord), Issues s i 0x3B w → openLegal s i.site w (ipOf s i) = true →
    ((s.tile i.site).outEp (fld w 57 55)).state = .closed →
    ∃ t, exec (.openCh i) s = .next t ∧
      (t.tile i.site).outEp (fld w 57 55) =
        { state := .pending, target := s.scalar i.site (fld w 54 51), sd := fld w 49 46, flits := 0, cut := false } ∧
      (∃ p, t.net.flow = s.net.flow ++ [p] ∧ p.place = .router i.site 4 ∧
        p.head = s.chanHead i.site (s.scalar i.site (fld w 54 51)) (chanTag 1 (fld w 57 55) 0)) ∧
      OnlyTileFlow i.site s t) ∧
  (∀ (i : Issue) (s : State) (w : DWord), Issues s i 0x3C w → closeLegal s i.site w (ipOf s i) = true →
    ((s.tile i.site).outEp (fld w 57 55)).state = .opened →
    ∃ t, exec (.closeCh i) s = .next t ∧ ((t.tile i.site).outEp (fld w 57 55)).state = .closed ∧
      (∃ p, t.net.flow = s.net.flow ++ [p] ∧ p.place = .router i.site 4 ∧ p.body = .close) ∧
      OnlyTileFlow i.site s t) ∧
  (∀ (i : Issue) (s : State) (w : DWord) (u : Tenant), Issues s i 0x3D w → beaconLegal s i.site w (ipOf s i) = true →
    s.sealedAt i.site = false → s.ownerOf i.site = some u →
    ∃ t, exec (.bsig i) s = .next t ∧
      t.net.ops = s.net.ops ++ [{ tenant := u, gen := (s.ctx u).gen, beacon := beaconIndex s i.site w,
                                  count := BitVec.ofNat 16 (fld w 15 0), src := siteSrc i.site, wait := none,
                                  stamp := (s.arises (siteSrc i.site)).2 }] ∧
      OnlyTileOps i.site s { t with insts := s.insts }) ∧
  (∀ (i : Issue) (s : State) (w : DWord) (u : Tenant), Issues s i 0x3E w → beaconLegal s i.site w (ipOf s i) = true →
    s.sealedAt i.site = false → s.ownerOf i.site = some u →
    ∃ t, exec (.bwait i) s = .next t ∧ (t.tile i.site).seq.waiting = true ∧ (t.tile i.site).seq.ip = ipOf s i ∧
      t.net.ops = s.net.ops ++ [{ tenant := u, gen := (s.ctx u).gen, beacon := beaconIndex s i.site w,
                                  count := BitVec.ofNat 16 (fld w 15 0), src := siteSrc i.site, wait := some (.tile i.site),
                                  stamp := (s.arises (siteSrc i.site)).2 }] ∧
      OnlyTileOps i.site s t) ∧
  (∀ (i : Issue) (s : State) (w : DWord) (u : Tenant), Issues s i 0x3F w → gtsrLegal s i.site w (ipOf s i) = true →
    s.sealedAt i.site = false → s.ownerOf i.site = some u → (s.ctx u).replay = none →
    ∃ t, exec (.gtsr i) s = .next t ∧
      t.scalar i.site (fld w 57 54 + 1) ++ t.scalar i.site (fld w 57 54) = s.localGts i.site.die.val ∧
      (t.tile i.site).gtsrs = (s.tile i.site).gtsrs + 1 ∧ (∀ y, y ≠ i.site → t.tile y = s.tile y) ∧ t.mem = s.mem ∧ t.net = s.net)

/-- Jumps, calls and returns, branches and loops go where their operands say (R171 to R173, R176). -/
def Obligations.JumpsBranchesAndLoopsGoToTheirTargets : Prop := JumpsGoToTheirTargets ∧ BranchesAndLoopsFollowTheirOperands

/-! ## Matrix tiles -/

namespace Sys2Proof.Claims

/-- Two M-tile states agree on the data registers t0 to t7 outside one, with their scale sides. -/
def OtherRegs (a b : MState) (r : Nat) : Prop :=
  ∀ k, k ≠ r → ∀ row off, row < 64 → (off < 64 → Memory.byte b.t (k * 4096 + row * 64 + off) = Memory.byte a.t (k * 4096 + row * 64 + off)) ∧
    (off < 8 → Memory.byte b.scale (k * 512 + row * 8 + off) = Memory.byte a.scale (k * 512 + row * 8 + off))

/-- Two states agree on everything but a tile, its B-tile and those. -/
def OnlyPair (x y : Site) (s t : State) : Prop := { t with tiles := s.tiles } = s ∧ ∀ z, z ≠ x → z ≠ y → t.tile z = s.tile z

/-- A byte offset lies outside every row of a TLD or TST. -/
def OutsideRows (s : State) (x : Site) (w : DWord) (a : Nat) : Prop :=
  ∀ r, r < ldRows w → a < ldOff s x w r ∨ ldOff s x w r + ldBytes w ≤ a

/-- TLD reads its rows from the home B-tile into the rows of its register, data side or scale side, and changes no byte of the B-tile: with no
upset word in the B-tile, it completes (R104, R139). -/
def TldLoadsItsRows : Prop :=
  ∀ (i : Issue) (s : State) (w : DWord), Issues s i 0x01 w → siteKind i.site = .m → ldLegal s i.site w (ipOf s i) = true →
    (s.tile (homeB i.site)).b.bad = [] →
    ∃ t, exec (.tld i []) s = .next t ∧ OnlyPair i.site (homeB i.site) s t ∧
      (t.tile (homeB i.site)).b.mem = (s.tile (homeB i.site)).b.mem ∧
      OtherRegs (s.tile i.site).m (t.tile i.site).m (fld w 57 55) ∧ (t.tile i.site).m.acc = (s.tile i.site).m.acc ∧
      (∀ r, r < ldRows w →
        (if fld w 54 54 = 1 then (t.tile i.site).m.scaleRow (fld w 57 55) (fld w 5 0 + r) 0 8
         else (t.tile i.site).m.row (fld w 57 55) (fld w 5 0 + r) 0 (ldBytes w)) =
          Memory.read (s.tile (homeB i.site)).b.mem (ldOff s i.site w r) (ldBytes w))

/-- TST writes each row of its register to the row's place in the home B-tile, the later of two rows that overlap last, and no other byte
(R104, R139). -/
def TstStoresItsRows : Prop :=
  ∀ (i : Issue) (s : State) (w : DWord), Issues s i 0x02 w → siteKind i.site = .m → ldLegal s i.site w (ipOf s i) = true →
    ∃ t, exec (.tst i) s = .next t ∧ OnlyPair i.site (homeB i.site) s t ∧ (t.tile i.site).m = (s.tile i.site).m ∧
      (∀ a, OutsideRows s i.site w a → (t.tile (homeB i.site)).b.mem.byte a = (s.tile (homeB i.site)).b.mem.byte a) ∧
      (∀ r, r < ldRows w →
        (∀ q, r < q → q < ldRows w → ldOff s i.site w q + ldBytes w ≤ ldOff s i.site w r ∨ ldOff s i.site w r + ldBytes w ≤ ldOff s i.site w q) →
        Memory.read (t.tile (homeB i.site)).b.mem (ldOff s i.site w r) (ldBytes w) =
          (if fld w 54 54 = 1 then (s.tile i.site).m.scaleRow (fld w 57 55) (fld w 5 0 + r) 0 8
           else (s.tile i.site).m.row (fld w 57 55) (fld w 5 0 + r) 0 (ldBytes w)))

/-- The groups of 32 products of one output element of a TMMA. -/
def mmaGroups (m : MState) (w : DWord) (fa fb : Fmt) (r c : Nat) : List (List (Fp × Fp)) :=
  groups32 5 ((rowElems fa (m.aRow w r).1).zip (rowElems fb (m.bRow w c).1))

/-- The value that an output element of a TMMA starts from. -/
def mmaInit (m : MState) (w : DWord) (r c : Nat) : Word := if fld w 53 53 = 1 then 0 else m.elem (fld w 55 54) r c

/-- TMMA: every element of the destination accumulator inside M × N is the sum of its group sums on the accumulator's value, in floating point
or in integers as the format says, every other one of it is the value it starts from; the other accumulators stay, and TMMA_DONE counts
(R133, R134, R135, R144, R145). -/
def TmmaAccumulatesItsProducts : Prop :=
  ∀ (i : Issue) (s : State) (w : DWord) (fa fb : Fmt), Issues s i 0x04 w → siteKind i.site = .m → tmmaLegal s i.site w (ipOf s i) = true →
    mmaFormats w = some (fa, fb) →
    ∃ t, exec (.tmma i) s = .next t ∧ OnlyTile i.site s t ∧ Follows (s.tile i.site) (t.tile i.site) i ∧
      (t.tile i.site).m.tmmaDone = addSat (s.tile i.site).m.tmmaDone 1 ∧
      (∀ a r c, a ≠ fld w 57 56 → r < 16 → c < 32 → (t.tile i.site).m.elem a r c = (s.tile i.site).m.elem a r c) ∧
      (∀ r c, r < 16 → c < 32 →
        (t.tile i.site).m.elem (fld w 57 56) r c =
          if r < fld w 39 36 + 1 ∧ c < fld w 35 31 + 1 then
            (if fa.kind = FmtKind.int ∧ !fa.mx then
               (mmaIntElem (mmaGroups (s.tile i.site).m w fa fb r c) (mmaInit (s.tile i.site).m w r c)).1
             else mmaElem fa.mx ((s.tile i.site).m.aRow w r).2 ((s.tile i.site).m.bRow w c).2
               (mmaGroups (s.tile i.site).m w fa fb r c) (mmaInit (s.tile i.site).m w r c))
          else mmaInit (s.tile i.site).m w r c)

/-- An accumulator row of a TCVT. -/
def cvtAcc (m : MState) (w : DWord) (r : Nat) : List Word := (List.range 32).map fun j => m.elem (fld w 57 56) r j

/-- The state of the generator before a row of a TCVT. -/
def cvtRng (m : MState) (f : Fmt) (w : DWord) (g : DWord) : Nat → DWord
  | 0 => g
  | r + 1 => (cvtRow f w (cvtAcc m w r) (cvtRng m f w g r)).2.2

/-- What TCVT leaves in its register for a row of the accumulator: the packed codes, over two rows for a 32-bit format, and the scale byte of
an MX block. -/
def CvtRow (a b : Tile) (f : Fmt) (w : DWord) (r : Nat) : Prop :=
  let c := cvtRow f w (cvtAcc a.m w r) (cvtRng a.m f w a.rng r)
  (if wideFmt (fld w 52 49) then
     b.m.row (fld w 55 53) (fld w 34 29 + 2 * r) 0 64 ++ b.m.row (fld w 55 53) (fld w 34 29 + 2 * r + 1) 0 64 = packElems f.bits c.1
   else b.m.row (fld w 55 53) (fld w 34 29 + r) (cvtCol w) (4 * f.bits) = packElems f.bits c.1) ∧
  (f.mx = true → wideFmt (fld w 52 49) = false → b.m.scaleRow (fld w 55 53) (fld w 34 29 + r) (cvtCol w / (4 * f.bits)) 1 = [c.2.1])

/-- TCVT converts each accumulator row into its register, with one draw of the generator for every element that is rounded stochastically, in
order; accumulators and other registers stay (R136, R137, R146). -/
def TcvtConvertsItsRows : Prop :=
  ∀ (i : Issue) (s : State) (w : DWord) (f : Fmt), Issues s i 0x05 w → siteKind i.site = .m → tcvtLegal s i.site w (ipOf s i) = true →
    fmtOf (fld w 52 49) = some f →
    ∃ t, exec (.tcvt i) s = .next t ∧ OnlyTile i.site s t ∧ Follows (s.tile i.site) (t.tile i.site) i ∧
      (t.tile i.site).m.acc = (s.tile i.site).m.acc ∧ OtherRegs (s.tile i.site).m (t.tile i.site).m (fld w 55 53) ∧
      (t.tile i.site).rng = cvtRng (s.tile i.site).m f w (s.tile i.site).rng (cvtRows w) ∧
      (∀ r, r < cvtRows w → CvtRow (s.tile i.site) (t.tile i.site) f w r)

/-- TLDA loads its rows into an accumulator and zeros the rest of it; TREL makes the registers and accumulators that it names empty, so that
they read as zero; neither touches another (R128, R147, R148). -/
def TldaAndTrelWriteWhatTheyName : Prop :=
  (∀ (i : Issue) (s : State) (w : DWord), Issues s i 0x06 w → siteKind i.site = .m → tldaLegal s i.site w (ipOf s i) = true →
    ∃ t, exec (.tlda i) s = .next t ∧ OnlyTile i.site s t ∧ Follows (s.tile i.site) (t.tile i.site) i ∧
      (t.tile i.site).m.t = (s.tile i.site).m.t ∧ (t.tile i.site).m.scale = (s.tile i.site).m.scale ∧
      (∀ a r c, a ≠ fld w 57 56 → r < 16 → c < 32 → (t.tile i.site).m.elem a r c = (s.tile i.site).m.elem a r c) ∧
      (∀ r c, r < 16 → c < 32 → (t.tile i.site).m.elem (fld w 57 56) r c =
        if r < ldaRows w then ((s.tile i.site).m.ldaRow w r).getD c 0 else 0)) ∧
  (∀ (i : Issue) (s : State) (w : DWord), Issues s i 0x07 w → siteKind i.site = .m → trelLegal s i.site w (ipOf s i) = true →
    ∃ t, exec (.trel i) s = .next t ∧ OnlyTile i.site s t ∧ Follows (s.tile i.site) (t.tile i.site) i ∧
      (∀ r row off, r < 8 → row < 64 → off < 64 → Memory.byte (t.tile i.site).m.t (r * 4096 + row * 64 + off) =
        if bitAt w (50 + r) then 0 else Memory.byte (s.tile i.site).m.t (r * 4096 + row * 64 + off)) ∧
      (∀ r, r < 8 → (t.tile i.site).m.full.getLsbD r = ((s.tile i.site).m.full.getLsbD r && !bitAt w (50 + r))) ∧
      (∀ a row c, a < 4 → row < 16 → c < 32 → (t.tile i.site).m.elem a row c =
        if bitAt w (46 + a) then 0 else (s.tile i.site).m.elem a row c))

/-- TLDW starts: unless every row's line is in the window cache, it stands in the window unit with its word, its address and its place, and its
first missing row is requested from the translation unit of the die's half (R140, R418). -/
def TldwRequestsItsMissingRows : Prop :=
  ∀ (i : Issue) (s : State) (w : DWord), Issues s i 0x03 w → siteKind i.site = .m → tldwLegal s i.site w (ipOf s i) = true →
    s.sealedAt i.site = false → (s.tile i.site).m.tldw = none →
    (s.tile i.site).m.line (tldwRowVa (tldwVa s i.site w) w 0) = none →
    ∃ t d p, exec (.tldw i) s = .next t ∧ (t.tile i.site).m.tldw = some d ∧ d.w = w ∧ d.ip = ipOf s i ∧ d.va = tldwVa s i.site w ∧
      d.waiting = false ∧ d.fault = none ∧ 0 ∈ d.sent ∧ p ∈ t.net.flow ∧ p.place = .router i.site 4 ∧
      p.body = .memReq { write := false, va := BitVec.ofNat 64 (tldwRowVa (tldwVa s i.site w) w 0 / 64 * 64), handle := 0, window := false,
                         bytes := tldwBytes w, row := 0, data := 0 } ∧ OnlyTileFlow i.site s t

end Sys2Proof.Claims

/-- TDMA posts a descriptor of its row to the home B-tile's engine, which has room; TSEND sends its rows on an open endpoint, one flit each;
WCINV empties the window cache; TLDW_FAULT ends a faulted TLDW, which waits for its resolution with its row and place (R115, R140, R141, R143,
R184). -/
def Obligations.MtilePostsSendsAndWaits : Prop :=
  (∀ (i : Issue) (s : State) (w : DWord), Issues s i 0x08 w → siteKind i.site = .m → tdmaLegal s i.site w (ipOf s i) = true →
    s.dmaRoom (homeB i.site) = true →
    ∃ t d, exec (.tdma i) s = .next t ∧ OnlyPair i.site (homeB i.site) s t ∧ (t.tile i.site).m = (s.tile i.site).m ∧
      (t.tile (homeB i.site)).b.dmas = (s.tile (homeB i.site)).b.dmas ++ [d] ∧ d.seq = (s.tile (homeB i.site)).b.nextSeq ∧
      d.poster = siteSrc i.site ∧ d.desc = BitVec.ofNat 256 (leNat ((s.tile i.site).m.row (fld w 57 55) (fld w 54 49) 0 32)) ∧
      (t.tile (homeB i.site)).b.nextSeq = (s.tile (homeB i.site)).b.nextSeq + 1) ∧
  (∀ (i : Issue) (s : State) (w : DWord), Issues s i 0x09 w → siteKind i.site = .m → tsendLegal s i.site w (ipOf s i) = true →
    ((s.tile i.site).outEp (fld w 54 52)).state = .opened →
    ((s.tile i.site).outEp (fld w 54 52)).cut = false →
    ∃ t ps, exec (.tsend i) s = .next t ∧ OnlyTileFlow i.site s t ∧ t.net.flow = s.net.flow ++ ps ∧
      ((t.tile i.site).outEp (fld w 54 52)).flits = ((s.tile i.site).outEp (fld w 54 52)).flits + (fld w 51 46 + 1) ∧
      (ps.flatMap fun p => match p.body with | .chan fs => fs | _ => []) =
        (List.range (fld w 51 46 + 1)).map fun r => flitOf ((s.tile i.site).m.row (fld w 57 55) (fld w 38 33 + r) 0 (rbBytes (fld w 45 43)))) ∧
  (∀ (i : Issue) (s : State) (w : DWord), Issues s i 0x0A w → siteKind i.site = .m → onlyBits w 0 = true → s.sealedAt i.site = false →
    (s.tile i.site).m.tldw = none →
    ∃ t, exec (.wcinv i) s = .next t ∧ OnlyTile i.site s t ∧ (t.tile i.site).m = { (s.tile i.site).m with cache := [] }) ∧
  (∀ (x : Site) (s : State) (d : TldwRun) (row id : Nat), (s.tile x).m.tldw = some d → d.fault = some (row, id) → s.alive = true →
    d.waiting = false → d.outstanding = 0 →
    ∃ t, exec (.tldwFault x) s = .next t ∧ OnlyTile x s t ∧ (t.tile x).m.tldw = some { d with waiting := true } ∧
      (t.tile x).m.tldwFault = true ∧ (t.tile x).m.faultIp = d.ip ∧ (t.tile x).m.faultRow = row)

/-- TLD loads its rows from the paired B-tile and TST stores its rows there. -/
def Obligations.RowsMoveBetweenRegistersAndTheBTile : Prop := TldLoadsItsRows ∧ TstStoresItsRows

/-- TMMA accumulates the products of its operand rows, TCVT converts accumulator rows. -/
def Obligations.ProductsAccumulateAndConvert : Prop := TmmaAccumulatesItsProducts ∧ TcvtConvertsItsRows

/-- TLDA fills an accumulator, TREL empties what it names, TLDW requests the rows that its cache lacks. -/
def Obligations.TldaTrelAndTldwWriteWhatTheyName : Prop := TldaAndTrelWriteWhatTheyName ∧ TldwRequestsItsMissingRows

/-! ## Vector tiles -/

namespace Sys2Proof.Claims

/-- Two tiles agree on everything but the V-tile registers, the sequencer and ISSUE_STALLS. -/
def OnlyVector (a b : Tile) : Prop := { b with seq := a.seq, issueStalls := a.issueStalls, v := a.v } = a

/-- A vector result: under the mask each element of VD takes its value, another one keeps the old value or becomes zero; every other register,
mask and scalar stays (R157). -/
def PutsElems (a b : VState) (w : DWord) (ty : Nat) (f : Nat → Word) : Prop :=
  (∀ e, e < tyCount ty → b.elem ty (vD w) e = if a.active w e then (if ty = 1 then ((f e).setWidth 16).setWidth 32 else f e)
    else if vMz w then 0 else a.elem ty (vD w) e) ∧
  (∀ r l, r ≠ vD w → l < 64 → b.lane r l = a.lane r l) ∧ b.m = a.m ∧ b.s = a.s ∧ b.queues = a.queues

/-- A mask result: under the mask each bit of the destination takes its value, another one keeps its value or becomes zero, and the bits beyond
the type's elements are zero; everything else stays (R153, R157). -/
def PutsBits (a b : VState) (w : DWord) (ty : Nat) (f : Nat → Bool) : Prop :=
  (∀ e, e < 128 → (b.mask (vD w % 8)).getLsbD e =
    (decide (e < tyCount ty) && (if a.active w e then f e else !vMz w && (a.mask (vD w % 8)).getLsbD e))) ∧
  (∀ k, k ≠ vD w % 8 → b.mask k = a.mask k) ∧ b.v = a.v ∧ b.s = a.s ∧ b.queues = a.queues

/-- What a vector instruction leaves: its effect on the registers and the sequencer behind it. -/
def VectorStep (i : Issue) (s t : State) (effect : VState → VState → Prop) : Prop :=
  OnlyTile i.site s t ∧ OnlyVector (s.tile i.site) (t.tile i.site) ∧ Follows (s.tile i.site) (t.tile i.site) i ∧
    effect (s.tile i.site).v (t.tile i.site).v

/-- One element of a VOP. -/
def vopElem (a : VState) (w : DWord) (e : Nat) : Word :=
  if vFn w = 13 then a.elem (vTy w) (vA w) e
  else if vFn w = 14 then (if (a.mask (vMk w)).getLsbD e then a.elem (vTy w) (vA w) e else a.elemB w e)
  else if vTy w = 2 then vopInt (vFn w) (a.elem (vTy w) (vA w) e) (a.elemB w e)
  else vopFp (vFn w) (vTy w) (a.elem (vTy w) (vA w) e) (a.elemB w e)

/-- One element of a VFMA: one rounding (R158). -/
def vfmaElem (a : VState) (w : DWord) (e : Nat) : Word :=
  tyRound (vTy w) (((tyVal (vTy w) (a.elem (vTy w) (vA w) e)).mul (tyVal (vTy w) (a.elemB w e))).add
    (tyVal (vTy w) (a.elem (vTy w) (vC w) e)))

/-- VOP, VFMA and VSF give each active element of their destination its value, and change no other register (R157, R158, R160, Tables VT-3,
VT-5). -/
def VectorArithmeticWritesItsElements : Prop :=
  (∀ (i : Issue) (s : State) (w : DWord), Issues s i 0x01 w → siteKind i.site = .v → vopLegal w = true →
    ∃ t, exec (.vop i) s = .next t ∧ VectorStep i s t fun a b => PutsElems a b w (vTy w) (vopElem a w)) ∧
  (∀ (i : Issue) (s : State) (w : DWord), Issues s i 0x02 w → siteKind i.site = .v →
    (vecLegal w true false false false && vFn w = 0 && vTy w < 2) = true →
    ∃ t, exec (.vfma i) s = .next t ∧ VectorStep i s t fun a b => PutsElems a b w (vTy w) (vfmaElem a w)) ∧
  (∀ (i : Issue) (s : State) (w : DWord), Issues s i 0x04 w → siteKind i.site = .v →
    (vecLegal w false false false false && vFn w < 9 && vTy w < 2) = true →
    ∃ t, exec (.vsf i) s = .next t ∧ VectorStep i s t fun a b => PutsElems a b w (vTy w) fun e =>
      tyRound (vTy w) (vsfOf (vFn w) (tyVal (vTy w) (a.elem (vTy w) (vA w) e))))

/-- One lane of a VCVT without stochastic rounding. -/
def vcvtLane (a : VState) (w : DWord) (l : Nat) : Word :=
  match vFn w with
  | 0 => f32ToI32 (a.lane (vA w) l)
  | 1 => i32ToF32 (a.lane (vA w) l)
  | 2 => packBf16 none (a.elemB w l) ++ packBf16 none (a.lane (vA w) l)
  | 3 => widenBf16 ((a.lane (vA w) l).extractLsb' 0 16)
  | _ => widenBf16 ((a.lane (vA w) l).extractLsb' 16 16)

/-- VCMP gives the bits of its mask register their values; VPERM moves lanes; VCVT converts them, and with RND it takes one draw of the
generator for every one of the 128 packed elements (R159, R162, R163). -/
def ComparesMovesAndConversions : Prop :=
  (∀ (i : Issue) (s : State) (w : DWord), Issues s i 0x03 w → siteKind i.site = .v →
    (vecLegal w false false false false && vFn w < 7) = true →
    ∃ t, exec (.vcmp i) s = .next t ∧ VectorStep i s t fun a b => PutsBits a b w (vTy w) fun e =>
      if vTy w = 2 then cmpInt (vFn w) (a.elem 2 (vA w) e) (a.elemB w e)
      else cmpFp (vFn w) (tyVal (vTy w) (a.elem (vTy w) (vA w) e)) (tyVal (vTy w) (a.elemB w e))) ∧
  (∀ (i : Issue) (s : State) (w : DWord), Issues s i 0x06 w → siteKind i.site = .v →
    (vecLegal w false false false false && vFn w < 4 && vTy w = 0) = true →
    ∃ t, exec (.vperm i) s = .next t ∧ VectorStep i s t fun a b => PutsElems a b w 0 fun l => a.lane (vA w) (a.permSource w l)) ∧
  (∀ (i : Issue) (s : State) (w : DWord), Issues s i 0x07 w → siteKind i.site = .v → vcvtLegal s i.site w (ipOf s i) = true →
    vRnd w = false →
    ∃ t, exec (.vcvt i) s = .next t ∧ VectorStep i s t fun a b => PutsElems a b w 0 (vcvtLane a w)) ∧
  (∀ (i : Issue) (s : State) (w : DWord), Issues s i 0x07 w → siteKind i.site = .v → vcvtLegal s i.site w (ipOf s i) = true →
    vRnd w = true →
    ∃ t, exec (.vcvt i) s = .next t ∧ OnlyTile i.site s t ∧
      (t.tile i.site).rng = (drawList 128 (s.tile i.site).rng).2 ∧ Follows (s.tile i.site) (t.tile i.site) i ∧
      PutsElems (s.tile i.site).v (t.tile i.site).v w 0 fun l =>
        packBf16 (some ((drawList 128 (s.tile i.site).rng).1.getD (2 * l + 1) 0)) ((s.tile i.site).v.elemB w l) ++
          packBf16 (some ((drawList 128 (s.tile i.site).rng).1.getD (2 * l) 0)) ((s.tile i.site).v.lane (vA w) l))

/-- VRED leaves the reduced value in lane 0 with zeros above, or with RS = 1 in its scalar; VMOVS moves between a lane and a scalar, or to the
active lanes; MOP of two masks writes the destination mask (R161, R164). -/
def ReductionsAndScalarMoves : Prop :=
  (∀ (i : Issue) (s : State) (w : DWord), Issues s i 0x05 w → siteKind i.site = .v →
    (vecLegal w false false true false && vFn w < 3 && (vRs w || !vMz w)) = true →
    ∃ t, exec (.vred i) s = .next t ∧ VectorStep i s t fun a b =>
      (if vRs w then Map.get 0 b.s (vD w % 16) = a.reduce w ∧ b.v = a.v ∧ ∀ k, k ≠ vD w % 16 → Map.get 0 b.s k = Map.get 0 a.s k
       else b.lane (vD w) 0 = a.reduce w ∧ (∀ l, 0 < l → l < 64 → b.lane (vD w) l = 0) ∧ b.s = a.s ∧
         ∀ r l, r ≠ vD w → l < 64 → b.lane r l = a.lane r l) ∧ b.m = a.m ∧ b.queues = a.queues) ∧
  (∀ (i : Issue) (s : State) (w : DWord), Issues s i 0x0C w → siteKind i.site = .v →
    (vecLegal w false false false false && vFn w < 3 && vTy w = 0) = true →
    ∃ t, exec (.vmovs i) s = .next t ∧ VectorStep i s t fun a b =>
      (vFn w = 0 → Map.get 0 b.s (vD w % 16) = a.lane (vA w) (vAux w) ∧ b.v = a.v ∧ b.m = a.m) ∧
      (vFn w = 1 → PutsElems a b w 0 fun l => if l = vAux w then Map.get 0 a.s (vB w % 16) else a.lane (vD w) l) ∧
      (vFn w = 2 → PutsElems a b w 0 fun _ => Map.get 0 a.s (vB w % 16))) ∧
  (∀ (i : Issue) (s : State) (w : DWord), Issues s i 0x0D w → siteKind i.site = .v →
    (vecLegal w false false false false && vFn w < 10 && vTy w = 0) = true →
    ∃ t, exec (.mop i) s = .next t ∧ VectorStep i s t fun a b =>
      let x := a.mask (vA w % 8)
      let y := a.mask (vB w % 8)
      let d := b.mask (vD w % 8)
      b.v = a.v ∧ b.queues = a.queues ∧ (vFn w < 8 → b.s = a.s) ∧ (8 ≤ vFn w → b.m = a.m) ∧
      (vFn w = 0 → d = x &&& y) ∧ (vFn w = 1 → d = x ||| y) ∧ (vFn w = 2 → d = x ^^^ y) ∧ (vFn w = 3 → d = x &&& ~~~y) ∧
      (vFn w = 4 → d = ~~~x) ∧ (vFn w = 5 → ∀ e, e < 128 → d.getLsbD e = true) ∧ (vFn w = 6 → d = 0) ∧
      (vFn w = 7 → ∀ e, e < 128 → d.getLsbD e = if e / 32 = vAux w % 4 then (Map.get 0 a.s (vB w % 16)).getLsbD (e % 32)
        else (a.mask (vD w % 8)).getLsbD e) ∧
      (vFn w = 8 → Map.get 0 b.s (vD w % 16) = x.extractLsb' (32 * (vAux w % 4)) 32) ∧
      (vFn w = 9 → Map.get 0 b.s (vD w % 16) = BitVec.ofNat 32 (popCount x)))

/-- A byte offset lies outside every word of a VLD or VST. -/
def OutsideWords (s : State) (x : Site) (w : DWord) (a : Nat) : Prop := ∀ k, k < vlWords w → a < vlOff s x w k ∨ vlOff s x w k + 8 ≤ a

/-- VLD and VST within the view: VLD fills two lanes from each word of the home B-tile and changes no byte of it, VST writes two lanes to each
word, the later of two words at one place last, and no other byte (R166, R167). -/
def NarrowLoadsAndStores : Prop :=
  (∀ (i : Issue) (s : State) (w : DWord), Issues s i 0x08 w → siteKind i.site = .v → fld w 11 0 = 0 → s.vlBad i.site w = none →
    (s.tile (homeB i.site)).b.bad = [] →
    ∃ t, exec (.vld i []) s = .next t ∧ OnlyPair i.site (homeB i.site) s t ∧
      (t.tile (homeB i.site)).b.mem = (s.tile (homeB i.site)).b.mem ∧ (t.tile i.site).v.s = (s.tile i.site).v.s ∧
      (∀ k, k < vlWords w → leBytes 8 ((t.tile i.site).v.pair (fld w 57 53) k).toNat =
        Memory.read (s.tile (homeB i.site)).b.mem (vlOff s i.site w k) 8) ∧
      (∀ r l, l < 64 → (r ≠ fld w 57 53 ∨ 2 * vlWords w ≤ l) → (t.tile i.site).v.lane r l = (s.tile i.site).v.lane r l)) ∧
  (∀ (i : Issue) (s : State) (w : DWord), Issues s i 0x09 w → siteKind i.site = .v → fld w 11 0 = 0 → s.vlBad i.site w = none →
    ∃ t, exec (.vst i) s = .next t ∧ OnlyPair i.site (homeB i.site) s t ∧ (t.tile i.site).v = (s.tile i.site).v ∧
      (∀ a, OutsideWords s i.site w a → (t.tile (homeB i.site)).b.mem.byte a = (s.tile (homeB i.site)).b.mem.byte a) ∧
      (∀ k, k < vlWords w → (∀ j, k < j → j < vlWords w → vlOff s i.site w j ≠ vlOff s i.site w k) →
        Memory.read (t.tile (homeB i.site)).b.mem (vlOff s i.site w k) 8 = leBytes 8 ((s.tile i.site).v.pair (fld w 57 53) k).toNat))

end Sys2Proof.Claims

/-- VPRD takes its entries from the head of the port queue, in order, to a scalar pair or to lane pairs; VSEND sends its lanes on an open
endpoint, sixteen a flit; DMAPOST posts lanes 0 to 7 to an engine that has room (R115, R165, R167, R168, R184). -/
def Obligations.QueuesSendsAndPosts : Prop :=
  (∀ (i : Issue) (s : State) (w : DWord), Issues s i 0x0A w → siteKind i.site = .v → vprdLegal s i.site w (ipOf s i) = true →
    fld w 49 45 + 1 ≤ (Map.get [] (s.tile i.site).v.queues (fld w 52 50)).length →
    ∃ t, exec (.vprd i) s = .next t ∧ VectorStep i s t fun a b =>
      Map.get [] b.queues (fld w 52 50) = (Map.get [] a.queues (fld w 52 50)).drop (fld w 49 45 + 1) ∧
      (∀ q, q ≠ fld w 52 50 → Map.get [] b.queues q = Map.get [] a.queues q) ∧ b.m = a.m ∧
      (if bitAt w 44 then b.v = a.v ∧
         Map.get 0 b.s (fld w 43 40 + 1) ++ Map.get 0 b.s (fld w 43 40) = (Map.get [] a.queues (fld w 52 50)).headD 0
       else b.s = a.s ∧ ∀ k, k < fld w 49 45 + 1 → b.pair (fld w 57 53) k = (Map.get [] a.queues (fld w 52 50)).getD k 0)) ∧
  (∀ (i : Issue) (s : State) (w : DWord), Issues s i 0x0B w → siteKind i.site = .v → fld w 47 0 = 0 →
    ((s.tile i.site).outEp (fld w 52 50)).state = .opened → ((s.tile i.site).outEp (fld w 52 50)).cut = false →
    ∃ t ps, exec (.vsend i) s = .next t ∧ OnlyTileFlow i.site s t ∧ t.net.flow = s.net.flow ++ ps ∧
      ((t.tile i.site).outEp (fld w 52 50)).flits = ((s.tile i.site).outEp (fld w 52 50)).flits + (fld w 49 48 + 1) ∧
      (ps.flatMap fun p => match p.body with | .chan fs => fs | _ => []) =
        (List.range (fld w 49 48 + 1)).map fun f => (s.tile i.site).v.flit (fld w 57 53) f) ∧
  (∀ (i : Issue) (s : State) (w : DWord), Issues s i 0x0E w → siteKind i.site = .v → fld w 52 0 = 0 → s.homeOk i.site = true →
    s.dmaRoom (homeB i.site) = true →
    ∃ t d, exec (.dmapost i) s = .next t ∧ OnlyPair i.site (homeB i.site) s t ∧ (t.tile i.site).v = (s.tile i.site).v ∧
      (t.tile (homeB i.site)).b.dmas = (s.tile (homeB i.site)).b.dmas ++ [d] ∧ d.seq = (s.tile (homeB i.site)).b.nextSeq ∧
      d.poster = siteSrc i.site ∧
      d.desc = BitVec.ofNat 256 (leNat ((List.range 8).flatMap fun l => leBytes 4 ((s.tile i.site).v.lane (fld w 57 53) l).toNat)))

/-- The vector arithmetic, the compares, the moves and the conversions write the elements that their masks name, and nothing else. -/
def Obligations.VectorInstructionsWriteTheirElements : Prop := VectorArithmeticWritesItsElements ∧ ComparesMovesAndConversions

/-- Reductions and scalar moves write their scalar or mask; narrow loads and stores reach the paired B-tile. -/
def Obligations.ReductionsLoadsAndStores : Prop := ReductionsAndScalarMoves ∧ NarrowLoadsAndStores

/-! ## DMA engines -/

namespace Sys2Proof.Claims

/-- Two states agree on everything but the B-tile at a site. -/
abbrev OnlyBtile := OnlyTile

/-- A descriptor of a tile moved on by one segment or unit. -/
def MovedOn (s t : State) (x : Site) (d : Dma) : Prop :=
  ∃ e, e ∈ (t.tile x).b.dmas ∧ e.seq = d.seq ∧ e.desc = d.desc ∧ e.sent = d.sent + 1 ∧
    (t.tile x).b.dmas.length = (s.tile x).b.dmas.length

/-- COPY_LOCAL copies the segment in hand to its place in the same B-tile, FILL writes its pattern to it; no byte outside changes, and no other
tile (R116, R119). -/
def LocalTransfersWriteTheirSegment : Prop :=
  (∀ (x : Site) (s : State) (d : Dma) (r off n : Nat), (s.tile x).b.dmaNow 1 = some d → s.dmaRuns x = true → (s.dmaStart x d).1 = true →
    d.segs[d.sent]? = some (r, off, n) → (s.tile x).b.bad = [] →
    ∃ t, exec (.copyLocal x []) s = .next t ∧ OnlyBtile x s t ∧ MovedOn s t x d ∧
      Memory.read (t.tile x).b.mem (d.remote + r * d.remStride + (off - (d.loc + r * d.locStride))) n = Memory.read (s.tile x).b.mem off n ∧
      (∀ a, (a < d.remote + r * d.remStride + (off - (d.loc + r * d.locStride)) ∨
          d.remote + r * d.remStride + (off - (d.loc + r * d.locStride)) + n ≤ a) →
        (t.tile x).b.mem.byte a = (s.tile x).b.mem.byte a)) ∧
  (∀ (x : Site) (s : State) (d : Dma) (r off n : Nat), (s.tile x).b.dmaNow 2 = some d → s.dmaRuns x = true → (s.dmaStart x d).1 = true →
    d.segs[d.sent]? = some (r, off, n) → n % 8 = 0 →
    ∃ t, exec (.fill x) s = .next t ∧ OnlyBtile x s t ∧ MovedOn s t x d ∧
      Memory.read (t.tile x).b.mem off n = ((List.range (n / 8)).flatMap fun _ => leBytes 8 d.remote) ∧
      (∀ a, (a < off ∨ off + n ≤ a) → (t.tile x).b.mem.byte a = (s.tile x).b.mem.byte a))

/-- A GRID_WRITE names a B-tile word (R116, R417). -/
def GridTarget (dpa : Nat) : Prop := dpa / 2 ^ 40 = 1 ∧ dpa / 2 ^ 36 % 16 = 0 ∧ dpa / 2 ^ 27 % 32 = 0 ∧ dpa % 2 ^ 20 < btBytes

/-- The B-tile that a GRID_WRITE names. -/
def gridDest (dpa : Nat) : Site := btSite (dpa / 2 ^ 32 % 16) (dpa / 2 ^ 20 % 128)

/-- A descriptor is the only one of its SEQ at a B-tile. -/
def OwnSeq (s : State) (x : Site) (d : Dma) : Prop := d ∈ (s.tile x).b.dmas ∧ ∀ e ∈ (s.tile x).b.dmas, e.seq = d.seq → e = d

/-- GRID_WRITE sends the next 64-byte word of the B-tile toward the B-tile that the remote address names, as a packet in flow routing and as a
flit in scheduled routing, where a fused-off one makes its row fail with E_NO_TARGET and nothing leaves; the sender's bytes stay (R24, R116,
R119, R417). -/
def GridWriteSendsItsWord : Prop :=
  (∀ (x : Site) (s : State) (d : Dma), (s.tile x).b.dmaSend 3 = some d → s.dmaRuns x = true → (s.dmaStart x d).1 = true →
    d.sent < d.units → GridTarget (d.unitRem d.sent) → (s.tile x).b.bad = [] → s.isScheduled x = false →
    ∃ t p, exec (.gridWrite x []) s = .next t ∧ OnlyTileFlow x s t ∧ (t.tile x).b.mem = (s.tile x).b.mem ∧ MovedOn s t x d ∧
      t.net.flow = s.net.flow ++ [p] ∧ p.place = .router x 4 ∧
      p.body = .gridWrite (flitOf (Memory.read (s.tile x).b.mem (d.unitLoc d.sent) 64)) ∧
      p.head.tag = BitVec.ofNat 16 (3 * 16384 + d.unitRem d.sent % 2 ^ 20 / 64) ∧
      p.head.destDie = BitVec.ofNat 6 (d.unitRem d.sent / 2 ^ 32 % 16)) ∧
  (∀ (x : Site) (s : State) (d : Dma), (s.tile x).b.dmaSend 3 = some d → s.dmaRuns x = true → (s.dmaStart x d).1 = true →
    d.sent < d.units → GridTarget (d.unitRem d.sent) → (s.tile x).b.bad = [] → s.isScheduled x = true → s.localSlot x = true →
    s.isFused (gridDest (d.unitRem d.sent)) = false →
    ∃ t f, exec (.gridWrite x []) s = .next t ∧ (t.tile x).b.mem = (s.tile x).b.mem ∧ MovedOn s t x d ∧
      t.net.sched = s.net.sched ++ [f] ∧ f.site = x ∧ f.port = 4 ∧
      f.body = .gridWrite (flitOf (Memory.read (s.tile x).b.mem (d.unitLoc d.sent) 64))) ∧
  (∀ (x : Site) (s : State) (d : Dma), (s.tile x).b.dmaSend 3 = some d → s.dmaRuns x = true → (s.dmaStart x d).1 = true →
    d.sent < d.units → GridTarget (d.unitRem d.sent) → (s.tile x).b.bad = [] → s.isScheduled x = true → s.localSlot x = true →
    s.isFused (gridDest (d.unitRem d.sent)) = true → OwnSeq s x d → d.failing = none →
    ∃ t e, exec (.gridWrite x []) s = .next t ∧ OnlyTile x s t ∧ (t.tile x).b.mem = (s.tile x).b.mem ∧ e ∈ (t.tile x).b.dmas ∧
      e.seq = d.seq ∧ e.sent = d.sent ∧ e.failing = some (d.unitRow d.sent, E_NO_TARGET))

/-- The request of a memory or window kind that an engine sends for its next unit. -/
def RequestOf (s t : State) (x : Site) (d : Dma) (write window : Bool) (data : Flit) : Prop :=
  OnlyTileFlow x s t ∧ (t.tile x).b.mem = (s.tile x).b.mem ∧ MovedOn s t x d ∧
    ∃ p, t.net.flow = s.net.flow ++ [p] ∧ p.place = .router x 4 ∧ p.head.src = siteSrc x ∧
      p.body = .memReq { write := write, va := BitVec.ofNat 64 (d.unitRem d.sent % 2 ^ 48), handle := BitVec.ofNat 16 (d.remote / 2 ^ 48),
                         window := window, bytes := 64, row := d.sent, data := data }

/-- An engine's import is open. -/
def ImportOpen (s : State) (x : Site) (d : Dma) : Prop := s.noImport x d = false

/-- HBM_READ and WINDOW_READ request their next unit, HBM_WRITE and WINDOW_WRITE send theirs with its 64 bytes, while fewer than 32 requests of
the kind are outstanding; the engine's B-tile bytes stay (R119, R336, R338, R418). -/
def MemoryTransfersSendTheirRequests : Prop :=
  (∀ (x : Site) (s : State) (d : Dma), (s.tile x).b.dmaSend 4 = some d → s.dmaRuns x = true → (s.dmaStart x d).1 = true →
    d.sent < d.units → (s.tile x).b.outstanding 4 < 32 →
    ∃ t, exec (.hbmRead x) s = .next t ∧ RequestOf s t x d false false 0) ∧
  (∀ (x : Site) (s : State) (d : Dma), (s.tile x).b.dmaSend 5 = some d → s.dmaRuns x = true → (s.dmaStart x d).1 = true →
    d.sent < d.units → (s.tile x).b.outstanding 5 < 32 → (s.tile x).b.bad = [] →
    ∃ t, exec (.hbmWrite x []) s = .next t ∧
      RequestOf s t x d true false (flitOf (Memory.read (s.tile x).b.mem (d.unitLoc d.sent) 64))) ∧
  (∀ (x : Site) (s : State) (d : Dma), (s.ctx ((s.ownerOf x).getD 0)).replay = none → (s.tile x).b.dmaSend 6 = some d → s.dmaRuns x = true →
    (s.dmaStart x d).1 = true → d.sent < d.units → (s.tile x).b.outstanding 6 < 32 → ImportOpen s x d →
    ∃ t, exec (.windowRead x) s = .next t ∧ RequestOf s t x d false true 0) ∧
  (∀ (x : Site) (s : State) (d : Dma), (s.tile x).b.dmaSend 7 = some d → s.dmaRuns x = true → (s.dmaStart x d).1 = true →
    d.sent < d.units → (s.tile x).b.outstanding 7 < 32 → ImportOpen s x d → (s.tile x).b.bad = [] →
    ∃ t, exec (.windowWrite x []) s = .next t ∧
      RequestOf s t x d true true (flitOf (Memory.read (s.tile x).b.mem (d.unitLoc d.sent) 64)))

/-- DMA_COMPLETION: the finished descriptor at the head leaves the engine; with its completion word asked for, the word stands at its
STATUS_ADDR, and no other byte of the B-tile changes (R120, Table BT-6). -/
def CompletionWritesItsWord : Prop :=
  ∀ (x : Site) (s : State) (d : Dma) (rest : List Dma), s.dmaRuns x = true → (s.tile x).b.dmas = d :: rest → d.phase = .finished →
    (∀ e ∈ rest, e.phase ≠ .finished) → d.flag 1 = true → d.noWord = false →
    ∃ t, exec (.dmaCompletion x) s = .next t ∧ (t.tile x).b.dmas = rest.filter (fun e => e.seq ≠ d.seq) ∧
      Memory.read (t.tile x).b.mem d.statusAddr 8 = d.word ∧ (∀ y, y ≠ x → t.tile y = s.tile y) ∧
      (∀ a, (a < d.statusAddr ∨ d.statusAddr + 8 ≤ a) → (t.tile x).b.mem.byte a = (s.tile x).b.mem.byte a)

/-- The packet with a number has left the grid. -/
def Taken (s t : State) (k : Nat) : Prop := t.net.flow = s.net.flow.eraseIdx k

/-- A unit of a descriptor is answered. -/
def Answered (t : State) (x : Site) (q : BitVec 16) (u : Nat) : Prop := ∃ e, e ∈ (t.tile x).b.dmas ∧ e.seq = q ∧ u ∈ e.answered

/-- Answers reach the engine that waits for them: the data of the read unit that moves next is written at its place, that of a later unit waits
for those before it, and the unit counts as answered; a write acknowledgement and that of a GRID_WRITE count their unit (R119, R417,
R418). -/
def AnswersReachTheirDescriptors : Prop :=
  (∀ (k : Nat) (s : State) (x : Site) (p : Packet) (row : Nat) (data : Flit) (d : Dma), s.arrivedAt k = some (x, p) → siteKind x = .b →
    p.body = .readRsp row data OK → s.dmaAt x p.head.tag = some d → row = d.moved → d.held = [] → row ∉ d.answered → d.cutOff row = false →
    ∃ t, exec (.readResponse k) s = .next t ∧ Taken s t k ∧ Answered t x p.head.tag row ∧
      Memory.read (t.tile x).b.mem (d.unitLoc row) 64 = flitBytes data ∧
      (∀ a, (a < d.unitLoc row ∨ d.unitLoc row + 64 ≤ a) → (t.tile x).b.mem.byte a = (s.tile x).b.mem.byte a)) ∧
  (∀ (k : Nat) (s : State) (x : Site) (p : Packet) (row : Nat) (data : Flit) (d : Dma), s.arrivedAt k = some (x, p) → siteKind x = .b →
    p.body = .readRsp row data OK → s.dmaAt x p.head.tag = some d → row ≠ d.moved → (∀ h ∈ d.held, h.1 ≠ d.moved) → row ∉ d.answered →
    ∃ t e, exec (.readResponse k) s = .next t ∧ Taken s t k ∧ Answered t x p.head.tag row ∧ (t.tile x).b.mem = (s.tile x).b.mem ∧
      e ∈ (t.tile x).b.dmas ∧ e.seq = p.head.tag ∧ e.held = d.held ++ [(row, data)] ∧ e.moved = d.moved) ∧
  (∀ (k : Nat) (s : State) (x : Site) (p : Packet) (row : Nat) (d : Dma), s.arrivedAt k = some (x, p) →
    p.body = .writeAck row OK → d ∈ (s.tile x).b.dmas → d.seq = p.head.tag → d.phase = .started →
    ∃ t, exec (.hbmWriteAck k) s = .next t ∧ Taken s t k ∧ OnlyTileFlow x s t ∧ Answered t x p.head.tag row) ∧
  (∀ (k : Nat) (s : State) (x : Site) (p : Packet) (q : BitVec 16) (u : Nat), s.arrivedAt k = some (x, p) → p.body = .gridAck →
    s.gridMatch x p.head.src (p.head.tag.toNat % 16384) = some (q, u) →
    ∃ t, exec (.gridWriteAck k) s = .next t ∧ Taken s t k ∧ OnlyTileFlow x s t ∧ Answered t x q u)

/-- GRID_WRITE_FLIT writes its 64 bytes at the place that its TAG names, with room in the inbound queue, and in flow routing acknowledges it to
its sender; NAK_PACKET makes the row that it answers fail with the status of its code, and ends the descriptor once all it sent is answered
(R71, R112, R121, R417, Table BT-6). -/
def GridWritesLandAndRefusalsEnd : Prop :=
  (∀ (k : Nat) (s : State) (x : Site) (p : Packet) (data : Flit), s.arrivedAt k = some (x, p) → p.body = .gridWrite data →
    (s.tile x).b.ports.inb.length < 16 →
    ∃ t, exec (.gridWriteFlit k) s = .next t ∧
      Memory.read (t.tile x).b.mem (p.head.tag.toNat % 16384 * 64) 64 = flitBytes data ∧
      (∀ a, (a < p.head.tag.toNat % 16384 * 64 ∨ p.head.tag.toNat % 16384 * 64 + 64 ≤ a) →
        (t.tile x).b.mem.byte a = (s.tile x).b.mem.byte a) ∧
      (s.isScheduled x = true → Taken s t k) ∧
      (s.isScheduled x = false → ∃ q, t.net.flow = s.net.flow.eraseIdx k ++ [q] ∧ q.body = .gridAck ∧ q.head.tag = p.head.tag ∧
        q.head.kind = 3)) ∧
  (∀ (k : Nat) (s : State) (x : Site) (p : Packet) (n : Nak) (d : Dma), s.arrivedAt k = some (x, p) → siteKind x = .b → p.body = .nak n →
    n.ofKind ≠ 3 → n.mem = true → s.dmaAt x p.head.tag = some d → OwnSeq s x d → d.failing = none →
    ∃ t e, exec (.nakPacket k) s = .next t ∧ Taken s t k ∧ e ∈ (t.tile x).b.dmas ∧ e.seq = d.seq ∧
      e.failing = some (d.unitRow n.row, memStatus n.code) ∧
      ((d.answer n.row).answered.length = d.sent →
        e.phase = .finished ∧ e.status = memStatus n.code ∧ e.failRow = BitVec.ofNat 16 (d.unitRow n.row)))

end Sys2Proof.Claims

/-- A started descriptor moves its next unit: in the B-tile, over the grid, to memory or through a window. -/
def Obligations.DescriptorsMoveTheirUnits : Prop := LocalTransfersWriteTheirSegment ∧ GridWriteSendsItsWord ∧ MemoryTransfersSendTheirRequests

/-- Answers reach the descriptor that sent the request, a refusal ends it, and its completion writes its word. -/
def Obligations.DescriptorsTakeTheirAnswersAndComplete : Prop := CompletionWritesItsWord ∧ AnswersReachTheirDescriptors ∧ GridWritesLandAndRefusalsEnd

/-! ## Routers, channels and beacons -/

namespace Sys2Proof.Claims

/-- A packet that a router of the grid may forward now. -/
def AtRouter (s : State) (k : Nat) (p : Packet) (x : Site) (port : Fin 5) : Prop :=
  s.net.flow[k]? = some p ∧ p.place = .router x port ∧ s.alive = true ∧ firstAtPlace s.net.flow k p = true ∧ s.frozenAt x = false ∧
    (port = 4 ∧ s.isScheduled x = true ∧ siteOfSrc p.head.src = some x → False)

/-- FLOW_PACKET_HOP: a packet goes to the next router of its route when that site lets its tenant in, is delivered at its own site, and is
refused with NAK_REGION, which goes back to its sender and is logged, where another tenant owns the next site (R68, R71, R416). -/
def PacketsHopAreDeliveredOrRefused : Prop :=
  (∀ (k : Nat) (s : State) (p : Packet) (x y : Site) (port : Fin 5), AtRouter s k p x port → s.route x p.head ≠ 4 →
    neighbour x (s.route x p.head).val = some y → s.entryRefusal y p.head (y.die ≠ x.die) = none →
    ∃ t, exec (.flowPacketHop k false) s = .next t ∧ { t with net := { t.net with flow := s.net.flow } } = s ∧
      t.net.flow = s.net.flow.eraseIdx k ++ [{ p with place := .router y (oppositePort (s.route x p.head).val), crossed := 0 }]) ∧
  (∀ (k : Nat) (s : State) (p : Packet) (x : Site) (port : Fin 5), AtRouter s k p x port → s.route x p.head = 4 →
    p.head.isFor x = true → s.isFused x = false → noEndpoint x p = false →
    ∃ t, exec (.flowPacketHop k false) s = .next t ∧ { t with net := { t.net with flow := s.net.flow } } = s ∧
      t.net.flow = s.net.flow.eraseIdx k ++ [{ p with place := .arrived x, crossed := 0 }]) ∧
  (∀ (k : Nat) (s : State) (p : Packet) (x y : Site) (port : Fin 5), AtRouter s k p x port → s.route x p.head ≠ 4 →
    neighbour x (s.route x p.head).val = some y → s.entryRefusal y p.head (y.die ≠ x.die) = some NAK_REGION → p.head.kind ≠ 4 →
    ∃ t q n, exec (.flowPacketHop k false) s = .next t ∧ t.net.flow = s.net.flow.eraseIdx k ++ [q] ∧ q.body = .nak n ∧
      n.code = NAK_REGION ∧ q.head.kind = 4 ∧ q.head.src = siteSrc x ∧ t.tiles = s.tiles)

/-- SCHEDULED_FLIT: in its slot a flit goes through every output whose entry selects its input, one cycle in the router
and four more over a bridge lane; with
no such output it is discarded and SLOT_MISS counts (R66). -/
def ScheduledFlitsFollowTheSlotTables : Prop :=
  (∀ (k : Nat) (s : State) (f : SchedFlit), s.net.sched[k]? = some f → s.alive = true → s.frozenAt f.site = false →
    f.at_ ≤ s.cycleAt f.site → (s.tile f.site).parityStop = false →
    (s.tile f.site).outputsFor ((s.tile f.site).slot (f.at_ + 1)) f.port.val ≠ [] →
    (∀ o ∈ (s.tile f.site).outputsFor ((s.tile f.site).slot (f.at_ + 1)) f.port.val,
      o ≠ 4 ∧ ∃ y, neighbour f.site o = some y ∧ s.ownerOf y = some f.head.tenant) →
    ∃ t, exec (.scheduledFlit k none) s = .next t ∧ { t with net := { t.net with sched := s.net.sched } } = s ∧
      ∀ o ∈ (s.tile f.site).outputsFor ((s.tile f.site).slot (f.at_ + 1)) f.port.val, ∀ y, neighbour f.site o = some y →
        { f with site := y, port := oppositePort o, at_ := f.at_ + if y.die = f.site.die then 1 else 5 } ∈ t.net.sched) ∧
  (∀ (k : Nat) (s : State) (f : SchedFlit), s.net.sched[k]? = some f → s.alive = true → s.frozenAt f.site = false →
    f.at_ ≤ s.cycleAt f.site → (s.tile f.site).parityStop = false →
    (s.tile f.site).outputsFor ((s.tile f.site).slot (f.at_ + 1)) f.port.val = [] →
    ∃ t, exec (.scheduledFlit k none) s = .next t ∧ t.net.sched = s.net.sched.eraseIdx k ∧ t.net.flow = s.net.flow ∧ t.tiles = s.tiles ∧
      Map.get 0 t.net.slotMiss f.site.die.val = addSat (Map.get 0 s.net.slotMiss f.site.die.val) 1)

/-- An OPEN that a V-tile in the request's section can take. -/
def OpenOk (s : State) (x : Site) (e : Nat) (r : OpenReq) : Prop :=
  siteKind x = .v ∧ (s.tile x).parked = false ∧ (s.tile x).active.sect = r.sect ∧ r.ring = false ∧
    r.rank.toNat < bitsOf (s.tile x).active.cfg 0 16 ∧ ((s.tile x).inEp e).openFrom = none

/-- OPEN_REQUEST opens a free port endpoint of a V-tile for its sender and answers it; OPEN_REPLY writes the status to the scalar and opens or
closes the sender's endpoint; CLOSE_MARKER frees the endpoint that its sender holds (R182, R183, R186). -/
def ChannelsOpenAndClose : Prop :=
  (∀ (k : Nat) (s : State) (x : Site) (p : Packet) (r : OpenReq), s.arrivedAt k = some (x, p) → p.body = .openReq r →
    OpenOk s x p.head.ep.val r →
    ∃ t q, exec (.openRequest k) s = .next t ∧ OnlyTileFlow x s t ∧ ((t.tile x).inEp p.head.ep.val).openFrom = some r.src ∧
      t.net.flow = s.net.flow.eraseIdx k ++ [q] ∧ q.body = .openRsp OK ∧ q.head.tag = r.tag ∧ q.head.kind = 3 ∧
      q.head.destDie = BitVec.ofNat 6 (r.src.toNat / 1024) ∧ q.head.destUnit = BitVec.ofNat 10 (r.src.toNat % 1024)) ∧
  (∀ (k : Nat) (s : State) (x : Site) (p : Packet) (st : Status), s.arrivedAt k = some (x, p) → p.body = .openRsp st →
    ((s.tile x).outEp (tagEp p.head.tag)).state = .pending →
    ∃ t, exec (.openReply k) s = .next t ∧ OnlyTileFlow x s t ∧ Taken s t k ∧
      ((t.tile x).outEp (tagEp p.head.tag)).state =
        (if st = OK ∧ ((s.tile x).outEp (tagEp p.head.tag)).swapped = false then .opened else .closed) ∧
      t.scalar x ((s.tile x).outEp (tagEp p.head.tag)).sd = st.setWidth 32) ∧
  (∀ (k : Nat) (s : State) (x : Site) (p : Packet), s.arrivedAt k = some (x, p) → p.body = .close →
    ((s.tile x).inEp p.head.ep.val).openFrom = some p.head.src →
    ∃ t, exec (.closeMarker k) s = .next t ∧ OnlyTileFlow x s t ∧ Taken s t k ∧ ((t.tile x).inEp p.head.ep.val).openFrom = none)

/-- PORT_FLIT gives the port queue eight entries, the flit's words from the lowest, once eight or fewer stand in it; RING_FLIT writes its 64 bytes
at WR in the ring and WR goes on by 64; TALLY_FLIT writes its bytes in its contributor's slot of the round and counts them (R187, R189, R193). -/
def FlitsReachTheirEndpoints : Prop :=
  (∀ (k : Nat) (s : State) (x : Site) (p : Packet) (f : Flit) (fs : List Flit), s.arrivedAt k = some (x, p) → p.body = .chan (f :: fs) →
    siteKind x = .v → (p.accepted = true ∨ ((s.tile x).inEp p.head.ep.val).openFrom = some p.head.src) →
    (Map.get [] (s.tile x).v.queues p.head.ep.val).length ≤ 8 →
    ∃ t, exec (.portFlit k) s = .next t ∧ OnlyTileFlow x s t ∧
      Map.get [] (t.tile x).v.queues p.head.ep.val =
        Map.get [] (s.tile x).v.queues p.head.ep.val ++ (List.range 8).map fun i => f.extractLsb' (64 * i) 64) ∧
  (∀ (k : Nat) (s : State) (x : Site) (p : Packet) (f g : Flit) (fs : List Flit) (l : RingLatch), s.arrivedAt k = some (x, p) →
    p.body = .chan (f :: g :: fs) → siteKind x = .b → ((s.tile x).inEp p.head.ep.val).openFrom = some p.head.src →
    ((s.tile x).inEp p.head.ep.val).tally = none → ((s.tile x).inEp p.head.ep.val).ring = some l →
    64 ≤ l.free → l.base + l.size ≤ 786176 → 0 < l.size → l.size % 64 = 0 → l.wr.toNat % 64 = 0 →
    (s.tile x).b.ports.inb.length < 16 →
    ∃ t, exec (.ringFlit k) s = .next t ∧ OnlyTileFlow x s t ∧
      Memory.read (t.tile x).b.mem (l.base + l.wr.toNat % l.size) 64 = flitBytes f ∧
      (∀ a, (a < l.base + l.wr.toNat % l.size ∨ l.base + l.wr.toNat % l.size + 64 ≤ a) → (t.tile x).b.mem.byte a = (s.tile x).b.mem.byte a) ∧
      ((t.tile x).inEp p.head.ep.val).ring = some { l with wr := l.wr + 64 }) ∧
  (∀ (k : Nat) (s : State) (x : Site) (p : Packet) (f : Flit) (fs : List Flit) (l : TallyLatch) (slot done : Nat),
    s.arrivedAt k = some (x, p) → p.body = .chan (f :: fs) → siteKind x = .b →
    ((s.tile x).inEp p.head.ep.val).tally = some l → l.slotOf p.head.src (tagEp p.head.tag) = some (slot, done) →
    l.start.toNat + done * 64 / l.vbytes < l.emitted.toNat + 2 → (s.tile x).b.ports.inb.length < 16 →
    ∃ t, exec (.tallyFlit k) s = .next t ∧ OnlyTileFlow x s t ∧
      Memory.read (t.tile x).b.mem
        (l.base + ((l.start.toNat + done * 64 / l.vbytes) % 2 * l.nc + slot) * l.vbytes + done * 64 % l.vbytes) 64 = flitBytes f)

/-- The area of a contribution of the round that a tally endpoint emits next. -/
def contribution (s : State) (x : Site) (l : TallyLatch) (k : Nat) : List Byte :=
  Memory.read (s.tile x).b.mem (l.base + (l.emitted.toNat % 2 * l.nc + k) * l.vbytes) l.vbytes

end Sys2Proof.Claims

/-- TALLY_EMIT: with every contribution of the round there, the result's elements are the sums in slot order, and EMITTED goes on by one (R194). -/
def Obligations.TallyEmitsTheSumOfItsRound : Prop :=
  ∀ (x : Site) (ep : Fin 8) (s : State) (l : TallyLatch), ((s.tile x).inEp ep.val).tally = some l → s.btRuns x = true → l.ready = true →
    (s.tile x).b.bad = [] → l.ty ≠ 2 → l.result + 2 * l.vbytes ≤ 786176 → l.vbytes % 4 = 0 →
    ∃ t m, exec (.tallyEmit x ep []) s = .next t ∧ ((t.tile x).inEp ep.val).tally = some m ∧ m.emitted = l.emitted + 1 ∧
      (∀ y, y ≠ x → t.tile y = s.tile y) ∧
      (∀ j, j < l.vbytes / 4 → Memory.read (t.tile x).b.mem (l.result + l.emitted.toNat % 2 * l.vbytes + 4 * j) 4 =
        leBytes 4 (tallySum l.ty.toNat ((List.range l.nc).map (contribution s x l)) j).toNat)

namespace Sys2Proof.Claims

/-- An operation that the store takes now. -/
def OpAt (s : State) (k : Nat) (o : BeaconOp) : Prop :=
  s.net.ops[k]? = some o ∧ s.alive = true ∧ opFirst s.net.ops k o = true ∧ (s.ctx o.tenant).isOpen = true ∧ (s.ctx o.tenant).gen = o.gen ∧
    (s.ctx o.tenant).replay = none

/-- BEACON_SIGNAL adds its COUNT to VALUE, with saturation, and grants the head waiter whose COUNT that reaches; BEACON_WAIT takes VALUE at once
when it is first and VALUE suffices, and waits in order otherwise; BEACON_GRANT completes its tile's BWAIT, and one of an ended generation is reported (R197, R199, R202, R203). -/
def BeaconsCountWaitAndGrant : Prop :=
  (∀ (k : Nat) (s : State) (o : BeaconOp), OpAt s k o → o.wait = none → (s.beacon o.tenant o.beacon).waiters = [] →
    ∃ t, exec (.beaconSignal k) s = .next t ∧ t.net.ops = s.net.ops.eraseIdx k ∧
      (t.beacon o.tenant o.beacon).value = addSat (s.beacon o.tenant o.beacon).value o.count.toNat ∧
      (∀ i, i ≠ o.beacon → t.beacon o.tenant i = s.beacon o.tenant i) ∧ t.tiles = s.tiles) ∧
  (∀ (k : Nat) (s : State) (o : BeaconOp) (x : Site) (n : BitVec 16), OpAt s k o → o.wait = none →
    (s.beacon o.tenant o.beacon).waiters = [(.tile x, n)] →
    n.toNat ≤ (addSat (s.beacon o.tenant o.beacon).value o.count.toNat).toNat →
    ∃ t, exec (.beaconSignal k) s = .next t ∧ (t.beacon o.tenant o.beacon).waiters = [] ∧
      (t.beacon o.tenant o.beacon).value = addSat (s.beacon o.tenant o.beacon).value o.count.toNat - n.setWidth 32 ∧
      t.net.grants = s.net.grants ++ [{ tenant := o.tenant, gen := (s.ctx o.tenant).gen, site := x, beacon := o.beacon, count := n }]) ∧
  (∀ (k : Nat) (s : State) (o : BeaconOp) (x : Site), OpAt s k o → o.wait = some (.tile x) →
    (s.beacon o.tenant o.beacon).waiters = [] → o.count.toNat ≤ (s.beacon o.tenant o.beacon).value.toNat →
    ∃ t, exec (.beaconWait k) s = .next t ∧ t.net.ops = s.net.ops.eraseIdx k ∧ (t.beacon o.tenant o.beacon).waiters = [] ∧
      (t.beacon o.tenant o.beacon).value = (s.beacon o.tenant o.beacon).value - o.count.setWidth 32 ∧
      t.net.grants = s.net.grants ++ [{ tenant := o.tenant, gen := (s.ctx o.tenant).gen, site := x, beacon := o.beacon, count := o.count }]) ∧
  (∀ (k : Nat) (s : State) (o : BeaconOp) (w : Waiter), OpAt s k o → o.wait = some w →
    ((s.beacon o.tenant o.beacon).waiters ≠ [] ∨ (s.beacon o.tenant o.beacon).value.toNat < o.count.toNat) →
    ∃ t, exec (.beaconWait k) s = .next t ∧ (t.beacon o.tenant o.beacon).value = (s.beacon o.tenant o.beacon).value ∧
      (t.beacon o.tenant o.beacon).waiters = (s.beacon o.tenant o.beacon).waiters ++ [(w, o.count)] ∧ t.net.grants = s.net.grants) ∧
  (∀ (k : Nat) (s : State) (g : Grant), s.net.grants[k]? = some g → s.alive = true → (s.ctx g.tenant).gen = g.gen →
    ∃ t, exec (.beaconGrant k) s = .next t ∧ t.net.grants = s.net.grants.eraseIdx k ∧ (t.tile g.site).seq.waiting = false ∧
      ((s.tile g.site).seq.waiting = true →
        (t.tile g.site).seq.ip = (nextAddr (s.tile g.site).seq.ip (s.tile g.site).seq.loops).1) ∧
      (∀ y, y ≠ g.site → t.tile y = s.tile y)) ∧
  (∀ (k : Nat) (s : State) (g : Grant), s.net.grants[k]? = some g → s.alive = true → (s.ctx g.tenant).gen ≠ g.gen →
    exec (.beaconGrant k) s = .next (({ s with net := { s.net with grants := s.net.grants.eraseIdx k } } : State).logStale g.tenant g.beacon
      (siteSrc g.site) g.count.toNat g.gen))

/-- A write to BEACON_DB that a tenant's own function may make: the function is live, its context open and not replaying. -/
def DoorbellOk (s : State) (t : Tenant) (value : DWord) (op : Nat) : Prop :=
  s.fnLive (.vf t) = true ∧ (s.ctx t).isOpen = true ∧ (s.ctx t).closing = false ∧ (s.ctx t).replay = none ∧
    bitsOf value 32 32 = 0 ∧ bitsOf value 28 4 = op ∧ bitsOf value 0 16 ≠ 0

/-- The beacon and the COUNT of a BEACON_DB value. -/
def dbBeacon (value : DWord) : BitVec 12 := BitVec.ofNat 12 (bitsOf value 16 12)

/-- A host doorbell of operation 0 signals its beacon, one of operation 1 takes its COUNT from a VALUE that suffices with no waiter before it, and
one that does not suffice changes no beacon; a pending notification takes the next free completion entry (R201, R310). -/
def DoorbellsSignalAndTake : Prop :=
  (∀ (t : Tenant) (s : State) (v : DWord), DoorbellOk s t v 0 → (s.beacon t (dbBeacon v)).waiters = [] →
    ∃ u, exec (.doorbellSignal (.vf t) t 8 v) s = .next u ∧
      (u.beacon t (dbBeacon v)).value = addSat (s.beacon t (dbBeacon v)).value (bitsOf v 0 16) ∧
      (∀ i, i ≠ dbBeacon v → u.beacon t i = s.beacon t i)) ∧
  (∀ (t : Tenant) (s : State) (v : DWord), DoorbellOk s t v 1 → (s.beacon t (dbBeacon v)).waiters = [] →
    bitsOf v 0 16 ≤ (s.beacon t (dbBeacon v)).value.toNat →
    ∃ u, exec (.doorbellTake (.vf t) t 8 v) s = .next u ∧
      (u.beacon t (dbBeacon v)).value = (s.beacon t (dbBeacon v)).value - BitVec.ofNat 32 (bitsOf v 0 16) ∧
      (∀ i, i ≠ dbBeacon v → u.beacon t i = s.beacon t i)) ∧
  (∀ (t : Tenant) (s : State) (v : DWord), DoorbellOk s t v 1 → (s.beacon t (dbBeacon v)).value.toNat < bitsOf v 0 16 →
    ∃ u, exec (.doorbellTake (.vf t) t 8 v) s = .next u ∧ u.ctxs = s.ctxs) ∧
  (∀ (t : Tenant) (s : State) (n : Note) (ns : List Note), (s.ctx t).notes = n :: ns → s.alive = true → 0 < s.freeEntries (.ctx t) →
    s.host.safePending = false →
    ∃ u, exec (.pendingNotification t) s = .next u ∧ (u.ctx t).notes = ns ∧ (u.ctx t).ccq.prod = (s.ctx t).ccq.prod + 1 ∧
      Memory.read u.host.mem ((s.ctx t).ccq.addr (s.ctx t).ccq.prod 32) 32 =
        completionEntry 0 1 (s.ctx t).ccq.phase n.beacon.toNat n.gts stewardSrc 0 0 n.value.toNat)

end Sys2Proof.Claims

/-- Flow packets hop, are delivered or refused; scheduled flits follow the slot tables. -/
def Obligations.PacketsAndScheduledFlitsMove : Prop := PacketsHopAreDeliveredOrRefused ∧ ScheduledFlitsFollowTheSlotTables

/-- Channels open and close, and their flits reach the port queue, the ring or the tally of their endpoint. -/
def Obligations.ChannelsCarryTheirFlits : Prop := ChannelsOpenAndClose ∧ FlitsReachTheirEndpoints

/-- Beacons count signals and grant waits, from tiles and from the doorbells of a context. -/
def Obligations.BeaconsAndTheirDoorbells : Prop := BeaconsCountWaitAndGrant ∧ DoorbellsSignalAndTake

/-! ## Sections, fronts, the seal, steps -/

namespace Sys2Proof.Claims

/-- The die of a tile works and is up. -/
def LoadRuns (s : State) (x : Site) : Prop := s.working = true ∧ s.dieUp x.die.val = true

/-- SHADOW_LOAD takes the next record of the site: a ROUTER, TILE_CFG or IMEM record goes into the shadow bank, and the bytes of a BTILE_IMAGE wait
for their banks; only this tile changes (R86, R87). -/
def ShadowLoadsTakeTheirRecordsInOrder : Prop :=
  ∀ (x : Site) (s : State) (i : Instance) (c : Section) (r : Rec) (rest : List Rec), s.loadSection x = some (i, c) →
    (s.tile x).due = r :: rest → LoadRuns s x →
    ∃ t, exec (.shadowLoad x) s = .next t ∧ OnlyTile x s t ∧ (t.tile x).due = rest ∧ (t.tile x).active = (s.tile x).active ∧
      (r.kind = 1 → (t.tile x).shadow.routerWord = BitVec.ofNat 64 (leNat (r.payload.take 8))) ∧
      (r.kind = 2 → (t.tile x).shadow.cfg = flitOf r.payload) ∧
      (r.kind = 3 → ∀ k, k < r.payload.length / 8 → Map.look (t.tile x).shadow.imem (r.off / 8 + k) =
        some (BitVec.ofNat 64 (leNat ((r.payload.drop (8 * k)).take 8)))) ∧
      (r.kind = 4 → (t.tile x).shadow = (s.tile x).shadow ∧
        (t.tile x).preload = (s.tile x).preload ++ r.payload.zipIdx.map fun p => (r.off + p.2, p.1))

/-- SHADOW_LOAD_END after every record: a good CRC completes the shadow; a first bad one discards the load and starts it again; a second bad one ends
it without a complete shadow (R86). -/
def ShadowLoadsEndByTheirCrc : Prop :=
  ∀ (x : Site) (s : State) (i : Instance) (c : Section), s.loadSection x = some (i, c) → LoadRuns s x →
    (s.tile x).loading = true → (s.tile x).due = [] → (s.tile x).preload = [] →
    (∃ t, exec (.shadowLoadEnd x true) s = .next t ∧ (t.tile x).shadowComplete = true ∧ (t.tile x).loading = false ∧
      (t.tile x).shadow = (s.tile x).shadow ∧ (t.tile x).active = (s.tile x).active ∧ ∀ y, y ≠ x → t.tile y = s.tile y) ∧
    ((s.tile x).loadTries = 0 →
      ∃ t, exec (.shadowLoadEnd x false) s = .next t ∧ (t.tile x).due = c.recsAt x ∧ (t.tile x).loading = true ∧
        (t.tile x).shadowComplete = (s.tile x).shadowComplete ∧ (t.tile x).active = (s.tile x).active ∧ ∀ y, y ≠ x → t.tile y = s.tile y) ∧
    ((s.tile x).loadTries ≠ 0 →
      ∃ t, exec (.shadowLoadEnd x false) s = .next t ∧ (t.tile x).loading = false ∧
        (t.tile x).shadowComplete = (s.tile x).shadowComplete ∧ ∀ y, y ≠ x → t.tile y = s.tile y)

/-- The bank of a word is free for the steward: it is idle in this cycle, and no corrected word waits for it. -/
def BankFree (s : State) (x : Site) (off : Nat) : Prop :=
  s.bankIdle x (bankOf off) = true ∧ ∀ w ∈ (s.tile x).b.writeBacks, bankOf w ≠ bankOf off

/-- PRELOAD_WRITE writes the next word of a descriptor, or else of an image, in an idle cycle of its bank; ECC_WRITE_BACK puts the first corrected
word back whose bank is idle; BANK_CLEAR_DONE ends the
clear of a bank after its 768 cycles, or begins it anew where a mask named the bank meanwhile (R87, R93, R107, R124). -/
def BanksTakeImagesCorrectionsAndClears : Prop :=
  (∀ (x : Site) (s : State) (off : Nat) (b : Byte) (bs : List (Nat × Byte)), (s.tile x).descDue = (off, b) :: bs → LoadRuns s x →
    BankFree s x off →
    ∃ t, exec (.preloadWrite x) s = .next t ∧ OnlyTile x s t ∧ (t.tile x).descDue = (s.tile x).descDue.drop 8 ∧
      (t.tile x).preload = (s.tile x).preload ∧
      Memory.read (t.tile x).b.mem off (min 8 (s.tile x).descDue.length) = ((s.tile x).descDue.take 8).map (fun p => p.2) ∧
      (∀ a, (a < off ∨ off + 8 ≤ a) → (t.tile x).b.mem.byte a = (s.tile x).b.mem.byte a)) ∧
  (∀ (x : Site) (s : State) (off : Nat) (b : Byte) (bs : List (Nat × Byte)), (s.tile x).descDue = [] →
    (s.tile x).preload = (off, b) :: bs → LoadRuns s x → BankFree s x off →
    ∃ t, exec (.preloadWrite x) s = .next t ∧ OnlyTile x s t ∧ (t.tile x).preload = (s.tile x).preload.drop 8 ∧
      Memory.read (t.tile x).b.mem off (min 8 (s.tile x).preload.length) = ((s.tile x).preload.take 8).map (fun p => p.2) ∧
      (∀ a, (a < off ∨ off + 8 ≤ a) → (t.tile x).b.mem.byte a = (s.tile x).b.mem.byte a)) ∧
  (∀ (x : Site) (s : State) (w : Nat), (s.tile x).b.writeBacks.find? (fun w => s.bankIdle x (bankOf w)) = some w → s.alive = true →
    ∃ t, exec (.eccWriteBack x) s = .next t ∧ OnlyTile x s t ∧ (t.tile x).b.writeBacks = (s.tile x).b.writeBacks.erase w ∧ Map.look (t.tile x).b.bad w ≠ some .ce ∧
      (t.tile x).b.mem = (s.tile x).b.mem) ∧
  (∀ (x : Site) (s : State) (k : Nat), s.alive = true → s.frozenAt x = false → k < 16 → Map.get 0 (s.tile x).b.clearing k ≠ 0 →
    Map.get 0 (s.tile x).b.clearing k ≤ s.cycleAt x →
    ∃ t, exec (.bankClearDone x) s = .next t ∧ OnlyTile x s t ∧ (t.tile x).b.mem = (s.tile x).b.mem ∧
      Map.get 0 (t.tile x).b.clearing k = if (s.tile x).b.clearAgain.getLsbD k then s.cycleAt x + 768 else 0)

/-- The front of an instance may leave the steward now. -/
def FrontFree (s : State) (i : Instance) : Prop :=
  s.inst? i.id = some i ∧ s.working = true ∧ i.loaded = true ∧ i.run.frontTo = none ∧ i.run.aborting = false ∧ i.run.causes = [] ∧
    (s.ctx i.tenant).preempted = false ∧ (s.ctx i.tenant).preempting = none

/-- FRONT_INJECT sends the token of the next section to every entry of the ending one; into section 0 it starts a step whose budget and start stamp
are those of now (R79, R89, R287, R289). -/
def FrontsAreInjectedAtTheEntries : Prop :=
  (∀ (s : State) (i : Instance) (n : Nat) (c e : Section), FrontFree s i → i.nextSection = n → n ≠ 0 → i.run.running = true →
    i.section? n = some c → i.section? i.ending = some e → s.rampAllows i c = true →
    ∃ t j, exec (.frontInject i.id) s = .next t ∧ t.inst? i.id = some j ∧ j.run.frontTo = some n ∧ j.stepNo = i.stepNo ∧ t.tiles = s.tiles ∧
      t.net.tokens = s.net.tokens ++ e.entries.map fun x =>
        { site := x, port := 4, exit := false,
          token := { tenant := i.tenant, layout := i.id, sectionNext := n, stepLo := BitVec.ofNat 16 i.stepNo, sealBreak := false, holdMax := 0, holder := 0 } }) ∧
  (∀ (s : State) (i : Instance) (c : Section), FrontFree s i → i.nextSection = 0 → i.run.running = false → i.section? 0 = some c →
    s.rampAllows i c = true → s.mayStart i = true →
    ∃ t j, exec (.frontInject i.id) s = .next t ∧ t.inst? i.id = some j ∧ j.run.frontTo = some 0 ∧ j.run.running = true ∧
      j.run.startGts = s.clk.gts ∧ j.run.budget = (s.ctx i.tenant).budget ∧ j.stepNo = i.stepNo)

/-- A token stands at a site whose router works. -/
def TokenHere (s : State) (k : Nat) (e : TokenAt) : Prop :=
  s.net.tokens[k]? = some e ∧ e.exit = false ∧ s.working = true ∧ (s.die e.site.die.val).state = .on ∧ s.frozenAt e.site = false

/-- FRONT_TOKEN_ARRIVAL: a token on a port of FRONT_IN joins the tile's, at an entry's spine side once the section's last inbound
data is past; on another port it is discarded (R88, R89, R90). -/
def FrontTokensWaitOrAreStray : Prop :=
  (∀ (k : Nat) (s : State) (e : TokenAt) (i : Instance), TokenHere s k e → s.instAt e.site = some i → s.evicting i.tenant e.site = false →
    (frontIn (s.tile e.site).active.routerWord).contains e.port = true → (e.port = 4 → s.inboundOver e.site = true ∧ s.entryOpen i e.site e.token.sectionNext = true) →
    ∃ t, exec (.frontTokenArrival k) s = .next t ∧ t.net.tokens = s.net.tokens.eraseIdx k ∧
      t.tile e.site = { s.tile e.site with tokens := (s.tile e.site).tokens ++ [(e.port, e.token)] } ∧
      ∀ y, y ≠ e.site → t.tile y = s.tile y) ∧
  (∀ (k : Nat) (s : State) (e : TokenAt) (i : Instance), TokenHere s k e → s.instAt e.site = some i → s.evicting i.tenant e.site = false →
    (frontIn (s.tile e.site).active.routerWord).contains e.port = false →
    ∃ t, exec (.frontTokenArrival k) s = .next t ∧ t.net.tokens = s.net.tokens.eraseIdx k ∧ t.tiles = s.tiles)

/-- The token that leaves a tile at its swap: its own hold merged with the tokens that came (R90). -/
def MergedBreak (own : Token) (ts : List Token) : Bool := own.sealBreak || ts.any fun k => k.sealBreak

end Sys2Proof.Claims

/-- The merge of front tokens: SEAL_BREAK is the OR, HOLD_MAX the largest, HOLDER that of the largest hold, with the smaller number on a tie that is
not zero (R90). -/
def Obligations.FrontTokensMergeBreaksAndHolds : Prop :=
  ∀ (own : Token) (ts : List Token),
    (mergeTokens own ts).sealBreak = MergedBreak own ts ∧
      (mergeTokens own ts).holdMax.toNat = (ts.map fun k => k.holdMax.toNat).foldl max own.holdMax.toNat ∧
      ((mergeTokens own ts).holdMax = own.holdMax ∧ (mergeTokens own ts).holder = own.holder ∨
        ∃ k ∈ ts, (mergeTokens own ts).holdMax = k.holdMax ∧ (mergeTokens own ts).holder = k.holder) ∧
      (∀ k ∈ ts, k.holdMax = (mergeTokens own ts).holdMax → k.holdMax ≠ 0 → (mergeTokens own ts).holder.toNat ≤ k.holder.toNat) ∧
      (mergeTokens own ts).sectionNext = own.sectionNext ∧ (mergeTokens own ts).stepLo = own.stepLo

namespace Sys2Proof.Claims

/-- An instance is the one loaded layout at a site, under its own LAYOUT_ID. -/
def OneInst (s : State) (x : Site) (i : Instance) : Prop :=
  s.instAt x = some i ∧ s.inst? i.id = some i ∧
    ∀ e ∈ s.insts, e.2.tenant = i.tenant → bitAt e.2.dieMask x.die.val = true → e = (i.id.toNat, i)

end Sys2Proof.Claims

/-- TILE_SWAP: the tile enters the section in its shadow, with no endpoint open and no token held, the slot counters' origin in this cycle;
a tile configured and not parked there takes the new configuration and begins at ENTRY; the merged token leaves through every port of FRONT_OUT; no other tile
changes (R65, R85, R90, R92, R185, R186). -/
def Obligations.SwapsEnterTheNextSection : Prop :=
  ∀ (x : Site) (s : State) (i : Instance) (c : Section) (p : Fin 5) (k : Token) (ks : List (Fin 5 × Token)), OneInst s x i →
    i.section? (s.tile x).shadowSection = some c → c.index = (s.tile x).shadowSection → s.maySwap x i = true →
    (s.tile x).tokens = (p, k) :: ks →
    ∃ t, exec (.tileSwap x) s = .next t ∧ (t.tile x).active.sect = c.index ∧ (t.tile x).tokens = [] ∧ (t.tile x).stepLo = k.stepLo ∧
      (t.tile x).swapAt = s.cycleAt x ∧ (∀ e, ((t.tile x).outEp e).state ≠ .opened) ∧
      ((∀ q ∈ (s.tile x).outs, q.2.state ≠ .pending) → ∀ e, ((t.tile x).outEp e).state = .closed) ∧ (∀ y, y ≠ x → t.tile y = s.tile y) ∧
      ((s.tile x).keepNext = false → (s.tile x).shadow.configured = true → cfgPark (s.tile x).shadow.cfg = false → s.isFused x = false →
        (t.tile x).parked = false ∧ (t.tile x).active.cfg = (s.tile x).shadow.cfg ∧ (t.tile x).active.imem = (s.tile x).shadow.imem ∧
          (siteKind x = .m ∨ siteKind x = .v → (t.tile x).seq.ip = cfgEntry (s.tile x).shadow.cfg)) ∧
      ((s.tile x).keepNext = false → ((s.tile x).shadow.configured = false ∨ cfgPark (s.tile x).shadow.cfg = true) → (t.tile x).parked = true) ∧
      (∀ o y, o ∈ frontOut (s.tile x).active.routerWord → o ≠ 4 → neighbour x o.val = some y →
        ∃ e ∈ t.net.tokens, e.site = y ∧ e.port = oppositePort o.val ∧ e.exit = false ∧ e.token.sectionNext = k.sectionNext)

namespace Sys2Proof.Claims

/-- A front has left a section by an exit. -/
def ExitHere (s : State) (k : Nat) (e : TokenAt) (i : Instance) : Prop :=
  s.net.tokens[k]? = some e ∧ e.exit = true ∧ s.instAt e.site = some i ∧ s.inst? i.id = some i ∧ s.working = true ∧ s.frozenAt e.site = false

/-- Every exit of the ending section has let the front out, the one at hand among them. -/
def AllExits (i : Instance) (e : TokenAt) : Prop :=
  ∀ c, i.section? i.ending = some c → ∀ x ∈ c.exits, x = e.site ∨ ∃ q ∈ i.run.exitsSeen, q.1 = x

end Sys2Proof.Claims

/-- FRONT_EXIT: with the front out of every exit the section behind it is over; into section 0 of a step that overlaps another, the older step ends
normally, and its number is consumed (R79, R287, R317). -/
def Obligations.FrontsLeaveByTheExits : Prop :=
  (∀ (k : Nat) (s : State) (e : TokenAt) (i : Instance), ExitHere s k e i → AllExits i e →
    (i.run.nextStart = none ∨ e.token.sectionNext ≠ 0) →
    ∃ t j, exec (.frontExit k) s = .next t ∧ t.inst? i.id = some j ∧ j.run.current = some e.token.sectionNext ∧ j.run.frontTo = none ∧
      j.stepNo = i.stepNo ∧ t.net.tokens = s.net.tokens.eraseIdx k ∧ t.tiles = s.tiles) ∧
  (∀ (k : Nat) (s : State) (e : TokenAt) (i : Instance) (g : DWord), ExitHere s k e i → AllExits i e → i.run.nextStart = some g →
    e.token.sectionNext = 0 → i.run.causes = [] → i.run.running = true → (s.ctx i.tenant).replay = none →
    ∃ t j, exec (.frontExit k) s = .next t ∧ t.inst? i.id = some j ∧ j.stepNo = i.stepNo + 1 ∧ j.normal = i.normal + 1 ∧
      j.run.running = true ∧ j.run.startGts = g ∧ j.run.nextStart = none) ∧
  (∀ (k : Nat) (s : State) (e : TokenAt) (i : Instance) (c : Section) (x : Site), ExitHere s k e i → i.section? i.ending = some c →
    x ∈ c.exits → x ≠ e.site → (∀ q ∈ i.run.exitsSeen, q.1 ≠ x) →
    ∃ t j, exec (.frontExit k) s = .next t ∧ t.inst? i.id = some j ∧ j.run.exitsSeen = i.run.exitsSeen ++ [(e.site, e.token)] ∧
      j.run.current = i.run.current)

/-- SEAL_ORIGIN lets the front of a sealed run in at a beat edge, with every entry holding it and every good tile ready; SEAL_CHECK asserts the seal
stall in the cycle SEAL_LEN − 16 of a tile whose shadow is not complete, and the freeze begins 12 cycles later; SEAL_STALL_RELEASE lets it go
12 cycles after every asserting tile is satisfied (R95, R345, R346). -/
def Obligations.SealedRunsStartStallAndResume : Prop :=
  (∀ (s : State) (i : Instance) (n : Nat) (c : Section), s.inst? i.id = some i → s.working = true → i.run.frontTo = some n →
    i.section? i.ending = some c → i.startsRun n = true → s.clk.units % 480 = 0 →
    (∀ x ∈ c.entries, ∃ k ∈ s.net.tokens, k.site = x ∧ k.port = 4 ∧ k.exit = false) →
    (∀ x ∈ s.instSites i, s.isFused x = true ∨ (s.tileDone x = true ∧ s.shadowReady x = true)) →
    ∃ t j, exec (.sealOrigin i.id) s = .next t ∧ t.inst? i.id = some j ∧ j.run.released = true ∧ t.tiles = s.tiles) ∧
  (∀ (x : Site) (s : State) (i : Instance), s.instAt x = some i → s.inst? i.id = some i → s.working = true → i.run.current.isSome = true →
    s.sealedAt x = true → s.frozenAt x = false → s.cycleAt x + 16 = (s.tile x).swapAt + s.sealLenAt x → s.shadowReady x = false →
    s.isFused x = false →
    ∃ t j, exec (.sealCheck x) s = .next t ∧ (t.tile x).sealAsserted.getLsbD 0 = true ∧ (t.tile x).sealBroke = true ∧
      t.inst? i.id = some j ∧ (i.run.freezeAt = none → i.run.frozenSince = none → j.run.freezeAt = some (s.clk.fclk + 12)) ∧
      (∀ y, y ≠ x → t.tile y = s.tile y)) ∧
  (∀ (s : State) (i : Instance), s.inst? i.id = some i → s.working = true → (i.run.freezeAt.isSome = true ∨ i.run.frozenSince.isSome = true) →
    i.run.releaseAt = none → s.pacerHolds i = false → (∀ x ∈ s.instSites i, (s.tile x).sealAsserted ≠ 0 → s.sealSatisfied x = true) →
    ∃ t j, exec (.sealStallRelease i.id) s = .next t ∧ t.inst? i.id = some j ∧ j.run.releaseAt = some (s.clk.fclk + 12) ∧
      (∀ x ∈ s.instSites i, (t.tile x).sealAsserted = 0))

namespace Sys2Proof.Claims

/-- BUDGET_EXPIRY makes the budget's end a cause, stamped at the expiry, once it lies in the past; STEP_ABORT ends the step by its first cause once the
engines are quiet: the step's number is consumed, its batch is gone, and no step runs (R288, R289, R384). -/
def BudgetsExpireAndStepsAbort : Prop :=
  (∀ (s : State) (i : Instance) (e : Nat), s.inst? i.id = some i → i.run.expiry = some e → s.working = true → i.run.running = true →
    (s.ctx i.tenant).preempted = false → (∀ c ∈ i.run.causes, c.status ≠ E_OVERRUN) → e < s.clk.gts.toNat →
    ∃ t j, exec (.budgetExpiry i.id) s = .next t ∧ t.inst? i.id = some j ∧
      j = { i with run := { i.run with causes := i.run.causes ++ [⟨E_OVERRUN, BitVec.ofNat 64 e, stewardSrc⟩] } } ∧ t.tiles = s.tiles) ∧
  (∀ (s : State) (i : Instance) (c : Cause), s.inst? i.id = some i → firstCause i.run.causes = some c → s.working = true →
    i.run.running = true → (s.ctx i.tenant).preempted = false → s.dmaQuiet i = true → i.unloadCmd = none →
    ∃ t j, exec (.stepAbort i.id) s = .next t ∧ t.inst? i.id = some j ∧ j.stepNo = i.stepNo + 1 ∧ j.run.running = false ∧
      j.run.causes = [] ∧ j.batch = [] ∧ j.normal = i.normal) ∧
  (∀ (s : State) (i : Instance) (c : Cause), s.inst? i.id = some i → firstCause i.run.causes = some c → s.working = true →
    i.run.running = true → (s.ctx i.tenant).preempted = false → i.run.aborting = false → s.dmaQuiet i = false →
    ∃ t j, exec (.stepAbort i.id) s = .next t ∧ t.inst? i.id = some j ∧ j.run.aborting = true ∧ j.run.running = true ∧ j.stepNo = i.stepNo ∧
      ∀ x ∈ s.instSites i, ∀ d ∈ (t.tile x).b.dmas, d.phase ≠ .queued)

end Sys2Proof.Claims

/-- A shadow takes its records in order and is complete by its CRC; banks take images, corrections and clears. -/
def Obligations.SectionsAreLoadedIntoTheShadow : Prop := ShadowLoadsTakeTheirRecordsInOrder ∧ ShadowLoadsEndByTheirCrc ∧ BanksTakeImagesCorrectionsAndClears

/-- A front enters at the routers with an entry, and its tokens wait at a router for the others, or are stray. -/
def Obligations.FrontsEnterAndWait : Prop := FrontsAreInjectedAtTheEntries ∧ FrontTokensWaitOrAreStray

/-! ## Pacer, power steps, composition -/

namespace Sys2Proof.Claims

/-- lo and hi of a region's tick to come (R238). -/
def paceBounds (s : State) (d : Nat) (r : Fin 3) (t : Tenant) : Nat × Nat :=
  (s.pace d r).bounds (s.allowance d r) (match s.instOn t d with | some i => s.ceiling i d | none => 0)

/-- PACER_TICK of one of a die's three ticks. -/
def tickRow (d : FieldDie) (r : Fin 3) : Instr := .pacerTick d (decide (r = 0)) (decide (r = 1)) (decide (r = 2))

end Sys2Proof.Claims

/-- PACER_TICK, once a tick of a region has passed, records the weight of the tick: what the tiles want, kept between lo and hi, with lo above a
ceiling that lies below it; region 2 records the clock tree and the leakage within its own bounds, and a region that no context holds decays by
the allowance that it had. Other regions keep their records. A row of several ticks does them one after the other (R233, R234, R238 to R241). -/
def Obligations.PacerTicksKeepTheirBounds : Prop :=
  (∀ (d : FieldDie) (r : Fin 3) (s : State) (t : Tenant) (b : Byte), s.alive = true → s.tickDue d.val r = true →
    s.regionOf d.val r = some (t, b) →
    ∃ u w, exec (tickRow d r) s = .next u ∧ (u.pace d.val r).weights = (w :: (s.pace d.val r).weights).take 31 ∧
      (u.pace d.val r).since = s.clk.fclk ∧
      (paceBounds s d.val r t).1 ≤ w ∧ ((paceBounds s d.val r t).1 ≤ (paceBounds s d.val r t).2 → w ≤ (paceBounds s d.val r t).2) ∧
      ((paceBounds s d.val r t).1 ≤ s.paceWant d.val r → s.paceWant d.val r ≤ (paceBounds s d.val r t).2 →
        w = s.paceWant d.val r ∧ (u.pace d.val r).holding = false) ∧
      ((paceBounds s d.val r t).2 < s.paceWant d.val r → (u.pace d.val r).holding = true) ∧
      (∀ e q, e ≠ d.val ∨ q ≠ r → u.pace e q = s.pace e q) ∧ u.tiles = s.tiles) ∧
  (∀ (d : FieldDie) (s : State), s.alive = true → s.tickDue d.val 2 = true →
    ∃ u w, exec (tickRow d 2) s = .next u ∧ (u.pace d.val 2).weights = (w :: (s.pace d.val 2).weights).take 31 ∧
      (let b := (s.pace d.val 2).bounds 160 960
       b.1 ≤ w ∧ (b.1 ≤ b.2 → w ≤ b.2) ∧ (b.1 ≤ s.baseWeight d.val → s.baseWeight d.val ≤ b.2 → w = s.baseWeight d.val)) ∧
      u.tiles = s.tiles) ∧
  (∀ (d : FieldDie) (r : Fin 3) (s : State), s.alive = true → s.tickDue d.val r = true → r ≠ 2 → s.regionOf d.val r = none →
    s.paceWant d.val r = 0 →
    ∃ u, exec (tickRow d r) s = .next u ∧ (u.pace d.val r).holding = false ∧
      (u.pace d.val r).weights = (((s.pace d.val r).bounds (s.pace d.val r).allow 0).1 :: (s.pace d.val r).weights).take 31) ∧
  (∀ (d : FieldDie) (r : Fin 3) (s : State), s.tickDue d.val r = false → exec (tickRow d r) s = .next s) ∧
  (∀ (d : FieldDie) (a b c : Bool) (s : State), ∃ u v, exec (.pacerTick d a false false) s = .next u ∧ exec (.pacerTick d false b false) u = .next v ∧
    exec (.pacerTick d a b c) s = exec (.pacerTick d false false c) v)

namespace Sys2Proof.Claims

/-- Two states agree on everything but the power of one die. -/
def OnlyDie (d : Nat) (s t : State) : Prop :=
  { t with power := { t.power with dies := s.power.dies } } = s ∧ ∀ e, e ≠ d → t.die e = s.die e

/-- A die may take its next power step: a microsecond has passed since its last one, and its tile weight is zero. -/
def StepMay (s : State) (d : Nat) : Prop := s.alive = true ∧ s.stepDue d = true ∧ s.tilesQuiet d = true

/-- POWER_STEP moves a die by one eighth of its clock tree or one stage of its switch, once a microsecond: an idle field die toward GATED, one on
which a step runs toward ON, a drained closing die and every die in the safe state's descent toward open (R242, R246, R248). -/
def PowerStepsMoveOneDie : Prop :=
  (∀ (d : Die) (s : State), StepMay s d.val → s.power.descent = false → (s.die d.val).state = .on → d.val < 16 → s.stepsOn d.val = false →
    0 < (s.die d.val).steps →
    ∃ t, exec (.powerStep d) s = .next t ∧ OnlyDie d.val s t ∧ (t.die d.val).steps = (s.die d.val).steps - 1 ∧
      (t.die d.val).stages = (s.die d.val).stages ∧ (t.die d.val).lastStep = some s.clk.gts ∧
      ((s.die d.val).steps = 1 → (t.die d.val).state = .gated ∧ (t.die d.val).gatedSince = some s.clk.gts)) ∧
  (∀ (d : Die) (s : State), StepMay s d.val → s.power.descent = false → (s.die d.val).state = .gated → s.stepsOn d.val = true →
    (s.die d.val).stages = 2 → (s.die d.val).steps < 8 →
    ∃ t, exec (.powerStep d) s = .next t ∧ OnlyDie d.val s t ∧ (t.die d.val).steps = (s.die d.val).steps + 1 ∧
      (t.die d.val).state = (if (s.die d.val).steps = 7 then .on else .gated)) ∧
  (∀ (d : Die) (s : State), StepMay s d.val →
    (s.power.descent = true ∧ (∀ e, e < 16 → s.tilesQuiet e = true) ∨
      s.power.descent = false ∧ (s.die d.val).state = .closing ∧ (s.die d.val).drained = true) →
    ∃ t, exec (.powerStep d) s = .next t ∧ OnlyDie d.val s t ∧
      (t.die d.val).steps + (t.die d.val).stages = (s.die d.val).steps + (s.die d.val).stages - 1 ∧
      (0 < (s.die d.val).steps → (t.die d.val).stages = (s.die d.val).stages))

/-- DRAIN_END, 2 µs after CLOSING, returns what a field die's units have not taken with E_DOMAIN_CLOSED; DOMAIN_OFF, with the die drained, empty and
open, takes its power and what its tiles hold (R248, R249). -/
def DiesDrainAndGoOff : Prop :=
  (∀ (d : Die) (s : State), d.val < 16 → s.alive = true → (s.die d.val).state = .closing → (s.die d.val).drained = false →
    (s.die d.val).closingAt.toNat + 2000 ≤ s.clk.gts.toNat →
    ∃ t, exec (.drainEnd d) s = .next t ∧ (t.die d.val).drained = true ∧ (t.die d.val).state = .closing ∧
      (∀ p ∈ s.net.flow, ¬ (placeDie p.place = some d.val ∧ p.head.destDie.toNat = d.val) → p ∈ t.net.flow) ∧
      (∀ p ∈ s.net.flow, placeDie p.place = some d.val → p.head.destDie.toNat = d.val → p.head.kind ≠ 4 →
        ∃ q ∈ t.net.flow, ∃ n, q.body = .nak n ∧ n.code = E_DOMAIN_CLOSED ∧ q.head.destDie = BitVec.ofNat 6 (p.head.src.toNat / 1024) ∧
          q.head.destUnit = BitVec.ofNat 10 (p.head.src.toNat % 1024) ∧ q.head.tag = p.head.tag)) ∧
  (∀ (d : Die) (s : State), s.alive = true → (s.die d.val).state = .closing → (s.die d.val).drained = true → (s.die d.val).steps = 0 →
    (s.die d.val).stages = 0 → s.dieEmpty d.val = true →
    ∃ t, exec (.domainOff d) s = .next t ∧ t.die d.val = {} ∧ (∀ e, e ≠ d.val → t.die e = s.die e) ∧
      (∀ x : Site, x.die.val = d.val → t.tile x = { ueCount := (s.tile x).ueCount }) ∧
      (∀ x : Site, x.die.val ≠ d.val → t.tile x = s.tile x))

/-- YIELD_LIMIT: a yield that has not saved within its limit goes on as an evict (R290). -/
def YieldsGoOnAsEvicts : Prop :=
  (∀ (t : Tenant) (s : State) (p : Preempting), (s.ctx t).preempting = some p → s.working = true → p.evict = false →
    p.since.toNat + 1000 * p.limit ≤ s.clk.gts.toNat →
    ∃ u, exec (.yieldLimit t) s = .next u ∧ u.ctx t = { s.ctx t with preempting := some { p with evict := true } } ∧
      (∀ v, v ≠ t → u.ctx v = s.ctx v) ∧ u.insts = s.insts) ∧
  (∀ (t : Tenant) (s : State) (p : Preempting), (s.ctx t).preempting = some p → s.clk.gts.toNat < p.since.toNat + 1000 * p.limit →
    exec (.yieldLimit t) s = .next s)

/-- COMPOSE of an empty batch: its cut-off is used up; without a stream that may join it writes nothing, and the next cut-off is the first ready
event behind the old one, past or to come; else the batch is that of the next step, its streams are BATCHED, and the descriptor that is on its
way to its buffer begins with the step's number (R282, R284). -/
def CompositionsBatchTheReadyStreams : Prop :=
  ∀ (s : State) (i : Instance) (b : Binding) (k : DWord × Src), s.inst? i.id = some i → i.binding = some b → i.cutoff = some k →
    i.batch = [] → s.mayCompose i = true →
    ∃ t j, exec (.compose i.id) s = .next t ∧ t.inst? i.id = some j ∧ j.run = i.run ∧ j.stepNo = i.stepNo ∧
      (j.batch = [] → j.composedFor = i.composedFor ∧ t.tiles = s.tiles ∧
        (j.composing = true ∧ j.cutoff = none ∨ j.composing = false ∧ ∃ key, j.cutoff = some key ∧ keyLt k key = true)) ∧
      (j.batch ≠ [] → j.composing = false ∧ j.cutoff = none ∧ j.composedFor = i.composeStep + 1) ∧
      (∀ n e, Map.look j.batch n = some e → (t.stream e.stream).state = stBatched) ∧
      (∀ d, j.batch ≠ [] → i.nextBinding = none → b.descDpas = [d] →
        let y := bufferAt d (descBytes b) i.composeStep
        ((t.tile y.1).descDue.drop (s.tile y.1).descDue.length).take 8 = (leBytes 8 i.composeStep).zipIdx.map fun p => (y.2 + p.2, p.1))

/-- The stream that a media record names is live. -/
def StreamLive (s : State) (m : MediaInput) : Prop :=
  m.handle.toNat / 2 ^ 21 % 8 = 0 ∧ (s.stream (m.handle.toNat % 2 ^ 21)).state ≠ stFree ∧
    (s.stream (m.handle.toNat % 2 ^ 21)).gen.toNat = m.handle.toNat / 2 ^ 24

/-- MEDIA_RECORD_INPUT puts an output's record at the tail of its stream's queue and makes an IDLE stream READY with the record's stamp and source; a
record of a stream that is gone is discarded; a full queue fails the stream, a DONE one too (R276, R277). -/
def MediaRecordsBecomeStreamInputs : Prop :=
  (∀ (k : Nat) (s : State) (m : MediaInput), s.media.inputs[k]? = some m → s.working = true → m.status = OK → m.output = true →
    StreamLive s m → (s.stream (m.handle.toNat % 2 ^ 21)).inputs.length < 8 →
    ∃ t, exec (.mediaRecordInput k) s = .next t ∧ t.media.inputs = s.media.inputs.eraseIdx k ∧
      (t.stream (m.handle.toNat % 2 ^ 21)).inputs = (s.stream (m.handle.toNat % 2 ^ 21)).inputs ++
        [BitVec.ofNat 128 (m.va.toNat % 2 ^ 48 + 2 ^ 48 + m.size.toNat * 2 ^ 64 + m.tag.toNat * 2 ^ 96)] ∧
      ((s.stream (m.handle.toNat % 2 ^ 21)).state = stIdle →
        (t.stream (m.handle.toNat % 2 ^ 21)).state = stReady ∧ (t.stream (m.handle.toNat % 2 ^ 21)).readyGts = m.stamp ∧
          (t.stream (m.handle.toNat % 2 ^ 21)).readySource = m.src) ∧
      ((s.stream (m.handle.toNat % 2 ^ 21)).state ≠ stIdle →
        (t.stream (m.handle.toNat % 2 ^ 21)).state = (s.stream (m.handle.toNat % 2 ^ 21)).state) ∧
      (∀ n, n ≠ m.handle.toNat % 2 ^ 21 → t.stream n = s.stream n)) ∧
  (∀ (k : Nat) (s : State) (m : MediaInput), s.media.inputs[k]? = some m → s.working = true → ¬ StreamLive s m →
    ∃ t, exec (.mediaRecordInput k) s = .next t ∧ t.media.inputs = s.media.inputs.eraseIdx k ∧ t.streams = s.streams) ∧
  (∀ (k : Nat) (s : State) (m : MediaInput), s.media.inputs[k]? = some m → s.working = true → ¬ (m.status = OK ∧ m.output = false) →
    StreamLive s m → 8 ≤ (s.stream (m.handle.toNat % 2 ^ 21)).inputs.length →
    (s.stream (m.handle.toNat % 2 ^ 21)).state ≠ stFailed →
    (s.stream (m.handle.toNat % 2 ^ 21)).closePending = false →
    ∃ t, exec (.mediaRecordInput k) s = .next t ∧ (t.stream (m.handle.toNat % 2 ^ 21)).state = stFailed ∧
      (t.stream (m.handle.toNat % 2 ^ 21)).failStatus = E_STREAM_OVERFLOW)

end Sys2Proof.Claims

/-- A yield past its limit goes on as an evict; a step past its budget is over-run, and a step with a cause aborts. -/
def Obligations.YieldsGoOnAndBudgetsExpire : Prop := YieldsGoOnAsEvicts ∧ BudgetsExpireAndStepsAbort

/-- A die moves by one power step at a time, drains, and goes off. -/
def Obligations.DiesStepDrainAndGoOff : Prop := PowerStepsMoveOneDie ∧ DiesDrainAndGoOff

/-- A composition batches the ready streams; a media record becomes an input of its stream. -/
def Obligations.BatchesAndMediaInputs : Prop := CompositionsBatchTheReadyStreams ∧ MediaRecordsBecomeStreamInputs

/-! ## Media dies -/

namespace Sys2Proof.Claims

/-- The state in which a session's engine reads its next job descriptor. -/
def engineAt (s : State) (x : SessRef) (e : Nat) : State := s.onSess x fun n => { n with engine := e }

/-- The dispatcher serves a session now: it is the next one of its kind, the engine `e` is the lowest-numbered idle one of the kind's `count`, and the
descriptor read is `j`, whose row is this one; `s1` is the state after the read. -/
def JobRead (s : State) (x : SessRef) (count busy e row : Nat) (j : Flit) (s1 : State) : Prop :=
  s.mediaRuns x = true ∧ s.dieUp (20 + x.md.val) = true ∧ s.nextSession x.md.val (s.sess x).kind = some x ∧ (s.sess x).ready = true ∧
    s.freeEngine x count busy = some e ∧
    (engineAt s x e).vaRead (s.sess x).tenant (s.mdHalf x) ((s.sess x).f 16 8 + ((s.sess x).jobs % (s.sess x).entries) * 64) 64
      ((engineAt s x e).sessAccess x) = (some (flitBytes j, false), s1) ∧ jobRow (s.sess x) j = row

/-- The state in which a taken job's buffers are covered. -/
def jobTaken (s1 : State) (x : SessRef) (n : Session) (j : Flit) : State :=
  (s1.takeJob x).onSess x fun m => { m with covers := (jobBuffers n j).map fun b => (b.1, b.2.1) }

/-- A job of a row passes the checks: its descriptor is in order, its buffers are allowed, and what it reads, if it reads, is `bs`; `s2` is the state
after that, with the work area in the engine's hands. -/
def JobOk (s : State) (x : SessRef) (count busy row : Nat) (j : Flit) (bs : List Byte) (s2 : State) : Prop :=
  ∃ e s1, JobRead s x count busy e row j s1 ∧ jobF j 0 1 = row ∧ opKind row = some (s.sess x).kind ∧ jobReservedOk j = true ∧
    jobFieldsOk (s.sess x) j = true ∧ sourceOk (s.sess x) j = true ∧
    (∀ b ∈ jobBuffers (s.sess x) j, (s1.ctx (s.sess x).tenant).rangeFault b.1 b.2.1 b.2.2 = none) ∧
    (match jobInput (s.sess x) j with
      | none => bs = [] ∧ s2 = (jobTaken s1 x (s.sess x) j).fillWork x
      | some b => ∃ s3, (jobTaken s1 x (s.sess x) j).vaRead (s.sess x).tenant (s.mdHalf x) b.1 b.2 ((engineAt s x e).sessAccess x) =
          (some (bs, false), s3) ∧ s2 = s3.fillWork x)

/-- The session took one more job. -/
def TookJob (s t : State) (x : SessRef) (k : MediaTake) : Prop :=
  (t.sess x).jobs = (s.sess x).jobs + 1 ∧ (t.sess x).history = (s.sess x).history ++ [k] ∧ ∀ y, y ≠ x → t.sess y = s.sess y

/-- What a video decoder gives for a session's next job: a value of the standard, which reads no PTS. -/
def decoded (n : Session) (k : MediaTake) : DecodeResult := Config.decodeVideo n.params (codecInputs (n.history ++ [k]))

/-- DECODE_AU gives the session's decoder the job's access unit: its frames join, in display order, those that await display, and the first of them
that are ready are the session's outputs; after a fault there are none. DECODE_FLUSH makes every frame that awaits display an output (R256,
R259, R262, R271). -/
def DecodeJobsMakeTheirFramesDue : Prop :=
  (∀ (x : SessRef) (busy : BitVec 16) (s s2 : State) (j : Flit) (bs : List Byte), JobOk s x 16 busy.toNat 1 j bs s2 →
    ∃ t, exec (.decodeAu x busy) s = .next t ∧
      TookJob s t x { op := 1, pts := BitVec.ofNat 64 (jobF j 40 8), bytes := bs } ∧
      (let r := decoded (s.sess x) { op := 1, pts := BitVec.ofNat 64 (jobF j 40 8), bytes := bs }
       let all := ((s.sess x).decode r).awaiting
       if (s.sess x).decodeFault r ≠ 0 then (t.sess x).due = [] ∧ (t.sess x).awaiting = (s.sess x).awaiting
       else (t.sess x).due.map (fun o => o.frame) = all.take r.ready ∧ (t.sess x).awaiting = all.drop r.ready)) ∧
  (∀ (x : SessRef) (busy : BitVec 16) (s s2 : State) (j : Flit), JobOk s x 16 busy.toNat 2 j [] s2 →
    ∃ t, exec (.decodeFlush x busy) s = .next t ∧ TookJob s t x { op := 2, pts := BitVec.ofNat 64 (jobF j 40 8) } ∧
      (t.sess x).due.map (fun o => o.frame) = (s.sess x).awaiting ∧ (t.sess x).awaiting = [])

/-- A session whose encoder has taken a frame and coded what its plan codes then. -/
def encoded (n : Session) (k : MediaTake) : Session :=
  (n.takeFrame k).code (Config.encodePlan n.params (codecInputs (n.takeFrame k).sources))

/-- A session whose encoder has coded the rest: in the order of its plan, and then of the frames. -/
def encodedRest (n : Session) (k : MediaTake) : Session :=
  ({ n with history := n.history ++ [k] } : Session).code
    (Config.encodePlan n.params (codecInputs n.sources ++ [{ k with pts := 0 }]) ++ n.uncoded.map fun e => e.1)

/-- What an encoder takes from the bytes of a frame: its samples, at the depth the codec works at. -/
def frameTake (n : Session) (j : Flit) (bs : List Byte) : MediaTake :=
  let v := frameOf n.format (jobF j 16 2) (jobF j 18 2) bs
  let conv := fun (q : Nat) => convertDepth v.deep n.encodeDeep q
  { op := 3, forceKey := bitAt j 8, pts := BitVec.ofNat 64 (jobF j 40 8), width := v.width, height := v.height,
    samples := v.luma.map conv ++ v.cb.map conv ++ v.cr.map conv }

/-- Units that leave the session when they fit in the job's output, and all stay when they do not. -/
def unitsLeft (j : Flit) (us : List CodedUnit) : List CodedUnit := if jobF j 32 4 < (us.map fun u => u.bytes.length).sum then us else []

/-- ENCODE_FRAME gives the session's encoder its frame, and ENCODE_FLUSH codes every frame that awaits coding; the units ready leave the session
when they fit in the job's output, and all stay when they do not (R257, R259, R271). -/
def EncodeJobsWriteTheirUnits : Prop :=
  (∀ (x : SessRef) (busy : BitVec 8) (s s2 : State) (j : Flit) (bs : List Byte), JobOk s x 8 busy.toNat 3 j bs s2 →
    ∃ t, exec (.encodeFrame x busy) s = .next t ∧ TookJob s t x (frameTake (s.sess x) j bs) ∧
      (t.sess x).coded = unitsLeft j (encoded (s.sess x) (frameTake (s.sess x) j bs)).coded ∧
      (t.sess x).uncoded = (encoded (s.sess x) (frameTake (s.sess x) j bs)).uncoded) ∧
  (∀ (x : SessRef) (busy : BitVec 8) (s s2 : State) (j : Flit), JobOk s x 8 busy.toNat 4 j [] s2 →
    ∃ t, exec (.encodeFlush x busy) s = .next t ∧ TookJob s t x { op := 4, pts := BitVec.ofNat 64 (jobF j 40 8) } ∧
      (t.sess x).coded = unitsLeft j (encodedRest (s.sess x) { op := 4, pts := BitVec.ofNat 64 (jobF j 40 8) }).coded ∧
      (t.sess x).uncoded = [])

/-- What an audio decoder gives for a session's next job. -/
def heard (n : Session) (k : MediaTake) : AudioResult := Config.decodeAudio n.params (codecInputs (n.history ++ [k]))

/-- AUDIO_CONFIG as a session's first job configures it; AUDIO_PACKET of a configured session gives its decoder the packet, and a block that it makes
without a fault, within the limits of its codec, is the session's output (R259, R270). -/
def AudioJobsConfigureAndMakeBlocks : Prop :=
  (∀ (x : SessRef) (busy : BitVec 8) (s s2 : State) (j : Flit) (bs : List Byte), JobOk s x 8 busy.toNat 6 j bs s2 → (s.sess x).jobs = 0 →
    ∃ t, exec (.audioConfig x busy) s = .next t ∧ (t.sess x).configured = true ∧ (t.sess x).due = [] ∧
      TookJob s t x { op := 6, pts := BitVec.ofNat 64 (jobF j 40 8), bytes := bs }) ∧
  (∀ (x : SessRef) (busy : BitVec 8) (s s2 : State) (j : Flit) (bs : List Byte), JobOk s x 8 busy.toNat 5 j bs s2 →
    (s.sess x).configured = true →
    ∃ t, exec (.audioPacket x busy) s = .next t ∧ TookJob s t x { op := 5, pts := BitVec.ofNat 64 (jobF j 40 8), bytes := bs } ∧
      (t.sess x).due.map (fun o => o.block) =
        (let r := heard (s.sess x) { op := 5, pts := BitVec.ofNat 64 (jobF j 40 8), bytes := bs }
         let block := pcmBytes (s.sess x).format r
         if r.fault = 1 ∨ audioInRange (s.sess x).codec r = false ∨ block = [] then [] else [block])) ∧
  (∀ (x : SessRef) (busy : BitVec 8) (s s2 : State) (j : Flit) (bs : List Byte), JobOk s x 8 busy.toNat 5 j bs s2 →
    (s.sess x).configured = false →
    ∃ t, exec (.audioPacket x busy) s = .next t ∧ (t.sess x).due = [] ∧ (t.sess x).history = (s.sess x).history ∧
      (t.sess x).jobs = (s.sess x).jobs + 1)

/-- SCALE reads the profile that its job names, writes the frame's pieces at OUT_VA and, after them, its record, which says OUTPUT with the scaled
size (R263, R267, R268). -/
def ScaleJobsWriteTheScaledFrame : Prop :=
  ∀ (x : SessRef) (busy : BitVec 16) (s s2 s3 s4 : State) (j : Flit) (bs ps : List Byte), JobOk s x 16 busy.toNat 7 j bs s2 →
    s2.vaRead (s.sess x).tenant (s.mdHalf x) (jobF j 48 8) 128 (s2.sessAccess x) = (some (ps, false), s3) →
    profOk (BitVec.ofNat 1024 (leNat ps)) (frameOf (s.sess x).format (jobF j 16 2) (jobF j 18 2) bs).width
      (frameOf (s.sess x).format (jobF j 16 2) (jobF j 18 2) bs).height false = true →
    profNeed (BitVec.ofNat 1024 (leNat ps)) ≤ jobF j 32 4 →
    s3.writePieces x (jobF j 24 8) (scalePieces (BitVec.ofNat 1024 (leNat ps)) (frameOf (s.sess x).format (jobF j 16 2) (jobF j 18 2) bs)) =
      (true, s4) →
    ∃ t r, exec (.scale x busy) s = .next t ∧ (t.sess x).jobs = (s.sess x).jobs + 1 ∧ (t.sess x).due = [] ∧
      t.mem.hbm = (s4.mediaRecord x r).mem.hbm ∧ r.status = OK ∧ r.op = 7 ∧ r.output = true ∧ r.jobEnd = true ∧
      r.tag = BitVec.ofNat 32 (jobF j 4 4) ∧ r.size = BitVec.ofNat 32 (scaledSize (BitVec.ofNat 1024 (leNat ps)))

/-- The pool slot of an output. -/
def outSlot (n : Session) (o : MediaOut) : Nat := n.f 32 8 + (o.number % n.f 10 2) * n.f 40 4

/-- The pieces of an output in its slot. -/
def outPieces (n : Session) (o : MediaOut) : List (Nat × List Byte) := if n.kind = 1 then framePieces n.format o.frame else [(0, o.block)]

/-- The state once an output is in its slot. -/
def outWritten (w : State) (x : SessRef) (slot : Nat) : State :=
  (w.onSess x fun n => { n with slotGranted := false }).onDue x fun o => { o with written := true, inputVa := BitVec.ofNat 64 slot }

/-- An output of a session that may go on. -/
def OutputHere (s : State) (x : SessRef) (o : MediaOut) (rest : List MediaOut) : Prop :=
  (s.sess x).due = o :: rest ∧ o.status = OK ∧ s.mediaRuns x = true ∧ (s.sess x).closingCmd = none ∧ s.replaying (s.sess x).tenant = false

/-- MEDIA_OUTPUT of a granted slot writes the output there, and without taps its record follows; TAP_SCALE of the last tap lets the record follow.
The record goes to the session's ring, and to the ledger where the session names a stream. An output that cannot be written ends its job with
its record, and what the job would still put out is lost (R262, R263, R268, R271, R276). -/
def OutputsAndTapsAreWritten : Prop :=
  (∀ (x : SessRef) (s w : State) (o : MediaOut) (rest : List MediaOut), OutputHere s x o rest → (s.sess x).slotGranted = true →
    o.written = false → (s.sess x).taps ≤ o.tapsDone →
    s.writePieces x (outSlot (s.sess x) o) (outPieces (s.sess x) o) = (true, w) →
    ∃ t, exec (.mediaOutput x) s = .next t ∧ (t.sess x).due = rest ∧ (t.sess x).recs = (s.sess x).recs + 1 ∧
      ((s.sess x).f 64 4 ≠ 0xFFFFFFFF → ∃ m ∈ t.media.inputs, m.va = BitVec.ofNat 64 (outSlot (s.sess x) o) ∧ m.output = true ∧
        m.status = o.status ∧ m.tag = o.tag ∧ m.slot = BitVec.ofNat 16 (o.number % (s.sess x).f 10 2))) ∧
  (∀ (x : SessRef) (s w v : State) (o : MediaOut) (rest : List MediaOut) (ps : List Byte), OutputHere s x o rest →
    (s.sess x).slotGranted = true → o.written = false → o.tapsDone < (s.sess x).taps →
    s.writePieces x (outSlot (s.sess x) o) (outPieces (s.sess x) o) = (true, w) →
    (outWritten w x (outSlot (s.sess x) o)).vaRead (s.sess x).tenant (s.mdHalf x) ((s.sess x).tapVa o.tapsDone) 128 (s.sessAccess x) =
      (some (ps, false), v) →
    tapOk (BitVec.ofNat 1024 (leNat ps)) = true →
    ∃ t q, exec (.mediaOutput x) s = .next t ∧ (t.sess x).due = q :: rest ∧ q.written = true ∧ q.frame = o.frame ∧
      q.profile = BitVec.ofNat 1024 (leNat ps) ∧ (t.sess x).recs = (s.sess x).recs) ∧
  (∀ (x : SessRef) (s w : State) (o : MediaOut) (rest : List MediaOut), OutputHere s x o rest → (s.sess x).tapGranted = true →
    o.written = true → (s.sess x).taps ≤ o.tapsDone + 1 →
    s.writePieces x (prof o.profile 32 8 + (o.number % prof o.profile 5 1) * prof o.profile 40 4) (scalePieces o.profile o.frame) = (true, w) →
    ∃ t, exec (.tapScale x) s = .next t ∧ (t.sess x).due = rest ∧ (t.sess x).recs = (s.sess x).recs + 1) ∧
  (∀ (x : SessRef) (s w : State) (o : MediaOut) (rest : List MediaOut), OutputHere s x o rest → (s.sess x).slotGranted = true →
    o.written = false → s.writePieces x (outSlot (s.sess x) o) (outPieces (s.sess x) o) = (false, w) →
    ∃ t, exec (.mediaOutput x) s = .next t ∧ (t.sess x).due = [] ∧ (t.sess x).recs = (s.sess x).recs + 1)

end Sys2Proof.Claims

/-- Decode, encode and audio jobs make the frames, units and blocks that their codec gives. -/
def Obligations.CodecJobsMakeTheirOutputs : Prop := DecodeJobsMakeTheirFramesDue ∧ EncodeJobsWriteTheirUnits ∧ AudioJobsConfigureAndMakeBlocks

/-- Scale jobs write the scaled frame; outputs and their taps are written to their slots. -/
def Obligations.ScaledFramesOutputsAndTaps : Prop := ScaleJobsWriteTheScaledFrame ∧ OutputsAndTapsAreWritten

/-! ## HBM, windows, ports -/

namespace Sys2Proof.Claims

/-- The answer that a controller puts on its way. -/
def AnswerTo (h : Head) (q : Packet) (b : Body) : Prop :=
  q.body = b ∧ q.head.kind = 3 ∧ q.head.tag = h.tag ∧ q.head.destDie = BitVec.ofNat 6 (h.src.toNat / 1024) ∧
    q.head.destUnit = BitVec.ofNat 10 (h.src.toNat % 1024)

/-- A request that its controller performs now, on one whole burst. -/
def RequestHere (s : State) (k : Nat) (r : HbmReq) : Prop :=
  s.mem.reqs[k]? = some r ∧ s.alive = true ∧ s.mem.selfRefresh = false ∧ reqFirst s.mem.reqs k r = true ∧ held s.mem.reqs k r = true ∧ r.dpa.toNat % 64 = 0

/-- The bytes of a burst as a requester sees them. -/
def burstBytes (s : State) (dpa : Nat) : List Byte := s.mem.mask dpa (Memory.read s.mem.hbm dpa 64)

end Sys2Proof.Claims

/-- HBM_REQUEST: a read answers with the burst's bytes and with E_ECC_UNCORRECTED where it has an error that cannot be corrected, and mends one that
can; a write stores its 64 bytes, mends the burst and is acknowledged. TRANSLATION sends a request with its DPA on over the spine to the stack's controller, and a fault
comes back with its FAULT_ID. PATROL_SCRUB visits the next burst and mends what it can; REFRESH changes no data (R207 to R210, R214, R215, R227,
R418). -/
def Obligations.MemoryUnitsAnswerTheirRequests : Prop :=
  (∀ (k : Nat) (s : State) (r : HbmReq), RequestHere s k r → r.write = false → r.bytes = 64 →
    ∃ t q, exec (.hbmRequest k none) s = .next t ∧ t.mem.reqs = s.mem.reqs.eraseIdx k ∧ t.mem.hbm = s.mem.hbm ∧
      t.net.flow = s.net.flow ++ [q] ∧ t.tiles = s.tiles ∧
      AnswerTo r.head q (.readRsp r.row (flitOf (burstBytes s r.dpa.toNat))
        (if s.burstErr (r.dpa.toNat / 64) = some .ue then E_ECC_UNCORRECTED else OK)) ∧
      t.burstErr (r.dpa.toNat / 64) = (if s.burstErr (r.dpa.toNat / 64) = some .ue then some .ue else none)) ∧
  (∀ (k : Nat) (s : State) (r : HbmReq), RequestHere s k r → r.write = true →
    ∃ t q, exec (.hbmRequest k none) s = .next t ∧ t.mem.reqs = s.mem.reqs.eraseIdx k ∧ burstBytes t r.dpa.toNat = flitBytes r.data ∧
      (∀ a, (a < r.dpa.toNat ∨ r.dpa.toNat + 64 ≤ a) → t.mem.hbm.byte a = s.mem.hbm.byte a) ∧
      t.net.flow = s.net.flow ++ [q] ∧ t.tiles = s.tiles ∧ AnswerTo r.head q (.writeAck r.row OK) ∧ t.burstErr (r.dpa.toNat / 64) = none) ∧
  (∀ (k : Nat) (s u : State) (p : Packet) (d : Die) (r : MemReq) (half : Fin 2) (dpa : Nat) (big : Bool) (e : DWord),
    s.net.flow[k]? = some p → p.place = .unit d 16 → d.val = 26 + half.val → p.body = .memReq r → r.window = false → s.alive = true →
    s.power.pstate = .p0 → s.translate half p.head.tenant r.va.toNat { write := r.write } = (.ok dpa big e, u) →
    ∃ t q, exec (.translation k) s = .next t ∧ t.net.flow = s.net.flow.eraseIdx k ++ [q] ∧ t.mem.hbm = s.mem.hbm ∧ t.tiles = s.tiles ∧
      t.mem.reqs = s.mem.reqs ∧ q.place = .spine half 13 ∧ q.body = .hbmCall { req := r, dpa := BitVec.ofNat 64 dpa } ∧
      q.head = { p.head with destDie := BitVec.ofNat 6 ((controllerSrc s.pkg.variant (dpa / 2 ^ 36 % 16)).toNat / 1024)
                             destUnit := BitVec.ofNat 10 ((controllerSrc s.pkg.variant (dpa / 2 ^ 36 % 16)).toNat % 1024) }) ∧
  (∀ (k : Nat) (s u : State) (p : Packet) (d : Die) (r : MemReq) (half : Fin 2) (c l : Nat),
    s.net.flow[k]? = some p → p.place = .unit d 16 → d.val = 26 + half.val → p.body = .memReq r → r.window = false → s.alive = true →
    s.power.pstate = .p0 → s.translate half p.head.tenant r.va.toNat { write := r.write } = (.fault c l, u) →
    ∃ t q n, exec (.translation k) s = .next t ∧ t.net.flow = s.net.flow.eraseIdx k ++ [q] ∧ q.head.kind = 4 ∧ q.body = .nak n ∧
      n.code = (if isTldwSrc p.head.src then E_TLDW_FAULT else E_DMA_FAULT) ∧ n.faultId = (s.ctx p.head.tenant).faultId.toNat ∧
      (t.ctx p.head.tenant).faultId = (s.ctx p.head.tenant).faultId + 1 ∧ t.mem.reqs = s.mem.reqs) ∧
  (∀ (k : Fin 12) (s : State), k.val < stackCount s.pkg.variant → s.alive = true → s.mem.selfRefresh = false →
    (∀ r ∈ s.mem.reqs, r.stack ≠ k.val) →
    ∃ t, exec (.patrolScrub k none) s = .next t ∧ t.mem.hbm = s.mem.hbm ∧
      Map.get 0 t.mem.patrol k.val = (Map.get 0 s.mem.patrol k.val + 1) % (stackBytes s.pkg.variant / 64) ∧
      t.burstErr (s.patrolBurst k.val) = (if s.burstErr (s.patrolBurst k.val) = some .ue then some .ue else none)) ∧
  (∀ (k : Fin 12) (s : State), k.val < stackCount s.pkg.variant → s.alive = true → s.mem.selfRefresh = false →
    ∃ t, exec (.refresh k) s = .next t ∧ { t with mem := { t.mem with refresh := s.mem.refresh } } = s ∧
      Map.get 0 t.mem.refresh k.val = (Map.get 0 s.mem.refresh k.val + 1) % 32)

namespace Sys2Proof.Claims

/-- A window request at the engine of an I/O die, with the import it names. -/
def ImportRequest (s : State) (k : Nat) (p : Packet) (d : Die) (r : MemReq) (w : Window) (q : PortRef) : Prop :=
  s.net.flow[k]? = some p ∧ p.place = .unit d 64 ∧ p.body = .memReq r ∧ dieKind s.pkg.variant d.val = some .xd ∧ r.window = true ∧
    s.alive = true ∧ firstAtPlace s.net.flow k p = true ∧ w = Map.get {} (s.ctx p.head.tenant).imports r.handle.toNat ∧
    w.isOpen = true ∧ w.port.toNat / 256 = d.val ∧ s.windowPort w = some q

/-- The first request that a port has received. -/
def InboundHere (s : State) (q : PortRef) (m : LinkMsg) (late : Bool) (n : Nat) : Prop :=
  (s.port q).next isRequest = some ((m, late), n) ∧ s.alive = true ∧ s.mem.selfRefresh = false ∧ isWindowMode (s.port q).mode = true

/-- A message of a port that was sent, or waits for its credits. -/
def Outgoing (p : Port) (a : LinkMsg) : Prop := a ∈ p.tx ∨ a ∈ p.txWait

/-- The first response that a port has received, with the request that it answers. -/
def ResponseHere (s : State) (q : PortRef) (m : LinkMsg) (op : BitVec 8) (r : OutReq) : Prop :=
  (∃ late n, (s.port q).next isResponse = some ((m, late), n)) ∧ m.op = op ∧ s.alive = true ∧
    (s.port q).outReqs.find? (fun x => x.tag = m.tag) = some r

end Sys2Proof.Claims

/-- WINDOW_REQUEST goes out on the port of its import, or comes back when the port is down. WRITE and READ at the owner act on the window and are
answered with the request's TAG, or with a NAK that leaves memory as it was when the checks of R222 fail. READ_DATA, WRITE_ACK and NAK answer the
requester; CREDIT gives its credits back (R221, R222, R333, R336 to R338). -/
def Obligations.WindowsCarryReadsAndWrites : Prop :=
  (∀ (k : Nat) (s : State) (p : Packet) (d : Die) (r : MemReq) (w : Window) (q : PortRef), ImportRequest s k p d r w q →
    (s.port q).windowRefusal w = none → (s.port q).txWait = [] →
    (s.port q).maySend (windowMsg r p.head.tenant w s.pkg.packageId (s.port q).nextTag) = true →
    ∃ t, exec (.windowRequest k) s = .next t ∧ t.net.flow = s.net.flow.eraseIdx k ∧
      (t.port q).tx = (s.port q).tx ++ [windowMsg r p.head.tenant w s.pkg.packageId (s.port q).nextTag] ∧
      (t.port q).nextTag = (s.port q).nextTag + 1 ∧ (∀ z, z ≠ q → t.port z = s.port z) ∧ t.tiles = s.tiles) ∧
  (∀ (k : Nat) (s : State) (p : Packet) (d : Die) (r : MemReq) (w : Window) (q : PortRef), ImportRequest s k p d r w q →
    (s.port q).state ≠ .up →
    ∃ t a, exec (.windowRequest k) s = .next t ∧ t.net.flow = s.net.flow.eraseIdx k ++ [a] ∧ t.links = s.links ∧
      AnswerTo p.head a (if r.write then .writeAck r.row E_PEER_DOWN else .readRsp r.row 0 E_PEER_DOWN)) ∧
  (∀ (q : PortRef) (s u : State) (m : LinkMsg) (n dpa : Nat) (big : Bool) (e : DWord), InboundHere s q m false n → m.op = 1 →
    (s.takeMsg q n m).inboundOk m false = true → (s.exportOf m.handle.toNat).btile = false →
    (s.takeMsg q n m).translate (halfOf s.pkg.variant (xdDie q.xd.val)) (Fin.ofNat 16 (s.exportOf m.handle.toNat).tenant.toNat)
      ((s.exportOf m.handle.toNat).base.toNat + m.offset.toNat) { write := true, window := true } = (.ok dpa big e, u) →
    ∃ t a, exec (.write q) s = .next t ∧ t.mem.mask dpa (Memory.read t.mem.hbm dpa 64) = flitBytes (m.data.headD 0) ∧
      (∀ b, (b < dpa ∨ dpa + 64 ≤ b) → t.mem.hbm.byte b = s.mem.hbm.byte b) ∧ Outgoing (t.port q) a ∧ a.op = 4 ∧ a.tag = m.tag) ∧
  (∀ (q : PortRef) (s u : State) (m : LinkMsg) (n dpa : Nat) (big : Bool) (e : DWord), InboundHere s q m false n → m.op = 2 →
    (s.takeMsg q n m).inboundOk m false = true → (s.exportOf m.handle.toNat).btile = false → s.mem.bad = [] →
    (s.takeMsg q n m).translate (halfOf s.pkg.variant (xdDie q.xd.val)) (Fin.ofNat 16 (s.exportOf m.handle.toNat).tenant.toNat)
      ((s.exportOf m.handle.toNat).base.toNat + m.offset.toNat) { write := false, window := true } = (.ok dpa big e, u) →
    ∃ t a, exec (.read q) s = .next t ∧ t.mem.hbm = s.mem.hbm ∧ Outgoing (t.port q) a ∧ a.op = 3 ∧ a.tag = m.tag ∧
      a.data = [flitOf (burstBytes s dpa)]) ∧
  (∀ (q : PortRef) (s : State) (m : LinkMsg) (late : Bool) (n : Nat), InboundHere s q m late n → m.op = 1 →
    (s.takeMsg q n m).inboundOk m late = false →
    ∃ t a, exec (.write q) s = .next t ∧ t.mem = s.mem ∧ t.tiles = s.tiles ∧ Outgoing (t.port q) a ∧ a.op = 5 ∧ a.tag = m.tag ∧
      a.status = NAK_WINDOW) ∧
  (∀ (q : PortRef) (s : State) (m : LinkMsg) (r : OutReq), ResponseHere s q m 3 r → r.read = true →
    ∃ t a, exec (.readData q) s = .next t ∧ t.net.flow = s.net.flow ++ [a] ∧ AnswerTo r.head a (.readRsp r.row (m.data.headD 0) OK) ∧
      (∀ x ∈ (t.port q).outReqs, x.tag ≠ m.tag) ∧ t.tiles = s.tiles) ∧
  (∀ (q : PortRef) (s : State) (m : LinkMsg) (r : OutReq), ResponseHere s q m 4 r → r.read = false →
    ∃ t a, exec (.writeAck q) s = .next t ∧ t.net.flow = s.net.flow ++ [a] ∧ AnswerTo r.head a (.writeAck r.row OK) ∧
      (∀ x ∈ (t.port q).outReqs, x.tag ≠ m.tag) ∧ t.tiles = s.tiles) ∧
  (∀ (q : PortRef) (s : State) (m : LinkMsg) (r : OutReq), ResponseHere s q m 5 r →
    ∃ t a, exec (.nak q) s = .next t ∧ t.net.flow = s.net.flow ++ [a] ∧
      AnswerTo r.head a (if r.read then .readRsp r.row 0 (memStatus m.status) else .writeAck r.row (memStatus m.status)) ∧
      (∀ x ∈ (t.port q).outReqs, x.tag ≠ m.tag)) ∧
  (∀ (q : PortRef) (s : State) (m : LinkMsg) (late : Bool) (n : Nat), (s.port q).next (fun op => op = 6) = some ((m, late), n) → s.alive = true →
    (s.port q).txWait = [] →
    ∃ t, exec (.credit q) s = .next t ∧ (t.port q).reqCredits = (s.port q).reqCredits + m.reqCredits.toNat ∧
      (t.port q).rspCredits = (s.port q).rspCredits + m.rspCredits.toNat ∧ (t.port q).rx = (s.port q).rx.eraseIdx n ∧
      (∀ z, z ≠ q → t.port z = s.port z))

namespace Sys2Proof.Claims

/-- A port of the package runs Karex Link and is UP. -/
def KarexUp (s : State) (p : PortRef) : Prop := s.alive = true ∧ 16 ≤ (s.port p).mode.toNat ∧ (s.port p).state = .up

/-- Two states agree on every port but one, and on the tiles. -/
def OnlyPort (p : PortRef) (s t : State) : Prop := (∀ q, q ≠ p → t.port q = s.port q) ∧ t.tiles = s.tiles

/-- The port is down or trains, and will come up. -/
def Trains (s : State) (p : PortRef) : Prop :=
  s.alive = true ∧ (s.port p).between = false ∧ ((s.port p).state = .training ∨ (s.port p).state = .retrain)

/-- An IDENT flit that fits a port's first training. -/
def GoodIdent (s : State) (p : PortRef) (f : IdentFlit) : Prop :=
  f.magic = 0x544E4449 ∧ f.version = 1 ∧ f.reservedZero = true ∧ f.mode = (s.port p).mode ∧ f.resume = false

end Sys2Proof.Claims

/-- CODEWORD_RX: the codeword expected enters the receiver and the next SEQ is expected; an uncorrectable one counts, one out of order does not, and
both ask for a replay. RETRY_TIMEOUT counts a replay. A lost lane retrains; a retrain that fails three times fails the port; IDENT or
auto-negotiation ends training with the port UP; a port that is down trains again once per second (R324 to R326, R331, R334, R335). -/
def Obligations.PortsTrainRetryAndRecover : Prop :=
  (∀ (p : PortRef) (s : State) (c : Codeword), KarexUp s p → c.correctable = true → c.corrected = false → c.isNull = false →
    c.replay = false → c.seq = (s.port p).rxExpect → (∀ m ∈ c.msgs, badMsg m = false) → (s.port p).unacked.contains c.ackSeq = false →
    ∃ t, exec (.codewordRx p c) s = .next t ∧ (t.port p).rxExpect = (s.port p).rxExpect + 1 ∧ (t.port p).askedReplay = false ∧
      (t.port p).rx.map (fun x => x.1) =
        (s.port p).rx.map (fun x => x.1) ++ c.msgs.filter (fun m => carries (s.port p).mode m) ∧ OnlyPort p s t) ∧
  (∀ (p : PortRef) (s : State) (c : Codeword), KarexUp s p → c.correctable = false →
    ∃ t, exec (.codewordRx p c) s = .next t ∧ (t.port p).fecUncorrected = addSat (s.port p).fecUncorrected 1 ∧
      (t.port p).askedReplay = true ∧ (t.port p).rx = (s.port p).rx ∧ (t.port p).rxExpect = (s.port p).rxExpect ∧ OnlyPort p s t) ∧
  (∀ (p : PortRef) (s : State) (c : Codeword), KarexUp s p → c.correctable = true → c.isNull = false → c.seq ≠ (s.port p).rxExpect →
    ∃ t, exec (.codewordRx p c) s = .next t ∧ (t.port p).askedReplay = true ∧ (t.port p).rx = (s.port p).rx ∧
      (t.port p).rxExpect = (s.port p).rxExpect ∧ OnlyPort p s t) ∧
  (∀ (p : PortRef) (s : State), s.alive = true → (s.port p).state = .up → (s.port p).unacked ≠ [] →
    (s.port p).lastAdvance.toNat + 2000 ≤ s.clk.gts.toNat → (s.port p).replaysNoAdvance < 7 →
    ∃ t, exec (.retryTimeout p) s = .next t ∧ (t.port p).retries = addSat (s.port p).retries 1 ∧
      (t.port p).replaysNoAdvance = (s.port p).replaysNoAdvance + 1 ∧ (t.port p).unacked = (s.port p).unacked ∧ (t.port p).state = .up ∧
      OnlyPort p s t) ∧
  (∀ (p : PortRef) (why : LaneLoss) (s : State), s.alive = true → (s.port p).state = .up →
    ∃ t, exec (.laneSignalLoss p why) s = .next t ∧ (t.port p).state = .retrain ∧ (t.port p).attempts = 1 ∧
      (t.port p).retrains = addSat (s.port p).retrains 1 ∧ (t.port p).unacked = (s.port p).unacked ∧ OnlyPort p s t) ∧
  (∀ (p : PortRef) (s : State), s.alive = true → (s.port p).trainSince.toNat + 500000000 ≤ s.clk.gts.toNat → (s.port p).between = false →
    (s.port p).state = .retrain → (s.port p).attempts < 3 →
    ∃ t, exec (.trainingTimeout p) s = .next t ∧ (t.port p).attempts = (s.port p).attempts + 1 ∧ (t.port p).state = .retrain ∧ OnlyPort p s t) ∧
  (∀ (p : PortRef) (s : State), s.alive = true → (s.port p).trainSince.toNat + 500000000 ≤ s.clk.gts.toNat → (s.port p).between = false →
    (s.port p).state = .training →
    ∃ t, exec (.trainingTimeout p) s = .next t ∧ (t.port p).between = true ∧ (t.port p).trainSince = s.clk.gts ∧ (t.port p).cmd = none ∧
      OnlyPort p s t) ∧
  (∀ (p : PortRef) (s : State), s.alive = true → (s.port p).mode ≠ 0 → (s.port p).between = true →
    (s.port p).trainSince.toNat + 1000000000 ≤ s.clk.gts.toNat →
    ∃ t, exec (.trainingRetry p) s = .next t ∧ t.port p = { s.port p with state := .training, between := false, trainSince := s.clk.gts } ∧
      OnlyPort p s t) ∧
  (∀ (p : PortRef) (s : State), Trains s p → isEthMode (s.port p).mode = true →
    ∃ t, exec (.autoNegotiationDone p) s = .next t ∧ (t.port p).state = .up ∧ (t.port p).cmd = none ∧ OnlyPort p s t) ∧
  (∀ (p : PortRef) (f : IdentFlit) (s : State), Trains s p → (s.port p).state = .training → 16 ≤ (s.port p).mode.toNat → GoodIdent s p f →
    ∃ t, exec (.ident p f) s = .next t ∧ (t.port p).state = .up ∧ (t.port p).peerId = f.packageId ∧
      (t.port p).sentIdent = some ((s.port p).identOut s.pkg.packageId false) ∧ OnlyPort p s t) ∧
  (∀ (p : PortRef) (f : IdentFlit) (s : State), Trains s p → (s.port p).state = .retrain → 16 ≤ (s.port p).mode.toNat →
    f.magic = 0x544E4449 → f.version = 1 → f.reservedZero = true → f.mode = (s.port p).mode → f.packageId ≠ (s.port p).peerId → p ≠ twinPort →
    ∃ t, exec (.ident p f) s = .next t ∧ (t.port p).state = .failed ∧ (t.port p).txWait = [] ∧ OnlyPort p s t)

/-! ## Ethernet, twins, time, the merger -/

namespace Sys2Proof.Claims

/-- An Ethernet port of the package is UP. -/
def EthUp (s : State) (p : PortRef) : Prop := s.alive = true ∧ isEthMode (s.port p).mode = true ∧ (s.port p).state = .up

/-- Two states agree on every Ethernet slot but one, on the ports and on the tiles. -/
def OnlyEth (p : PortRef) (s t : State) : Prop :=
  (∀ q, q ≠ p → t.ethPort q = s.ethPort q) ∧ t.links.ports = s.links.ports ∧ t.tiles = s.tiles

/-- A frame that a port's receive ring takes: of a legal length, no PAUSE frame, and no PTP message that the PTP unit takes. -/
def RingFrame (s : State) (p : PortRef) (bs : List Byte) : Prop :=
  60 ≤ bs.length ∧ bs.length ≤ 9212 ∧ isPauseFrame bs = false ∧ (s.ptpTakes p = true → isPtpFrame bs = false) ∧
    s.replaying (s.port p).tenant = false

/-- A transmit entry that has its frame read: the entry, the frame, the state after. -/
def TxReady (s : State) (p : PortRef) (bs data : List Byte) (u : State) : Prop :=
  s.ethStarts p = true ∧ (s.ethPort p).tx.enable = true ∧ (s.ethPort p).tx.granted = true ∧ (s.ethPort p).paused = false ∧
    (s.ethPort p).sending = none ∧ (s.port p).state = .up ∧ txEntryOk bs = true ∧
    ∃ v, s.vaRead (s.port p).tenant (s.portHalf p) (s.ethPort p).tx.entryVa 32 (portAccess p) = (some (bs, false), v) ∧
      v.vaRead (s.port p).tenant (s.portHalf p) (rd bs 0 8) (rd bs 8 2) (portAccess p) = (some (data, false), u)

/-- A receive entry for the oldest frame, whose buffer is allowed and whose address can be written. -/
def RxReady (s : State) (p : PortRef) (f : Frame) (fs : List Frame) (bs : List Byte) (v w x : State) : Prop :=
  s.ethStarts p = true ∧ (s.ethPort p).buffer = f :: fs ∧ (s.ethPort p).rx.enable = true ∧ (s.ethPort p).rx.granted = true ∧
    s.vaRead (s.port p).tenant (s.portHalf p) (s.ethPort p).rx.entryVa 32 (portAccess p) = (some (bs, false), v) ∧
    (v.ctx (s.port p).tenant).rangeFault (rd bs 0 8) (f.bytes.take (rd bs 8 4)).length true = none ∧
    v.vaWrite (s.port p).tenant (s.portHalf p) (rd bs 0 8) (f.bytes.take (rd bs 8 4)) (portAccess p) = (true, w) ∧
    w.vaWrite (s.port p).tenant (s.portHalf p) (s.ethPort p).rx.entryVa
      (rxEntry bs f.bytes.length OK f.gts (portSrc p) (rd bs 8 4 < f.bytes.length)) (portAccess p) = (true, x)

end Sys2Proof.Claims

/-- ETH_FRAME_RX keeps a good frame with its stamp, counts a bad one or one without a ring, and obeys a PAUSE frame; RX_ENTRY_WRITE gives the oldest frame the next entry;
ETH_TX takes the next frame to the wire and ETH_TX_DONE ends it; PAUSE stops transmission where it is obeyed; the write that sets ENABLE of an idle
ring takes its values and begins at entry 0 (R327 to R330). -/
def Obligations.EthernetRingsCarryFrames : Prop :=
  (∀ (p : PortRef) (bs : List Byte) (s : State), EthUp s p → RingFrame s p bs → s.ethStarts p = true →
    (s.ethPort p).rx.enable = true → (s.ethPort p).buffered + bs.length ≤ 262144 →
    ∃ t, exec (.ethFrameRx p bs true) s = .next t ∧ OnlyEth p s t ∧ (t.ethPort p).rxDrops = (s.ethPort p).rxDrops ∧
      (t.ethPort p).buffer = (s.ethPort p).buffer ++ [{ bytes := bs, gts := s.localGts (xdDie p.xd.val) }]) ∧
  (∀ (p : PortRef) (bs : List Byte) (s : State), EthUp s p →
    ∃ t, exec (.ethFrameRx p bs false) s = .next t ∧ OnlyEth p s t ∧
      t.ethPort p = { s.ethPort p with rxErrors := addSat (s.ethPort p).rxErrors 1 }) ∧
  (∀ (p : PortRef) (bs : List Byte) (s : State), EthUp s p → RingFrame s p bs → (s.ethStarts p = false ∨ (s.ethPort p).rx.enable = false) →
    ∃ t, exec (.ethFrameRx p bs true) s = .next t ∧ OnlyEth p s t ∧
      t.ethPort p = { s.ethPort p with rxDrops := addSat (s.ethPort p).rxDrops 1 }) ∧
  (∀ (p : PortRef) (bs : List Byte) (s : State), EthUp s p → 60 ≤ bs.length → bs.length ≤ 9212 → isPauseFrame bs = true →
    (s.port p).pause = true →
    ∃ t, exec (.ethFrameRx p bs true) s = .next t ∧ OnlyEth p s t ∧
      t.ethPort p = { s.ethPort p with paused := BitVec.ofNat 16 (frameField bs 16 2) ≠ 0 }) ∧
  (∀ (p : PortRef) (s v w x : State) (f : Frame) (fs : List Frame) (bs : List Byte), RxReady s p f fs bs v w x →
    ∃ t, exec (.rxEntryWrite p) s = .next t ∧ OnlyEth p s t ∧ (t.ethPort p).buffer = fs ∧ t.mem.hbm = x.mem.hbm ∧
      (t.ethPort p).rxFrames = addSat (s.ethPort p).rxFrames 1 ∧ (t.ethPort p).rx.next = (s.ethPort p).rx.next + 1) ∧
  (∀ (p : PortRef) (s u : State) (bs data : List Byte), TxReady s p bs data u →
    ∃ t, exec (.ethTx p) s = .next t ∧ OnlyEth p s t ∧ t.ethPort p = { s.ethPort p with sending := some data }) ∧
  (∀ (p : PortRef) (s v w : State) (bs data : List Byte) (bad : Bool), (s.ethPort p).sending = some data → s.alive = true →
    (s.port p).state = .up →
    s.vaRead (s.port p).tenant (s.portHalf p) (s.ethPort p).tx.entryVa 32 (portAccess p) = (some (bs, bad), v) →
    ((v.onEth p fun e => { e with wire := e.wire ++ [data], txFrames := addSat e.txFrames 1 }).onEth p fun e => { e with sending := none }).vaWrite
      (s.port p).tenant (s.portHalf p) (s.ethPort p).tx.entryVa (txEntry bs OK (s.localGts (xdDie p.xd.val)) (portSrc p)) (portAccess p) =
      (true, w) →
    ∃ t, exec (.ethTxDone p) s = .next t ∧ OnlyEth p s t ∧ (t.ethPort p).sending = none ∧
      (t.ethPort p).wire = (s.ethPort p).wire ++ [data] ∧ (t.ethPort p).txFrames = addSat (s.ethPort p).txFrames 1 ∧
      (t.ethPort p).tx.next = (s.ethPort p).tx.next + 1 ∧ t.mem.hbm = w.mem.hbm) ∧
  (∀ (p : PortRef) (n : BitVec 16) (s : State), EthUp s p → (s.port p).pause = true →
    ∃ t, exec (.pauseFrame p n) s = .next t ∧ OnlyEth p s t ∧ t.ethPort p = { s.ethPort p with paused := n ≠ 0 }) ∧
  (∀ (p : PortRef) (s : State), ∃ t, exec (.pauseExpiry p) s = .next t ∧ OnlyEth p s t ∧ t.ethPort p = { s.ethPort p with paused := false }) ∧
  (∀ (c : Tenant) (p : PortRef) (d : EthDir) (v : Word) (s : State), s.fnLive (.vf c) = true → s.ownsPort c p = true → bitAt v 31 = true →
    4 ≤ bitsOf v 24 5 → bitsOf v 24 5 ≤ 14 → ((s.ethPort p).ring d).enable = false →
    ∃ t, exec (.ethRingEnable c p d v) s = .next t ∧ OnlyEth p s t ∧ ((t.ethPort p).ring d).enable = true ∧
      ((t.ethPort p).ring d).next = 0 ∧ ((t.ethPort p).ring d).sizeLog2.toNat = bitsOf v 24 5 ∧
      ((t.ethPort p).ring d).beaconA.toNat = bitsOf v 12 12 ∧ ((t.ethPort p).ring d).beaconB.toNat = bitsOf v 0 12)

namespace Sys2Proof.Claims

/-- A TWIN message of a kind is the first request of the twin port, with the count that the binding expects; `n` is its place. -/
def TwinHere (s : State) (kind : BitVec 16) (m : LinkMsg) (n : Nat) : Prop := s.twinNext kind = some (m, n) ∧ m.tag = s.links.twin.gotCount

/-- A binding exists. -/
def Bound (s : State) : Prop := s.links.twin.bound = true

/-- The package enters the safe state now for a cause: it is recorded, and the descent begins (R388 to R390). -/
def EntersSafe (s t : State) (cause detail : Nat) (src : Src) : Prop :=
  t.host.safePending = true ∧ t.power.descent = true ∧ t.ao = s.ao.record cause detail src s.clk.gts

/-- The package may still enter the safe state. -/
def MayEnterSafe (s : State) : Prop := s.power.pwrGood = true ∧ s.host.safePending = false ∧ s.power.pstate ≠ .p3

end Sys2Proof.Claims

/-- BIND is answered when it matches the own command; the binding exists with the second of BIND_ACK sent and received; SIGNATURE is held and
compared, a mismatch ends nothing with REPORT; SAFE and TWIN_SYNC take the package to the safe state; UNBIND ends the binding; RECORD reaches the
FOLLOW's replay; a lost signature ends a REPORT binding, and a peer that does not bind in 10 s fails TWIN_BIND (R362 to R364, R366, R367). -/
def Obligations.TwinsBindCompareAndEnd : Prop :=
  (∀ (s : State) (m : LinkMsg) (n id : Nat), s.twinNext 1 = some (m, n) → m.tag = 0 → ¬ Bound s → s.links.twin.cmd = some id →
    s.links.twin.matches m = true → s.links.twin.gotAck = false →
    ∃ t, exec .bind s = .next t ∧ t.links.twin.sentAck = true ∧ t.links.twin.gotCount = 1 ∧ t.links.twin.bound = false ∧
      t.links.twin.sentCount = s.links.twin.sentCount + 1) ∧
  (∀ (s : State) (m : LinkMsg) (n id : Nat), TwinHere s 2 m n → ¬ Bound s → s.links.twin.cmd = some id →
    s.links.twin.matches m = true → s.links.twin.sentAck = true →
    ∃ t, exec .bindAck s = .next t ∧ t.links.twin.bound = true ∧ t.links.twin.cmd = none ∧ t.links.twin.tenant = s.links.twin.tenant) ∧
  (∀ (s : State) (m : LinkMsg) (n : Nat) (c : Tenant) (i : Instance), TwinHere s 3 m n → Bound s → s.links.twin.follow = true →
    s.links.twin.tenant = some c → (s.ctx c).replay = none → (parseRecord (m.data.flatMap flitBytes)).kind = 1 →
    s.pairOf c (parseRecord (m.data.flatMap flitBytes)) = some i → s.inst? i.id = some i →
    ∃ t j, exec .record s = .next t ∧ t.links.twin.gotCount = s.links.twin.gotCount + 1 ∧ t.inst? i.id = some j ∧ j.stepsLeft = some 1 ∧
      (t.ctx c).replay = some { layout := i.id, cmd := none, follow := true,
                                recs := [{ parseRecord (m.data.flatMap flitBytes) with layout := i.id }] }) ∧
  (∀ (s : State) (m : LinkMsg) (n : Nat), TwinHere s 4 m n → Bound s →
    ∃ t, exec .signature s = .next t ∧ t.links.twin.own = s.links.twin.own ∧
      t.links.twin.peer = s.links.twin.peer ++
        [{ sig := m.body.extractLsb' 0 128, crc := m.body.extractLsb' 128 32, step := m.offset, gts := s.clk.gts }]) ∧
  (∀ (s : State) (m : LinkMsg) (n : Nat), TwinHere s 5 m n → s.safeBound = true → MayEnterSafe s →
    ∃ t, exec .safe s = .next t ∧ EntersSafe s t 6 0 twinSrc) ∧
  (∀ (s : State) (m : LinkMsg) (n : Nat), TwinHere s 6 m n → Bound s → s.links.twin.unbindCmd = none →
    ∃ t, exec .unbind s = .next t ∧ t.links.twin = {}) ∧
  (∀ (s : State) (o q : StepSig), s.alive = true → Bound s → s.twinPair = some (o, q) → o.sig = q.sig → o.step = q.step → o.crc = q.crc →
    ∃ t, exec .twinCompare s = .next t ∧
      t = s.onTwin fun w => { w with own := w.own.erase o, peer := w.peer.erase q }) ∧
  (∀ (s : State) (o q : StepSig), s.alive = true → s.safeBound = true → s.twinPair = some (o, q) → o.sig ≠ q.sig → MayEnterSafe s →
    ∃ t, exec .twinCompare s = .next t ∧ EntersSafe s t 6 0 twinAssaySrc ∧ t.power.twinSyncOut = true) ∧
  (∀ (s : State) (o : StepSig) (os : List StepSig), s.links.twin.own = o :: os → s.alive = true → Bound s → s.twinPair = none →
    o.gts.toNat + 10000000 ≤ s.clk.gts.toNat → s.links.twin.safeMode = false →
    ∃ t, exec .twinSignatureLost s = .next t ∧ t.links.twin = {}) ∧
  (∀ (s : State) (id : Nat), s.links.twin.cmd = some id → s.alive = true → s.links.twin.since.toNat + 10000000000 ≤ s.clk.gts.toNat →
    ∃ t, exec .twinPeerTimeout s = .next t ∧ t.links.twin = {}) ∧
  (∀ s : State, s.alive = true → s.safeBound = true → MayEnterSafe s →
    ∃ t, exec .twinSync s = .next t ∧ EntersSafe s t 6 0 twinSrc)

namespace Sys2Proof.Claims

/-- The rate offset lies within 100 ppm (R44). -/
def RateInBounds (t : State) : Prop := -(maxRate : Int) ≤ t.time.rateOffset.toInt ∧ t.time.rateOffset.toInt ≤ maxRate

end Sys2Proof.Claims

/-- The first PPS_IN edge after its selection locks and sets TAI_OFFSET so that this GTS reads as TAI_SECONDS, once within a start; a later one steers
within 100 ppm towards TAI_SECONDS + n, and one under GTS_REF is an event of the GTS master alone. A PTP exchange locks likewise. Loss of the source is holdover, its return ends that; TIME_RATE comes once per second; a copy of the
GTS that slips shows it until the alignment pulse puts it right (an off-strobe GTS_SYNC as the slip itself: log entry 11); PPS_OUT rises once in each whole second (R40, R43 to R47, R342, R343). -/
def Obligations.TimeSourcesLockSteerAndHold : Prop :=
  (∀ s : State, s.alive = true → s.time.source = .ppsIn → s.time.holdover = false → s.time.locked = false → s.time.taiSet = false →
    ∃ t, exec .ppsInEdge s = .next t ∧ t.time.locked = true ∧ t.time.taiSet = true ∧ t.time.ppsEdges = s.time.ppsEdges + 1 ∧
      t.clk.gts + t.time.tai = s.time.taiSeconds * 1000000000) ∧
  (∀ s : State, s.alive = true → s.time.source = .ppsIn → s.time.holdover = false → s.time.locked = true →
    ∃ t, exec .ppsInEdge s = .next t ∧ RateInBounds t ∧ t.time.taiOffset = s.time.taiOffset ∧
      (s.time.nearest = false → t.time.phaseTarget = (s.time.taiSeconds + BitVec.ofNat 64 s.time.ppsEdges) * 1000000000)) ∧
  (∀ s : State, s.alive = true → s.time.source = .gtsRef →
    ∃ t, exec .ppsInEdge s = .next t ∧ t.time = s.time ∧
      ∃ e ∈ (Map.get {} t.merger.feeders (feederOf s.pkg.variant 24)).queue, e = { stamp := s.localGts 24, src := 0x6005, body := .ppsEdge }) ∧
  (∀ (p : PortRef) (master off : Int) (s : State), s.ptpPort p = true → s.time.holdover = false → s.time.locked = false →
    s.time.taiSet = false →
    ∃ t, exec (.ptpMessage p (.exchange master off)) s = .next t ∧ t.time.locked = true ∧ t.time.taiSet = true ∧
      t.clk.gts + t.time.tai = BitVec.ofInt 64 master) ∧
  (∀ (p : PortRef) (s : State), s.ptpPort p = true →
    ∃ t, exec (.ptpMessage p .sync) s = .next t ∧ t.time = { s.time with lastSync := s.clk.gts }) ∧
  (∀ s : State, s.alive = true → s.time.source ≠ .none → s.time.holdover = false →
    ∃ t, exec .timeHoldover s = .next t ∧ t.time = { s.time with holdover := true }) ∧
  (∀ s : State, s.alive = true → s.time.source = .ptp → s.time.holdover = false → s.time.locked = true →
    s.time.lastSync.toNat + 4000000000 ≤ s.clk.gts.toNat →
    ∃ t, exec .ptpSyncTimeout s = .next t ∧ t.time = { s.time with holdover := true }) ∧
  (∀ s : State, s.alive = true → s.time.holdover = true →
    ∃ t, exec .timeSourceReturn s = .next t ∧ t.time = { s.time with holdover := false, lastSync := s.clk.gts }) ∧
  (∀ s : State, s.alive = true → s.time.source ≠ .none → s.time.holdover = false → s.time.lastRate.toNat + 1000000000 ≤ s.clk.gts.toNat →
    ∃ t, exec .timeRate s = .next t ∧ t.time.lastRate = s.clk.gts ∧ (s.time.source ≠ .gtsRef → t.time.rateOffset = s.time.rateOffset)) ∧
  (∀ (d : Die) (drift : DWord) (s : State), s.alive = true → (dieKind s.pkg.variant d.val).isSome = true → s.gtsReached 1024 = true →
    ∃ t, exec (.gtsSync d drift) s = .next t ∧ t.localGts d.val = s.clk.gts ∧ (∀ e, e ≠ d.val → t.localGts e = s.localGts e)) ∧
  (∀ (d : Die) (drift : DWord) (s : State), s.alive = true → (dieKind s.pkg.variant d.val).isSome = true → s.gtsReached 1024 = false →
    ∃ t, exec (.gtsSync d drift) s = .next t ∧ t.localGts d.val = s.localGts d.val + drift ∧ (∀ e, e ≠ d.val → t.localGts e = s.localGts e) ∧
      t.merger = s.merger) ∧
  (∀ s : State, s.alive = true → s.time.ppsReady = true → s.ppsDue = true → s.time.ppsOutEdges = 0 →
    ∃ t, exec .ppsOut s = .next t ∧ t.time = { s.time with ppsOutEdges := 1, lastPpsOut := s.clk.gts })

namespace Sys2Proof.Claims

/-- The log entry that an event makes. -/
def loggedAs (e : Event) (code : BitVec 16) (sev tenant : Byte) (payload : List Byte) (late : Bool) (q : Word) : LogEntry :=
  { code := code, src := e.src, late := late, sev := sev, tenant := tenant, gts := e.stamp, seq := q, payload := payload }

end Sys2Proof.Claims

/-- EVENT_ARRIVAL of an event that precedes a committed one is LATE and committed at once; an event that every live feeder has passed, or that is
1,000 ns old, is committed in its order: a log event enters the buffer with the next SEQ. WATERMARK after 64 ns of silence raises what its feeder has reached; a feeder
silent for 10 µs is told of once. LOG_WRITE and IQ_COPY move the oldest entry to its ring and advance PROD (R51 to R53, R378, R381). -/
def Obligations.TheMergerCommitsEventsInOrder : Prop :=
  (∀ (d : Die) (s : State) (e : Event) (es : List Event) (k : DWord × Src) (code : BitVec 16) (sev c : Byte) (pay : List Byte),
    (Map.get {} s.merger.feeders d.val).queue = e :: es → s.alive = true → s.merger.lastKey = some k → keyLt (e.stamp, e.src) k = true →
    e.body = .log code sev c pay → s.log.buffer.length < logBufferSize →
    ∃ t, exec (.eventArrival d) s = .next t ∧ (Map.get {} t.merger.feeders d.val).queue = es ∧ t.merger.lastKey = some k ∧
      t.log.buffer = s.log.buffer ++ [loggedAs e code sev c pay true s.log.seq] ∧ t.log.seq = s.log.seq + 1) ∧
  (∀ (s : State) (e : Event) (code : BitVec 16) (sev c : Byte) (pay : List Byte), s.alive = true → s.merger.waiting = [e] →
    e.body = .log code sev c pay → e.stamp.toNat + 1000 ≤ s.clk.gts.toNat → s.log.buffer.length < logBufferSize →
    ∃ t, exec .commitTimeout s = .next t ∧ t.merger.waiting = [] ∧ t.merger.lastKey = some (e.stamp, e.src) ∧
      t.log.buffer = s.log.buffer ++ [loggedAs e code sev c pay false s.log.seq]) ∧
  (∀ (d : Die) (s : State), s.alive = true → (Map.get {} s.merger.feeders d.val).live = true → (Map.get {} s.merger.feeders d.val).queue = [] →
    s.merger.waiting = [] → (Map.get {} s.merger.feeders d.val).lastItem.toNat + 64 ≤ s.clk.gts.toNat →
    ∃ t, exec (.watermark d) s = .next t ∧ s.markOf d.val ≤ (Map.get {} t.merger.feeders d.val).reached ∧
      (Map.get {} s.merger.feeders d.val).reached ≤ (Map.get {} t.merger.feeders d.val).reached ∧
      (Map.get {} t.merger.feeders d.val).lastMark = s.markOf d.val ∧ t.log = s.log) ∧
  (∀ (d : Die) (s : State), s.alive = true → (Map.get {} s.merger.feeders d.val).live = true →
    (Map.get {} s.merger.feeders d.val).silentLogged = false → (Map.get {} s.merger.feeders d.val).lastItem.toNat + 10000 ≤ s.clk.gts.toNat →
    ∃ t, exec (.feederSilent d) s = .next t ∧ (Map.get {} t.merger.feeders d.val).silentLogged = true ∧
      ∃ e ∈ (Map.get {} t.merger.feeders (feederOf s.pkg.variant 24)).queue, e.src = portUnit d.val ∧ e.stamp = s.localGts 24) ∧
  (∀ (s : State) (e : LogEntry) (es : List LogEntry), s.log.buffer = e :: es → s.alive = true → s.host.log.enable = true →
    s.host.log.count < s.host.log.size → e.payload.length ≤ 40 →
    ∃ t, exec .logWrite s = .next t ∧ t.log.buffer = es ∧ t.log.lostFlag = false ∧ t.host.log.prod = s.host.log.prod + 1 ∧
      Memory.read t.host.mem (s.host.log.addr s.host.log.prod 64) 64 = logBytes e s.log.lostFlag s.host.log.phase) ∧
  (∀ (s : State) (e : IqEntry) (es : List IqEntry), s.iq.queue = e :: es → s.alive = true → s.host.iq.enable = true →
    s.host.iq.count < s.host.iq.size →
    ∃ t, exec .iqCopy s = .next t ∧ t.iq.queue = es ∧ t.host.iq.prod = s.host.iq.prod + 1 ∧
      Memory.read t.host.mem (s.host.iq.addr s.host.iq.prod 16) 16 = iqBytes e s.iq.lostFlag s.host.iq.phase)

/-! ## Pins, SMBus, JTAG -/

namespace Sys2Proof.Claims

/-- Two states agree on every pin but one, on the tiles, on the host's side and on the sideband targets. -/
def OnlyPin (n : Nat) (s t : State) : Prop :=
  (∀ m, m ≠ n → t.pin m = s.pin m) ∧ t.tiles = s.tiles ∧ t.host = s.host ∧ t.pins.smb = s.pins.smb ∧ t.pins.jtag = s.pins.jtag

end Sys2Proof.Claims

/-- At a tick edge a pad that agrees with LEVEL ends the count; one that differs counts until DEBOUNCE and then becomes LEVEL, which counts an edge
and, with TRIG for that edge or level, sets PEND; a raise follows where PEND was 0 and the vector is not 0x7FF. A write of GPIO_OUT changes the
latches of the STEWARD pins alone, and leaves LEVEL, PEND and the other pins (R398 to R400). -/
def Obligations.PinsSampleTriggerAndLatch : Prop :=
  (∀ (n : Fin 24) (s : State), s.alive = true →
    ∃ t, exec (.gpioTick n (s.pin n.val).level) s = .next t ∧ OnlyPin n.val s t ∧ (t.pin n.val).count = 0 ∧
      (t.pin n.val).level = (s.pin n.val).level ∧ (t.pin n.val).edges = (s.pin n.val).edges ∧ (t.pin n.val).pad = (s.pin n.val).level ∧
      ((s.pin n.val).trig < 4 → (t.pin n.val).pend = (s.pin n.val).pend)) ∧
  (∀ (n : Fin 24) (s : State), s.alive = true → (s.pin n.val).count < (s.pin n.val).debounce.toNat →
    ∃ t, exec (.gpioTick n (!(s.pin n.val).level)) s = .next t ∧ OnlyPin n.val s t ∧ (t.pin n.val).count = (s.pin n.val).count + 1 ∧
      (t.pin n.val).level = (s.pin n.val).level ∧ (t.pin n.val).edges = (s.pin n.val).edges ∧ (t.pin n.val).pad = !(s.pin n.val).level) ∧
  (∀ (n : Fin 24) (s : State), s.alive = true → (s.pin n.val).debounce.toNat ≤ (s.pin n.val).count →
    ∃ t, exec (.gpioTick n (!(s.pin n.val).level)) s = .next t ∧ OnlyPin n.val s t ∧ (t.pin n.val).count = 0 ∧
      (t.pin n.val).level = !(s.pin n.val).level ∧ (t.pin n.val).edges = addSat (s.pin n.val).edges 1 ∧
      ((s.pin n.val).trig = 0 → (t.pin n.val).pend = (s.pin n.val).pend ∧ t.merger = s.merger) ∧
      ((s.pin n.val).trig = 3 → (t.pin n.val).pend = true) ∧
      ((s.pin n.val).trig = 1 → (s.pin n.val).level = false → (t.pin n.val).pend = true) ∧
      ((s.pin n.val).trig = 2 → (s.pin n.val).level = true → (t.pin n.val).pend = true) ∧
      ((s.pin n.val).pend = false → (t.pin n.val).pend = true → (s.pin n.val).vector ≠ 0x7FF →
        t.merger = (s.emit (pinSrc n.val) (.irq .pf0 (s.pin n.val).vector 4)).merger)) ∧
  (∀ (v : Word) (s : State), s.alive = true →
    ∃ t, exec (.gpioOutWrite v) s = .next t ∧ t.tiles = s.tiles ∧ t.host = s.host ∧
      (∀ n, n < 24 → (s.pin n).owner = .steward → t.pin n = { s.pin n with out := bitAt v n }) ∧
      (∀ n, n < 24 → (s.pin n).owner ≠ .steward → t.pin n = s.pin n))

namespace Sys2Proof.Claims

/-- An SMBus read has an answer and changes nothing else. -/
def SmbAnswers (i : Instr) (s : State) (r : SmbReply) : Prop := exec i s = .next { s with pins := { s.pins with smb := r } }

/-- The SMBus reads answer what Table PN-5 names, and change nothing else: IDENT with vendor, device, class and variant, FAULT with the 24 bytes of the
record, START_COUNT, TEMP and TEMP_DIE and POWER with their unavailable codes while the steward is off; a target that alerts answers the alert response
address with its own. FAULT_CLEAR 0xC0 clears VALID and MORE; SHUTDOWN 0xA5 enters the safe state with cause 7; a write with a wrong PEC is refused
and changes neither (R404, R390). -/
def TheSidebandTargetAnswers : Prop :=
  (∀ (x : SmbXfer) (s : State), s.pkg.variant = .l36 → SmbAnswers (.smbusIdent x) s (.block [0x2B, 0x1D, 0x36, 0x70, 0xB0, 2, 4, 2])) ∧
  (∀ (x : SmbXfer) (s : State), SmbAnswers (.smbusFault x) s
    (.block (leBytes 4 s.ao.status.toNat ++ leBytes 4 s.ao.detail.toNat ++ leBytes 4 s.ao.source.toNat ++ leBytes 8 s.ao.gts.toNat ++
      leBytes 4 s.ao.start.toNat))) ∧
  (∀ (x : SmbXfer) (s : State), SmbAnswers (.startCount x) s (.block (leBytes 4 s.ao.startCount.toNat))) ∧
  (∀ (x : SmbXfer) (s : State), s.alive = false → SmbAnswers (.temp x) s (.word 0x8000)) ∧
  (∀ (x : SmbXfer) (s : State), s.alive = false → SmbAnswers (.tempDie x) s (.block (List.replicate 40 0x80))) ∧
  (∀ (x : SmbXfer) (w : BitVec 16) (s : State), s.alive = true → SmbAnswers (.power x (some w)) s (.word w)) ∧
  (∀ (x : SmbXfer) (w : Option (BitVec 16)) (s : State), s.alive = false → SmbAnswers (.power x w) s (.word 0xFFFF)) ∧
  (∀ (x : SmbXfer) (s : State), s.power.pstate = .p2 →
    ∃ b : Byte, SmbAnswers (.smbusState x) s (.byte b) ∧ bitsOf b 0 2 = 2 ∧ bitAt b 2 = s.host.ready ∧ bitAt b 3 = s.host.safePending ∧
      bitAt b 4 = s.power.limiterOpen ∧ bitAt b 5 = !s.host.straps.testModeN) ∧
  (∀ s : State, s.ao.valid = true →
    SmbAnswers .alertResponse s (.byte (0x58 + (if s.host.straps.smbAddr1 then 2 else 0) + (if s.host.straps.smbAddr0 then 1 else 0)))) ∧
  (∀ s : State, ∃ t, exec (.faultClear { pecOk := true, data := 0xC0 }) s = .next t ∧ t.pins.smb = .ack ∧
    t.ao = { s.ao with valid := false, more := false } ∧ t.power = s.power ∧ t.host = s.host) ∧
  (∀ (b : Byte) (s : State), b ≠ 0xC0 → SmbAnswers (.faultClear { pecOk := true, data := b }) s .ack) ∧
  (∀ s : State, MayEnterSafe s → ∃ t, exec (.shutdown { pecOk := true, data := 0xA5 }) s = .next t ∧ t.pins.smb = .ack ∧
    EntersSafe s t 7 0 0x6060) ∧
  (∀ (b : Byte) (s : State),
    (∃ t, exec (.shutdown { pecOk := false, data := b }) s = .next t ∧ t.pins.smb = .nack ∧ t.ao = s.ao ∧ t.power = s.power ∧ t.host = s.host) ∧
    (∃ t, exec (.faultClear { pecOk := false, data := b }) s = .next t ∧ t.pins.smb = .nack ∧ t.ao = s.ao ∧ t.power = s.power ∧
      t.host = s.host))

/-- A TAP instruction changes the test access port alone. -/
def TapGives (i : Instr) (s : State) (j : Jtag) : Prop := exec i s = .next { s with pins := { s.pins with jtag := j } }

/-- The package is in test mode, its standby logic up. -/
def InTestMode (s : State) : Prop := s.power.pwrGood = true ∧ s.host.straps.testModeN = false

/-- IDCODE gives the variant's code, a TAP reset selects it; SAMPLE/PRELOAD shifts the captured pins out and loads the boundary register; EXTEST and
its two kinds load it and, only in test mode, drive the pins; CLAMP drives them, HIGHZ puts them into Hi-Z; every other code acts as BYPASS. The port
changes nothing else (R405). -/
def TheTestPortReachesOnlyThePins : Prop :=
  (∀ s : State, ∃ j, TapGives .tapReset s j ∧ j.ir = 0x02 ∧ j.boundary = s.pins.jtag.boundary ∧ j.pins = none ∧ j.hiZ = false) ∧
  (∀ s : State, s.power.pstate = .p0 → s.pkg.variant = .n40 →
    ∃ j, TapGives .idcode s j ∧ j.ir = 0x02 ∧ j.pins = none ∧ j.out.length = 32 ∧
      ∀ n, n < 32 → j.out.getD n false = bitAt (0x170415AB : Word) n) ∧
  (∀ (cap sh : List Bool) (s : State), s.power.pstate = .p0 →
    TapGives (.samplePreload cap sh) s { ir := 0x01, boundary := sh, pins := none, hiZ := false, out := cap }) ∧
  (∀ (bs : List Bool) (s : State), s.power.pstate = .p0 → InTestMode s →
    TapGives (.extest bs) s { ir := 0x00, boundary := bs, pins := some bs, hiZ := false, out := s.pins.jtag.boundary } ∧
    TapGives (.extestPulse bs) s { ir := 0x03, boundary := bs, pins := some bs, hiZ := false, out := s.pins.jtag.boundary } ∧
    TapGives (.extestTrain bs) s { ir := 0x04, boundary := bs, pins := some bs, hiZ := false, out := s.pins.jtag.boundary } ∧
    TapGives .clamp s { ir := 0x05, boundary := s.pins.jtag.boundary, pins := some s.pins.jtag.boundary, hiZ := false, out := [false] } ∧
    TapGives .highz s { ir := 0x06, boundary := s.pins.jtag.boundary, pins := none, hiZ := true, out := [false] }) ∧
  (∀ (bs : List Bool) (s : State), s.host.straps.testModeN = true →
    (∃ j, TapGives (.extest bs) s j ∧ j.boundary = bs ∧ j.pins = none) ∧ (∃ j, TapGives (.extestPulse bs) s j ∧ j.boundary = bs ∧ j.pins = none) ∧
    (∃ j, TapGives (.extestTrain bs) s j ∧ j.boundary = bs ∧ j.pins = none) ∧ (∃ j, TapGives .clamp s j ∧ j.pins = none) ∧
    (∃ j, TapGives .highz s j ∧ j.hiZ = false)) ∧
  (∀ (code : BitVec 8) (s : State), 6 < code.toNat → s.power.pstate = .p0 →
    TapGives (.bypass code) s { ir := code, boundary := s.pins.jtag.boundary, pins := none, hiZ := false, out := [false] })

end Sys2Proof.Claims

/-- The SMBus target answers and the test access port reaches the pins alone. -/
def Obligations.TheSidebandAndTheTestPortAnswer : Prop := TheSidebandTargetAnswers ∧ TheTestPortReachesOnlyThePins

/-! ## The host's side -/

namespace Sys2Proof.Claims

/-- Two states agree on every ring group but one, on the tiles and on device memory. -/
def OnlyRing (r : RingSel) (s t : State) : Prop :=
  (∀ q, q ≠ r → t.ring q = s.ring q) ∧ t.tiles = s.tiles ∧ t.mem = s.mem ∧ t.host.mem = s.host.mem

/-- A doorbell value that a submission ring takes: it passes no more entries than the ring has, and none back (R304). -/
def DoorbellTakes (g : Ring) (v : Word) : Prop := (v - g.cons).toNat ≤ g.size ∧ (g.prod - g.cons).toNat ≤ (v - g.cons).toNat

end Sys2Proof.Claims

/-- ADB_WRITE and CDB_WRITE set PROD of their submission ring, or, outside its entries, leave every ring and log DOORBELL_BAD; each is an event of the I/O die that took it; RING_ENABLE takes SIZE_LOG2
and VECTOR of an allowed value and zeroes the indices; RING_DISABLE keeps them, and discards and counts what waits for the interrupt queue
(R50, R302 to R304, R381). -/
def Obligations.RingsAndDoorbellsTakeTheirValues : Prop :=
  (∀ (v : Word) (s : State), s.fnLive .pf0 = true → DoorbellTakes (s.ring .asq) v →
    ∃ t, exec (.adbWrite .pf0 4 v) s = .next t ∧ OnlyRing .asq s t ∧ t.ring .asq = { s.ring .asq with prod := v } ∧
      t.merger = (s.doorbellEvent (s.fnPort .pf0)).merger) ∧
  (∀ (v : Word) (s : State), s.fnLive .pf0 = true → ¬ DoorbellTakes (s.ring .asq) v →
    ∃ t, exec (.adbWrite .pf0 4 v) s = .next t ∧ (∀ q, t.ring q = s.ring q) ∧ t.tiles = s.tiles ∧
      t.merger = ((s.doorbellEvent (s.fnPort .pf0)).logEv stewardSrc DOORBELL_BAD noTenant
        (leBytes 4 0x1100 ++ leBytes 4 0 ++ leBytes 8 v.toNat)).merger) ∧
  (∀ (c : Tenant) (v : Word) (s : State), s.fnLive (.vf c) = true → (s.ctx c).isOpen = true → (s.ctx c).closing = false →
    DoorbellTakes (s.ring (.csq c)) v →
    ∃ t, exec (.cdbWrite (.vf c) c 4 v) s = .next t ∧ OnlyRing (.csq c) s t ∧ t.ring (.csq c) = { s.ring (.csq c) with prod := v } ∧
      t.merger = (s.doorbellEvent (s.fnPort (.vf c))).merger) ∧
  (∀ (c : Tenant) (v : Word) (s : State), s.fnLive (.vf c) = true → ((s.ctx c).isOpen = false ∨ (s.ctx c).closing = true) →
    ∃ t, exec (.cdbWrite (.vf c) c 4 v) s = .next t ∧ (∀ q, t.ring q = s.ring q) ∧ t.tiles = s.tiles ∧
      t.merger = ((s.doorbellEvent (s.fnPort (.vf c))).logEv stewardSrc DOORBELL_BAD (tenantByte c)
        (leBytes 4 (ctxOffset c 0x0100) ++ leBytes 4 0 ++ leBytes 8 v.toNat)).merger) ∧
  (∀ (r : RingSel) (v : Word) (s : State), s.fnLive (ringFn r) = true → bitAt v 31 = true → (s.ring r).enable = false →
    (sizeRange r).1 ≤ bitsOf v 0 5 → bitsOf v 0 5 ≤ (sizeRange r).2 →
    ∃ t, exec (.ringEnable (ringFn r) r v) s = .next t ∧ OnlyRing r s t ∧
      t.ring r = { s.ring r with sizeLog2 := v.extractLsb' 0 5, vector := v.extractLsb' 5 11, enable := true, stopped := false, prod := 0, cons := 0 }) ∧
  (∀ (r : RingSel) (v : Word) (s : State), s.fnLive (ringFn r) = true → bitAt v 31 = false → (s.ring r).enable = true →
    ∃ t, exec (.ringDisable (ringFn r) r v) s = .next t ∧ OnlyRing r s t ∧
      t.ring r = { s.ring r with vector := v.extractLsb' 5 11, enable := false } ∧
      (r = .iq → t.iq.queue = [] ∧ t.iq.lost = addSat s.iq.lost s.iq.queue.length) ∧ (r ≠ .iq → t.iq = s.iq)) ∧
  (sizeRange .log = (8, 16) ∧ sizeRange .iq = (8, 16) ∧ sizeRange .asq = (4, 12) ∧ sizeRange .acq = (4, 12) ∧
    ∀ t, sizeRange (.fault t) = (6, 12) ∧ sizeRange (.csq t) = (4, 12) ∧ sizeRange (.ccq t) = (4, 12))

namespace Sys2Proof.Claims

/-- What the words of TILE_CFG hold of a value at a kind of site: the first word 26 bits, CLEAR_MASK the bits that Table LY-10 lists, the last word
BMODE's 8 bits, of which only a B-tile has any, the words between all 32 (Tables LY-6 and LY-10; log entry 52). -/
def cfgKept (k : TileKind) (i : Nat) (v : Word) : Word :=
  if i = 0 then v &&& 0x03FFFFFF else if i = 1 then v &&& BitVec.ofNat 32 (clearBits k) else if i = 6 then v &&& 0xFF else v

/-- The words of TILE_CFG that hold a field at a kind of site. -/
def HoldsField (k : TileKind) (i : Nat) : Prop := i ≤ 6 ∧ (i = 1 → clearBits k ≠ 0) ∧ (i = 6 → k = .b)

/-- A shadow word has taken a value, and the shadow's other words are as they were; the active bank is. -/
def ShadowWord (k : TileKind) (a b : Tile) (i : Nat) (v : Word) : Prop :=
  b.shadow.cfg.extractLsb' (32 * i) 32 = cfgKept k i v ∧
    (∀ j, j < 16 → j ≠ i → b.shadow.cfg.extractLsb' (32 * j) 32 = a.shadow.cfg.extractLsb' (32 * j) 32) ∧ b.active = a.active

end Sys2Proof.Claims

/-- APERTURE_BASE takes both halves with its high one; GTS_LO alone latches the high word, GTS_LO and GTS_HI together give 64 bits at once; a PF's write
of a context page that it sees changes nothing and is logged; a register write puts LOG_LOST and DBG_BASE; a write through either view of a tile lands
in its shadow, where its word has a field, and one through the active view of a tile whose STATE does not read PARKED is counted; DEBUG_HALT stops issue until it is cleared
(R8, R42, R97, R98, R150, R212, R298, R302). -/
def Obligations.HostRegistersAndViewsTakeTheirWrites : Prop :=
  (∀ (f : Fn) (hi : Word) (s : State), s.fnLive f = true →
    ∃ t, exec (.apertureBaseWrite f hi) s = .next t ∧ (t.fnRegs f).apBase = hi ++ (s.fnRegs f).apLo ∧ (t.fnRegs f).apHi = hi ∧
      (∀ g, g ≠ f → t.fnRegs g = s.fnRegs g) ∧ t.tiles = s.tiles ∧ t.ctxs = s.ctxs) ∧
  (∀ (f : Fn) (s : State), s.fnLive f = true →
    (∃ t, exec (.gtsLoRead f 4) s = .next t ∧ t.host.reply = .data (leBytes 4 ((s.fnGts f).toNat % 2 ^ 32)) false ∧
      (t.fnRegs f).gtsLatch = (s.fnGts f).extractLsb' 32 32 ∧ (∀ g, g ≠ f → t.fnRegs g = s.fnRegs g) ∧ t.tiles = s.tiles) ∧
    (∃ t, exec (.gtsLoRead f 8) s = .next t ∧ t.host.reply = .data (leBytes 8 (s.fnGts f).toNat) false ∧
      { t with host := { t.host with reply := s.host.reply } } = s)) ∧
  (∀ (c : Tenant) (off : BitVec 16) (v : Word) (s : State), s.fnLive .pf0 = true → (s.ctxRead c off.toNat).isSome = true →
    ∃ t, exec (.cfgHostRo .pf0 c off v) s = .next t ∧ { t with merger := s.merger } = s ∧
      t.merger = (s.logEv (s.fnSrc .pf0) CFG_HOST_RO (tenantByte c)
        (leBytes 4 (0x01000000 + 0x10000 * c.val + off.toNat) ++ leBytes 4 v.toNat)).merger) ∧
  (∀ (v : DWord) (s : State), s.fnLive .pf0 = true →
    (∃ t, exec (.registerWrite (.bar0 .pf0) 0x1180 4 v) s = .next t ∧ t = { s with log := { s.log with lost := v.extractLsb' 0 32 } }) ∧
    (∃ t, exec (.registerWrite (.bar4 .pf0) 4 4 v) s = .next t ∧
      t = { s with host := { s.host with dbgBase := v.extractLsb' 0 32 ++ s.host.dbgBase.extractLsb' 0 32 } })) ∧
  (∀ (x : Site) (w : Src) (i : Nat) (v : Word) (s : State), s.slotUp x = true → HoldsField (siteKind x) i →
    ∃ t, exec (.activeViewWrite x w (BitVec.ofNat 14 (4 * i)) v) s = .next t ∧ ShadowWord (siteKind x) (s.tile x) (t.tile x) i v ∧
      (∀ y, y ≠ x → t.tile y = s.tile y) ∧
      (t.tile x).liveWrites = (if s.tileStateNum x = 0 then (s.tile x).liveWrites else addSat (s.tile x).liveWrites 1)) ∧
  (∀ (x : Site) (w : Src) (i : Nat) (v : Word) (s : State), s.slotUp x = true → HoldsField (siteKind x) i →
    ∃ t, exec (.shadowViewWrite x w (BitVec.ofNat 14 (4 * i)) v) s = .next t ∧ ShadowWord (siteKind x) (s.tile x) (t.tile x) i v ∧
      OnlyTile x s t ∧ (t.tile x).liveWrites = (s.tile x).liveWrites) ∧
  (∀ (x : Site) (w : Src) (i : Nat) (v : Word) (s : State), s.slotUp x = true → i < 16 → ¬ HoldsField (siteKind x) i →
    exec (.activeViewWrite x w (BitVec.ofNat 14 (4 * i)) v) s = .next s ∧ exec (.shadowViewWrite x w (BitVec.ofNat 14 (4 * i)) v) s = .next s) ∧
  (∀ (x : Site) (s : State), s.slotUp x = true →
    ∃ t, exec (.debugHaltSet x) s = .next t ∧ (t.tile x).debugHalt = true ∧ t.mayIssue x = false ∧ (∀ y, y ≠ x → t.tile y = s.tile y)) ∧
  (∀ (x : Site) (s : State), s.slotUp x = true →
    ∃ t, exec (.debugHaltClear x) s = .next t ∧ (t.tile x).debugHalt = false ∧ (∀ y, y ≠ x → t.tile y = s.tile y) ∧
      (t.tile x).seq.ip = (s.tile x).seq.ip ∧ (t.tile x).active = (s.tile x).active)

namespace Sys2Proof.Claims

/-- A byte of HBM as a read gives it. -/
def hbmAt (s : State) (a : Nat) : Byte := s.mem.hbm.byte a ^^^ s.mem.pad a

/-- A BAR2 access of a function lies in one page and reaches HBM at a DPA; `u` is the state with what its translation left. -/
def Bar2Reaches (s : State) (f : Fn) (off n : Nat) (write : Bool) (dpa : Nat) (u : State) : Prop :=
  s.fnLive f = true ∧ s.mem.selfRefresh = false ∧ 0 < n ∧ s.fnBase f off % 65536 + n ≤ 65536 ∧
    s.reach f (s.fnBase f off) n write = (.dpa dpa, u)

end Sys2Proof.Claims

/-- BAR2 reads give the bytes of HBM at the aperture, of PF0 and PF1 by DPA and of a VF through its tenant's tables, poisoned and signalled where a
burst is uncorrectable; writes change the enabled bytes alone; an access that names no target completes with Unsupported Request. The first
configuration request after a start is retried, a later one may enable a VF or read the class code and the revision; a timeout of a ring's fetch stops the ring and is signalled
(R206, R208, R225, R226, R300, R308, R408). -/
def Obligations.TheAperturesReachMemory : Prop :=
  (∀ (f : Fn) (off : BitVec 36) (n : Fin 4097) (dpa : Nat) (s u : State), Bar2Reaches s f off.toNat n.val false dpa u →
    (∀ b ∈ bursts dpa n.val, u.burstErr b = none) →
    ∃ t bs, exec (.bar2Read f .bar2 off n []) s = .next t ∧ t.host.reply = .data bs false ∧ bs.length = n.val ∧
      (∀ i, i < n.val → bs.getD i 0 = hbmAt u (dpa + i)) ∧ { t with host := { t.host with reply := u.host.reply } } = u) ∧
  (∀ (f : Fn) (off : BitVec 36) (n : Fin 4097) (dpa b : Nat) (s u : State), Bar2Reaches s f off.toNat n.val false dpa u →
    b ∈ bursts dpa n.val → u.burstErr b = some .ue →
    ∃ t bs, exec (.bar2Read f .bar2 off n []) s = .next t ∧ t.host.reply = .data bs true ∧ t.host.aer = (f, 0) :: u.host.aer ∧
      t.mem.hbm = u.mem.hbm ∧ t.tiles = u.tiles) ∧
  (∀ (f : Fn) (off : BitVec 36) (bs : List (Byte × Bool)) (dpa : Nat) (s u : State), Bar2Reaches s f off.toNat bs.length true dpa u →
    ∃ t, exec (.bar2Write f off bs []) s = .next t ∧ t.tiles = u.tiles ∧ t.host = u.host ∧
      (∀ i, i < bs.length → hbmAt t (dpa + i) = (if (bs.getD i (0, false)).2 then (bs.getD i (0, false)).1 else hbmAt u (dpa + i))) ∧
      (∀ a, a < dpa ∨ dpa + bs.length ≤ a → hbmAt t a = hbmAt u a)) ∧
  (∀ (off : BitVec 36) (n : Fin 4097) (s : State), s.fnLive .pf0 = true → s.mem.selfRefresh = false → 0 < n.val →
    s.fnBase .pf0 off.toNat % 65536 + n.val ≤ 65536 → hbmRangeOk s.pkg.variant (s.fnBase .pf0 off.toNat) n.val = false →
    ∃ t, exec (.bar2Read .pf0 .bar2 off n []) s = .next t ∧ t.host.reply = .unsupported ∧ t.host.aer = (.pf0, 1) :: s.host.aer ∧ t.mem = s.mem) ∧
  (∀ (p : Fin 2) (q : CfgRequest) (s : State), s.portThere p = true → s.host.configReady.getLsbD p.val = false →
    ∃ t, exec (.configRequest p q) s = .next t ∧ t.host.reply = .retry ∧ t.host.linkUp.getLsbD p.val = true ∧
      t.host.configReady.getLsbD p.val = true ∧ t.host.vfEnabled = s.host.vfEnabled ∧ t.tiles = s.tiles) ∧
  (∀ (p : Fin 2) (c : Tenant) (s : State), s.portThere p = true → s.host.configReady.getLsbD p.val = true → s.fnPort (.vf c) = p.val →
    ∃ t, exec (.configRequest p (.enableVf c)) s = .next t ∧ t.host.reply = .ok ∧ t.host.vfEnabled.getLsbD c.val = true ∧
      (∀ d : Tenant, d ≠ c → t.host.vfEnabled.getLsbD d.val = s.host.vfEnabled.getLsbD d.val) ∧ t.tiles = s.tiles) ∧
  (∀ (p : Fin 2) (f : Fn) (s : State), s.portThere p = true → s.host.configReady.getLsbD p.val = true → s.fnThere p f = true →
    exec (.configRequest p (.classRev f)) s = .next { s with host := { s.host with reply := .data (leBytes 4 0x120000B0) false } }) ∧
  (∀ (e : HostError) (addr : DWord) (s : State), s.fnLive .pf0 = true → s.mayFetch .admin = true →
    addr.toNat = (s.ring .asq).addr (s.ring .asq).cons 64 →
    ∃ t, exec (.completionTimeout .pf0 e addr) s = .next t ∧ OnlyRing .asq s t ∧ (t.ring .asq).stopped = true ∧ (t.ring .asq).enable = false ∧
      (t.ring .asq).cons = (s.ring .asq).cons ∧ t.host.aer = (.pf0, hostErrorKind e) :: s.host.aer) ∧
  (∀ (e : HostError) (addr : DWord) (s : State), s.fnLive .pf1 = true →
    ∃ t, exec (.completionTimeout .pf1 e addr) s = .next t ∧ (∀ q, t.ring q = s.ring q) ∧ t.host.aer = (.pf1, hostErrorKind e) :: s.host.aer)

/-- An FLR puts a VF's registers and rings at their reset values and closes its context; one of PF0, where no context is open, also takes the admin rings out of use; VF_ENABLE_CLEAR
is an FLR that leaves the VF disabled; a lost host link is down, its next configuration request is retried, and, where no context is open, its PF's rings are out of use (R301, R407, R408). -/
def Obligations.FunctionsAreResetWithTheirContexts : Prop :=
  (∀ (c : Tenant) (s : State), s.fnLive (.vf c) = true → (s.ctx c).isOpen = false →
    ∃ t, exec (.flr (.vf c)) s = .next t ∧ t.fnRegs (.vf c) = {} ∧ t.ring (.csq c) = {} ∧ t.ring (.ccq c) = {} ∧ t.ring (.fault c) = {} ∧
      (∀ d, d ≠ c → t.ctx d = s.ctx d ∧ t.fnRegs (.vf d) = s.fnRegs (.vf d)) ∧ t.host.asq = s.host.asq ∧ t.host.log = s.host.log) ∧
  (∀ (c : Tenant) (s : State), s.fnLive (.vf c) = true → (s.ctx c).isOpen = true →
    ∃ t, exec (.flr (.vf c)) s = .next t ∧ ((t.ctx c).closing = true ∨ (t.ctx c).isOpen = false)) ∧
  (∀ s : State, s.fnLive .pf0 = true → (∀ c, (s.ctx c).isOpen = false) →
    ∃ t, exec (.flr .pf0) s = .next t ∧ (t.ring .asq).enable = false ∧ (t.ring .acq).enable = false ∧ (t.ring .log).enable = false ∧
      (t.ring .iq).enable = false ∧ t.fnRegs .pf0 = {} ∧ t.host.dbgBase = 0) ∧
  (∀ (c : Tenant) (s : State), s.fnLive (.vf c) = true →
    ∃ t, exec (.vfEnableClear c) s = .next t ∧ t.host.vfEnabled.getLsbD c.val = false ∧ t.fnLive (.vf c) = false) ∧
  (∀ s : State, s.alive = true → s.host.linkUp.getLsbD 0 = true → (∀ c, (s.ctx c).isOpen = false) →
    ∃ t, exec (.hostLinkDown 0) s = .next t ∧ t.host.linkUp.getLsbD 0 = false ∧ t.host.configReady.getLsbD 0 = false ∧ t.fnLive .pf0 = false ∧
      (t.ring .asq).enable = false ∧ (t.ring .log).enable = false)

namespace Sys2Proof.Claims

/-- The package has started: every clock begins, the power is P0 with all its dies ON, the tiles are parked and hold nothing, no context is open, no
command is in progress, READY is clear, and START_COUNT has gone up by one; the fault record is kept. -/
def HasStarted (s t : State) : Prop :=
  t.clk.running = true ∧ t.power.pstate = .p0 ∧ t.power.pwrGood = true ∧ (∀ d : Die, (dieKind s.pkg.variant d.val).isSome → (t.die d.val).state = .on) ∧
    (∀ x, t.tile x = {}) ∧ (∀ c, t.ctx c = {}) ∧ t.host.started = [] ∧ t.host.ready = false ∧ t.host.safePending = false ∧ t.host.linkUp = 0 ∧
    t.ao = { s.ao with startCount := s.ao.startCount + 1, confirmed := false } ∧ t.links.twin = {} ∧ t.log.buffer = [] ∧ t.pending = s.pending

end Sys2Proof.Claims

/-- COLD_RESET starts the package with the straps it samples and the GTS at zero; WARM_RESET, held for 100 µs, starts it with the GTS as it stands;
PWR_GOOD_DEASSERT takes the power and switches the bleeders on. START_ASSAY, on a pass, leaves tiles and counters clear and sets READY. Its failure, a
lost PLL of the locked group or of TCLK, THERMTRIP_N and a thermal trip, a missed heartbeat and a lockstep difference enter the safe state with their
causes, which ends in P3 with FAULT_N low once every field die is off; a lost KCLK retrains its die's ports alone. A report below the
warning limit changes nothing else; the limiter opens until VDD_1V8 goes; VDD_AO brings back START_COUNT alone
(R34, R39, R231, R232, R372 to R375, R388 to R390, R394, R407, R410, R412). -/
def Obligations.StartsAndTheSafeState : Prop :=
  (∀ (x : Straps) (s : State), ∃ t, exec (.coldReset x) s = .next t ∧ HasStarted s t ∧ t.host.straps = x ∧ t.clk.gts = 0 ∧ t.pkg = s.pkg) ∧
  (∀ s : State, s.power.pwrGood = true → s.alive = true → s.host.safePending = false →
    (∃ t, exec (.warmReset true) s = .next t ∧ HasStarted s t ∧ t.clk.gts = s.clk.gts ∧ t.host.straps = s.host.straps ∧ t.mem.hbm = []) ∧
    exec (.warmReset false) s = .next s) ∧
  (∀ s : State, s.power.pwrGood = true → ∃ t, exec .pwrGoodDeassert s = .next t ∧ t.clk.running = false ∧ t.power.pwrGood = false ∧
    t.power.bleeders = true ∧ (∀ d, t.die d = {}) ∧ (∀ x, t.tile x = {}) ∧ t.ao = s.ao) ∧
  (∀ (us : Word) (s : State), s.alive = true → s.host.ready = false → s.host.safePending = false → s.host.straps.testModeN = true →
    ∃ t, exec (.startAssay (.pass us)) s = .next t ∧ t.host = { s.host with ready := true } ∧ t.ao = { s.ao with confirmed := true } ∧
      (∀ x, t.tile x = {}) ∧ t.log.lost = 0 ∧ t.iq.lost = 0 ∧ t.net.slotMiss = [] ∧ t.power.ballast = [] ∧ t.power.hold = [] ∧
      t.clk = s.clk ∧ t.ctxs = s.ctxs ∧ t.mem = s.mem ∧ t.links = s.links) ∧
  (∀ (c : Fin 9) (src : Src) (s : State), s.alive = true → s.host.ready = false → s.host.straps.testModeN = true → MayEnterSafe s →
    ∃ t, exec (.startAssay (.fail c src)) s = .next t ∧ EntersSafe { s with ao := { s.ao with confirmed := true } } t 1 (2 ^ c.val) src ∧
      t.host.ready = false) ∧
  (∀ s : State, s.alive = true → MayEnterSafe s → ∃ t, exec (.pllLock .tclk) s = .next t ∧ EntersSafe s t 4 0 0x6005) ∧
  (∀ (p : Fin 6) (s : State), s.alive = true → MayEnterSafe s → ∃ t, exec (.pllLock (.locked p)) s = .next t ∧ EntersSafe s t 4 0 0x6000) ∧
  (∀ (x : Fin 8) (s : State), s.alive = true →
    ∃ t, exec (.pllLock (.kclk x)) s = .next t ∧ t.power = s.power ∧ t.host = s.host ∧ (∀ p : PortRef, p.xd ≠ x → t.port p = s.port p) ∧
      ∀ p : PortRef, p.xd = x → (t.port p).state = (if (s.port p).state = .up then .retrain else (s.port p).state)) ∧
  (∀ s : State, MayEnterSafe s → ∃ t, exec .thermtripN s = .next t ∧ EntersSafe s t 5 0 0x6004) ∧
  (∀ (d : Die) (c : Int) (s : State), s.alive = true → (dieKind s.pkg.variant d.val).isSome = true → (s.die d.val).state ≠ .off → MayEnterSafe s →
    warnLimit s.pkg.variant d.val + 160 ≤ c →
    ∃ t, exec (.thermalReport d c) s = .next t ∧ EntersSafe s t 5 0 (thermalSrc d.val) ∧ Map.look t.power.temps d.val = some c) ∧
  (∀ (d : Die) (c : Int) (s : State), s.alive = true → (dieKind s.pkg.variant d.val).isSome = true → (s.die d.val).state ≠ .off →
    c < warnLimit s.pkg.variant d.val → s.power.warned = 0 →
    ∃ t, exec (.thermalReport d c) s = .next t ∧ t = { s with power := { s.power with temps := Map.put s.power.temps d.val c } }) ∧
  (∀ s : State, s.alive = true → MayEnterSafe s → ∃ t, exec .heartbeat s = .next t ∧ EntersSafe s t 3 0 0x6000) ∧
  (∀ s : State, s.alive = true → MayEnterSafe s → ∃ t, exec .lockstep s = .next t ∧ EntersSafe s t 2 0 0x6407) ∧
  (∀ s : State, s.power.descent = true → s.descended = true → ∃ t, exec .descentEnd s = .next t ∧ t.power.pstate = .p3 ∧ t.power.faultN = true ∧ t.power.descent = false ∧
    t.alive = false ∧ t.host.linkUp = 0 ∧ (∀ d, t.die d = {}) ∧ (∀ x, t.tile x = {}) ∧ t.ao = s.ao) ∧
  (∀ s : State, s.power.limiterOpen = false →
    ∃ t, exec .sidebandLimit s = .next t ∧ { t with merger := s.merger } = { s with power := { s.power with limiterOpen := true } } ∧
      (∀ n, t.padDriven n = none)) ∧
  (∀ s : State, exec .vdd1v8Removal s = .next { s with power := { s.power with limiterOpen := false } }) ∧
  (∀ (n : Word) (s : State), s.power.pwrGood = false →
    ∃ t, exec (.vddAoPowerOn n) s = .next t ∧ t.ao = { startCount := t.ao.startCount, confirmed := true } ∧
      (t.ao.startCount = s.ao.startCount ∨ (s.ao.confirmed = false ∧ t.ao.startCount + 1 = s.ao.startCount)) ∧ { t with ao := s.ao } = s)

/-! ## The steward's commands -/

namespace Sys2Proof.Claims

/-- The steward serves a command in progress: it is the one that an id and an opcode name. -/
def Serves (s : State) (c : Serve) (op : Nat) (f : Started) : Prop :=
  s.serving = true ∧ s.host.started.find? (fun g => g.id = c.id && g.op = op) = some f

/-- A command completes: it is in progress no more, and its entry is in the enabled completion ring of its pair, which had room, unless an FLR of
its function came before (R301, R309, R310). -/
def Completed (s : State) (f : Started) (st : Status) (v : Nat) (t : State) : Prop :=
  t.host.started = s.host.started.filter (fun g => g.id != f.id) ∧
    ((s.ring (complSel f.ring)).enable = true → f.muted = false → (s.ring (complSel f.ring)).count < (s.ring (complSel f.ring)).size →
      (t.ring (complSel f.ring)).prod = (s.ring (complSel f.ring)).prod + 1 ∧
        Memory.read t.host.mem ((s.ring (complSel f.ring)).addr (s.ring (complSel f.ring)).prod 32) 32 =
          completionEntry st 0 (s.ring (complSel f.ring)).phase (f.p 4 4) s.clk.gts stewardSrc f.op f.consAfter v)

/-- A command is in progress no more. -/
def Gone (f : Started) (t : State) : Prop := ∀ g ∈ t.host.started, g.id ≠ f.id

/-- Two states agree on everything but the host's side, the events on their way, and the completion rings of the contexts. -/
def Quiet (s t : State) : Prop :=
  { t with host := s.host, ctxs := s.ctxs, merger := s.merger } = s ∧ ∀ d, { t.ctx d with ccq := (s.ctx d).ccq } = s.ctx d

/-- A command completes in a state and changes nothing else there. -/
def Finishes (s : State) (f : Started) (st : Status) (v : Nat) (t : State) : Prop := Completed s f st v t ∧ Quiet s t

/-- A command goes on: it is in progress, accepted. -/
def GoesOn (f : Started) (t : State) : Prop := ∃ g, g ∈ t.host.started ∧ g.id = f.id ∧ g.accepted = true

/-- NOP, IDENTIFY and GET_GRADE_MAP change nothing but their result and completion; one whose result cannot be written completes with E_HOST_FAULT.
The IDENTIFY record begins with the package's identity, a grade-map record with its die and its M-tiles (R26, R306, Table HL-9). -/
def ReportingCommandsChangeNothingElse : Prop :=
  (∀ (c : Serve) (f : Started) (s : State), Serves s c 0x28 f → ∃ t, exec (.nopCommand c) s = .next t ∧ Finishes s f OK 0 t) ∧
  (∀ (c : Serve) (f : Started) (s : State), Serves s c 0x01 f → c.resultOk = true → 256 ≤ f.p 16 4 →
    ∃ t bs, exec (.identify c) s = .next t ∧ Finishes (s.hostWrite (f.p 8 8) bs) f OK 0 t ∧ bs.length = 256 ∧
      bs.take 12 = leBytes 8 s.pkg.packageId.toNat ++ leBytes 2 0x1D2B ++ leBytes 2 (deviceId s.pkg.variant) ∧
      (bs.drop 24).take 4 = leBytes 4 s.ao.startCount.toNat ∧ (bs.drop 40).take 8 = leBytes 8 s.hbmUncommitted) ∧
  (∀ (c : Serve) (f : Started) (s : State), Serves s c 0x01 f → c.resultOk = false → 256 ≤ f.p 16 4 →
    ∃ t, exec (.identify c) s = .next t ∧ Finishes s f E_HOST_FAULT 0 t) ∧
  (∀ (c : Serve) (f : Started) (s : State), Serves s c 0x02 f → c.resultOk = true → 2048 ≤ f.p 16 4 →
    ∃ t bs, exec (.getGradeMap c) s = .next t ∧ Finishes (s.hostWrite (f.p 8 8) bs) f OK 0 t ∧ bs.length = 2048 ∧
      (∀ d, d < 16 → (bs.drop (128 * d)).take 6 = [BitVec.ofNat 8 d, 1, 0, 0] ++ leBytes 2 (s.goodCount d .m)))

end Sys2Proof.Claims

/-- OPEN_CONTEXT gives the context its regions, quotas and save area, with no beacon set and the next generation; CLOSE_CONTEXT ends it, at once where it
has neither layouts, nor a replay, nor other commands; SET_SHARES takes effect at the next frame, within a sum of 62; SET_BUDGET, SET_PLACEMENT and BEACON_CONFIG
set what they name. What another context holds stays as it was (R74, R77, R200, R286, R287, R289, R313 to R315). -/
def Obligations.ContextsOpenShareAndClose : Prop :=
  (∀ (c : Serve) (f : Started) (s : State), Serves s c 0x03 f → s.openRefusal f = none →
    ∃ t, exec (.openContext c) s = .next t ∧ Completed s f OK 0 t ∧ (t.ctx f.tenant).isOpen = true ∧
      (t.ctx f.tenant).saveVa = BitVec.ofNat 64 (f.p 48 8) ∧ (t.ctx f.tenant).saveBytes = f.p 56 8 ∧ (t.ctx f.tenant).gen = (s.ctx f.tenant).gen + 1 ∧ (t.ctx f.tenant).hbmQuota = f.p 40 8 ∧ (t.ctx f.tenant).streamQuota = f.p 36 4 ∧
      (t.ctx f.tenant).beacons = [] ∧ (t.ctx f.tenant).pt = [] ∧
      (∀ d, d < 16 → Map.get 0 (t.ctx f.tenant).regions d = BitVec.ofNat 8 (f.p (20 + d) 1)) ∧
      (∀ d, d ≠ f.tenant → { t.ctx d with ccq := (s.ctx d).ccq } = s.ctx d) ∧ t.tiles = s.tiles ∧ t.insts = s.insts) ∧
  (∀ (c : Serve) (f : Started) (s : State) (st : Status), Serves s c 0x03 f → s.openRefusal f = some st →
    ∃ t, exec (.openContext c) s = .next t ∧ Finishes s f st 0 t) ∧
  (∀ (c : Serve) (f : Started) (s : State), Serves s c 0x04 f → s.instsOf f.tenant = [] → (s.ctx f.tenant).replay = none →
    (∀ g ∈ s.host.started, onContext f.tenant g = true → isClose f.tenant g = true) →
    ∃ t, exec (.closeContext c) s = .next t ∧ Gone f t ∧ (t.ctx f.tenant).isOpen = false ∧
      (t.ctx f.tenant).closing = false ∧ (t.ctx f.tenant).gen = (s.ctx f.tenant).gen + 1 ∧
      (t.ctx f.tenant).beacons = [] ∧ (t.ctx f.tenant).regions = [] ∧ (t.ctx f.tenant).imports = [] ∧
      ∀ d, d ≠ f.tenant → (t.ctx d).isOpen = (s.ctx d).isOpen ∧ (t.ctx d).regions = (s.ctx d).regions ∧ (t.ctx d).beacons = (s.ctx d).beacons ∧
        (t.ctx d).pt = (s.ctx d).pt ∧ (t.ctx d).shares = (s.ctx d).shares) ∧
  (∀ (c : Serve) (f : Started) (s : State), Serves s c 0x05 f → f.p 20 1 ≤ 64 → f.p 21 1 ≤ 1 → s.otherShares f.tenant + f.p 20 1 ≤ 62 →
    ∃ t x, exec (.setShares c) s = .next t ∧ Finishes (s.onCtx f.tenant fun k => { k with shares := x }) f OK 0 t ∧
      x.at s.frame = (s.ctx f.tenant).shares.at s.frame ∧ ∀ n, s.frame < n → x.at n = (f.p 20 1, decide (f.p 21 1 = 1))) ∧
  (∀ (c : Serve) (f : Started) (s : State), Serves s c 0x05 f → f.p 20 1 ≤ 64 → f.p 21 1 ≤ 1 → 62 < s.otherShares f.tenant + f.p 20 1 →
    ∃ t, exec (.setShares c) s = .next t ∧ Finishes s f E_SHARES 0 t) ∧
  (∀ (c : Serve) (f : Started) (s : State), Serves s c 0x0B f → 0 < f.p 20 4 → f.p 20 4 ≤ 10000000 → f.p 24 1 = 0 →
    ∃ t, exec (.setBudget c) s = .next t ∧ Finishes (s.onCtx f.tenant fun k => { k with budget := some (f.p 20 4) }) f OK 0 t) ∧
  (∀ (c : Serve) (f : Started) (s : State), Serves s c 0x0B f → 0 < f.p 20 4 → f.p 20 4 ≤ 10000000 → f.p 24 1 = 1 →
    ∃ t, exec (.setBudget c) s = .next t ∧
      Finishes (s.onCtx f.tenant fun k => { k with budget := some (f.p 20 4), quarantined := false, overruns := 0 }) f OK 0 t) ∧
  (∀ (c : Serve) (f : Started) (s : State), Serves s c 0x16 f → s.isFollow f.tenant = false → f.p 20 1 = 0 →
    ∃ t, exec (.setPlacement c) s = .next t ∧ Finishes (s.onCtx f.tenant fun k => { k with placement := .firstFree }) f OK 0 t) ∧
  (∀ (c : Serve) (f : Started) (s : State), Serves s c 0x16 f → s.isFollow f.tenant = false → f.p 20 1 = 1 → 0 < f.p 21 1 →
    ∃ t, exec (.setPlacement c) s = .next t ∧
      Finishes (s.onCtx f.tenant fun k => { k with placement := .affinity (BitVec.ofNat 8 (f.p 21 1)) }) f OK 0 t) ∧
  (∀ (c : Serve) (f : Started) (s : State), Serves s c 0x17 f → f.p 20 2 < 4096 → f.p 22 1 ≤ 3 → s.vectorOk (.vf f.tenant) (f.p 28 2) = true →
    ∃ t, exec (.beaconConfig c) s = .next t ∧
      Finishes (s.onBeacon f.tenant (BitVec.ofNat 12 (f.p 20 2)) fun b =>
        { b with mode := BitVec.ofNat 2 (f.p 22 1), thresh := BitVec.ofNat 32 (f.p 24 4), vector := BitVec.ofNat 11 (f.p 28 2) }) f OK 0 t)

namespace Sys2Proof.Claims

/-- LOAD_LAYOUT has read a container that passes its checks, on dies that are up and free, with its images in place; `u` is the state then. -/
def LoadPasses (s : State) (f : Started) (k : Container) (u : State) : Prop :=
  f.accepted = false ∧ s.power.pstate = .p0 ∧ (f.ring = .admin ∨ ∀ r ∈ f.regions, r.2 = 0) ∧ (s.ctx f.tenant).quarantined = false ∧
    (s.instsOf f.tenant).length < 8 ∧ s.regionsBad f.tenant f.regions = none ∧
    ∃ bs s1, s.readContainer f.tenant (f.p 40 8) = (some bs, s1) ∧ (s1.grantRegions f.tenant f.regions).layoutChecks f.tenant bs = .ok k ∧
      s1.maskDown k.dieMask = false ∧ (∀ i ∈ s.instsOf f.tenant, i.dieMask &&& k.dieMask = 0) ∧
      (s1.grantRegions f.tenant f.regions).placeImages f.tenant k.images = (none, u)

/-- A PREEMPT passes its checks, for a mode. -/
def PreemptPasses (s : State) (f : Started) (mode : Nat) : Prop :=
  f.accepted = false ∧ f.p 20 1 = mode ∧ 0 < f.p 24 4 ∧ f.p 24 4 ≤ 1000000 ∧ (s.ctx f.tenant).preempted = false ∧
    s.saveNeed f.tenant ≤ (s.ctx f.tenant).saveBytes ∧ (s.ctx f.tenant).saveFault = none

/-- A REPLAY_START names an idle instance of its context without a binding, and its ring, well formed, holds the records of a replay from the step it
names on (R358). -/
def ReplayPasses (s : State) (f : Started) (i : Instance) (r : Replay) : Prop :=
  f.accepted = false ∧ s.ownInst f.tenant (f.p 20 1) = some i ∧ s.inst? i.id = some i ∧ f.p 32 8 % 65536 = 0 ∧ 2 ^ 20 ≤ f.p 32 8 ∧
    f.p 32 8 ≤ 2 ^ 40 ∧ f.p 24 8 + f.p 32 8 ≤ 2 ^ 48 ∧ (s.ctx f.tenant).recorder = none ∧ (s.ctx f.tenant).replay = none ∧
    s.links.twin.tenant ≠ some f.tenant ∧ i.binding = none ∧ i.stepCmd = none ∧ i.run.running = false ∧
    ∃ h bad s1 recs s2, s.vaRead f.tenant 0 (f.p 24 8) 64 (stewardAccess scrivSrc) = (some (h, bad), s1) ∧ rd h 0 4 = 0x52435253 ∧
      rd h 4 2 = 1 ∧
      State.ringRecords f.tenant (f.p 24 8) (f.p 32 8 - 64) (rd h 16 8) ((rd h 16 8 - rd h 24 8) / 32) (rd h 24 8) s1 = (some recs, s2) ∧
      replayOf i recs (f.p 40 8) f.id = some r

/-- The state with a pre-emption accepted. -/
def withPreempting (s : State) (f : Started) (evict : Bool) : State :=
  (s.accept f).onCtx f.tenant fun k => { k with preempting := some { cmd := f.id, evict := evict, since := s.clk.gts, limit := f.p 24 4 } }

/-- A context has been saved: it is pre-empted and holds no region or beacon, its image holds what it had, and its tiles are parked (R290, R291). -/
def SavedAway (s t : State) (c : Tenant) (evict : Bool) : Prop :=
  (t.ctx c).preempted = true ∧ (t.ctx c).regions = [] ∧ (t.ctx c).beacons = [] ∧ (t.ctx c).preempting = none ∧
    (∀ x ∈ s.regionSites c, (t.tile x).parked = true) ∧ (∀ p ∈ t.net.flow, p.head.tenant ≠ c) ∧
    ∃ v, (t.ctx c).saved = some v ∧ v.evicted = evict ∧ v.regions = (s.ctx c).regions ∧ v.beacons = (s.ctx c).beacons ∧ v.savedAt = s.clk.gts

end Sys2Proof.Claims

/-- A layout that passes its checks becomes an instance with the next number; UNLOAD_LAYOUT takes it away, or goes on while a step runs; STEP gives it its count;
YIELD and EVICT save a context as soon as they may, else go on; RESUME gives back its regions and what its grid held; REPLAY_START gives an instance the records of a
recording, from a step on (R100, R290 to R293, R316, R317, R358). -/
def Obligations.LayoutsAreLoadedSteppedAndSaved : Prop :=
  (∀ (c : Serve) (f : Started) (s u : State) (k : Container), Serves s c 0x06 f → LoadPasses s f k u →
    ∃ t i, exec (.loadLayout c) s = .next t ∧ t.inst? u.nextLayoutId = some i ∧ i.tenant = f.tenant ∧ i.crc = k.crc ∧ i.dieMask = k.dieMask ∧
      i.sections = k.sections ∧ i.stepNo = 0 ∧ t.lastLayout = some u.nextLayoutId) ∧
  (∀ (c : Serve) (f : Started) (s s1 : State) (bs : List Byte) (st : Status), Serves s c 0x06 f → f.accepted = false → s.power.pstate = .p0 →
    f.ring = .admin → (s.ctx f.tenant).quarantined = false → (s.instsOf f.tenant).length < 8 → s.regionsBad f.tenant f.regions = none →
    s.readContainer f.tenant (f.p 40 8) = (some bs, s1) → (s1.grantRegions f.tenant f.regions).layoutChecks f.tenant bs = .bad st →
    ∃ t, exec (.loadLayout c) s = .next t ∧ Finishes s1 f st 0 t) ∧
  (∀ (c : Serve) (f : Started) (s : State) (i : Instance), Serves s c 0x07 f → f.accepted = false → s.inst? (BitVec.ofNat 8 (f.p 20 1)) = some i →
    s.inst? i.id = some i → i.tenant = f.tenant → i.loaded = true → i.run.running = false →
    ∃ t, exec (.unloadLayout c) s = .next t ∧ Gone f t ∧ t.inst? i.id = none ∧ ∀ x ∈ s.instSites i, (t.tile x).parked = true) ∧
  (∀ (c : Serve) (f : Started) (s : State) (i : Instance), Serves s c 0x07 f → f.accepted = false → s.inst? (BitVec.ofNat 8 (f.p 20 1)) = some i →
    s.inst? i.id = some i → i.tenant = f.tenant → i.loaded = true → i.run.running = true → (s.ctx f.tenant).preempted = false →
    ∃ t, exec (.unloadLayout c) s = .next t ∧ t.inst? i.id = some { i with unloadCmd := some f.id } ∧ GoesOn f t ∧ t.tiles = s.tiles) ∧
  (∀ (c : Serve) (f : Started) (s : State) (i : Instance), Serves s c 0x08 f → f.accepted = false → s.stepRefusal f = none →
    s.inst? (BitVec.ofNat 8 (f.p 20 1)) = some i →
    ∃ t j, exec (.step c) s = .next t ∧ GoesOn f t ∧ t.inst? (BitVec.ofNat 8 (f.p 20 1)) = some j ∧ j.stepCmd = some f.id ∧
      j.stepsLeft = (if f.p 24 4 = 0 then none else some (f.p 24 4)) ∧ j.run = i.run ∧ t.tiles = s.tiles ∧ t.ctxs = s.ctxs) ∧
  (∀ (c : Serve) (f : Started) (s : State) (st : Status), Serves s c 0x08 f → f.accepted = false → s.stepRefusal f = some st →
    ∃ t, exec (.step c) s = .next t ∧ Finishes s f st 0 t) ∧
  (∀ (c : Serve) (f : Started) (s : State), Serves s c 0x09 f → PreemptPasses s f 0 → (withPreempting s f false).preemptReady f.tenant false = true →
    ∃ t, exec (.yield c) s = .next t ∧ Gone f t ∧ SavedAway s t f.tenant false) ∧
  (∀ (c : Serve) (f : Started) (s : State), Serves s c 0x09 f → PreemptPasses s f 0 → (withPreempting s f false).preemptReady f.tenant false = false →
    ∃ t, exec (.yield c) s = .next t ∧ t = withPreempting s f false ∧ GoesOn f t) ∧
  (∀ (c : Serve) (f : Started) (s : State), Serves s c 0x09 f → PreemptPasses s f 1 →
    ((withPreempting s f true).evictStart f.tenant).preemptReady f.tenant true = true →
    ∃ t, exec (.evict c) s = .next t ∧ Gone f t ∧ SavedAway s t f.tenant true) ∧
  (∀ (c : Serve) (f : Started) (s : State), Serves s c 0x09 f → PreemptPasses s f 1 →
    ((withPreempting s f true).evictStart f.tenant).preemptReady f.tenant true = false →
    exec (.evict c) s = .next ((withPreempting s f true).evictStart f.tenant)) ∧
  (∀ (c : Serve) (f : Started) (s : State) (v : Saved), Serves s c 0x0A f → (s.ctx f.tenant).saved = some v → s.power.pstate = .p0 →
    s.savedBusy f.tenant v = false → s.savedBad v = false →
    ∃ t, exec (.resume c) s = .next t ∧ Gone f t ∧ (t.ctx f.tenant).preempted = false ∧ (t.ctx f.tenant).regions = v.regions ∧
      (t.ctx f.tenant).saved = none ∧ (∀ p ∈ v.flow, p ∈ t.net.flow) ∧ (∀ p ∈ v.tokens, p ∈ t.net.tokens)) ∧
  (∀ (c : Serve) (f : Started) (s : State), Serves s c 0x0A f → (s.ctx f.tenant).saved = none →
    ∃ t, exec (.resume c) s = .next t ∧ Finishes s f E_CONTEXT_STATE 0 t) ∧
  (∀ (c : Serve) (f : Started) (s : State) (i : Instance) (r : Replay), Serves s c 0x1C f → ReplayPasses s f i r →
    ∃ t j, exec (.replayStart c) s = .next t ∧ (t.ctx f.tenant).replay = some r ∧ t.inst? i.id = some j ∧ j.stepNo = f.p 40 8 ∧
      j.stepsLeft = some (r.recs.filter fun x => x.kind = 1).length)

namespace Sys2Proof.Claims

/-- Every page that was mapped outside a range still leads where it led. -/
def KeepsPages (a b : Context) (va n : Nat) : Prop :=
  ∀ (p : Nat) (acc : Access) (d : Nat) (big : Bool) (e : DWord), p < va ∨ va + n ≤ p → a.walk p acc = .ok d big e →
    ∃ big' e', b.walk p acc = .ok d big' e'

/-- A MEM_MAP of 64 KiB pages has allowed parameters, and nothing makes it wait. -/
def MapOk (s : State) (f : Started) : Prop :=
  f.p 20 1 < 0x40 ∧ bitsOf f.w 164 1 = 0 ∧ f.p 32 8 ≠ 0 ∧ f.p 24 8 % 65536 = 0 ∧ f.p 32 8 % 65536 = 0 ∧ f.p 24 8 + f.p 32 8 ≤ 2 ^ 48 ∧
    s.translating f.tenant = false ∧ s.mediaCovers f.tenant (f.p 24 8) (f.p 32 8) = false

/-- The reservation has room for a number of further tables (R213, R415). -/
def RoomForTables (s : State) (n : Nat) : Prop := (s.freeTables n).length = n

end Sys2Proof.Claims

/-- MEM_MAP maps every page of its range, at the DPA it names or on fresh pages within the quota, and MEM_UNMAP unmaps them, where the reservation has
room for their tables; pages outside the range lead where they led. FAULT_RESOLVE restarts or ends the TLDW that waits on a fault. MAP_WINDOW makes an entry under the lowest free handle, UNMAP_WINDOW
takes it away once what came earlier is over (R213, R216 to R223, R318). -/
def Obligations.MemoryAndWindowsAreMapped : Prop :=
  (∀ (c : Serve) (f : Started) (s : State), Serves s c 0x0C f → MapOk s f → bitsOf f.w 165 1 = 1 → f.p 40 8 % 65536 = 0 →
    f.p 40 8 + f.p 32 8 ≤ 2 ^ 48 → (∀ i, i < f.p 32 8 / 65536 → f.p 40 8 / 65536 + i ∈ (s.ctx f.tenant).frameSet) →
    RoomForTables s (3 * (f.p 32 8 / 65536) + 1) →
    ∃ t, exec (.memMap c) s = .next t ∧ Completed s f OK (f.p 40 8) t ∧ KeepsPages (s.ctx f.tenant) (t.ctx f.tenant) (f.p 24 8) (f.p 32 8) ∧
      (∀ (a : Nat) (acc : Access), f.p 24 8 ≤ a → a < f.p 24 8 + f.p 32 8 →
        (t.ctx f.tenant).walk a acc = leafCheck acc a false (leafEntry (f.p 40 8 + (a - f.p 24 8) / 65536 * 65536) (f.p 20 1)))) ∧
  (∀ (c : Serve) (f : Started) (s s1 : State) (d : Nat), Serves s c 0x0C f → MapOk s f → bitsOf f.w 165 1 = 0 →
    s.mapFresh f.tenant (f.p 24 8) (f.p 32 8) (f.p 20 1) false = some (d, s1) →
    ∃ t, exec (.memMap c) s = .next t ∧ Finishes s1 f OK d t ∧ (s.ctx f.tenant).charged + f.p 32 8 ≤ (s.ctx f.tenant).hbmQuota ∧
      (f.p 20 1 % 2 = 1 → ∀ a, f.p 24 8 ≤ a → a < f.p 24 8 + f.p 32 8 →
        ∃ p big e, (t.ctx f.tenant).walk a { write := false } = .ok p big e)) ∧
  (∀ (c : Serve) (f : Started) (s : State), Serves s c 0x0C f → MapOk s f → bitsOf f.w 165 1 = 0 →
    (s.ctx f.tenant).hbmQuota < (s.ctx f.tenant).charged + f.p 32 8 →
    ∃ t, exec (.memMap c) s = .next t ∧ Finishes s f E_HBM_QUOTA 0 t) ∧
  (∀ (c : Serve) (f : Started) (s : State), Serves s c 0x0D f → f.p 32 8 ≠ 0 → f.p 24 8 % 65536 = 0 → f.p 32 8 % 65536 = 0 →
    f.p 24 8 + f.p 32 8 ≤ 2 ^ 48 → s.translating f.tenant = false → s.mediaCovers f.tenant (f.p 24 8) (f.p 32 8) = false →
    RoomForTables s 2 →
    ∃ t, exec (.memUnmap c) s = .next t ∧ Completed s f OK 0 t ∧ KeepsPages (s.ctx f.tenant) (t.ctx f.tenant) (f.p 24 8) (f.p 32 8) ∧
      (∀ (a : Nat) (acc : Access) (d : Nat) (big : Bool) (e : DWord), f.p 24 8 ≤ a → a < f.p 24 8 + f.p 32 8 →
        (t.ctx f.tenant).walk a acc ≠ .ok d big e)) ∧
  (∀ (c : Serve) (f : Started) (s : State) (x : Site), Serves s c 0x0E f → s.faultTile f.tenant (f.p 20 2) = some x →
    (f.p 22 1 = 0 → ∃ t, exec (.faultResolveResume c) s = .next t ∧ Finishes (s.tldwRestart x) f OK 0 t) ∧
    (f.p 22 1 = 1 → ∃ t, exec (.faultResolveAbort c) s = .next t ∧ Finishes (s.causeAt x E_TLDW_FAULT (siteSrc x)) f OK 0 t)) ∧
  (∀ (c : Serve) (f : Started) (s : State), Serves s c 0x0E f → s.faultTile f.tenant (f.p 20 2) = none →
    (f.p 22 1 = 0 → ∃ t, exec (.faultResolveResume c) s = .next t ∧ Finishes s f E_FAULT_FINAL 0 t) ∧
    (f.p 22 1 = 1 → ∃ t, exec (.faultResolveAbort c) s = .next t ∧ Finishes s f E_FAULT_FINAL 0 t)) ∧
  (∀ (c : Serve) (f : Started) (s : State) (h : Nat), Serves s c 0x0F f → f.p 20 1 = 0 → f.windowBad = false → f.exportBad = false →
    s.exportRefusal f = none → freeHandle s.mem.exports = some h →
    ∃ t w, exec (.mapWindowExport c) s = .next t ∧ Finishes { s with mem := { s.mem with exports := Map.set {} s.mem.exports h w } } f OK h t ∧
      w.isOpen = true ∧ w.closing = none ∧ w.tenant = tenantByte f.tenant ∧ w.base.toNat = f.p 32 8 ∧ w.size.toNat = f.p 40 8 ∧
      w.peerId.toNat = f.p 48 8 ∧ (s.exportOf h).isOpen = false ∧ ∀ k, k < h → (s.exportOf k).isOpen = true) ∧
  (∀ (c : Serve) (f : Started) (s : State) (p : PortRef) (h : Nat), Serves s c 0x0F f → f.p 20 1 = 1 → f.windowBad = false → f.p 24 2 ≤ 4095 →
    s.windowPort (f.window true) = some p → isWindowMode (s.port p).mode = true → freeHandle (s.ctx f.tenant).imports = some h →
    ∃ t w, exec (.mapWindowImport c) s = .next t ∧
      Finishes (s.onCtx f.tenant fun k => { k with imports := Map.set {} k.imports h w }) f OK h t ∧ w.isOpen = true ∧
      w.peerHandle.toNat = f.p 24 2 ∧ w.port.toNat = f.p 26 2 ∧ w.tenant = tenantByte f.tenant) ∧
  (∀ (c : Serve) (f : Started) (s : State), Serves s c 0x10 f → f.accepted = false → f.p 20 1 = 0 → (s.exportOf (f.p 24 2)).isOpen = true →
    (s.exportOf (f.p 24 2)).closing = none → (s.exportOf (f.p 24 2)).tenant = tenantByte f.tenant →
    (s.exportBusy (f.p 24 2) = false → ∃ t, exec (.unmapWindow c) s = .next t ∧
      Finishes { s with mem := { s.mem with exports := Map.del s.mem.exports (f.p 24 2) } } f OK 0 t) ∧
    (s.exportBusy (f.p 24 2) = true → ∃ t, exec (.unmapWindow c) s = .next t ∧ GoesOn f t ∧
      t.exportOf (f.p 24 2) = { s.exportOf (f.p 24 2) with closing := some f.id })) ∧
  (∀ (c : Serve) (f : Started) (s : State), Serves s c 0x10 f → f.accepted = false → f.p 20 1 = 1 →
    (Map.get {} (s.ctx f.tenant).imports (f.p 24 2)).isOpen = true → (Map.get {} (s.ctx f.tenant).imports (f.p 24 2)).closing = none →
    s.importBusy f.tenant (f.p 24 2) = false →
    ∃ t, exec (.unmapWindow c) s = .next t ∧ Finishes (s.onCtx f.tenant fun k => { k with imports := Map.del k.imports (f.p 24 2) }) f OK 0 t)

namespace Sys2Proof.Claims

/-- A binding block, as LEDGER_BIND reads it for an instance, is allowed, and its buffers lie in the context's regions (R278 to R280). -/
def BlockOk (s : State) (i : Instance) (f : Started) (bs : List Byte) : Prop :=
  (parseBinding bs).2.1 = f.p 20 1 ∧ (parseBinding bs).2.2.2 = true ∧ 1 ≤ (parseBinding bs).1.batchMax ∧ (parseBinding bs).1.batchMax ≤ 1024 ∧
    1 ≤ (parseBinding bs).2.2.1 ∧ (parseBinding bs).2.2.1 ≤ 4 ∧ 16 ≤ (parseBinding bs).1.eventEntries ∧
    (parseBinding bs).1.eventEntries ≤ 65536 ∧ isPow2 (parseBinding bs).1.eventEntries = true ∧
    ∀ q ∈ (parseBinding bs).1.buffers, q.1 % 64 = 0 ∧ q.1 % 2 ^ 20 + q.2 ≤ btBytes ∧ q.1 / 2 ^ 40 = 1 ∧ q.1 / 2 ^ 36 % 16 = 0 ∧
      q.1 / 2 ^ 27 % 32 = 0 ∧ s.inRegion f.tenant (btSite (q.1 / 2 ^ 32 % 16) (q.1 / 2 ^ 20 % 128)) = true ∧
      bitAt i.dieMask (q.1 / 2 ^ 32 % 16) = true ∧ s.isFused (btSite (q.1 / 2 ^ 32 % 16) (q.1 / 2 ^ 20 % 128)) = false

end Sys2Proof.Claims

namespace Sys2Proof.Claims

/-- MEDIA_SESSION_OPEN finds a media die with a free session, and reads allowed and supported parameters and tap profiles, with a work area that is
large enough; it names no stream. `s2` is the state then (R258, R260). -/
def SessionPasses (s : State) (f : Started) (md : Nat) (n : Session) (i : Fin 512) (s2 : State) : Prop :=
  ((20 ≤ f.p 20 1 ∧ f.p 20 1 ≤ 23) ∨ f.p 20 1 = 0xFF) ∧ s.power.pstate = .p0 ∧ s.chooseDie (f.p 20 1) = some md ∧
    ∃ bs bad s1 ps, s.vaRead f.tenant 0 (f.p 24 8) 128 (stewardAccess stewardSrc) = (some (bs, bad), s1) ∧
      n = { isOpen := true, tenant := f.tenant, params := BitVec.ofNat 1024 (leNat bs) } ∧ n.fieldsOk = true ∧
      s1.readTaps f.tenant n = (some ps, s2) ∧ (∀ p ∈ ps, profOk p n.maxW n.maxH true = true) ∧ n.supported = true ∧ n.workNeed ≤ n.f 56 8 ∧
      s2.freeSession md = some i ∧ n.f 64 4 = 0xFFFFFFFF

/-- RECORD_START names a ring that its context may write, and nothing records or replays there (R353). -/
def RecordPasses (s : State) (f : Started) : Prop :=
  (s.ctx f.tenant).recorder = none ∧ (s.ctx f.tenant).replay = none ∧ s.isFollow f.tenant = false ∧ f.p 40 1 ≤ 1 ∧ f.p 32 8 % 65536 = 0 ∧
    2 ^ 20 ≤ f.p 32 8 ∧ f.p 32 8 ≤ 2 ^ 40 ∧ f.p 24 8 + f.p 32 8 ≤ 2 ^ 48 ∧ (s.ctx f.tenant).rangeRW (f.p 24 8) (f.p 32 8) = true

end Sys2Proof.Claims

/-- OPEN_STREAM takes the lowest free record and completes with its handle; CLOSE_STREAM frees it with the next generation, or marks one that is batched;
STREAM_INPUT appends its descriptor and makes an idle stream READY, up to eight; STREAM_QUERY writes the record. LEDGER_BIND binds a block. Sessions open
with what their parameters say and end once their last output is written and their last signal has arrived; RECORD_START and RECORD_STOP begin and end a recording
(R258, R272, R274 to R278, R285, R353). -/
def Obligations.StreamsSessionsAndRecordings : Prop :=
  (∀ (c : Serve) (f : Started) (s : State) (n : Nat), Serves s c 0x11 f → f.p 21 1 = 0 →
    s.openStreams f.tenant < (s.ctx f.tenant).streamQuota → s.freeRecord = some n →
    ∃ t x, exec (.openStream c) s = .next t ∧ Finishes (s.onStream n fun _ => x) f OK (n + (s.stream n).gen.toNat * 2 ^ 24) t ∧
      (s.stream n).state = 0 ∧ (∀ m, m < n → (s.stream m).state ≠ 0) ∧
      x.state = 1 ∧ x.tenant = tenantByte f.tenant ∧ x.gen = (s.stream n).gen ∧ x.model.toNat = f.p 20 1 ∧ x.stepLimit.toNat = f.p 24 4 ∧
      x.user.toNat = f.p 28 4 ∧ x.deadline.toNat = f.p 32 8 ∧ x.inputs = [] ∧ x.openGts = s.clk.gts) ∧
  (∀ (c : Serve) (f : Started) (s : State) (n : Nat), Serves s c 0x11 f → f.p 21 1 = 1 →
    s.openStreams f.tenant < (s.ctx f.tenant).streamQuota → s.freeRecord = some n →
    ∃ t, exec (.openStream c) s = .next t ∧ Completed s f OK (n + (s.stream n).gen.toNat * 2 ^ 24) t ∧ (t.stream n).state = 2 ∧
      (t.stream n).readyGts = s.clk.gts ∧ (t.stream n).readySource = hostSrc ∧ (t.stream n).model.toNat = f.p 20 1) ∧
  (∀ (c : Serve) (f : Started) (s : State) (n : Nat), Serves s c 0x12 f → s.streamOf f.tenant (f.p 20 4) = some n → (s.stream n).closeCmd = none →
    ((s.stream n).state ≠ 3 → ∃ t, exec (.closeStream c) s = .next t ∧ Finishes (s.onStream n fun x => { gen := x.gen + 1 }) f OK 0 t) ∧
    ((s.stream n).state = 3 → ∃ t, exec (.closeStream c) s = .next t ∧
      t = s.onStream n fun x => { x with closePending := true, closeCmd := some f.id })) ∧
  (∀ (c : Serve) (f : Started) (s : State) (n : Nat), Serves s c 0x13 f → s.streamOf f.tenant (f.p 20 4) = some n → s.isFollow f.tenant = false →
    bitsOf (BitVec.ofNat 128 (f.p 32 16)) 48 16 = 0 → (s.stream n).state ≠ 4 → (s.stream n).state ≠ 5 → (s.stream n).closePending = false →
    ((s.stream n).inputs.length < 8 → ∃ t, exec (.streamInput c) s = .next t ∧ Completed s f OK 0 t ∧
      (t.stream n).inputs = (s.stream n).inputs ++ [BitVec.ofNat 128 (f.p 32 16)] ∧
      (t.stream n).state = (if (s.stream n).state = 1 then 2 else (s.stream n).state) ∧ ∀ m, m ≠ n → t.stream m = s.stream m) ∧
    (8 ≤ (s.stream n).inputs.length → ∃ t, exec (.streamInput c) s = .next t ∧ Finishes s f E_STREAM_INPUT_FULL 0 t)) ∧
  (∀ (c : Serve) (f : Started) (s : State) (n : Nat), Serves s c 0x14 f → s.streamOf f.tenant (f.p 20 4) = some n → c.resultOk = true →
    256 ≤ f.p 16 4 →
    ∃ t bs, exec (.streamQuery c) s = .next t ∧ Finishes (s.hostWrite (f.p 8 8) bs) f OK 0 t ∧ bs.length = 256 ∧
      bs.take 3 = [(s.stream n).state, (s.stream n).tenant, (s.stream n).gen] ∧ (bs.drop 8).take 4 = leBytes 4 (s.stream n).position.toNat) ∧
  (∀ (c : Serve) (f : Started) (s s1 : State) (i : Instance) (bs : List Byte) (bad : Bool), Serves s c 0x15 f →
    s.inst? (BitVec.ofNat 8 (f.p 20 1)) = some i → s.inst? i.id = some i → i.tenant = f.tenant → i.loaded = true → i.binding = none →
    i.run.running = false → s.vaRead f.tenant 0 (f.p 24 8) 128 (stewardAccess ledgerSrc) = (some (bs, bad), s1) → BlockOk s i f bs →
    (i.stepCmd = none → ∃ t, exec (.ledgerBind c) s = .next t ∧
      Finishes (s1.onInst i.id fun i => { i with binding := some (parseBinding bs).1 }) f OK 0 t) ∧
    (i.stepCmd ≠ none → ∃ t, exec (.ledgerBind c) s = .next t ∧
      Finishes (s1.onInst i.id fun i => { i with binding := some (parseBinding bs).1, cutoff := some (s.clk.gts, stewardSrc) }) f OK 0 t)) ∧
  (∀ (c : Serve) (f : Started) (s s2 : State) (md : Nat) (n : Session) (i : Fin 512), Serves s c 0x18 f → SessionPasses s f md n i s2 →
    ∃ t, exec (.mediaSessionOpen c) s = .next t ∧ Gone f t ∧ (t.sess { md := Fin.ofNat 4 md, idx := i }).isOpen = true ∧
      (t.sess { md := Fin.ofNat 4 md, idx := i }).tenant = f.tenant ∧ (t.sess { md := Fin.ofNat 4 md, idx := i }).params = n.params ∧
      (t.sess { md := Fin.ofNat 4 md, idx := i }).gen = (s2.sess { md := Fin.ofNat 4 md, idx := i }).gen) ∧
  (∀ (c : Serve) (f : Started) (s : State) (x : SessRef), Serves s c 0x19 f → f.accepted = false → s.sessOf f.tenant (f.p 20 4) = some x →
    ((s.sess x).due = [] → s.sessQuiet x = true → ∃ t, exec (.mediaSessionClose c) s = .next t ∧ t.sess x = { gen := (s.sess x).gen + 1 } ∧
      Gone f t) ∧
    (((s.sess x).due ≠ [] ∨ s.sessQuiet x = false) → ∃ t, exec (.mediaSessionClose c) s = .next t ∧ t.sess x = { s.sess x with closingCmd := some f.id } ∧ GoesOn f t)) ∧
  (∀ (c : Serve) (f : Started) (s : State), Serves s c 0x1A f → RecordPasses s f →
    ∃ t r, exec (.recordStart c) s = .next t ∧ Finishes (s.onCtx f.tenant fun k => { k with recorder := some r }) f OK 0 t ∧
      r.ringVa.toNat = f.p 24 8 ∧ r.ringBytes = f.p 32 8 ∧ r.stopWhenFull = decide (f.p 40 1 = 1) ∧ r.written = 0 ∧ r.records = 0 ∧
      r.startGts = s.clk.gts) ∧
  (∀ (c : Serve) (f : Started) (s : State) (r : Recorder), Serves s c 0x1B f → (s.ctx f.tenant).recorder = some r →
    ∃ t, exec (.recordStop c) s = .next t ∧ Finishes (s.stopRecorder f.tenant false) f OK r.records t ∧ (t.ctx f.tenant).recorder = none)

/-- TWIN_BIND sends BIND and waits for the peer, TWIN_UNBIND ends the binding after the steps that run. ASSAY_RUN enters the safe state when a class
fails. DOMAIN_DOWN and DOMAIN_UP close and open a die; SET_POWER_STATE goes to P0, P2 or, through the safe state, P3; SET_FCLK switches at a beat edge
with the field gated; SET_TIME_SOURCE selects an unlocked source. Pins are granted, returned and configured while the steward owns them; LINK_CONFIG
gives a port a mode, in which it trains (R33, R43, R244 to R251, R324, R362, R363, R376, R377, R396, R401). -/
def Obligations.PackageCommandsActOnTheirUnits : Prop :=
  (∀ (c : Serve) (f : Started) (s : State), Serves s c 0x1D f → f.accepted = false → f.p 20 1 ≤ 1 → f.p 21 1 ≤ 1 → s.twinUp = true →
    s.links.twin.tenant = none → (s.ctx f.tenant).replay = none → (s.port twinPort).peerId.toNat = f.p 24 8 →
    ∃ t m, exec (.twinBind c) s = .next t ∧ GoesOn f t ∧ t.links.twin.cmd = some f.id ∧ t.links.twin.tenant = some f.tenant ∧
      t.links.twin.safeMode = decide (f.p 20 1 = 1) ∧ t.links.twin.follow = decide (f.p 21 1 = 1) ∧ t.links.twin.bound = false ∧
      t.links.twin.sentCount = 1 ∧ Outgoing (t.port twinPort) m ∧ m.handle = 1 ∧ m.srcId = s.pkg.packageId) ∧
  (∀ (c : Serve) (f : Started) (s : State), Serves s c 0x1E f → f.accepted = false → Bound s → s.links.twin.tenant = some f.tenant →
    s.links.twin.unbindCmd = none → (∀ i ∈ s.instsOf f.tenant, i.run.running = false) →
    ∃ t, exec (.twinUnbind c) s = .next t ∧ t.links.twin = {} ∧ Gone f t) ∧
  (∀ (c : Serve) (f : Started) (s : State) (i : Instance), Serves s c 0x1E f → f.accepted = false → Bound s →
    s.links.twin.tenant = some f.tenant → s.links.twin.unbindCmd = none → i ∈ s.instsOf f.tenant → i.run.running = true → s.inst? i.id = some i →
    ∃ t, exec (.twinUnbind c) s = .next t ∧ Bound t ∧ t.links.twin.unbindCmd = some f.id ∧ GoesOn f t) ∧
  (∀ (c : Serve) (f : Started) (bad : BitVec 9) (src : Src) (s : State), Serves s c 0x1F f → f.accepted = false → f.p 20 2 ≤ 0x1FF →
    s.power.pstate ≠ .p2 → s.stepRuns = false → s.sessionRuns = false →
    (bad &&& BitVec.ofNat 9 (f.p 20 2) ≠ 0 → MayEnterSafe s → ∃ t, exec (.assayRun c bad src) s = .next t ∧ Gone f t ∧
      EntersSafe s t 1 (bad &&& BitVec.ofNat 9 (f.p 20 2)).toNat src) ∧
    (bad &&& BitVec.ofNat 9 (f.p 20 2) = 0 → f.p 20 2 % 16 = 0 → ∃ t, exec (.assayRun c bad src) s = .next t ∧ Finishes s f OK 0 t) ∧
    (bad &&& BitVec.ofNat 9 (f.p 20 2) = 0 → f.p 20 2 % 16 ≠ 0 → ∃ t, exec (.assayRun c bad src) s = .next t ∧
      ∀ x : Site, s.dieUp x.die.val = true → (t.tile x).parked = true)) ∧
  (∀ (c : Serve) (f : Started) (s : State), Serves s c 0x20 f → f.accepted = false → s.downRefusal f = none → f.p 21 1 = 0 →
    ∃ t, exec (.domainDown c) s = .next t ∧ GoesOn f t ∧ (t.die (f.p 20 1)).state = .closing ∧ (t.die (f.p 20 1)).cmd = some f.id ∧
      (t.die (f.p 20 1)).closingAt = s.clk.gts ∧ (t.die (f.p 20 1)).drained = false ∧ ∀ d, d ≠ f.p 20 1 → t.die d = s.die d) ∧
  (∀ (c : Serve) (f : Started) (bad : BitVec 9) (s : State), Serves s c 0x21 f → f.accepted = false → s.power.pstate ≠ .p2 →
    s.domainKind (f.p 20 1) = true → (s.die (f.p 20 1)).state = .off →
    ∃ t, exec (.domainUp c bad) s = .next t ∧ GoesOn f t ∧ t.die (f.p 20 1) = { s.die (f.p 20 1) with cmd := some f.id } ∧
      ∀ d, d ≠ f.p 20 1 → t.die d = s.die d) ∧
  (∀ (c : Serve) (f : Started) (bad : BitVec 9) (s : State), Serves s c 0x21 f → f.accepted = true → (s.die (f.p 20 1)).full = true →
    (bad &&& s.upClasses (f.p 20 1) = 0 → ∃ t, exec (.domainUp c bad) s = .next t ∧ Gone f t ∧ (t.die (f.p 20 1)).state = .on ∧
      ∀ x : Site, x.die.val = f.p 20 1 → (t.tile x).parked = true) ∧
    (bad &&& s.upClasses (f.p 20 1) ≠ 0 → ∃ t, exec (.domainUp c bad) s = .next t ∧
      Finishes (s.onDie (f.p 20 1) fun p => { steps := p.steps, stages := p.stages, lastStep := p.lastStep }) f E_ASSAY 0 t)) ∧
  (∀ (c : Serve) (f : Started) (s : State), Serves s c 0x22 f → f.p 20 1 = 0 →
    (s.power.pstate ≠ .p2 → ∃ t, exec (.setPowerStateP0 c) s = .next t ∧ Finishes s f OK 0 t) ∧
    (s.power.pstate = .p2 → f.accepted = false → s.mem.selfRefresh = true → ∃ t, exec (.setPowerStateP0 c) s = .next t ∧ GoesOn f t ∧
      t.mem.selfRefresh = false ∧ ∀ d ∈ p2Dies, (t.die d).cmd = some f.id) ∧
    (s.power.pstate = .p2 → f.accepted = true → (∀ d ∈ p2Dies, (s.die d).full = true) → ∃ t, exec (.setPowerStateP0 c) s = .next t ∧ Gone f t ∧
      t.power.pstate = .p0 ∧ ∀ d ∈ p2Dies, (t.die d).state = .on)) ∧
  (∀ (c : Serve) (f : Started) (s : State), Serves s c 0x22 f → f.p 20 1 = 2 → f.accepted = false → s.power.pstate ≠ .p2 →
    (s.stepRuns = false → s.sessionRuns = false → s.domainRuns = false → ∃ t, exec (.setPowerStateP2 c) s = .next t ∧ t.power.pstate = .p2 ∧
      ∀ d ∈ p2Dies, s.dieUp d = true → (t.die d).state = .closing) ∧
    (s.stepRuns = true → ∃ t, exec (.setPowerStateP2 c) s = .next t ∧ Finishes s f E_POWER_BUSY 0 t)) ∧
  (∀ (c : Serve) (f : Started) (s : State), Serves s c 0x22 f → f.p 20 1 = 3 → MayEnterSafe s →
    ∃ t, exec (.setPowerStateP3 c) s = .next t ∧ EntersSafe s t 7 0 0x6000 ∧ t.host.started = s.host.started) ∧
  (∀ (c : Serve) (f : Started) (s : State), Serves s c 0x23 f → f.p 20 1 < 3 →
    (s.fieldGated = true → s.clk.units % 480 = 0 → ∃ t, exec (.setFclk c) s = .next t ∧
      Finishes { s with clk := { s.clk with point := Fin.ofNat 3 (f.p 20 1) } } f OK 0 t) ∧
    (s.fieldGated = false → ∃ t, exec (.setFclk c) s = .next t ∧ Finishes s f E_POWER_BUSY 0 t)) ∧
  (∀ (c : Serve) (f : Started) (s : State), Serves s c 0x24 f → f.p 20 1 ≤ 3 →
    (f.p 20 1 = 3 → dieKind s.pkg.variant (f.p 21 1) = some .xd ∧ s.ethUp (f.p 21 1) = true) →
    ∃ t, exec (.setTimeSource c) s = .next t ∧ Completed s f OK 0 t ∧ t.time.source = sourceOf (f.p 20 1) ∧ t.time.locked = false ∧
      t.time.holdover = false ∧ t.time.rateOffset = 0 ∧ t.time.taiOffset = s.time.taiOffset ∧
      (f.p 20 1 = 2 → t.time.taiSeconds.toNat = f.p 24 8) ∧ t.clk = s.clk) ∧
  (∀ (c : Serve) (f : Started) (s : State), Serves s c 0x25 f → f.p 20 1 < 24 → f.p 21 1 = 0 → (s.pin (f.p 20 1)).function = 0 →
    ((s.pin (f.p 20 1)).owner = .steward → ∃ t, exec (.gpioGrant c) s = .next t ∧
      Finishes (s.onPin (f.p 20 1) fun p => { p with owner := .granted f.tenant }) f OK 0 t) ∧
    (∀ u : Tenant, u ≠ f.tenant → (s.pin (f.p 20 1)).owner = .granted u → ∃ t, exec (.gpioGrant c) s = .next t ∧ Finishes s f E_PIN_BUSY 0 t)) ∧
  (∀ (c : Serve) (f : Started) (s : State), Serves s c 0x25 f → f.p 20 1 < 24 → f.p 21 1 = 1 → (s.pin (f.p 20 1)).function = 0 →
    (s.pin (f.p 20 1)).owner = .granted f.tenant → s.pinNamed f.tenant (f.p 20 1) = false →
    ∃ t, exec (.revoke c) s = .next t ∧ Completed s f OK 0 t ∧ (t.pin (f.p 20 1)).owner = .steward ∧
      (t.pin (f.p 20 1)).out = (s.pin (f.p 20 1)).out ∧ ∀ n, n ≠ f.p 20 1 → t.pin n = s.pin n) ∧
  (∀ (c : Serve) (f : Started) (s : State), Serves s c 0x26 f → f.p 20 1 < 24 → modeOk (f.p 20 1) (f.p 21 1) = true → f.p 24 2 ≠ 0 →
    s.vectorOk .pf0 (f.p 26 2) = true →
    ((s.pin (f.p 20 1)).owner = .steward → ∃ t, exec (.gpioConfig c) s = .next t ∧ Completed s f OK 0 t ∧
      (t.pin (f.p 20 1)).mode.toNat = f.p 21 1 ∧ (t.pin (f.p 20 1)).debounce.toNat = f.p 22 1 ∧ (t.pin (f.p 20 1)).tick.toNat = f.p 24 2 ∧
      (t.pin (f.p 20 1)).level = (s.pin (f.p 20 1)).pad ∧ (t.pin (f.p 20 1)).out = (s.pin (f.p 20 1)).out ∧
      ∀ n, n ≠ f.p 20 1 → t.pin n = s.pin n) ∧
    ((s.pin (f.p 20 1)).owner ≠ .steward → ∃ t, exec (.gpioConfig c) s = .next t ∧ Finishes s f E_PIN_BUSY 0 t)) ∧
  (∀ (c : Serve) (f : Started) (s : State) (p : PortRef), Serves s c 0x27 f → f.accepted = false → s.linkRefusal f = none →
    p = { xd := Fin.ofNat 8 (xdNumber (f.p 20 1)), lane := Fin.ofNat 8 (f.p 21 1) } →
    (f.p 22 1 ≠ 0 → ∃ t, exec (.linkConfig c) s = .next t ∧ GoesOn f t ∧ (t.port p).mode.toNat = f.p 22 1 ∧ (t.port p).state = .training ∧
      (t.port p).trainSince = s.clk.gts ∧ t.ethPort p = {} ∧ ∀ q, q ≠ p → t.port q = s.port q) ∧
    (f.p 22 1 = 0 → ∃ t, exec (.linkConfig c) s = .next t ∧ Completed s f OK 0 t ∧ t.port p = {} ∧ ∀ q, q ≠ p → t.port q = s.port q))

namespace Sys2Proof.Claims

/-- COMMAND_FETCH of the ring whose turn it is takes its entry: CONS goes up, and the command is in progress under the next id, or completes at once with
the status that refuses it; it waits where FENCE or a shared object says so. A read that fails stops the ring. A ring whose turn it is not is left as it is
(R300, R305 to R308). -/
def CommandsAreFetchedInTurn : Prop :=
  (∀ (r : SubRing) (a : HostAnswer) (s : State), s.mayFetch r = false → exec (.commandFetch r a) s = .next s) ∧
  (∀ (r : SubRing) (w : Flit) (s : State) (f : Started), s.mayFetch r = true →
    f = { id := s.host.nextId, ring := r, consAfter := (s.ring (subSel r)).cons + 1, w := w } → (bitAt w 9 = false ∨ s.inProgress r = 0) →
    s.conflicts f = false →
    (s.refusal f = none → ∃ t, exec (.commandFetch r (.entry w)) s = .next t ∧ t.host.started = s.host.started ++ [f] ∧
      t.host.nextId = s.host.nextId + 1 ∧ t.host.lastServed = some r ∧ OnlyRing (subSel r) s t ∧
      t.ring (subSel r) = { s.ring (subSel r) with cons := (s.ring (subSel r)).cons + 1 }) ∧
    (∀ st : Status, s.refusal f = some st → ∃ t, exec (.commandFetch r (.entry w)) s = .next t ∧ Gone f t ∧
      (t.ring (subSel r)).cons = (s.ring (subSel r)).cons + 1 ∧ (t.ring (complSel r)).prod = (s.ring (complSel r)).prod + 1 ∧
      Memory.read t.host.mem ((s.ring (complSel r)).addr (s.ring (complSel r)).prod 32) 2 = leBytes 2 st.toNat)) ∧
  (∀ (r : SubRing) (w : Flit) (s : State) (f : Started), s.mayFetch r = true →
    f = { id := s.host.nextId, ring := r, consAfter := (s.ring (subSel r)).cons + 1, w := w } →
    ((bitAt w 9 = true ∧ 0 < s.inProgress r) ∨ s.conflicts f = true) →
    exec (.commandFetch r (.entry w)) s = .next { s with host := { s.host with lastServed := some r } }) ∧
  (∀ (r : SubRing) (a : HostAnswer) (s : State), s.mayFetch r = true → (∀ w, a ≠ .entry w) →
    ∃ t, exec (.commandFetch r a) s = .next t ∧ OnlyRing (subSel r) s t ∧ (t.ring (subSel r)).stopped = true ∧
      (t.ring (subSel r)).enable = false ∧ t.host.started = s.host.started)

end Sys2Proof.Claims

/-- Commands are fetched in turn; NOP, IDENTIFY and GET_GRADE_MAP change nothing but their result and completion. -/
def Obligations.CommandsAreFetchedInTurnAndReport : Prop := CommandsAreFetchedInTurn ∧ ReportingCommandsChangeNothingElse

/-! ## Rules stated whole -/

/-- SET_PLACEMENT sets a tenant's policy: FIRST_FREE, which is also what a context has as it opens, or AFFINITY with a limit of 1 to 255; any other value is
refused and sets nothing (R286). -/
def Obligations.PlacementIsFirstFreeOrAffinity : Prop :=
  (∀ (c : Serve) (f : Started) (s : State), Serves s c 0x03 f → s.openRefusal f = none →
    ∃ t, exec (.openContext c) s = .next t ∧ (t.ctx f.tenant).placement = .firstFree) ∧
  (∀ (c : Serve) (f : Started) (s : State), Serves s c 0x16 f → s.isFollow f.tenant = false → f.p 20 1 = 0 →
    ∃ t, exec (.setPlacement c) s = .next t ∧ Completed s f OK 0 t ∧ (t.ctx f.tenant).placement = .firstFree) ∧
  (∀ (c : Serve) (f : Started) (s : State), Serves s c 0x16 f → s.isFollow f.tenant = false → f.p 20 1 = 1 → 1 ≤ f.p 21 1 →
    ∃ t n, exec (.setPlacement c) s = .next t ∧ Completed s f OK 0 t ∧ (t.ctx f.tenant).placement = .affinity n ∧ n.toNat = f.p 21 1 ∧
      1 ≤ n.toNat ∧ n.toNat ≤ 255) ∧
  (∀ (c : Serve) (f : Started) (s : State), Serves s c 0x16 f → s.isFollow f.tenant = false → (1 < f.p 20 1 ∨ (f.p 20 1 = 1 ∧ f.p 21 1 = 0)) →
    ∃ t, exec (.setPlacement c) s = .next t ∧ Finishes s f E_BAD_FIELD 0 t)

namespace Sys2Proof.Claims

/-- The error of a fetch that the host does not answer with an entry. -/
def failedBy : HostAnswer → Option HostError
  | .entry _ => none
  | .timeout => some .timeout
  | .abort => some .abort
  | .unsupported => some .unsupported

end Sys2Proof.Claims

/-- A failed fetch of a command entry stops its ring: STOPPED is set, ENABLE cleared, RING_FAULT logged with the ring and the index. Commands already
started are in progress as before, and one that is served after it completes (R308). -/
def Obligations.AFailedFetchStopsItsRing : Prop :=
  ∀ (r : SubRing) (a : HostAnswer) (e : HostError) (s : State), s.mayFetch r = true → failedBy a = some e →
    ∃ t, exec (.commandFetch r a) s = .next t ∧ (t.ring (subSel r)).stopped = true ∧ (t.ring (subSel r)).enable = false ∧
      (∀ q, q ≠ subSel r → t.ring q = s.ring q) ∧ t.host.started = s.host.started ∧
      t.merger = ((s.pcieError (ringFn (subSel r)) (hostErrorKind e) ((s.ring (subSel r)).addr (s.ring (subSel r)).cons 64)).logEv stewardSrc
        RING_FAULT (match r with | .admin => noTenant | .ctx c => tenantByte c)
        ((match r with | .admin => [0, noTenant, 0, 0] | .ctx c => [4, tenantByte c, 0, 0]) ++ leBytes 4 (s.ring (subSel r)).cons.toNat)).merger ∧
      ∀ (c : Serve) (f : Started), Serves s c 0x28 f → ∃ u, exec (.nopCommand c) t = .next u ∧ Finishes t f OK 0 u

/-- Doorbells that arrive before READY are accepted: they set PROD. No command starts before READY: a fetch does nothing. Once the start assay has set READY,
the admin ring's command is fetched, and is in progress or refused (R321). -/
def Obligations.DoorbellsBeforeReadyWait : Prop :=
  (∀ (v : Word) (s : State), s.fnLive .pf0 = true → s.host.ready = false → DoorbellTakes (s.ring .asq) v →
    ∃ t, exec (.adbWrite .pf0 4 v) s = .next t ∧ t.ring .asq = { s.ring .asq with prod := v } ∧ t.host.ready = false) ∧
  (∀ (c : Tenant) (v : Word) (s : State), s.fnLive (.vf c) = true → s.host.ready = false → (s.ctx c).isOpen = true → (s.ctx c).closing = false →
    DoorbellTakes (s.ring (.csq c)) v →
    ∃ t, exec (.cdbWrite (.vf c) c 4 v) s = .next t ∧ t.ring (.csq c) = { s.ring (.csq c) with prod := v } ∧ t.host.ready = false) ∧
  (∀ (r : SubRing) (a : HostAnswer) (s : State), s.host.ready = false → exec (.commandFetch r a) s = .next s) ∧
  (∀ (us : Word) (w : Flit) (s : State), s.alive = true → s.host.ready = false → s.host.safePending = false → s.host.straps.testModeN = true →
    s.waitingRing .admin = true → s.host.started = [] → s.host.lastServed = none →
    ∃ t u, exec (.startAssay (.pass us)) s = .next t ∧ exec (.commandFetch .admin (.entry w)) t = .next u ∧
      (u.ring .asq).cons = (s.ring .asq).cons + 1 ∧
      ((∃ f, u.host.started = [f] ∧ f.w = w ∧ f.ring = .admin) ∨ (u.ring .acq).prod = (s.ring .acq).prod + 1))

namespace Sys2Proof.Claims

/-- Commands that raise a safe-state cause of Table IG-8 in a state. -/
def Raises (i : Instr) (s : State) (cause : Nat) : Prop :=
  match i with
  | .thermtripN => cause = 5
  | .heartbeat => s.alive = true ∧ cause = 3
  | .lockstep => s.alive = true ∧ cause = 2
  | .pllLock .tclk => s.alive = true ∧ cause = 4
  | .pllLock (.locked _) => s.alive = true ∧ cause = 4
  | .twinSync => s.alive = true ∧ s.safeBound = true ∧ cause = 6
  | .shutdown x => x.pecOk = true ∧ x.data = 0xA5 ∧ s.power.pstate ≠ .p3 ∧ cause = 7
  | _ => False

/-- Field-die steps that the descent still has to take on a die. -/
def stepsLeft (s : State) (d : Nat) : Nat := (s.die d).steps + (s.die d).stages

/-- The descent of a state goes on to P3: each field die that is not off takes a step when one is due and the tiles carry no weight, the descent
stays, and with every field die off its end is P3. -/
def DescentReachesP3 : Prop :=
  (∀ (d : Die) (v : State), d.val < 16 → v.power.descent = true → v.alive = true → v.stepDue d.val = true →
    (∀ e, e < 16 → v.tilesQuiet e = true) → 0 < stepsLeft v d.val →
    ∃ u, exec (.powerStep d) v = .next u ∧ u.power.descent = true ∧ stepsLeft u d.val + 1 = stepsLeft v d.val ∧
      (∀ e, e ≠ d.val → u.die e = v.die e)) ∧
  (∀ v : State, v.power.descent = true → (∀ d, d < 16 → stepsLeft v d = 0) → ∃ u, exec .descentEnd v = .next u ∧ u.power.pstate = .p3)

end Sys2Proof.Claims

/-- Every safe-state cause sends the package to P3, from P0, P1 (P0 with its field gated) or P2: the cause is recorded where none was, the descent begins, and
with every field die off it ends in P3. A second cause sets MORE in the record and changes nothing else. The commands that raise a cause do the
same (R389). -/
def Obligations.EveryCauseLeadsToP3 : Prop :=
  DescentReachesP3 ∧
  (∀ (cause detail : Nat) (src : Src) (s : State), MayEnterSafe s → EntersSafe s (s.enterSafe cause detail src) cause detail src) ∧
  (∀ (cause detail : Nat) (src : Src) (s : State), s.power.pwrGood = true → s.host.safePending = true → s.ao.valid = true →
    s.enterSafe cause detail src = { s with ao := { s.ao with more := true } }) ∧
  (∀ (i : Instr) (cause : Nat) (s : State), Raises i s cause → MayEnterSafe s →
    ∃ t, exec i s = .next t ∧ t.host.safePending = true ∧ t.power.descent = true ∧ t.ao.valid = true ∧
      (s.ao.valid = false → t.ao.cause.toNat = cause)) ∧
  (∀ (i : Instr) (cause : Nat) (s : State), Raises i s cause → s.power.pwrGood = true → s.host.safePending = true → s.ao.valid = true →
    ∃ t, exec i s = .next t ∧ t.ao = { s.ao with more := true } ∧ t.power = s.power ∧ t.host = s.host ∧ t.tiles = s.tiles ∧
      t.merger = s.merger)

namespace Sys2Proof.Claims

/-- A CFG_LIVE_WRITE entry: the tile's source number and its GTS; the writer's source number, the section that is active, the offset in the active view and the
value written. -/
def liveEntry (s : State) (x : Site) (writer : Src) (o : Nat) (v : Word) : Event :=
  { stamp := s.localGts x.die.val, src := siteSrc x,
    body := .log CFG_LIVE_WRITE (severityOf CFG_LIVE_WRITE) (optTenant (s.ownerOf x))
      (leBytes 2 writer.toNat ++ leBytes 2 (s.tile x).active.sect ++ leBytes 4 o ++ leBytes 4 v.toNat) }

end Sys2Proof.Claims

/-- A write to an RWS field through the active view of a tile whose STATE does not read PARKED makes a CFG_LIVE_WRITE entry with the tile's source number and GTS, and with
the writer, 0xFFFF for the host, the offset, the value and ACTIVE_SECTION as its payload (R98). -/
def Obligations.LiveWritesAreLogged : Prop :=
  (∀ (x : Site) (w : Src) (i : Nat) (v : Word) (s : State), s.slotUp x = true → s.tileStateNum x ≠ 0 → HoldsField (siteKind x) i →
    ∃ t, exec (.activeViewWrite x w (BitVec.ofNat 14 (4 * i)) v) s = .next t ∧
      t.merger = (s.emitAt x.die.val (liveEntry s x w (4 * i) v)).merger) ∧
  (∀ (off : BitVec 26) (d u i : Nat) (x : Site) (v : DWord) (s : State), s.fnLive .pf0 = true → 0x01000000 ≤ off.toNat → off.toNat < 0x02000000 →
    off.toNat % 4 = 0 → s.ctlTarget (s.bar4Dpa off.toNat) = some (d, u, 4 * i) → s.slotOf d u = .tile x → s.tileStateNum x ≠ 0 → HoldsField (siteKind x) i →
    ∃ t, exec (.registerWrite (.bar4 .pf0) off 4 v) s = .next t ∧
      t.merger = (s.emitAt x.die.val (liveEntry s x 0xFFFF (4 * i) (v.extractLsb' 0 32))).merger)

namespace Sys2Proof.Claims

/-- A command that the steward serves, in every state where a condition on the command and the state holds, runs to a next state with an effect. -/
def Completes (i : Serve → Instr) (op : Nat) (ok : Started → State → Prop) (eff : Started → State → State → Prop) : Prop :=
  ∀ (c : Serve) (f : Started) (s : State), Serves s c op f → ok f s → ∃ t, exec (i c) s = .next t ∧ eff f s t

/-- The tenant that a command acts on. -/
def own (f : Started) (s : State) : Context := s.ctx f.tenant

/-- The commands on contexts, layouts and steps complete or go on. -/
def ContextCommandsComplete : Prop :=
  Completes .openContext 0x03 (fun f s => s.openRefusal f = none) (fun f s t => Completed s f OK 0 t ∧ (own f t).isOpen = true) ∧
  Completes .closeContext 0x04
    (fun f s => s.instsOf f.tenant = [] ∧ (own f s).replay = none ∧ ∀ g ∈ s.host.started, onContext f.tenant g = true → isClose f.tenant g = true)
    (fun f _ t => Gone f t ∧ (own f t).isOpen = false) ∧
  Completes .setShares 0x05 (fun f s => f.p 20 1 ≤ 64 ∧ f.p 21 1 ≤ 1 ∧ s.otherShares f.tenant + f.p 20 1 ≤ 62)
    (fun f s t => Completed s f OK 0 t ∧ ∀ n, s.frame < n → (own f t).shares.at n = (f.p 20 1, decide (f.p 21 1 = 1))) ∧
  Completes .setBudget 0x0B (fun f _ => 0 < f.p 20 4 ∧ f.p 20 4 ≤ 10000000 ∧ f.p 24 1 = 0)
    (fun f s t => Completed s f OK 0 t ∧ (own f t).budget = some (f.p 20 4)) ∧
  Completes .setPlacement 0x16 (fun f s => s.isFollow f.tenant = false ∧ f.p 20 1 = 0)
    (fun f s t => Completed s f OK 0 t ∧ (own f t).placement = .firstFree) ∧
  Completes .beaconConfig 0x17 (fun f s => f.p 20 2 < 4096 ∧ f.p 22 1 ≤ 3 ∧ s.vectorOk (.vf f.tenant) (f.p 28 2) = true)
    (fun f s t => Completed s f OK 0 t ∧ (t.beacon f.tenant (BitVec.ofNat 12 (f.p 20 2))).mode.toNat = f.p 22 1 ∧
      (t.beacon f.tenant (BitVec.ofNat 12 (f.p 20 2))).value = (s.beacon f.tenant (BitVec.ofNat 12 (f.p 20 2))).value) ∧
  Completes .loadLayout 0x06 (fun f s => ∃ k u, LoadPasses s f k u)
    (fun f _ t => ∃ l i, t.lastLayout = some l ∧ t.inst? l = some i ∧ i.tenant = f.tenant ∧
      ((i.loadCmd = some f.id ∧ GoesOn f t) ∨ (i.loaded = true ∧ Gone f t))) ∧
  Completes .unloadLayout 0x07
    (fun f s => f.accepted = false ∧ ∃ i, s.inst? (BitVec.ofNat 8 (f.p 20 1)) = some i ∧ i.id = BitVec.ofNat 8 (f.p 20 1) ∧
      i.tenant = f.tenant ∧ i.loaded = true ∧ i.run.running = false)
    (fun f _ t => Gone f t ∧ t.inst? (BitVec.ofNat 8 (f.p 20 1)) = none) ∧
  Completes .step 0x08 (fun f s => f.accepted = false ∧ s.stepRefusal f = none ∧ (s.inst? (BitVec.ofNat 8 (f.p 20 1))).isSome = true)
    (fun f _ t => GoesOn f t ∧ ∃ j, t.inst? (BitVec.ofNat 8 (f.p 20 1)) = some j ∧ j.stepCmd = some f.id) ∧
  Completes .yield 0x09 (fun f s => PreemptPasses s f 0 ∧ (withPreempting s f false).preemptReady f.tenant false = true)
    (fun f _ t => Gone f t ∧ (own f t).preempted = true ∧ (own f t).saved.isSome = true) ∧
  Completes .evict 0x09 (fun f s => PreemptPasses s f 1 ∧ ((withPreempting s f true).evictStart f.tenant).preemptReady f.tenant true = true)
    (fun f _ t => Gone f t ∧ (own f t).preempted = true ∧ (own f t).saved.isSome = true) ∧
  Completes .resume 0x0A
    (fun f s => s.power.pstate = .p0 ∧ ∃ v, (own f s).saved = some v ∧ s.savedBusy f.tenant v = false ∧ s.savedBad v = false)
    (fun f s t => Gone f t ∧ (own f t).preempted = false ∧ (own f s).saved.map (fun v => v.regions) = some (own f t).regions) ∧
  Completes .replayStart 0x1C (fun f s => ∃ i r, ReplayPasses s f i r) (fun f _ t => ∃ r, (own f t).replay = some r)

/-- The commands on memory and windows complete. -/
def MemoryCommandsComplete : Prop :=
  Completes .memMap 0x0C
    (fun f s => MapOk s f ∧ bitsOf f.w 165 1 = 1 ∧ f.p 40 8 % 65536 = 0 ∧ f.p 40 8 + f.p 32 8 ≤ 2 ^ 48 ∧
      (∀ i, i < f.p 32 8 / 65536 → f.p 40 8 / 65536 + i ∈ (own f s).frameSet) ∧ RoomForTables s (3 * (f.p 32 8 / 65536) + 1))
    (fun f s t => Completed s f OK (f.p 40 8) t ∧ ∀ acc,
      (own f t).walk (f.p 24 8) acc = leafCheck acc (f.p 24 8) false (leafEntry (f.p 40 8) (f.p 20 1))) ∧
  Completes .memUnmap 0x0D
    (fun f s => f.p 32 8 ≠ 0 ∧ f.p 24 8 % 65536 = 0 ∧ f.p 32 8 % 65536 = 0 ∧ f.p 24 8 + f.p 32 8 ≤ 2 ^ 48 ∧ s.translating f.tenant = false ∧
      s.mediaCovers f.tenant (f.p 24 8) (f.p 32 8) = false ∧ RoomForTables s 2)
    (fun f s t => Completed s f OK 0 t ∧ ∀ acc d big e, (own f t).walk (f.p 24 8) acc ≠ .ok d big e) ∧
  Completes .faultResolveResume 0x0E (fun f s => f.p 22 1 = 0 ∧ (s.faultTile f.tenant (f.p 20 2)).isSome = true)
    (fun f s t => ∀ x, s.faultTile f.tenant (f.p 20 2) = some x → Finishes (s.tldwRestart x) f OK 0 t) ∧
  Completes .faultResolveAbort 0x0E (fun f s => f.p 22 1 = 1 ∧ (s.faultTile f.tenant (f.p 20 2)).isSome = true)
    (fun f s t => ∀ x, s.faultTile f.tenant (f.p 20 2) = some x → Finishes (s.causeAt x E_TLDW_FAULT (siteSrc x)) f OK 0 t) ∧
  Completes .mapWindowExport 0x0F
    (fun f s => f.p 20 1 = 0 ∧ f.windowBad = false ∧ f.exportBad = false ∧ s.exportRefusal f = none ∧ (freeHandle s.mem.exports).isSome = true)
    (fun f s t => ∃ h, freeHandle s.mem.exports = some h ∧ Completed s f OK h t ∧ (t.exportOf h).isOpen = true ∧
      (t.exportOf h).size.toNat = f.p 40 8) ∧
  Completes .mapWindowImport 0x0F
    (fun f s => f.p 20 1 = 1 ∧ f.windowBad = false ∧ f.p 24 2 ≤ 4095 ∧ (freeHandle (own f s).imports).isSome = true ∧
      ∃ p, s.windowPort (f.window true) = some p ∧ isWindowMode (s.port p).mode = true)
    (fun f s t => ∃ h, freeHandle (own f s).imports = some h ∧ Completed s f OK h t ∧ (Map.get {} (own f t).imports h).isOpen = true) ∧
  Completes .unmapWindow 0x10
    (fun f s => f.accepted = false ∧ f.p 20 1 = 0 ∧ (s.exportOf (f.p 24 2)).isOpen = true ∧ (s.exportOf (f.p 24 2)).closing = none ∧
      (s.exportOf (f.p 24 2)).tenant = tenantByte f.tenant ∧ s.exportBusy (f.p 24 2) = false)
    (fun f s t => Completed s f OK 0 t ∧ t.mem.exports = Map.del s.mem.exports (f.p 24 2))

/-- The commands on streams, bindings, sessions and recordings complete. -/
def StreamCommandsComplete : Prop :=
  Completes .openStream 0x11
    (fun f s => f.p 21 1 = 0 ∧ s.openStreams f.tenant < (own f s).streamQuota ∧ s.freeRecord.isSome = true)
    (fun f s t => ∃ n, s.freeRecord = some n ∧ Completed s f OK (n + (s.stream n).gen.toNat * 2 ^ 24) t ∧ (t.stream n).state = 1) ∧
  Completes .closeStream 0x12
    (fun f s => ∃ n, s.streamOf f.tenant (f.p 20 4) = some n ∧ (s.stream n).closeCmd = none ∧ (s.stream n).state ≠ 3)
    (fun f s t => Completed s f OK 0 t ∧ ∀ n, s.streamOf f.tenant (f.p 20 4) = some n → t.stream n = { gen := (s.stream n).gen + 1 }) ∧
  Completes .streamInput 0x13
    (fun f s => s.isFollow f.tenant = false ∧ bitsOf (BitVec.ofNat 128 (f.p 32 16)) 48 16 = 0 ∧ ∃ n, s.streamOf f.tenant (f.p 20 4) = some n ∧
      (s.stream n).state ≠ 4 ∧ (s.stream n).state ≠ 5 ∧ (s.stream n).closePending = false ∧ (s.stream n).inputs.length < 8)
    (fun f s t => Completed s f OK 0 t ∧ ∀ n, s.streamOf f.tenant (f.p 20 4) = some n →
      (t.stream n).inputs = (s.stream n).inputs ++ [BitVec.ofNat 128 (f.p 32 16)]) ∧
  Completes .streamQuery 0x14 (fun f s => (s.streamOf f.tenant (f.p 20 4)).isSome = true) (fun f s t => Gone f t ∧ t.streams = s.streams) ∧
  Completes .ledgerBind 0x15
    (fun f s => ∃ i bs bad s1, s.inst? (BitVec.ofNat 8 (f.p 20 1)) = some i ∧ i.id = BitVec.ofNat 8 (f.p 20 1) ∧ i.tenant = f.tenant ∧ i.loaded = true ∧
      i.binding = none ∧ i.run.running = false ∧ s.vaRead f.tenant 0 (f.p 24 8) 128 (stewardAccess ledgerSrc) = (some (bs, bad), s1) ∧
      BlockOk s i f bs)
    (fun f _ t => Gone f t ∧ ∃ j, t.inst? (BitVec.ofNat 8 (f.p 20 1)) = some j ∧ j.binding.isSome = true) ∧
  Completes .mediaSessionOpen 0x18 (fun f s => ∃ md n i s2, SessionPasses s f md n i s2)
    (fun f s t => Gone f t ∧ ∃ x : SessRef, (s.sess x).isOpen = false ∧ (t.sess x).isOpen = true ∧ (t.sess x).tenant = f.tenant) ∧
  Completes .mediaSessionClose 0x19
    (fun f s => f.accepted = false ∧ ∃ x, s.sessOf f.tenant (f.p 20 4) = some x ∧ (s.sess x).due = [] ∧ s.sessQuiet x = true)
    (fun f s t => Gone f t ∧ ∀ x, s.sessOf f.tenant (f.p 20 4) = some x → t.sess x = { gen := (s.sess x).gen + 1 }) ∧
  Completes .recordStart 0x1A (fun f s => RecordPasses s f)
    (fun f s t => Completed s f OK 0 t ∧ ∃ r, (own f t).recorder = some r ∧ r.ringVa.toNat = f.p 24 8 ∧ r.records = 0) ∧
  Completes .recordStop 0x1B (fun f s => (own f s).recorder.isSome = true)
    (fun f s t => Gone f t ∧ (own f t).recorder = none ∧
      ∀ r, (own f s).recorder = some r → Completed (s.stopRecorder f.tenant false) f OK r.records t)

/-- The package's commands complete or go on. -/
def PackageCommandsComplete : Prop :=
  Completes .twinBind 0x1D
    (fun f s => f.accepted = false ∧ f.p 20 1 ≤ 1 ∧ f.p 21 1 ≤ 1 ∧ s.twinUp = true ∧ s.links.twin.tenant = none ∧ (own f s).replay = none ∧
      (s.port twinPort).peerId.toNat = f.p 24 8)
    (fun f _ t => GoesOn f t ∧ t.links.twin.cmd = some f.id ∧ t.links.twin.tenant = some f.tenant ∧ ∃ m, Outgoing (t.port twinPort) m ∧ m.handle = 1) ∧
  Completes .twinUnbind 0x1E
    (fun f s => f.accepted = false ∧ Bound s ∧ s.links.twin.tenant = some f.tenant ∧ s.links.twin.unbindCmd = none ∧
      ∀ i ∈ s.instsOf f.tenant, i.run.running = false)
    (fun f _ t => Gone f t ∧ t.links.twin = {}) ∧
  (∀ (bad : BitVec 9) (src : Src), Completes (fun c => .assayRun c bad src) 0x1F
    (fun f s => f.accepted = false ∧ f.p 20 2 ≤ 0x1FF ∧ s.power.pstate ≠ .p2 ∧ s.stepRuns = false ∧ s.sessionRuns = false ∧
      bad &&& BitVec.ofNat 9 (f.p 20 2) = 0 ∧ f.p 20 2 % 16 = 0)
    (fun f s t => Finishes s f OK 0 t)) ∧
  Completes .domainDown 0x20 (fun f s => f.accepted = false ∧ s.downRefusal f = none ∧ f.p 21 1 = 0)
    (fun f _ t => GoesOn f t ∧ (t.die (f.p 20 1)).state = .closing) ∧
  (∀ bad : BitVec 9, Completes (fun c => .domainUp c bad) 0x21
    (fun f s => f.accepted = true ∧ (s.die (f.p 20 1)).full = true ∧ bad &&& s.upClasses (f.p 20 1) = 0)
    (fun f _ t => Gone f t ∧ (t.die (f.p 20 1)).state = .on)) ∧
  Completes .setPowerStateP0 0x22
    (fun f s => f.p 20 1 = 0 ∧ s.power.pstate = .p2 ∧ f.accepted = true ∧ ∀ d ∈ p2Dies, (s.die d).full = true)
    (fun f _ t => Gone f t ∧ t.power.pstate = .p0 ∧ ∀ d ∈ p2Dies, (t.die d).state = .on) ∧
  Completes .setPowerStateP2 0x22
    (fun f s => f.p 20 1 = 2 ∧ f.accepted = false ∧ s.power.pstate ≠ .p2 ∧ s.stepRuns = false ∧ s.sessionRuns = false ∧ s.domainRuns = false)
    (fun _ s t => t.power.pstate = .p2 ∧ ∀ d ∈ p2Dies, s.dieUp d = true → (t.die d).state = .closing) ∧
  Completes .setPowerStateP3 0x22 (fun f s => f.p 20 1 = 3 ∧ MayEnterSafe s) (fun _ s t => EntersSafe s t 7 0 0x6000) ∧
  Completes .setFclk 0x23 (fun f s => f.p 20 1 < 3 ∧ s.fieldGated = true ∧ s.clk.units % 480 = 0)
    (fun f s t => Completed s f OK 0 t ∧ t.clk.point.val = f.p 20 1) ∧
  Completes .setTimeSource 0x24 (fun f _ => f.p 20 1 ≤ 2) (fun f s t => Completed s f OK 0 t ∧ t.time.source = sourceOf (f.p 20 1)) ∧
  Completes .gpioGrant 0x25
    (fun f s => f.p 20 1 < 24 ∧ f.p 21 1 = 0 ∧ (s.pin (f.p 20 1)).function = 0 ∧ (s.pin (f.p 20 1)).owner = .steward)
    (fun f s t => Completed s f OK 0 t ∧ (t.pin (f.p 20 1)).owner = .granted f.tenant) ∧
  Completes .revoke 0x25
    (fun f s => f.p 20 1 < 24 ∧ f.p 21 1 = 1 ∧ (s.pin (f.p 20 1)).function = 0 ∧ (s.pin (f.p 20 1)).owner = .granted f.tenant ∧
      s.pinNamed f.tenant (f.p 20 1) = false)
    (fun f s t => Completed s f OK 0 t ∧ (t.pin (f.p 20 1)).owner = .steward) ∧
  Completes .gpioConfig 0x26
    (fun f s => f.p 20 1 < 24 ∧ modeOk (f.p 20 1) (f.p 21 1) = true ∧ f.p 24 2 ≠ 0 ∧ s.vectorOk .pf0 (f.p 26 2) = true ∧
      (s.pin (f.p 20 1)).owner = .steward)
    (fun f s t => Completed s f OK 0 t ∧ (t.pin (f.p 20 1)).mode.toNat = f.p 21 1) ∧
  Completes .linkConfig 0x27 (fun f s => f.accepted = false ∧ s.linkRefusal f = none ∧ f.p 22 1 = 0)
    (fun f s t => Completed s f OK 0 t ∧ t.port { xd := Fin.ofNat 8 (xdNumber (f.p 20 1)), lane := Fin.ofNat 8 (f.p 21 1) } = {})

/-- A command runs to a next state with an effect, in every state where a condition holds. -/
def Runs (i : Instr) (ok : State → Prop) (eff : State → State → Prop) : Prop := ∀ s : State, ok s → ∃ t, exec i s = .next t ∧ eff s t

/-- The events around starts, links, safety and power have their effect. -/
def EventsAroundStartsRun : Prop :=
  (∀ c : Tenant, Runs (.flr (.vf c)) (fun s => s.fnLive (.vf c) = true ∧ (s.ctx c).isOpen = false)
    (fun _ t => t.fnRegs (.vf c) = {} ∧ t.ring (.csq c) = {} ∧ t.ring (.ccq c) = {})) ∧
  (∀ c : Tenant, Runs (.vfEnableClear c) (fun s => s.fnLive (.vf c) = true) (fun _ t => t.host.vfEnabled.getLsbD c.val = false)) ∧
  Runs (.hostLinkDown 0) (fun s => s.alive = true ∧ s.host.linkUp.getLsbD 0 = true) (fun _ t => t.host.linkUp.getLsbD 0 = false) ∧
  (∀ x : Straps, Runs (.coldReset x) (fun _ => True) (fun s t => t.host.straps = x ∧ t.clk.gts = 0 ∧ t.ao.startCount = s.ao.startCount + 1)) ∧
  Runs (.warmReset true) (fun s => s.power.pwrGood = true ∧ s.alive = true ∧ s.host.safePending = false)
    (fun s t => t.host.started = [] ∧ t.clk.gts = s.clk.gts ∧ t.ao.startCount = s.ao.startCount + 1) ∧
  Runs .pwrGoodDeassert (fun s => s.power.pwrGood = true) (fun s t => t.power.pwrGood = false ∧ t.power.bleeders = true ∧ t.ao = s.ao) ∧
  (∀ us : Word, Runs (.startAssay (.pass us))
    (fun s => s.alive = true ∧ s.host.ready = false ∧ s.host.safePending = false ∧ s.host.straps.testModeN = true)
    (fun s t => t.host = { s.host with ready := true } ∧ t.clk = s.clk)) ∧
  Runs (.pllLock .tclk) (fun s => s.alive = true ∧ MayEnterSafe s) (fun s t => EntersSafe s t 4 0 0x6005) ∧
  Runs .thermtripN MayEnterSafe (fun s t => EntersSafe s t 5 0 0x6004) ∧
  (∀ (d : Die) (c : Int), Runs (.thermalReport d c)
    (fun s => s.alive = true ∧ (dieKind s.pkg.variant d.val).isSome = true ∧ (s.die d.val).state ≠ .off ∧ c < warnLimit s.pkg.variant d.val)
    (fun _ t => Map.look t.power.temps d.val = some c)) ∧
  Runs .heartbeat (fun s => s.alive = true ∧ MayEnterSafe s) (fun s t => EntersSafe s t 3 0 0x6000) ∧
  Runs .lockstep (fun s => s.alive = true ∧ MayEnterSafe s) (fun s t => EntersSafe s t 2 0 0x6407) ∧
  Runs .descentEnd (fun s => s.power.descent = true ∧ s.descended = true) (fun s t => t.power.pstate = .p3 ∧ t.power.faultN = true ∧ t.ao = s.ao) ∧
  Runs .sidebandLimit (fun s => s.power.limiterOpen = false) (fun _ t => t.power.limiterOpen = true) ∧
  Runs .vdd1v8Removal (fun _ => True) (fun s t => t.power.limiterOpen = false ∧ t.ao = s.ao) ∧
  (∀ n : Word, Runs (.vddAoPowerOn n) (fun s => s.power.pwrGood = false) (fun s t => t.ao.valid = false ∧ { t with ao := s.ao } = s))

end Sys2Proof.Claims

/-- Every command that the steward serves runs, where the conditions of its rule hold, to a next state: it completes, or goes on in progress, with its own
effect; and so do the events around starts, resets, links, safety and power (R301, R309, R313 to R318, R374, R388, R390, R407). -/
def Obligations.ServedCommandsAndStartsHaveTheirEffect : Prop :=
  ContextCommandsComplete ∧ MemoryCommandsComplete ∧ StreamCommandsComplete ∧ PackageCommandsComplete ∧ EventsAroundStartsRun

/-! ## The whole machine -/

/-- A step runs the command at the front of the queue on the state with the queue's rest. -/
def Obligations.AStepRunsTheCommandInFront : Prop :=
  ∀ (c : Instr) (rest : List Instr) (s : State), s.pending = c :: rest → step s = exec c { s with pending := rest }

/-- Every command answers a next state in every state: the block neither faults nor refuses, and so does every step. -/
def Obligations.EveryCommandGoesOn : Prop := (∀ (c : Instr) (s : State), ∃ t, exec c s = .next t) ∧ ∀ s : State, Goes s

/-- On an empty queue one FCLK cycle passes (the model's choice, log entry 2): the clock and the GTS advance by it, at the nominal rate without loss; rings,
contexts without a close under way, device memory, packets, streams and pins are as they were, and so are what a tile has configured and its registers.
Without its clocks the package stays as it is (R29, R30, R39). -/
def Obligations.AnEmptyQueueLetsACyclePass : Prop :=
  (∀ s : State, s.pending = [] → s.alive = false → step s = .next s) ∧
  (∀ s : State, s.pending = [] → s.alive = true → (∀ c, (s.ctx c).closing = false) →
    ∃ t, step s = .next t ∧ t.pending = [] ∧ t.clk.fclk = s.clk.fclk + 1 ∧ t.clk.point = s.clk.point ∧
      t.clk.units = s.clk.units + fclkUnits s.clk.point ∧
      (s.time.rateOffset = 0 → s.clk.gtsAcc < gtsCount →
        gtsCount * (t.clk.gts - s.clk.gts).toNat + t.clk.gtsAcc = s.clk.gtsAcc + fclkUnits s.clk.point * 2 ^ 32 ∧ t.clk.gtsAcc < gtsCount) ∧
      t.host = s.host ∧ t.ctxs = s.ctxs ∧ t.mem = s.mem ∧ t.net = s.net ∧ t.streams = s.streams ∧ t.media = s.media ∧ t.links = s.links ∧
      t.pins = s.pins ∧ { t.power with pace := s.power.pace } = s.power ∧ (∀ d r, (t.pace d r).weights = (s.pace d r).weights) ∧ t.log = s.log ∧ t.iq = s.iq ∧
      (∀ x, (t.tile x).active = (s.tile x).active ∧ (t.tile x).shadow = (s.tile x).shadow ∧ (t.tile x).seq = (s.tile x).seq ∧
        (t.tile x).m = (s.tile x).m ∧ (t.tile x).v = (s.tile x).v ∧ (t.tile x).parked = (s.tile x).parked))

/-- Every step keeps the invariant: the bytes of host memory and HBM stay in canonical form, the log buffer and the interrupt queue stay within their
4,096 and 1,024 entries, and the package keeps the good tiles of its grade (R20, R378, R381). -/
def Obligations.EveryStepKeepsTheInvariant : Prop := ∀ s t : State, s.Sound → step s = .next t → t.Sound

/-- The state after reset meets the invariant. It is that after a cold reset: clocks running, the GTS at zero, P0, READY clear, no ring enabled, no context
open, every tile parked with nothing in it, every pin the steward's, no port configured, an empty queue; which package it is, is the model's choice
(log entries 1, 3, 4). -/
def Obligations.ResetIsAsNamed : Prop :=
  State.reset.Sound ∧ State.reset.pending = [] ∧ State.reset.alive = true ∧ State.reset.clk.gts = 0 ∧ State.reset.power.pstate = .p0 ∧
    State.reset.host.ready = false ∧ State.reset.host.safePending = false ∧ (∀ r, (State.reset.ring r).enable = false) ∧
    (∀ c, (State.reset.ctx c).isOpen = false ∧ (State.reset.ctx c).gen = 0) ∧
    (∀ x, (State.reset.tile x).parked = true ∧ (State.reset.tile x).m.full = 0 ∧ (State.reset.tile x).active.configured = false) ∧
    (∀ n, (State.reset.pin n).owner = .steward) ∧ (∀ p, (State.reset.port p).state = .off) ∧ State.reset.net.flow = [] ∧
    State.reset.log.buffer = [] ∧ State.reset.iq.queue = [] ∧ (∀ d : Die, d.val < 16 → (State.reset.die d.val).state = .on)
end

