-- ==== Sys2Proof/Laws/Store.lean ====
section
/-! SUPPORT. Laws of the sparse stores: what a read gives after a write, and that every operation keeps the canonical form. -/

namespace Sys2Proof.Machine

open Sys2Proof

variable {α : Type}

/-! ## Reads after writes -/

theorem Map.get_del_self (d : α) (m : Map α) (i : Nat) : Map.get d (Map.del m i) i = d := by
  induction m with
  | nil => rfl
  | cons e m ih =>
    obtain ⟨k, v⟩ := e
    by_cases h : i = k <;> simp [Map.del, Map.get, h, ih]
    simpa [h] using ih

theorem Map.get_del_other (d : α) (m : Map α) {i j : Nat} (h : j ≠ i) : Map.get d (Map.del m i) j = Map.get d m j := by
  induction m with
  | nil => rfl
  | cons e m ih =>
    obtain ⟨k, v⟩ := e
    by_cases hi : i = k
    · subst hi; simp [Map.del, Map.get, h, ih]
    · by_cases hj : j = k <;> simp [Map.del, Map.get, hi, hj, ih]

theorem Map.get_ins_other (d : α) (m : Map α) {i j : Nat} (v : α) (h : j ≠ i) : Map.get d (Map.ins m i v) j = Map.get d m j := by
  induction m with
  | nil => simp [Map.ins, Map.get, h]
  | cons e m ih =>
    obtain ⟨k, w⟩ := e
    by_cases hi : i < k <;> by_cases hj : j = k <;> simp [Map.ins, Map.get, hi, hj, h, ih]
    · exact fun e => absurd e (by simpa [hj] using h)

theorem Map.get_ins_del (d : α) (m : Map α) (i : Nat) (v : α) : Map.get d (Map.ins (Map.del m i) i v) i = v := by
  induction m with
  | nil => simp [Map.del, Map.ins, Map.get]
  | cons e m ih =>
    obtain ⟨k, w⟩ := e
    by_cases hi : i = k
    · subst hi; simpa [Map.del] using ih
    · by_cases hl : i < k <;> simp [Map.del, Map.ins, Map.get, hi, hl, ih]

@[simp] theorem Map.get_set_self [DecidableEq α] (d : α) (m : Map α) (i : Nat) (v : α) : Map.get d (Map.set d m i v) i = v := by
  unfold Map.set
  split
  · next h => rw [h]; exact Map.get_del_self d m i
  · exact Map.get_ins_del d m i v

theorem Map.get_set_other [DecidableEq α] (d : α) (m : Map α) {i j : Nat} (v : α) (h : j ≠ i) :
    Map.get d (Map.set d m i v) j = Map.get d m j := by
  unfold Map.set
  split
  · exact Map.get_del_other d m h
  · rw [Map.get_ins_other d _ v h, Map.get_del_other d m h]

theorem Map.get_set [DecidableEq α] (d : α) (m : Map α) (i j : Nat) (v : α) :
    Map.get d (Map.set d m i v) j = if j = i then v else Map.get d m j := by
  by_cases h : j = i
  · subst h; simp
  · simp [h, Map.get_set_other d m v h]

@[simp] theorem Map.get_upd_self [DecidableEq α] (d : α) (m : Map α) (i : Nat) (f : α → α) :
    Map.get d (Map.upd d m i f) i = f (Map.get d m i) := by simp [Map.upd]

theorem Map.get_upd_other [DecidableEq α] (d : α) (m : Map α) {i j : Nat} (f : α → α) (h : j ≠ i) :
    Map.get d (Map.upd d m i f) j = Map.get d m j := by simp [Map.upd, Map.get_set_other d m _ h]

theorem Map.look_del_self (m : Map α) (i : Nat) : Map.look (Map.del m i) i = none := by
  induction m with
  | nil => rfl
  | cons e m ih =>
    obtain ⟨k, v⟩ := e
    by_cases h : i = k
    · subst h; simpa [Map.del] using ih
    · simp [Map.del, Map.look, h, ih]

theorem Map.look_del_other (m : Map α) {i j : Nat} (h : j ≠ i) : Map.look (Map.del m i) j = Map.look m j := by
  induction m with
  | nil => rfl
  | cons e m ih =>
    obtain ⟨k, v⟩ := e
    by_cases hi : i = k
    · subst hi; simp [Map.del, Map.look, h, ih]
    · by_cases hj : j = k
      · subst hj; simp [Map.del, Map.look, hi]
      · simp [Map.del, Map.look, hi, hj, ih]

theorem Map.look_ins_del (m : Map α) (i : Nat) (v : α) : Map.look (Map.ins (Map.del m i) i v) i = some v := by
  induction m with
  | nil => simp [Map.del, Map.ins, Map.look]
  | cons e m ih =>
    obtain ⟨k, w⟩ := e
    by_cases hi : i = k
    · subst hi; simpa [Map.del] using ih
    · by_cases hl : i < k <;> simp [Map.del, Map.ins, Map.look, hi, hl, ih]

theorem Map.look_ins_other (m : Map α) {i j : Nat} (v : α) (h : j ≠ i) : Map.look (Map.ins m i v) j = Map.look m j := by
  induction m with
  | nil => simp [Map.ins, Map.look, h]
  | cons e m ih =>
    obtain ⟨k, w⟩ := e
    by_cases hi : i < k
    · simp [Map.ins, Map.look, hi, h]
    · by_cases hj : j = k
      · subst hj; simp [Map.ins, Map.look, hi]
      · simp [Map.ins, Map.look, hi, hj, ih]

@[simp] theorem Map.look_put_self (m : Map α) (i : Nat) (v : α) : Map.look (Map.put m i v) i = some v := Map.look_ins_del m i v

theorem Map.look_put_other (m : Map α) {i j : Nat} (v : α) (h : j ≠ i) : Map.look (Map.put m i v) j = Map.look m j := by
  unfold Map.put
  rw [Map.look_ins_other _ v h, Map.look_del_other m h]

/-! ## The canonical form -/

/-- A bound admits a key. -/
def above (b : Option Nat) (i : Nat) : Prop := match b with | none => True | some x => x < i

theorem Map.wfFrom_cons [DecidableEq α] (d : α) (b : Option Nat) (k : Nat) (v : α) (m : Map α) :
    Map.wfFrom d b ((k, v) :: m) = true ↔ above b k ∧ v ≠ d ∧ Map.wfFrom d (some k) m = true := by
  cases b <;> simp [Map.wfFrom, above, and_assoc]

theorem Map.wfFrom_weaken [DecidableEq α] (d : α) {b c : Option Nat} (m : Map α) (hb : ∀ i, above c i → above b i)
    (h : Map.wfFrom d c m = true) : Map.wfFrom d b m = true := by
  cases m with
  | nil => cases b <;> rfl
  | cons e m =>
    obtain ⟨k, v⟩ := e
    rw [Map.wfFrom_cons] at h ⊢
    exact ⟨hb k h.1, h.2⟩

theorem Map.wfFrom_del [DecidableEq α] (d : α) (b : Option Nat) (m : Map α) (i : Nat) (h : Map.wfFrom d b m = true) :
    Map.wfFrom d b (Map.del m i) = true := by
  induction m generalizing b with
  | nil => exact h
  | cons e m ih =>
    obtain ⟨k, v⟩ := e
    rw [Map.wfFrom_cons] at h
    by_cases hi : i = k
    · simp only [Map.del, hi, if_true]
      refine Map.wfFrom_weaken d _ (fun j hj => ?_) (hi ▸ ih (some k) h.2.2)
      have hk := h.1
      cases b with
      | none => trivial
      | some x => simp only [above] at *; omega
    · simp only [Map.del, hi, if_false]
      rw [Map.wfFrom_cons]
      exact ⟨h.1, h.2.1, ih (some k) h.2.2⟩

theorem Map.wfFrom_ins [DecidableEq α] (d : α) (b : Option Nat) (m : Map α) (i : Nat) (v : α) (hv : v ≠ d) (hb : above b i)
    (hm : Map.get d m i = d) (h : Map.wfFrom d b m = true) : Map.wfFrom d b (Map.ins m i v) = true := by
  induction m generalizing b with
  | nil => cases b <;> simp_all [Map.ins, Map.wfFrom, above]
  | cons e m ih =>
    obtain ⟨k, w⟩ := e
    rw [Map.wfFrom_cons] at h
    have hne : i ≠ k := by
      intro hk
      subst hk
      simp only [Map.get, if_true] at hm
      exact h.2.1 hm
    by_cases hl : i < k
    · simp only [Map.ins, hl, if_true]
      rw [Map.wfFrom_cons, Map.wfFrom_cons]
      exact ⟨hb, hv, hl, h.2⟩
    · simp only [Map.ins, hl, if_false]
      rw [Map.wfFrom_cons]
      refine ⟨h.1, h.2.1, ih (some k) ?_ ?_ h.2.2⟩
      · simp only [above]; omega
      · simpa [Map.get, hne] using hm

/-- Writing a key keeps the canonical form. -/
theorem Map.wf_set [DecidableEq α] (d : α) (m : Map α) (i : Nat) (v : α) (h : Map.wf d m = true) : Map.wf d (Map.set d m i v) = true := by
  unfold Map.set Map.wf at *
  split
  · exact Map.wfFrom_del d none m i h
  · next hv => exact Map.wfFrom_ins d none _ i v hv trivial (Map.get_del_self d m i) (Map.wfFrom_del d none m i h)

/-- Changing a key keeps the canonical form. -/
theorem Map.wf_upd [DecidableEq α] (d : α) (m : Map α) (i : Nat) (f : α → α) (h : Map.wf d m = true) :
    Map.wf d (Map.upd d m i f) = true := Map.wf_set d m i _ h

theorem Map.wfFrom_keep [DecidableEq α] (d : α) (b : Option Nat) (m : Map α) (p : Nat → Bool) (h : Map.wfFrom d b m = true) :
    Map.wfFrom d b (Map.keep m p) = true := by
  induction m generalizing b with
  | nil => exact h
  | cons e m ih =>
    obtain ⟨k, v⟩ := e
    rw [Map.wfFrom_cons] at h
    by_cases hp : p k
    · have : Map.keep ((k, v) :: m) p = (k, v) :: Map.keep m p := by simp [Map.keep, hp]
      rw [this, Map.wfFrom_cons]
      exact ⟨h.1, h.2.1, ih (some k) h.2.2⟩
    · have : Map.keep ((k, v) :: m) p = Map.keep m p := by simp [Map.keep, hp]
      rw [this]
      refine Map.wfFrom_weaken d _ (fun j hj => ?_) (ih (some k) h.2.2)
      have hk := h.1
      cases b with
      | none => trivial
      | some x => simp only [above] at *; omega

/-- Keeping some keys keeps the canonical form. -/
theorem Map.wf_keep [DecidableEq α] (d : α) (m : Map α) (p : Nat → Bool) (h : Map.wf d m = true) : Map.wf d (Map.keep m p) = true :=
  Map.wfFrom_keep d none m p h

/-! ## Byte memories -/

/-- Writing a byte keeps the canonical form. -/
theorem Memory.wf_put (m : Memory) (a : Nat) (b : Byte) (h : Memory.wf m = true) : Memory.wf (Memory.put m a b) = true :=
  Map.wf_set 0 m a b h

/-- Writing bytes keeps the canonical form. -/
theorem Memory.wf_write (m : Memory) (a : Nat) (bs : List Byte) (h : Memory.wf m = true) : Memory.wf (Memory.write m a bs) = true := by
  induction bs generalizing m a with
  | nil => exact h
  | cons b bs ih => exact ih _ _ (Memory.wf_put m a b h)

@[simp] theorem Memory.byte_put_self (m : Memory) (a : Nat) (b : Byte) : (Memory.put m a b).byte a = b := Map.get_set_self 0 m a b

theorem Memory.byte_put_other (m : Memory) {a c : Nat} (b : Byte) (h : c ≠ a) : (Memory.put m a b).byte c = m.byte c :=
  Map.get_set_other 0 m b h

/-- A write leaves every byte outside it as it was. -/
theorem Memory.byte_write_other (m : Memory) (a : Nat) (bs : List Byte) (c : Nat) (h : c < a ∨ a + bs.length ≤ c) :
    (Memory.write m a bs).byte c = m.byte c := by
  induction bs generalizing m a with
  | nil => rfl
  | cons b bs ih =>
    simp only [List.length_cons] at h
    rw [Memory.write, ih _ _ (by omega), Memory.byte_put_other m b (by omega)]

/-- A byte read back is the byte written. -/
theorem Memory.byte_write (m : Memory) (a : Nat) (bs : List Byte) (k : Nat) (h : k < bs.length) :
    (Memory.write m a bs).byte (a + k) = bs[k] := by
  induction bs generalizing m a k with
  | nil => exact absurd h (Nat.not_lt_zero k)
  | cons b bs ih =>
    cases k with
    | zero => rw [Memory.write, Nat.add_zero, Memory.byte_write_other _ _ _ _ (by omega)]; simp
    | succ k =>
      have hk : k < bs.length := by simpa using h
      rw [Memory.write, show a + (k + 1) = a + 1 + k by omega, ih _ _ k hk]
      simp

end Sys2Proof.Machine
end

