-- ==== Sys2Proof/Laws/State.lean ====
section
/-! SUPPORT. The fields of the state under each named update: what an update leaves as it was. -/

namespace Sys2Proof.Machine

open Sys2Proof

variable (s : State)

/-! ## onTile -/

@[simp] theorem State.onTile_pkg (x : Site) (f : Tile → Tile) : (s.onTile x f).pkg = s.pkg := rfl
@[simp] theorem State.onTile_clk (x : Site) (f : Tile → Tile) : (s.onTile x f).clk = s.clk := rfl
@[simp] theorem State.onTile_time (x : Site) (f : Tile → Tile) : (s.onTile x f).time = s.time := rfl
@[simp] theorem State.onTile_merger (x : Site) (f : Tile → Tile) : (s.onTile x f).merger = s.merger := rfl
@[simp] theorem State.onTile_log (x : Site) (f : Tile → Tile) : (s.onTile x f).log = s.log := rfl
@[simp] theorem State.onTile_iq (x : Site) (f : Tile → Tile) : (s.onTile x f).iq = s.iq := rfl
@[simp] theorem State.onTile_host (x : Site) (f : Tile → Tile) : (s.onTile x f).host = s.host := rfl
@[simp] theorem State.onTile_ctxs (x : Site) (f : Tile → Tile) : (s.onTile x f).ctxs = s.ctxs := rfl
@[simp] theorem State.onTile_insts (x : Site) (f : Tile → Tile) : (s.onTile x f).insts = s.insts := rfl
@[simp] theorem State.onTile_lastLayout (x : Site) (f : Tile → Tile) : (s.onTile x f).lastLayout = s.lastLayout := rfl
@[simp] theorem State.onTile_net (x : Site) (f : Tile → Tile) : (s.onTile x f).net = s.net := rfl
@[simp] theorem State.onTile_mem (x : Site) (f : Tile → Tile) : (s.onTile x f).mem = s.mem := rfl
@[simp] theorem State.onTile_power (x : Site) (f : Tile → Tile) : (s.onTile x f).power = s.power := rfl
@[simp] theorem State.onTile_ao (x : Site) (f : Tile → Tile) : (s.onTile x f).ao = s.ao := rfl
@[simp] theorem State.onTile_media (x : Site) (f : Tile → Tile) : (s.onTile x f).media = s.media := rfl
@[simp] theorem State.onTile_streams (x : Site) (f : Tile → Tile) : (s.onTile x f).streams = s.streams := rfl
@[simp] theorem State.onTile_links (x : Site) (f : Tile → Tile) : (s.onTile x f).links = s.links := rfl
@[simp] theorem State.onTile_pins (x : Site) (f : Tile → Tile) : (s.onTile x f).pins = s.pins := rfl
@[simp] theorem State.onTile_freeCount (x : Site) (f : Tile → Tile) : (s.onTile x f).freeCount = s.freeCount := rfl
@[simp] theorem State.onTile_pending (x : Site) (f : Tile → Tile) : (s.onTile x f).pending = s.pending := rfl

/-! ## onCtx -/

@[simp] theorem State.onCtx_pkg (t : Tenant) (f : Context → Context) : (s.onCtx t f).pkg = s.pkg := rfl
@[simp] theorem State.onCtx_clk (t : Tenant) (f : Context → Context) : (s.onCtx t f).clk = s.clk := rfl
@[simp] theorem State.onCtx_time (t : Tenant) (f : Context → Context) : (s.onCtx t f).time = s.time := rfl
@[simp] theorem State.onCtx_merger (t : Tenant) (f : Context → Context) : (s.onCtx t f).merger = s.merger := rfl
@[simp] theorem State.onCtx_log (t : Tenant) (f : Context → Context) : (s.onCtx t f).log = s.log := rfl
@[simp] theorem State.onCtx_iq (t : Tenant) (f : Context → Context) : (s.onCtx t f).iq = s.iq := rfl
@[simp] theorem State.onCtx_host (t : Tenant) (f : Context → Context) : (s.onCtx t f).host = s.host := rfl
@[simp] theorem State.onCtx_insts (t : Tenant) (f : Context → Context) : (s.onCtx t f).insts = s.insts := rfl
@[simp] theorem State.onCtx_lastLayout (t : Tenant) (f : Context → Context) : (s.onCtx t f).lastLayout = s.lastLayout := rfl
@[simp] theorem State.onCtx_tiles (t : Tenant) (f : Context → Context) : (s.onCtx t f).tiles = s.tiles := rfl
@[simp] theorem State.onCtx_net (t : Tenant) (f : Context → Context) : (s.onCtx t f).net = s.net := rfl
@[simp] theorem State.onCtx_mem (t : Tenant) (f : Context → Context) : (s.onCtx t f).mem = s.mem := rfl
@[simp] theorem State.onCtx_power (t : Tenant) (f : Context → Context) : (s.onCtx t f).power = s.power := rfl
@[simp] theorem State.onCtx_ao (t : Tenant) (f : Context → Context) : (s.onCtx t f).ao = s.ao := rfl
@[simp] theorem State.onCtx_media (t : Tenant) (f : Context → Context) : (s.onCtx t f).media = s.media := rfl
@[simp] theorem State.onCtx_streams (t : Tenant) (f : Context → Context) : (s.onCtx t f).streams = s.streams := rfl
@[simp] theorem State.onCtx_links (t : Tenant) (f : Context → Context) : (s.onCtx t f).links = s.links := rfl
@[simp] theorem State.onCtx_pins (t : Tenant) (f : Context → Context) : (s.onCtx t f).pins = s.pins := rfl
@[simp] theorem State.onCtx_freeCount (t : Tenant) (f : Context → Context) : (s.onCtx t f).freeCount = s.freeCount := rfl
@[simp] theorem State.onCtx_pending (t : Tenant) (f : Context → Context) : (s.onCtx t f).pending = s.pending := rfl

/-! ## onInst -/

@[simp] theorem State.onInst_pkg (l : BitVec 8) (f : Instance → Instance) : (s.onInst l f).pkg = s.pkg := by unfold State.onInst; split <;> rfl
@[simp] theorem State.onInst_clk (l : BitVec 8) (f : Instance → Instance) : (s.onInst l f).clk = s.clk := by unfold State.onInst; split <;> rfl
@[simp] theorem State.onInst_time (l : BitVec 8) (f : Instance → Instance) : (s.onInst l f).time = s.time := by unfold State.onInst; split <;> rfl
@[simp] theorem State.onInst_merger (l : BitVec 8) (f : Instance → Instance) : (s.onInst l f).merger = s.merger := by unfold State.onInst; split <;> rfl
@[simp] theorem State.onInst_log (l : BitVec 8) (f : Instance → Instance) : (s.onInst l f).log = s.log := by unfold State.onInst; split <;> rfl
@[simp] theorem State.onInst_iq (l : BitVec 8) (f : Instance → Instance) : (s.onInst l f).iq = s.iq := by unfold State.onInst; split <;> rfl
@[simp] theorem State.onInst_host (l : BitVec 8) (f : Instance → Instance) : (s.onInst l f).host = s.host := by unfold State.onInst; split <;> rfl
@[simp] theorem State.onInst_ctxs (l : BitVec 8) (f : Instance → Instance) : (s.onInst l f).ctxs = s.ctxs := by unfold State.onInst; split <;> rfl
@[simp] theorem State.onInst_lastLayout (l : BitVec 8) (f : Instance → Instance) : (s.onInst l f).lastLayout = s.lastLayout := by unfold State.onInst; split <;> rfl
@[simp] theorem State.onInst_tiles (l : BitVec 8) (f : Instance → Instance) : (s.onInst l f).tiles = s.tiles := by unfold State.onInst; split <;> rfl
@[simp] theorem State.onInst_net (l : BitVec 8) (f : Instance → Instance) : (s.onInst l f).net = s.net := by unfold State.onInst; split <;> rfl
@[simp] theorem State.onInst_mem (l : BitVec 8) (f : Instance → Instance) : (s.onInst l f).mem = s.mem := by unfold State.onInst; split <;> rfl
@[simp] theorem State.onInst_power (l : BitVec 8) (f : Instance → Instance) : (s.onInst l f).power = s.power := by unfold State.onInst; split <;> rfl
@[simp] theorem State.onInst_ao (l : BitVec 8) (f : Instance → Instance) : (s.onInst l f).ao = s.ao := by unfold State.onInst; split <;> rfl
@[simp] theorem State.onInst_media (l : BitVec 8) (f : Instance → Instance) : (s.onInst l f).media = s.media := by unfold State.onInst; split <;> rfl
@[simp] theorem State.onInst_streams (l : BitVec 8) (f : Instance → Instance) : (s.onInst l f).streams = s.streams := by unfold State.onInst; split <;> rfl
@[simp] theorem State.onInst_links (l : BitVec 8) (f : Instance → Instance) : (s.onInst l f).links = s.links := by unfold State.onInst; split <;> rfl
@[simp] theorem State.onInst_pins (l : BitVec 8) (f : Instance → Instance) : (s.onInst l f).pins = s.pins := by unfold State.onInst; split <;> rfl
@[simp] theorem State.onInst_freeCount (l : BitVec 8) (f : Instance → Instance) : (s.onInst l f).freeCount = s.freeCount := by unfold State.onInst; split <;> rfl
@[simp] theorem State.onInst_pending (l : BitVec 8) (f : Instance → Instance) : (s.onInst l f).pending = s.pending := by unfold State.onInst; split <;> rfl

/-! ## onDie -/

@[simp] theorem State.onDie_pkg (d : Nat) (f : DiePower → DiePower) : (s.onDie d f).pkg = s.pkg := rfl
@[simp] theorem State.onDie_clk (d : Nat) (f : DiePower → DiePower) : (s.onDie d f).clk = s.clk := rfl
@[simp] theorem State.onDie_time (d : Nat) (f : DiePower → DiePower) : (s.onDie d f).time = s.time := rfl
@[simp] theorem State.onDie_merger (d : Nat) (f : DiePower → DiePower) : (s.onDie d f).merger = s.merger := rfl
@[simp] theorem State.onDie_log (d : Nat) (f : DiePower → DiePower) : (s.onDie d f).log = s.log := rfl
@[simp] theorem State.onDie_iq (d : Nat) (f : DiePower → DiePower) : (s.onDie d f).iq = s.iq := rfl
@[simp] theorem State.onDie_host (d : Nat) (f : DiePower → DiePower) : (s.onDie d f).host = s.host := rfl
@[simp] theorem State.onDie_ctxs (d : Nat) (f : DiePower → DiePower) : (s.onDie d f).ctxs = s.ctxs := rfl
@[simp] theorem State.onDie_insts (d : Nat) (f : DiePower → DiePower) : (s.onDie d f).insts = s.insts := rfl
@[simp] theorem State.onDie_lastLayout (d : Nat) (f : DiePower → DiePower) : (s.onDie d f).lastLayout = s.lastLayout := rfl
@[simp] theorem State.onDie_tiles (d : Nat) (f : DiePower → DiePower) : (s.onDie d f).tiles = s.tiles := rfl
@[simp] theorem State.onDie_net (d : Nat) (f : DiePower → DiePower) : (s.onDie d f).net = s.net := rfl
@[simp] theorem State.onDie_mem (d : Nat) (f : DiePower → DiePower) : (s.onDie d f).mem = s.mem := rfl
@[simp] theorem State.onDie_ao (d : Nat) (f : DiePower → DiePower) : (s.onDie d f).ao = s.ao := rfl
@[simp] theorem State.onDie_media (d : Nat) (f : DiePower → DiePower) : (s.onDie d f).media = s.media := rfl
@[simp] theorem State.onDie_streams (d : Nat) (f : DiePower → DiePower) : (s.onDie d f).streams = s.streams := rfl
@[simp] theorem State.onDie_links (d : Nat) (f : DiePower → DiePower) : (s.onDie d f).links = s.links := rfl
@[simp] theorem State.onDie_pins (d : Nat) (f : DiePower → DiePower) : (s.onDie d f).pins = s.pins := rfl
@[simp] theorem State.onDie_freeCount (d : Nat) (f : DiePower → DiePower) : (s.onDie d f).freeCount = s.freeCount := rfl
@[simp] theorem State.onDie_pending (d : Nat) (f : DiePower → DiePower) : (s.onDie d f).pending = s.pending := rfl

/-! ## onPort -/

@[simp] theorem State.onPort_pkg (p : PortRef) (f : Port → Port) : (s.onPort p f).pkg = s.pkg := rfl
@[simp] theorem State.onPort_clk (p : PortRef) (f : Port → Port) : (s.onPort p f).clk = s.clk := rfl
@[simp] theorem State.onPort_time (p : PortRef) (f : Port → Port) : (s.onPort p f).time = s.time := rfl
@[simp] theorem State.onPort_merger (p : PortRef) (f : Port → Port) : (s.onPort p f).merger = s.merger := rfl
@[simp] theorem State.onPort_log (p : PortRef) (f : Port → Port) : (s.onPort p f).log = s.log := rfl
@[simp] theorem State.onPort_iq (p : PortRef) (f : Port → Port) : (s.onPort p f).iq = s.iq := rfl
@[simp] theorem State.onPort_host (p : PortRef) (f : Port → Port) : (s.onPort p f).host = s.host := rfl
@[simp] theorem State.onPort_ctxs (p : PortRef) (f : Port → Port) : (s.onPort p f).ctxs = s.ctxs := rfl
@[simp] theorem State.onPort_insts (p : PortRef) (f : Port → Port) : (s.onPort p f).insts = s.insts := rfl
@[simp] theorem State.onPort_lastLayout (p : PortRef) (f : Port → Port) : (s.onPort p f).lastLayout = s.lastLayout := rfl
@[simp] theorem State.onPort_tiles (p : PortRef) (f : Port → Port) : (s.onPort p f).tiles = s.tiles := rfl
@[simp] theorem State.onPort_net (p : PortRef) (f : Port → Port) : (s.onPort p f).net = s.net := rfl
@[simp] theorem State.onPort_mem (p : PortRef) (f : Port → Port) : (s.onPort p f).mem = s.mem := rfl
@[simp] theorem State.onPort_power (p : PortRef) (f : Port → Port) : (s.onPort p f).power = s.power := rfl
@[simp] theorem State.onPort_ao (p : PortRef) (f : Port → Port) : (s.onPort p f).ao = s.ao := rfl
@[simp] theorem State.onPort_media (p : PortRef) (f : Port → Port) : (s.onPort p f).media = s.media := rfl
@[simp] theorem State.onPort_streams (p : PortRef) (f : Port → Port) : (s.onPort p f).streams = s.streams := rfl
@[simp] theorem State.onPort_pins (p : PortRef) (f : Port → Port) : (s.onPort p f).pins = s.pins := rfl
@[simp] theorem State.onPort_freeCount (p : PortRef) (f : Port → Port) : (s.onPort p f).freeCount = s.freeCount := rfl
@[simp] theorem State.onPort_pending (p : PortRef) (f : Port → Port) : (s.onPort p f).pending = s.pending := rfl

/-! ## onEth -/

@[simp] theorem State.onEth_pkg (p : PortRef) (f : EthPort → EthPort) : (s.onEth p f).pkg = s.pkg := rfl
@[simp] theorem State.onEth_clk (p : PortRef) (f : EthPort → EthPort) : (s.onEth p f).clk = s.clk := rfl
@[simp] theorem State.onEth_time (p : PortRef) (f : EthPort → EthPort) : (s.onEth p f).time = s.time := rfl
@[simp] theorem State.onEth_merger (p : PortRef) (f : EthPort → EthPort) : (s.onEth p f).merger = s.merger := rfl
@[simp] theorem State.onEth_log (p : PortRef) (f : EthPort → EthPort) : (s.onEth p f).log = s.log := rfl
@[simp] theorem State.onEth_iq (p : PortRef) (f : EthPort → EthPort) : (s.onEth p f).iq = s.iq := rfl
@[simp] theorem State.onEth_host (p : PortRef) (f : EthPort → EthPort) : (s.onEth p f).host = s.host := rfl
@[simp] theorem State.onEth_ctxs (p : PortRef) (f : EthPort → EthPort) : (s.onEth p f).ctxs = s.ctxs := rfl
@[simp] theorem State.onEth_insts (p : PortRef) (f : EthPort → EthPort) : (s.onEth p f).insts = s.insts := rfl
@[simp] theorem State.onEth_lastLayout (p : PortRef) (f : EthPort → EthPort) : (s.onEth p f).lastLayout = s.lastLayout := rfl
@[simp] theorem State.onEth_tiles (p : PortRef) (f : EthPort → EthPort) : (s.onEth p f).tiles = s.tiles := rfl
@[simp] theorem State.onEth_net (p : PortRef) (f : EthPort → EthPort) : (s.onEth p f).net = s.net := rfl
@[simp] theorem State.onEth_mem (p : PortRef) (f : EthPort → EthPort) : (s.onEth p f).mem = s.mem := rfl
@[simp] theorem State.onEth_power (p : PortRef) (f : EthPort → EthPort) : (s.onEth p f).power = s.power := rfl
@[simp] theorem State.onEth_ao (p : PortRef) (f : EthPort → EthPort) : (s.onEth p f).ao = s.ao := rfl
@[simp] theorem State.onEth_media (p : PortRef) (f : EthPort → EthPort) : (s.onEth p f).media = s.media := rfl
@[simp] theorem State.onEth_streams (p : PortRef) (f : EthPort → EthPort) : (s.onEth p f).streams = s.streams := rfl
@[simp] theorem State.onEth_pins (p : PortRef) (f : EthPort → EthPort) : (s.onEth p f).pins = s.pins := rfl
@[simp] theorem State.onEth_freeCount (p : PortRef) (f : EthPort → EthPort) : (s.onEth p f).freeCount = s.freeCount := rfl
@[simp] theorem State.onEth_pending (p : PortRef) (f : EthPort → EthPort) : (s.onEth p f).pending = s.pending := rfl

/-! ## onSess -/

@[simp] theorem State.onSess_pkg (x : SessRef) (f : Session → Session) : (s.onSess x f).pkg = s.pkg := rfl
@[simp] theorem State.onSess_clk (x : SessRef) (f : Session → Session) : (s.onSess x f).clk = s.clk := rfl
@[simp] theorem State.onSess_time (x : SessRef) (f : Session → Session) : (s.onSess x f).time = s.time := rfl
@[simp] theorem State.onSess_merger (x : SessRef) (f : Session → Session) : (s.onSess x f).merger = s.merger := rfl
@[simp] theorem State.onSess_log (x : SessRef) (f : Session → Session) : (s.onSess x f).log = s.log := rfl
@[simp] theorem State.onSess_iq (x : SessRef) (f : Session → Session) : (s.onSess x f).iq = s.iq := rfl
@[simp] theorem State.onSess_host (x : SessRef) (f : Session → Session) : (s.onSess x f).host = s.host := rfl
@[simp] theorem State.onSess_ctxs (x : SessRef) (f : Session → Session) : (s.onSess x f).ctxs = s.ctxs := rfl
@[simp] theorem State.onSess_insts (x : SessRef) (f : Session → Session) : (s.onSess x f).insts = s.insts := rfl
@[simp] theorem State.onSess_lastLayout (x : SessRef) (f : Session → Session) : (s.onSess x f).lastLayout = s.lastLayout := rfl
@[simp] theorem State.onSess_tiles (x : SessRef) (f : Session → Session) : (s.onSess x f).tiles = s.tiles := rfl
@[simp] theorem State.onSess_net (x : SessRef) (f : Session → Session) : (s.onSess x f).net = s.net := rfl
@[simp] theorem State.onSess_mem (x : SessRef) (f : Session → Session) : (s.onSess x f).mem = s.mem := rfl
@[simp] theorem State.onSess_power (x : SessRef) (f : Session → Session) : (s.onSess x f).power = s.power := rfl
@[simp] theorem State.onSess_ao (x : SessRef) (f : Session → Session) : (s.onSess x f).ao = s.ao := rfl
@[simp] theorem State.onSess_streams (x : SessRef) (f : Session → Session) : (s.onSess x f).streams = s.streams := rfl
@[simp] theorem State.onSess_links (x : SessRef) (f : Session → Session) : (s.onSess x f).links = s.links := rfl
@[simp] theorem State.onSess_pins (x : SessRef) (f : Session → Session) : (s.onSess x f).pins = s.pins := rfl
@[simp] theorem State.onSess_freeCount (x : SessRef) (f : Session → Session) : (s.onSess x f).freeCount = s.freeCount := rfl
@[simp] theorem State.onSess_pending (x : SessRef) (f : Session → Session) : (s.onSess x f).pending = s.pending := rfl

/-! ## onFnRegs -/

@[simp] theorem State.onFnRegs_pkg (g : Fn) (f : FnRegs → FnRegs) : (s.onFnRegs g f).pkg = s.pkg := by cases g <;> rfl
@[simp] theorem State.onFnRegs_clk (g : Fn) (f : FnRegs → FnRegs) : (s.onFnRegs g f).clk = s.clk := by cases g <;> rfl
@[simp] theorem State.onFnRegs_time (g : Fn) (f : FnRegs → FnRegs) : (s.onFnRegs g f).time = s.time := by cases g <;> rfl
@[simp] theorem State.onFnRegs_merger (g : Fn) (f : FnRegs → FnRegs) : (s.onFnRegs g f).merger = s.merger := by cases g <;> rfl
@[simp] theorem State.onFnRegs_log (g : Fn) (f : FnRegs → FnRegs) : (s.onFnRegs g f).log = s.log := by cases g <;> rfl
@[simp] theorem State.onFnRegs_iq (g : Fn) (f : FnRegs → FnRegs) : (s.onFnRegs g f).iq = s.iq := by cases g <;> rfl
@[simp] theorem State.onFnRegs_ctxs (g : Fn) (f : FnRegs → FnRegs) : (s.onFnRegs g f).ctxs = s.ctxs := by cases g <;> rfl
@[simp] theorem State.onFnRegs_insts (g : Fn) (f : FnRegs → FnRegs) : (s.onFnRegs g f).insts = s.insts := by cases g <;> rfl
@[simp] theorem State.onFnRegs_lastLayout (g : Fn) (f : FnRegs → FnRegs) : (s.onFnRegs g f).lastLayout = s.lastLayout := by cases g <;> rfl
@[simp] theorem State.onFnRegs_tiles (g : Fn) (f : FnRegs → FnRegs) : (s.onFnRegs g f).tiles = s.tiles := by cases g <;> rfl
@[simp] theorem State.onFnRegs_net (g : Fn) (f : FnRegs → FnRegs) : (s.onFnRegs g f).net = s.net := by cases g <;> rfl
@[simp] theorem State.onFnRegs_mem (g : Fn) (f : FnRegs → FnRegs) : (s.onFnRegs g f).mem = s.mem := by cases g <;> rfl
@[simp] theorem State.onFnRegs_power (g : Fn) (f : FnRegs → FnRegs) : (s.onFnRegs g f).power = s.power := by cases g <;> rfl
@[simp] theorem State.onFnRegs_ao (g : Fn) (f : FnRegs → FnRegs) : (s.onFnRegs g f).ao = s.ao := by cases g <;> rfl
@[simp] theorem State.onFnRegs_media (g : Fn) (f : FnRegs → FnRegs) : (s.onFnRegs g f).media = s.media := by cases g <;> rfl
@[simp] theorem State.onFnRegs_streams (g : Fn) (f : FnRegs → FnRegs) : (s.onFnRegs g f).streams = s.streams := by cases g <;> rfl
@[simp] theorem State.onFnRegs_links (g : Fn) (f : FnRegs → FnRegs) : (s.onFnRegs g f).links = s.links := by cases g <;> rfl
@[simp] theorem State.onFnRegs_pins (g : Fn) (f : FnRegs → FnRegs) : (s.onFnRegs g f).pins = s.pins := by cases g <;> rfl
@[simp] theorem State.onFnRegs_freeCount (g : Fn) (f : FnRegs → FnRegs) : (s.onFnRegs g f).freeCount = s.freeCount := by cases g <;> rfl
@[simp] theorem State.onFnRegs_pending (g : Fn) (f : FnRegs → FnRegs) : (s.onFnRegs g f).pending = s.pending := by cases g <;> rfl

/-! ## onPin -/

@[simp] theorem State.onPin_pkg (n : Nat) (f : Pin → Pin) : (s.onPin n f).pkg = s.pkg := rfl
@[simp] theorem State.onPin_clk (n : Nat) (f : Pin → Pin) : (s.onPin n f).clk = s.clk := rfl
@[simp] theorem State.onPin_time (n : Nat) (f : Pin → Pin) : (s.onPin n f).time = s.time := rfl
@[simp] theorem State.onPin_merger (n : Nat) (f : Pin → Pin) : (s.onPin n f).merger = s.merger := rfl
@[simp] theorem State.onPin_log (n : Nat) (f : Pin → Pin) : (s.onPin n f).log = s.log := rfl
@[simp] theorem State.onPin_iq (n : Nat) (f : Pin → Pin) : (s.onPin n f).iq = s.iq := rfl
@[simp] theorem State.onPin_host (n : Nat) (f : Pin → Pin) : (s.onPin n f).host = s.host := rfl
@[simp] theorem State.onPin_ctxs (n : Nat) (f : Pin → Pin) : (s.onPin n f).ctxs = s.ctxs := rfl
@[simp] theorem State.onPin_insts (n : Nat) (f : Pin → Pin) : (s.onPin n f).insts = s.insts := rfl
@[simp] theorem State.onPin_lastLayout (n : Nat) (f : Pin → Pin) : (s.onPin n f).lastLayout = s.lastLayout := rfl
@[simp] theorem State.onPin_tiles (n : Nat) (f : Pin → Pin) : (s.onPin n f).tiles = s.tiles := rfl
@[simp] theorem State.onPin_net (n : Nat) (f : Pin → Pin) : (s.onPin n f).net = s.net := rfl
@[simp] theorem State.onPin_mem (n : Nat) (f : Pin → Pin) : (s.onPin n f).mem = s.mem := rfl
@[simp] theorem State.onPin_power (n : Nat) (f : Pin → Pin) : (s.onPin n f).power = s.power := rfl
@[simp] theorem State.onPin_ao (n : Nat) (f : Pin → Pin) : (s.onPin n f).ao = s.ao := rfl
@[simp] theorem State.onPin_media (n : Nat) (f : Pin → Pin) : (s.onPin n f).media = s.media := rfl
@[simp] theorem State.onPin_streams (n : Nat) (f : Pin → Pin) : (s.onPin n f).streams = s.streams := rfl
@[simp] theorem State.onPin_links (n : Nat) (f : Pin → Pin) : (s.onPin n f).links = s.links := rfl
@[simp] theorem State.onPin_freeCount (n : Nat) (f : Pin → Pin) : (s.onPin n f).freeCount = s.freeCount := rfl
@[simp] theorem State.onPin_pending (n : Nat) (f : Pin → Pin) : (s.onPin n f).pending = s.pending := rfl

/-! ## onStream -/

@[simp] theorem State.onStream_pkg (n : Nat) (f : Stream → Stream) : (s.onStream n f).pkg = s.pkg := rfl
@[simp] theorem State.onStream_clk (n : Nat) (f : Stream → Stream) : (s.onStream n f).clk = s.clk := rfl
@[simp] theorem State.onStream_time (n : Nat) (f : Stream → Stream) : (s.onStream n f).time = s.time := rfl
@[simp] theorem State.onStream_merger (n : Nat) (f : Stream → Stream) : (s.onStream n f).merger = s.merger := rfl
@[simp] theorem State.onStream_log (n : Nat) (f : Stream → Stream) : (s.onStream n f).log = s.log := rfl
@[simp] theorem State.onStream_iq (n : Nat) (f : Stream → Stream) : (s.onStream n f).iq = s.iq := rfl
@[simp] theorem State.onStream_host (n : Nat) (f : Stream → Stream) : (s.onStream n f).host = s.host := rfl
@[simp] theorem State.onStream_ctxs (n : Nat) (f : Stream → Stream) : (s.onStream n f).ctxs = s.ctxs := rfl
@[simp] theorem State.onStream_insts (n : Nat) (f : Stream → Stream) : (s.onStream n f).insts = s.insts := rfl
@[simp] theorem State.onStream_lastLayout (n : Nat) (f : Stream → Stream) : (s.onStream n f).lastLayout = s.lastLayout := rfl
@[simp] theorem State.onStream_tiles (n : Nat) (f : Stream → Stream) : (s.onStream n f).tiles = s.tiles := rfl
@[simp] theorem State.onStream_net (n : Nat) (f : Stream → Stream) : (s.onStream n f).net = s.net := rfl
@[simp] theorem State.onStream_mem (n : Nat) (f : Stream → Stream) : (s.onStream n f).mem = s.mem := rfl
@[simp] theorem State.onStream_power (n : Nat) (f : Stream → Stream) : (s.onStream n f).power = s.power := rfl
@[simp] theorem State.onStream_ao (n : Nat) (f : Stream → Stream) : (s.onStream n f).ao = s.ao := rfl
@[simp] theorem State.onStream_media (n : Nat) (f : Stream → Stream) : (s.onStream n f).media = s.media := rfl
@[simp] theorem State.onStream_links (n : Nat) (f : Stream → Stream) : (s.onStream n f).links = s.links := rfl
@[simp] theorem State.onStream_pins (n : Nat) (f : Stream → Stream) : (s.onStream n f).pins = s.pins := rfl
@[simp] theorem State.onStream_freeCount (n : Nat) (f : Stream → Stream) : (s.onStream n f).freeCount = s.freeCount := rfl
@[simp] theorem State.onStream_pending (n : Nat) (f : Stream → Stream) : (s.onStream n f).pending = s.pending := rfl

/-! ## onRing -/

@[simp] theorem State.onRing_pkg (r : RingSel) (f : Ring → Ring) : (s.onRing r f).pkg = s.pkg := by cases r <;> rfl
@[simp] theorem State.onRing_clk (r : RingSel) (f : Ring → Ring) : (s.onRing r f).clk = s.clk := by cases r <;> rfl
@[simp] theorem State.onRing_time (r : RingSel) (f : Ring → Ring) : (s.onRing r f).time = s.time := by cases r <;> rfl
@[simp] theorem State.onRing_merger (r : RingSel) (f : Ring → Ring) : (s.onRing r f).merger = s.merger := by cases r <;> rfl
@[simp] theorem State.onRing_log (r : RingSel) (f : Ring → Ring) : (s.onRing r f).log = s.log := by cases r <;> rfl
@[simp] theorem State.onRing_iq (r : RingSel) (f : Ring → Ring) : (s.onRing r f).iq = s.iq := by cases r <;> rfl
@[simp] theorem State.onRing_insts (r : RingSel) (f : Ring → Ring) : (s.onRing r f).insts = s.insts := by cases r <;> rfl
@[simp] theorem State.onRing_lastLayout (r : RingSel) (f : Ring → Ring) : (s.onRing r f).lastLayout = s.lastLayout := by cases r <;> rfl
@[simp] theorem State.onRing_tiles (r : RingSel) (f : Ring → Ring) : (s.onRing r f).tiles = s.tiles := by cases r <;> rfl
@[simp] theorem State.onRing_net (r : RingSel) (f : Ring → Ring) : (s.onRing r f).net = s.net := by cases r <;> rfl
@[simp] theorem State.onRing_mem (r : RingSel) (f : Ring → Ring) : (s.onRing r f).mem = s.mem := by cases r <;> rfl
@[simp] theorem State.onRing_power (r : RingSel) (f : Ring → Ring) : (s.onRing r f).power = s.power := by cases r <;> rfl
@[simp] theorem State.onRing_ao (r : RingSel) (f : Ring → Ring) : (s.onRing r f).ao = s.ao := by cases r <;> rfl
@[simp] theorem State.onRing_media (r : RingSel) (f : Ring → Ring) : (s.onRing r f).media = s.media := by cases r <;> rfl
@[simp] theorem State.onRing_streams (r : RingSel) (f : Ring → Ring) : (s.onRing r f).streams = s.streams := by cases r <;> rfl
@[simp] theorem State.onRing_links (r : RingSel) (f : Ring → Ring) : (s.onRing r f).links = s.links := by cases r <;> rfl
@[simp] theorem State.onRing_pins (r : RingSel) (f : Ring → Ring) : (s.onRing r f).pins = s.pins := by cases r <;> rfl
@[simp] theorem State.onRing_freeCount (r : RingSel) (f : Ring → Ring) : (s.onRing r f).freeCount = s.freeCount := by cases r <;> rfl
@[simp] theorem State.onRing_pending (r : RingSel) (f : Ring → Ring) : (s.onRing r f).pending = s.pending := by cases r <;> rfl

/-! ## hostWrite -/

@[simp] theorem State.hostWrite_pkg (a : Nat) (bs : List Byte) : (s.hostWrite a bs).pkg = s.pkg := rfl
@[simp] theorem State.hostWrite_clk (a : Nat) (bs : List Byte) : (s.hostWrite a bs).clk = s.clk := rfl
@[simp] theorem State.hostWrite_time (a : Nat) (bs : List Byte) : (s.hostWrite a bs).time = s.time := rfl
@[simp] theorem State.hostWrite_merger (a : Nat) (bs : List Byte) : (s.hostWrite a bs).merger = s.merger := rfl
@[simp] theorem State.hostWrite_log (a : Nat) (bs : List Byte) : (s.hostWrite a bs).log = s.log := rfl
@[simp] theorem State.hostWrite_iq (a : Nat) (bs : List Byte) : (s.hostWrite a bs).iq = s.iq := rfl
@[simp] theorem State.hostWrite_ctxs (a : Nat) (bs : List Byte) : (s.hostWrite a bs).ctxs = s.ctxs := rfl
@[simp] theorem State.hostWrite_insts (a : Nat) (bs : List Byte) : (s.hostWrite a bs).insts = s.insts := rfl
@[simp] theorem State.hostWrite_lastLayout (a : Nat) (bs : List Byte) : (s.hostWrite a bs).lastLayout = s.lastLayout := rfl
@[simp] theorem State.hostWrite_tiles (a : Nat) (bs : List Byte) : (s.hostWrite a bs).tiles = s.tiles := rfl
@[simp] theorem State.hostWrite_net (a : Nat) (bs : List Byte) : (s.hostWrite a bs).net = s.net := rfl
@[simp] theorem State.hostWrite_mem (a : Nat) (bs : List Byte) : (s.hostWrite a bs).mem = s.mem := rfl
@[simp] theorem State.hostWrite_power (a : Nat) (bs : List Byte) : (s.hostWrite a bs).power = s.power := rfl
@[simp] theorem State.hostWrite_ao (a : Nat) (bs : List Byte) : (s.hostWrite a bs).ao = s.ao := rfl
@[simp] theorem State.hostWrite_media (a : Nat) (bs : List Byte) : (s.hostWrite a bs).media = s.media := rfl
@[simp] theorem State.hostWrite_streams (a : Nat) (bs : List Byte) : (s.hostWrite a bs).streams = s.streams := rfl
@[simp] theorem State.hostWrite_links (a : Nat) (bs : List Byte) : (s.hostWrite a bs).links = s.links := rfl
@[simp] theorem State.hostWrite_pins (a : Nat) (bs : List Byte) : (s.hostWrite a bs).pins = s.pins := rfl
@[simp] theorem State.hostWrite_freeCount (a : Nat) (bs : List Byte) : (s.hostWrite a bs).freeCount = s.freeCount := rfl
@[simp] theorem State.hostWrite_pending (a : Nat) (bs : List Byte) : (s.hostWrite a bs).pending = s.pending := rfl

/-! ## emitAt -/

@[simp] theorem State.emitAt_pkg (d : Nat) (e : Event) : (s.emitAt d e).pkg = s.pkg := rfl
@[simp] theorem State.emitAt_clk (d : Nat) (e : Event) : (s.emitAt d e).clk = s.clk := rfl
@[simp] theorem State.emitAt_time (d : Nat) (e : Event) : (s.emitAt d e).time = s.time := rfl
@[simp] theorem State.emitAt_log (d : Nat) (e : Event) : (s.emitAt d e).log = s.log := rfl
@[simp] theorem State.emitAt_iq (d : Nat) (e : Event) : (s.emitAt d e).iq = s.iq := rfl
@[simp] theorem State.emitAt_host (d : Nat) (e : Event) : (s.emitAt d e).host = s.host := rfl
@[simp] theorem State.emitAt_ctxs (d : Nat) (e : Event) : (s.emitAt d e).ctxs = s.ctxs := rfl
@[simp] theorem State.emitAt_insts (d : Nat) (e : Event) : (s.emitAt d e).insts = s.insts := rfl
@[simp] theorem State.emitAt_lastLayout (d : Nat) (e : Event) : (s.emitAt d e).lastLayout = s.lastLayout := rfl
@[simp] theorem State.emitAt_tiles (d : Nat) (e : Event) : (s.emitAt d e).tiles = s.tiles := rfl
@[simp] theorem State.emitAt_net (d : Nat) (e : Event) : (s.emitAt d e).net = s.net := rfl
@[simp] theorem State.emitAt_mem (d : Nat) (e : Event) : (s.emitAt d e).mem = s.mem := rfl
@[simp] theorem State.emitAt_power (d : Nat) (e : Event) : (s.emitAt d e).power = s.power := rfl
@[simp] theorem State.emitAt_ao (d : Nat) (e : Event) : (s.emitAt d e).ao = s.ao := rfl
@[simp] theorem State.emitAt_media (d : Nat) (e : Event) : (s.emitAt d e).media = s.media := rfl
@[simp] theorem State.emitAt_streams (d : Nat) (e : Event) : (s.emitAt d e).streams = s.streams := rfl
@[simp] theorem State.emitAt_links (d : Nat) (e : Event) : (s.emitAt d e).links = s.links := rfl
@[simp] theorem State.emitAt_pins (d : Nat) (e : Event) : (s.emitAt d e).pins = s.pins := rfl
@[simp] theorem State.emitAt_freeCount (d : Nat) (e : Event) : (s.emitAt d e).freeCount = s.freeCount := rfl
@[simp] theorem State.emitAt_pending (d : Nat) (e : Event) : (s.emitAt d e).pending = s.pending := rfl

/-! ## emit -/

@[simp] theorem State.emit_pkg (src : Src) (b : EventBody) : (s.emit src b).pkg = s.pkg := rfl
@[simp] theorem State.emit_clk (src : Src) (b : EventBody) : (s.emit src b).clk = s.clk := rfl
@[simp] theorem State.emit_time (src : Src) (b : EventBody) : (s.emit src b).time = s.time := rfl
@[simp] theorem State.emit_log (src : Src) (b : EventBody) : (s.emit src b).log = s.log := rfl
@[simp] theorem State.emit_iq (src : Src) (b : EventBody) : (s.emit src b).iq = s.iq := rfl
@[simp] theorem State.emit_host (src : Src) (b : EventBody) : (s.emit src b).host = s.host := rfl
@[simp] theorem State.emit_ctxs (src : Src) (b : EventBody) : (s.emit src b).ctxs = s.ctxs := rfl
@[simp] theorem State.emit_insts (src : Src) (b : EventBody) : (s.emit src b).insts = s.insts := rfl
@[simp] theorem State.emit_lastLayout (src : Src) (b : EventBody) : (s.emit src b).lastLayout = s.lastLayout := rfl
@[simp] theorem State.emit_tiles (src : Src) (b : EventBody) : (s.emit src b).tiles = s.tiles := rfl
@[simp] theorem State.emit_net (src : Src) (b : EventBody) : (s.emit src b).net = s.net := rfl
@[simp] theorem State.emit_mem (src : Src) (b : EventBody) : (s.emit src b).mem = s.mem := rfl
@[simp] theorem State.emit_power (src : Src) (b : EventBody) : (s.emit src b).power = s.power := rfl
@[simp] theorem State.emit_ao (src : Src) (b : EventBody) : (s.emit src b).ao = s.ao := rfl
@[simp] theorem State.emit_media (src : Src) (b : EventBody) : (s.emit src b).media = s.media := rfl
@[simp] theorem State.emit_streams (src : Src) (b : EventBody) : (s.emit src b).streams = s.streams := rfl
@[simp] theorem State.emit_links (src : Src) (b : EventBody) : (s.emit src b).links = s.links := rfl
@[simp] theorem State.emit_pins (src : Src) (b : EventBody) : (s.emit src b).pins = s.pins := rfl
@[simp] theorem State.emit_freeCount (src : Src) (b : EventBody) : (s.emit src b).freeCount = s.freeCount := rfl
@[simp] theorem State.emit_pending (src : Src) (b : EventBody) : (s.emit src b).pending = s.pending := rfl

/-! ## logEv -/

@[simp] theorem State.logEv_pkg (src : Src) (code : BitVec 16) (t : Byte) (p : List Byte) : (s.logEv src code t p).pkg = s.pkg := rfl
@[simp] theorem State.logEv_clk (src : Src) (code : BitVec 16) (t : Byte) (p : List Byte) : (s.logEv src code t p).clk = s.clk := rfl
@[simp] theorem State.logEv_time (src : Src) (code : BitVec 16) (t : Byte) (p : List Byte) : (s.logEv src code t p).time = s.time := rfl
@[simp] theorem State.logEv_log (src : Src) (code : BitVec 16) (t : Byte) (p : List Byte) : (s.logEv src code t p).log = s.log := rfl
@[simp] theorem State.logEv_iq (src : Src) (code : BitVec 16) (t : Byte) (p : List Byte) : (s.logEv src code t p).iq = s.iq := rfl
@[simp] theorem State.logEv_host (src : Src) (code : BitVec 16) (t : Byte) (p : List Byte) : (s.logEv src code t p).host = s.host := rfl
@[simp] theorem State.logEv_ctxs (src : Src) (code : BitVec 16) (t : Byte) (p : List Byte) : (s.logEv src code t p).ctxs = s.ctxs := rfl
@[simp] theorem State.logEv_insts (src : Src) (code : BitVec 16) (t : Byte) (p : List Byte) : (s.logEv src code t p).insts = s.insts := rfl
@[simp] theorem State.logEv_lastLayout (src : Src) (code : BitVec 16) (t : Byte) (p : List Byte) : (s.logEv src code t p).lastLayout = s.lastLayout := rfl
@[simp] theorem State.logEv_tiles (src : Src) (code : BitVec 16) (t : Byte) (p : List Byte) : (s.logEv src code t p).tiles = s.tiles := rfl
@[simp] theorem State.logEv_net (src : Src) (code : BitVec 16) (t : Byte) (p : List Byte) : (s.logEv src code t p).net = s.net := rfl
@[simp] theorem State.logEv_mem (src : Src) (code : BitVec 16) (t : Byte) (p : List Byte) : (s.logEv src code t p).mem = s.mem := rfl
@[simp] theorem State.logEv_power (src : Src) (code : BitVec 16) (t : Byte) (p : List Byte) : (s.logEv src code t p).power = s.power := rfl
@[simp] theorem State.logEv_ao (src : Src) (code : BitVec 16) (t : Byte) (p : List Byte) : (s.logEv src code t p).ao = s.ao := rfl
@[simp] theorem State.logEv_media (src : Src) (code : BitVec 16) (t : Byte) (p : List Byte) : (s.logEv src code t p).media = s.media := rfl
@[simp] theorem State.logEv_streams (src : Src) (code : BitVec 16) (t : Byte) (p : List Byte) : (s.logEv src code t p).streams = s.streams := rfl
@[simp] theorem State.logEv_links (src : Src) (code : BitVec 16) (t : Byte) (p : List Byte) : (s.logEv src code t p).links = s.links := rfl
@[simp] theorem State.logEv_pins (src : Src) (code : BitVec 16) (t : Byte) (p : List Byte) : (s.logEv src code t p).pins = s.pins := rfl
@[simp] theorem State.logEv_freeCount (src : Src) (code : BitVec 16) (t : Byte) (p : List Byte) : (s.logEv src code t p).freeCount = s.freeCount := rfl
@[simp] theorem State.logEv_pending (src : Src) (code : BitVec 16) (t : Byte) (p : List Byte) : (s.logEv src code t p).pending = s.pending := rfl

/-! ## logTile -/

@[simp] theorem State.logTile_pkg (x : Site) (code : BitVec 16) (p : List Byte) : (s.logTile x code p).pkg = s.pkg := rfl
@[simp] theorem State.logTile_clk (x : Site) (code : BitVec 16) (p : List Byte) : (s.logTile x code p).clk = s.clk := rfl
@[simp] theorem State.logTile_time (x : Site) (code : BitVec 16) (p : List Byte) : (s.logTile x code p).time = s.time := rfl
@[simp] theorem State.logTile_log (x : Site) (code : BitVec 16) (p : List Byte) : (s.logTile x code p).log = s.log := rfl
@[simp] theorem State.logTile_iq (x : Site) (code : BitVec 16) (p : List Byte) : (s.logTile x code p).iq = s.iq := rfl
@[simp] theorem State.logTile_host (x : Site) (code : BitVec 16) (p : List Byte) : (s.logTile x code p).host = s.host := rfl
@[simp] theorem State.logTile_ctxs (x : Site) (code : BitVec 16) (p : List Byte) : (s.logTile x code p).ctxs = s.ctxs := rfl
@[simp] theorem State.logTile_insts (x : Site) (code : BitVec 16) (p : List Byte) : (s.logTile x code p).insts = s.insts := rfl
@[simp] theorem State.logTile_lastLayout (x : Site) (code : BitVec 16) (p : List Byte) : (s.logTile x code p).lastLayout = s.lastLayout := rfl
@[simp] theorem State.logTile_tiles (x : Site) (code : BitVec 16) (p : List Byte) : (s.logTile x code p).tiles = s.tiles := rfl
@[simp] theorem State.logTile_net (x : Site) (code : BitVec 16) (p : List Byte) : (s.logTile x code p).net = s.net := rfl
@[simp] theorem State.logTile_mem (x : Site) (code : BitVec 16) (p : List Byte) : (s.logTile x code p).mem = s.mem := rfl
@[simp] theorem State.logTile_power (x : Site) (code : BitVec 16) (p : List Byte) : (s.logTile x code p).power = s.power := rfl
@[simp] theorem State.logTile_ao (x : Site) (code : BitVec 16) (p : List Byte) : (s.logTile x code p).ao = s.ao := rfl
@[simp] theorem State.logTile_media (x : Site) (code : BitVec 16) (p : List Byte) : (s.logTile x code p).media = s.media := rfl
@[simp] theorem State.logTile_streams (x : Site) (code : BitVec 16) (p : List Byte) : (s.logTile x code p).streams = s.streams := rfl
@[simp] theorem State.logTile_links (x : Site) (code : BitVec 16) (p : List Byte) : (s.logTile x code p).links = s.links := rfl
@[simp] theorem State.logTile_pins (x : Site) (code : BitVec 16) (p : List Byte) : (s.logTile x code p).pins = s.pins := rfl
@[simp] theorem State.logTile_freeCount (x : Site) (code : BitVec 16) (p : List Byte) : (s.logTile x code p).freeCount = s.freeCount := rfl
@[simp] theorem State.logTile_pending (x : Site) (code : BitVec 16) (p : List Byte) : (s.logTile x code p).pending = s.pending := rfl

/-! ## raise -/

@[simp] theorem State.raise_pkg (src : Src) (g : Fn) (v : BitVec 11) (c : Byte) : (s.raise src g v c).pkg = s.pkg := by unfold State.raise; split <;> rfl
@[simp] theorem State.raise_clk (src : Src) (g : Fn) (v : BitVec 11) (c : Byte) : (s.raise src g v c).clk = s.clk := by unfold State.raise; split <;> rfl
@[simp] theorem State.raise_time (src : Src) (g : Fn) (v : BitVec 11) (c : Byte) : (s.raise src g v c).time = s.time := by unfold State.raise; split <;> rfl
@[simp] theorem State.raise_log (src : Src) (g : Fn) (v : BitVec 11) (c : Byte) : (s.raise src g v c).log = s.log := by unfold State.raise; split <;> rfl
@[simp] theorem State.raise_iq (src : Src) (g : Fn) (v : BitVec 11) (c : Byte) : (s.raise src g v c).iq = s.iq := by unfold State.raise; split <;> rfl
@[simp] theorem State.raise_host (src : Src) (g : Fn) (v : BitVec 11) (c : Byte) : (s.raise src g v c).host = s.host := by unfold State.raise; split <;> rfl
@[simp] theorem State.raise_ctxs (src : Src) (g : Fn) (v : BitVec 11) (c : Byte) : (s.raise src g v c).ctxs = s.ctxs := by unfold State.raise; split <;> rfl
@[simp] theorem State.raise_insts (src : Src) (g : Fn) (v : BitVec 11) (c : Byte) : (s.raise src g v c).insts = s.insts := by unfold State.raise; split <;> rfl
@[simp] theorem State.raise_lastLayout (src : Src) (g : Fn) (v : BitVec 11) (c : Byte) : (s.raise src g v c).lastLayout = s.lastLayout := by unfold State.raise; split <;> rfl
@[simp] theorem State.raise_tiles (src : Src) (g : Fn) (v : BitVec 11) (c : Byte) : (s.raise src g v c).tiles = s.tiles := by unfold State.raise; split <;> rfl
@[simp] theorem State.raise_net (src : Src) (g : Fn) (v : BitVec 11) (c : Byte) : (s.raise src g v c).net = s.net := by unfold State.raise; split <;> rfl
@[simp] theorem State.raise_mem (src : Src) (g : Fn) (v : BitVec 11) (c : Byte) : (s.raise src g v c).mem = s.mem := by unfold State.raise; split <;> rfl
@[simp] theorem State.raise_power (src : Src) (g : Fn) (v : BitVec 11) (c : Byte) : (s.raise src g v c).power = s.power := by unfold State.raise; split <;> rfl
@[simp] theorem State.raise_ao (src : Src) (g : Fn) (v : BitVec 11) (c : Byte) : (s.raise src g v c).ao = s.ao := by unfold State.raise; split <;> rfl
@[simp] theorem State.raise_media (src : Src) (g : Fn) (v : BitVec 11) (c : Byte) : (s.raise src g v c).media = s.media := by unfold State.raise; split <;> rfl
@[simp] theorem State.raise_streams (src : Src) (g : Fn) (v : BitVec 11) (c : Byte) : (s.raise src g v c).streams = s.streams := by unfold State.raise; split <;> rfl
@[simp] theorem State.raise_links (src : Src) (g : Fn) (v : BitVec 11) (c : Byte) : (s.raise src g v c).links = s.links := by unfold State.raise; split <;> rfl
@[simp] theorem State.raise_pins (src : Src) (g : Fn) (v : BitVec 11) (c : Byte) : (s.raise src g v c).pins = s.pins := by unfold State.raise; split <;> rfl
@[simp] theorem State.raise_freeCount (src : Src) (g : Fn) (v : BitVec 11) (c : Byte) : (s.raise src g v c).freeCount = s.freeCount := by unfold State.raise; split <;> rfl
@[simp] theorem State.raise_pending (src : Src) (g : Fn) (v : BitVec 11) (c : Byte) : (s.raise src g v c).pending = s.pending := by unfold State.raise; split <;> rfl

/-! ## causeInst -/

@[simp] theorem State.causeInst_pkg (l : BitVec 8) (st : Status) (src : Src) : (s.causeInst l st src).pkg = s.pkg := by simp [State.causeInst]
@[simp] theorem State.causeInst_clk (l : BitVec 8) (st : Status) (src : Src) : (s.causeInst l st src).clk = s.clk := by simp [State.causeInst]
@[simp] theorem State.causeInst_time (l : BitVec 8) (st : Status) (src : Src) : (s.causeInst l st src).time = s.time := by simp [State.causeInst]
@[simp] theorem State.causeInst_merger (l : BitVec 8) (st : Status) (src : Src) : (s.causeInst l st src).merger = s.merger := by simp [State.causeInst]
@[simp] theorem State.causeInst_log (l : BitVec 8) (st : Status) (src : Src) : (s.causeInst l st src).log = s.log := by simp [State.causeInst]
@[simp] theorem State.causeInst_iq (l : BitVec 8) (st : Status) (src : Src) : (s.causeInst l st src).iq = s.iq := by simp [State.causeInst]
@[simp] theorem State.causeInst_host (l : BitVec 8) (st : Status) (src : Src) : (s.causeInst l st src).host = s.host := by simp [State.causeInst]
@[simp] theorem State.causeInst_ctxs (l : BitVec 8) (st : Status) (src : Src) : (s.causeInst l st src).ctxs = s.ctxs := by simp [State.causeInst]
@[simp] theorem State.causeInst_lastLayout (l : BitVec 8) (st : Status) (src : Src) : (s.causeInst l st src).lastLayout = s.lastLayout := by simp [State.causeInst]
@[simp] theorem State.causeInst_tiles (l : BitVec 8) (st : Status) (src : Src) : (s.causeInst l st src).tiles = s.tiles := by simp [State.causeInst]
@[simp] theorem State.causeInst_net (l : BitVec 8) (st : Status) (src : Src) : (s.causeInst l st src).net = s.net := by simp [State.causeInst]
@[simp] theorem State.causeInst_mem (l : BitVec 8) (st : Status) (src : Src) : (s.causeInst l st src).mem = s.mem := by simp [State.causeInst]
@[simp] theorem State.causeInst_power (l : BitVec 8) (st : Status) (src : Src) : (s.causeInst l st src).power = s.power := by simp [State.causeInst]
@[simp] theorem State.causeInst_ao (l : BitVec 8) (st : Status) (src : Src) : (s.causeInst l st src).ao = s.ao := by simp [State.causeInst]
@[simp] theorem State.causeInst_media (l : BitVec 8) (st : Status) (src : Src) : (s.causeInst l st src).media = s.media := by simp [State.causeInst]
@[simp] theorem State.causeInst_streams (l : BitVec 8) (st : Status) (src : Src) : (s.causeInst l st src).streams = s.streams := by simp [State.causeInst]
@[simp] theorem State.causeInst_links (l : BitVec 8) (st : Status) (src : Src) : (s.causeInst l st src).links = s.links := by simp [State.causeInst]
@[simp] theorem State.causeInst_pins (l : BitVec 8) (st : Status) (src : Src) : (s.causeInst l st src).pins = s.pins := by simp [State.causeInst]
@[simp] theorem State.causeInst_freeCount (l : BitVec 8) (st : Status) (src : Src) : (s.causeInst l st src).freeCount = s.freeCount := by simp [State.causeInst]
@[simp] theorem State.causeInst_pending (l : BitVec 8) (st : Status) (src : Src) : (s.causeInst l st src).pending = s.pending := by simp [State.causeInst]

/-! ## causeAt -/

@[simp] theorem State.causeAt_pkg (x : Site) (st : Status) (src : Src) : (s.causeAt x st src).pkg = s.pkg := by unfold State.causeAt; split <;> simp
@[simp] theorem State.causeAt_clk (x : Site) (st : Status) (src : Src) : (s.causeAt x st src).clk = s.clk := by unfold State.causeAt; split <;> simp
@[simp] theorem State.causeAt_time (x : Site) (st : Status) (src : Src) : (s.causeAt x st src).time = s.time := by unfold State.causeAt; split <;> simp
@[simp] theorem State.causeAt_merger (x : Site) (st : Status) (src : Src) : (s.causeAt x st src).merger = s.merger := by unfold State.causeAt; split <;> simp
@[simp] theorem State.causeAt_log (x : Site) (st : Status) (src : Src) : (s.causeAt x st src).log = s.log := by unfold State.causeAt; split <;> simp
@[simp] theorem State.causeAt_iq (x : Site) (st : Status) (src : Src) : (s.causeAt x st src).iq = s.iq := by unfold State.causeAt; split <;> simp
@[simp] theorem State.causeAt_host (x : Site) (st : Status) (src : Src) : (s.causeAt x st src).host = s.host := by unfold State.causeAt; split <;> simp
@[simp] theorem State.causeAt_ctxs (x : Site) (st : Status) (src : Src) : (s.causeAt x st src).ctxs = s.ctxs := by unfold State.causeAt; split <;> simp
@[simp] theorem State.causeAt_lastLayout (x : Site) (st : Status) (src : Src) : (s.causeAt x st src).lastLayout = s.lastLayout := by unfold State.causeAt; split <;> simp
@[simp] theorem State.causeAt_tiles (x : Site) (st : Status) (src : Src) : (s.causeAt x st src).tiles = s.tiles := by unfold State.causeAt; split <;> simp
@[simp] theorem State.causeAt_net (x : Site) (st : Status) (src : Src) : (s.causeAt x st src).net = s.net := by unfold State.causeAt; split <;> simp
@[simp] theorem State.causeAt_mem (x : Site) (st : Status) (src : Src) : (s.causeAt x st src).mem = s.mem := by unfold State.causeAt; split <;> simp
@[simp] theorem State.causeAt_power (x : Site) (st : Status) (src : Src) : (s.causeAt x st src).power = s.power := by unfold State.causeAt; split <;> simp
@[simp] theorem State.causeAt_ao (x : Site) (st : Status) (src : Src) : (s.causeAt x st src).ao = s.ao := by unfold State.causeAt; split <;> simp
@[simp] theorem State.causeAt_media (x : Site) (st : Status) (src : Src) : (s.causeAt x st src).media = s.media := by unfold State.causeAt; split <;> simp
@[simp] theorem State.causeAt_streams (x : Site) (st : Status) (src : Src) : (s.causeAt x st src).streams = s.streams := by unfold State.causeAt; split <;> simp
@[simp] theorem State.causeAt_links (x : Site) (st : Status) (src : Src) : (s.causeAt x st src).links = s.links := by unfold State.causeAt; split <;> simp
@[simp] theorem State.causeAt_pins (x : Site) (st : Status) (src : Src) : (s.causeAt x st src).pins = s.pins := by unfold State.causeAt; split <;> simp
@[simp] theorem State.causeAt_freeCount (x : Site) (st : Status) (src : Src) : (s.causeAt x st src).freeCount = s.freeCount := by unfold State.causeAt; split <;> simp
@[simp] theorem State.causeAt_pending (x : Site) (st : Status) (src : Src) : (s.causeAt x st src).pending = s.pending := by unfold State.causeAt; split <;> simp

/-! ## signItem -/

@[simp] theorem State.signItem_pkg (x : Site) (a b c : Nat) (p : List Byte) : (s.signItem x a b c p).pkg = s.pkg := by unfold State.signItem; split <;> simp
@[simp] theorem State.signItem_clk (x : Site) (a b c : Nat) (p : List Byte) : (s.signItem x a b c p).clk = s.clk := by unfold State.signItem; split <;> simp
@[simp] theorem State.signItem_time (x : Site) (a b c : Nat) (p : List Byte) : (s.signItem x a b c p).time = s.time := by unfold State.signItem; split <;> simp
@[simp] theorem State.signItem_merger (x : Site) (a b c : Nat) (p : List Byte) : (s.signItem x a b c p).merger = s.merger := by unfold State.signItem; split <;> simp
@[simp] theorem State.signItem_log (x : Site) (a b c : Nat) (p : List Byte) : (s.signItem x a b c p).log = s.log := by unfold State.signItem; split <;> simp
@[simp] theorem State.signItem_iq (x : Site) (a b c : Nat) (p : List Byte) : (s.signItem x a b c p).iq = s.iq := by unfold State.signItem; split <;> simp
@[simp] theorem State.signItem_host (x : Site) (a b c : Nat) (p : List Byte) : (s.signItem x a b c p).host = s.host := by unfold State.signItem; split <;> simp
@[simp] theorem State.signItem_ctxs (x : Site) (a b c : Nat) (p : List Byte) : (s.signItem x a b c p).ctxs = s.ctxs := by unfold State.signItem; split <;> simp
@[simp] theorem State.signItem_lastLayout (x : Site) (a b c : Nat) (p : List Byte) : (s.signItem x a b c p).lastLayout = s.lastLayout := by unfold State.signItem; split <;> simp
@[simp] theorem State.signItem_tiles (x : Site) (a b c : Nat) (p : List Byte) : (s.signItem x a b c p).tiles = s.tiles := by unfold State.signItem; split <;> simp
@[simp] theorem State.signItem_net (x : Site) (a b c : Nat) (p : List Byte) : (s.signItem x a b c p).net = s.net := by unfold State.signItem; split <;> simp
@[simp] theorem State.signItem_mem (x : Site) (a b c : Nat) (p : List Byte) : (s.signItem x a b c p).mem = s.mem := by unfold State.signItem; split <;> simp
@[simp] theorem State.signItem_power (x : Site) (a b c : Nat) (p : List Byte) : (s.signItem x a b c p).power = s.power := by unfold State.signItem; split <;> simp
@[simp] theorem State.signItem_ao (x : Site) (a b c : Nat) (p : List Byte) : (s.signItem x a b c p).ao = s.ao := by unfold State.signItem; split <;> simp
@[simp] theorem State.signItem_media (x : Site) (a b c : Nat) (p : List Byte) : (s.signItem x a b c p).media = s.media := by unfold State.signItem; split <;> simp
@[simp] theorem State.signItem_streams (x : Site) (a b c : Nat) (p : List Byte) : (s.signItem x a b c p).streams = s.streams := by unfold State.signItem; split <;> simp
@[simp] theorem State.signItem_links (x : Site) (a b c : Nat) (p : List Byte) : (s.signItem x a b c p).links = s.links := by unfold State.signItem; split <;> simp
@[simp] theorem State.signItem_pins (x : Site) (a b c : Nat) (p : List Byte) : (s.signItem x a b c p).pins = s.pins := by unfold State.signItem; split <;> simp
@[simp] theorem State.signItem_freeCount (x : Site) (a b c : Nat) (p : List Byte) : (s.signItem x a b c p).freeCount = s.freeCount := by unfold State.signItem; split <;> simp
@[simp] theorem State.signItem_pending (x : Site) (a b c : Nat) (p : List Byte) : (s.signItem x a b c p).pending = s.pending := by unfold State.signItem; split <;> simp

/-! ## dropStarted -/

@[simp] theorem State.dropStarted_pkg (f : Started) : (s.dropStarted f).pkg = s.pkg := rfl
@[simp] theorem State.dropStarted_clk (f : Started) : (s.dropStarted f).clk = s.clk := rfl
@[simp] theorem State.dropStarted_time (f : Started) : (s.dropStarted f).time = s.time := rfl
@[simp] theorem State.dropStarted_merger (f : Started) : (s.dropStarted f).merger = s.merger := rfl
@[simp] theorem State.dropStarted_log (f : Started) : (s.dropStarted f).log = s.log := rfl
@[simp] theorem State.dropStarted_iq (f : Started) : (s.dropStarted f).iq = s.iq := rfl
@[simp] theorem State.dropStarted_ctxs (f : Started) : (s.dropStarted f).ctxs = s.ctxs := rfl
@[simp] theorem State.dropStarted_insts (f : Started) : (s.dropStarted f).insts = s.insts := rfl
@[simp] theorem State.dropStarted_lastLayout (f : Started) : (s.dropStarted f).lastLayout = s.lastLayout := rfl
@[simp] theorem State.dropStarted_tiles (f : Started) : (s.dropStarted f).tiles = s.tiles := rfl
@[simp] theorem State.dropStarted_net (f : Started) : (s.dropStarted f).net = s.net := rfl
@[simp] theorem State.dropStarted_mem (f : Started) : (s.dropStarted f).mem = s.mem := rfl
@[simp] theorem State.dropStarted_power (f : Started) : (s.dropStarted f).power = s.power := rfl
@[simp] theorem State.dropStarted_ao (f : Started) : (s.dropStarted f).ao = s.ao := rfl
@[simp] theorem State.dropStarted_media (f : Started) : (s.dropStarted f).media = s.media := rfl
@[simp] theorem State.dropStarted_streams (f : Started) : (s.dropStarted f).streams = s.streams := rfl
@[simp] theorem State.dropStarted_links (f : Started) : (s.dropStarted f).links = s.links := rfl
@[simp] theorem State.dropStarted_pins (f : Started) : (s.dropStarted f).pins = s.pins := rfl
@[simp] theorem State.dropStarted_freeCount (f : Started) : (s.dropStarted f).freeCount = s.freeCount := rfl
@[simp] theorem State.dropStarted_pending (f : Started) : (s.dropStarted f).pending = s.pending := rfl

/-! ## ringWrite -/

@[simp] theorem State.ringWrite_pkg (r : RingSel) (bs : List Byte) : (s.ringWrite r bs).pkg = s.pkg := by unfold State.ringWrite; dsimp only; split <;> simp
@[simp] theorem State.ringWrite_clk (r : RingSel) (bs : List Byte) : (s.ringWrite r bs).clk = s.clk := by unfold State.ringWrite; dsimp only; split <;> simp
@[simp] theorem State.ringWrite_time (r : RingSel) (bs : List Byte) : (s.ringWrite r bs).time = s.time := by unfold State.ringWrite; dsimp only; split <;> simp
@[simp] theorem State.ringWrite_merger (r : RingSel) (bs : List Byte) : (s.ringWrite r bs).merger = s.merger := by unfold State.ringWrite; dsimp only; split <;> simp
@[simp] theorem State.ringWrite_log (r : RingSel) (bs : List Byte) : (s.ringWrite r bs).log = s.log := by unfold State.ringWrite; dsimp only; split <;> simp
@[simp] theorem State.ringWrite_iq (r : RingSel) (bs : List Byte) : (s.ringWrite r bs).iq = s.iq := by unfold State.ringWrite; dsimp only; split <;> simp
@[simp] theorem State.ringWrite_insts (r : RingSel) (bs : List Byte) : (s.ringWrite r bs).insts = s.insts := by unfold State.ringWrite; dsimp only; split <;> simp
@[simp] theorem State.ringWrite_lastLayout (r : RingSel) (bs : List Byte) : (s.ringWrite r bs).lastLayout = s.lastLayout := by unfold State.ringWrite; dsimp only; split <;> simp
@[simp] theorem State.ringWrite_tiles (r : RingSel) (bs : List Byte) : (s.ringWrite r bs).tiles = s.tiles := by unfold State.ringWrite; dsimp only; split <;> simp
@[simp] theorem State.ringWrite_net (r : RingSel) (bs : List Byte) : (s.ringWrite r bs).net = s.net := by unfold State.ringWrite; dsimp only; split <;> simp
@[simp] theorem State.ringWrite_mem (r : RingSel) (bs : List Byte) : (s.ringWrite r bs).mem = s.mem := by unfold State.ringWrite; dsimp only; split <;> simp
@[simp] theorem State.ringWrite_power (r : RingSel) (bs : List Byte) : (s.ringWrite r bs).power = s.power := by unfold State.ringWrite; dsimp only; split <;> simp
@[simp] theorem State.ringWrite_ao (r : RingSel) (bs : List Byte) : (s.ringWrite r bs).ao = s.ao := by unfold State.ringWrite; dsimp only; split <;> simp
@[simp] theorem State.ringWrite_media (r : RingSel) (bs : List Byte) : (s.ringWrite r bs).media = s.media := by unfold State.ringWrite; dsimp only; split <;> simp
@[simp] theorem State.ringWrite_streams (r : RingSel) (bs : List Byte) : (s.ringWrite r bs).streams = s.streams := by unfold State.ringWrite; dsimp only; split <;> simp
@[simp] theorem State.ringWrite_links (r : RingSel) (bs : List Byte) : (s.ringWrite r bs).links = s.links := by unfold State.ringWrite; dsimp only; split <;> simp
@[simp] theorem State.ringWrite_pins (r : RingSel) (bs : List Byte) : (s.ringWrite r bs).pins = s.pins := by unfold State.ringWrite; dsimp only; split <;> simp
@[simp] theorem State.ringWrite_freeCount (r : RingSel) (bs : List Byte) : (s.ringWrite r bs).freeCount = s.freeCount := by unfold State.ringWrite; dsimp only; split <;> simp
@[simp] theorem State.ringWrite_pending (r : RingSel) (bs : List Byte) : (s.ringWrite r bs).pending = s.pending := by unfold State.ringWrite; dsimp only; split <;> simp

/-! ## finish -/

@[simp] theorem State.finish_pkg (f : Started) (st : Status) (v : Nat) : (s.finish f st v).pkg = s.pkg := by unfold State.finish; dsimp only; (repeat' split) <;> simp
@[simp] theorem State.finish_clk (f : Started) (st : Status) (v : Nat) : (s.finish f st v).clk = s.clk := by unfold State.finish; dsimp only; (repeat' split) <;> simp
@[simp] theorem State.finish_time (f : Started) (st : Status) (v : Nat) : (s.finish f st v).time = s.time := by unfold State.finish; dsimp only; (repeat' split) <;> simp
@[simp] theorem State.finish_log (f : Started) (st : Status) (v : Nat) : (s.finish f st v).log = s.log := by unfold State.finish; dsimp only; (repeat' split) <;> simp
@[simp] theorem State.finish_iq (f : Started) (st : Status) (v : Nat) : (s.finish f st v).iq = s.iq := by unfold State.finish; dsimp only; (repeat' split) <;> simp
@[simp] theorem State.finish_insts (f : Started) (st : Status) (v : Nat) : (s.finish f st v).insts = s.insts := by unfold State.finish; dsimp only; (repeat' split) <;> simp
@[simp] theorem State.finish_lastLayout (f : Started) (st : Status) (v : Nat) : (s.finish f st v).lastLayout = s.lastLayout := by unfold State.finish; dsimp only; (repeat' split) <;> simp
@[simp] theorem State.finish_tiles (f : Started) (st : Status) (v : Nat) : (s.finish f st v).tiles = s.tiles := by unfold State.finish; dsimp only; (repeat' split) <;> simp
@[simp] theorem State.finish_net (f : Started) (st : Status) (v : Nat) : (s.finish f st v).net = s.net := by unfold State.finish; dsimp only; (repeat' split) <;> simp
@[simp] theorem State.finish_mem (f : Started) (st : Status) (v : Nat) : (s.finish f st v).mem = s.mem := by unfold State.finish; dsimp only; (repeat' split) <;> simp
@[simp] theorem State.finish_power (f : Started) (st : Status) (v : Nat) : (s.finish f st v).power = s.power := by unfold State.finish; dsimp only; (repeat' split) <;> simp
@[simp] theorem State.finish_ao (f : Started) (st : Status) (v : Nat) : (s.finish f st v).ao = s.ao := by unfold State.finish; dsimp only; (repeat' split) <;> simp
@[simp] theorem State.finish_media (f : Started) (st : Status) (v : Nat) : (s.finish f st v).media = s.media := by unfold State.finish; dsimp only; (repeat' split) <;> simp
@[simp] theorem State.finish_streams (f : Started) (st : Status) (v : Nat) : (s.finish f st v).streams = s.streams := by unfold State.finish; dsimp only; (repeat' split) <;> simp
@[simp] theorem State.finish_links (f : Started) (st : Status) (v : Nat) : (s.finish f st v).links = s.links := by unfold State.finish; dsimp only; (repeat' split) <;> simp
@[simp] theorem State.finish_pins (f : Started) (st : Status) (v : Nat) : (s.finish f st v).pins = s.pins := by unfold State.finish; dsimp only; (repeat' split) <;> simp
@[simp] theorem State.finish_freeCount (f : Started) (st : Status) (v : Nat) : (s.finish f st v).freeCount = s.freeCount := by unfold State.finish; dsimp only; (repeat' split) <;> simp
@[simp] theorem State.finish_pending (f : Started) (st : Status) (v : Nat) : (s.finish f st v).pending = s.pending := by unfold State.finish; dsimp only; (repeat' split) <;> simp

end Sys2Proof.Machine
end

