-- ==== Sys2Proof/Laws/Access.lean ====
section
/-! SUPPORT. The accessors of the state under each named update. -/

namespace Sys2Proof.Machine

open Sys2Proof

variable (s : State)

/-! ## The component that an update names -/

theorem siteKey_inj {x y : Site} (h : siteKey x = siteKey y) : x = y := by
  obtain ⟨d, c, r⟩ := x
  obtain ⟨d', c', r'⟩ := y
  simp only [siteKey, siteUnit] at h
  have h1 : d = d' := Fin.ext (by omega)
  have h2 : c = c' := Fin.ext (by omega)
  have h3 : r = r' := Fin.ext (by omega)
  subst h1 h2 h3
  rfl

@[simp] theorem State.tile_onTile_self (x : Site) (f : Tile → Tile) : (s.onTile x f).tile x = f (s.tile x) := by
  simp [State.onTile, State.setTile, State.tile]

theorem State.tile_onTile_other {x y : Site} (f : Tile → Tile) (h : y ≠ x) : (s.onTile x f).tile y = s.tile y :=
  Map.get_set_other _ _ _ fun e => h (siteKey_inj e)

theorem State.tile_onTile (x y : Site) (f : Tile → Tile) : (s.onTile x f).tile y = if y = x then f (s.tile x) else s.tile y := by
  split
  · next h => subst h; simp
  · next h => exact s.tile_onTile_other f h

@[simp] theorem State.ctx_onCtx_self (t : Tenant) (f : Context → Context) : (s.onCtx t f).ctx t = f (s.ctx t) := by
  simp [State.onCtx, State.ctx]

theorem State.ctx_onCtx_other {t u : Tenant} (f : Context → Context) (h : u ≠ t) : (s.onCtx t f).ctx u = s.ctx u :=
  Map.get_set_other _ _ _ fun e => h (Fin.ext e)

theorem State.inst_onInst_self (l : BitVec 8) (f : Instance → Instance) : (s.onInst l f).inst? l = (s.inst? l).map f := by
  unfold State.onInst
  split
  · next i h => rw [h]; simp [State.inst?]
  · next h => simp [h]

theorem State.inst_onInst_other {l m : BitVec 8} (f : Instance → Instance) (h : m ≠ l) : (s.onInst l f).inst? m = s.inst? m := by
  unfold State.onInst
  split
  · exact Map.look_put_other _ _ fun e => h (BitVec.eq_of_toNat_eq e)
  · rfl

@[simp] theorem State.die_onDie_self (d : Nat) (f : DiePower → DiePower) : (s.onDie d f).die d = f (s.die d) := by
  simp [State.onDie, State.die]

theorem State.die_onDie_other {d e : Nat} (f : DiePower → DiePower) (h : e ≠ d) : (s.onDie d f).die e = s.die e :=
  Map.get_set_other _ _ _ h

theorem portKey_inj {p q : PortRef} (h : portKey p = portKey q) : p = q := by
  obtain ⟨a, b⟩ := p
  obtain ⟨c, d⟩ := q
  simp only [portKey] at h
  have h1 : a = c := Fin.ext (by omega)
  have h2 : b = d := Fin.ext (by omega)
  subst h1 h2
  rfl

@[simp] theorem State.port_onPort_self (p : PortRef) (f : Port → Port) : (s.onPort p f).port p = f (s.port p) := by
  simp [State.onPort, State.port]

theorem State.port_onPort_other {p q : PortRef} (f : Port → Port) (h : q ≠ p) : (s.onPort p f).port q = s.port q :=
  Map.get_set_other _ _ _ fun e => h (portKey_inj e)

@[simp] theorem State.ethPort_onEth_self (p : PortRef) (f : EthPort → EthPort) : (s.onEth p f).ethPort p = f (s.ethPort p) := by
  simp [State.onEth, State.ethPort]

theorem State.ethPort_onEth_other {p q : PortRef} (f : EthPort → EthPort) (h : q ≠ p) : (s.onEth p f).ethPort q = s.ethPort q :=
  Map.get_set_other _ _ _ fun e => h (portKey_inj e)

@[simp] theorem State.port_onEth (p q : PortRef) (f : EthPort → EthPort) : (s.onEth p f).port q = s.port q := rfl

@[simp] theorem State.ethPort_onPort (p q : PortRef) (f : Port → Port) : (s.onPort p f).ethPort q = s.ethPort q := rfl

theorem sessKey_inj {x y : SessRef} (h : sessKey x = sessKey y) : x = y := by
  obtain ⟨a, b⟩ := x
  obtain ⟨c, d⟩ := y
  simp only [sessKey] at h
  have h1 : a = c := Fin.ext (by omega)
  have h2 : b = d := Fin.ext (by omega)
  subst h1 h2
  rfl

@[simp] theorem State.sess_onSess_self (x : SessRef) (f : Session → Session) : (s.onSess x f).sess x = f (s.sess x) := by
  simp [State.onSess, State.sess]

theorem State.sess_onSess_other {x y : SessRef} (f : Session → Session) (h : y ≠ x) : (s.onSess x f).sess y = s.sess y :=
  Map.get_set_other _ _ _ fun e => h (sessKey_inj e)

@[simp] theorem State.fnRegs_onFnRegs_self (f : Fn) (g : FnRegs → FnRegs) : (s.onFnRegs f g).fnRegs f = g (s.fnRegs f) := by
  cases f <;> simp [State.onFnRegs, State.fnRegs]

@[simp] theorem State.pin_onPin_self (n : Nat) (f : Pin → Pin) : (s.onPin n f).pin n = f (s.pin n) := by
  simp [State.onPin, State.pin]

theorem State.pin_onPin_other {n m : Nat} (f : Pin → Pin) (h : m ≠ n) : (s.onPin n f).pin m = s.pin m :=
  Map.get_set_other _ _ _ h

@[simp] theorem State.stream_onStream_self (n : Nat) (f : Stream → Stream) : (s.onStream n f).stream n = f (s.stream n) := by
  simp [State.onStream, State.stream]

theorem State.stream_onStream_other {n m : Nat} (f : Stream → Stream) (h : m ≠ n) : (s.onStream n f).stream m = s.stream m :=
  Map.get_set_other _ _ _ h

@[simp] theorem State.ring_onRing_self (r : RingSel) (f : Ring → Ring) : (s.onRing r f).ring r = f (s.ring r) := by
  cases r <;> simp [State.onRing, State.ring]

/-! ## onTile -/

@[simp] theorem State.onTile_ctx (x : Site) (f : Tile → Tile) (u : Tenant) : (s.onTile x f).ctx u = s.ctx u := rfl
@[simp] theorem State.onTile_inst (x : Site) (f : Tile → Tile) (m : BitVec 8) : (s.onTile x f).inst? m = s.inst? m := rfl
@[simp] theorem State.onTile_instances (x : Site) (f : Tile → Tile) : (s.onTile x f).instances = s.instances := rfl
@[simp] theorem State.onTile_die (x : Site) (f : Tile → Tile) (k : Nat) : (s.onTile x f).die k = s.die k := rfl
@[simp] theorem State.onTile_dieUp (x : Site) (f : Tile → Tile) (k : Nat) : (s.onTile x f).dieUp k = s.dieUp k := rfl
@[simp] theorem State.onTile_port (x : Site) (f : Tile → Tile) (q : PortRef) : (s.onTile x f).port q = s.port q := rfl
@[simp] theorem State.onTile_ethPort (x : Site) (f : Tile → Tile) (q : PortRef) : (s.onTile x f).ethPort q = s.ethPort q := rfl
@[simp] theorem State.onTile_sess (x : Site) (f : Tile → Tile) (y : SessRef) : (s.onTile x f).sess y = s.sess y := rfl
@[simp] theorem State.onTile_fnRegs (x : Site) (f : Tile → Tile) (h : Fn) : (s.onTile x f).fnRegs h = s.fnRegs h := rfl
@[simp] theorem State.onTile_pin (x : Site) (f : Tile → Tile) (k : Nat) : (s.onTile x f).pin k = s.pin k := rfl
@[simp] theorem State.onTile_stream (x : Site) (f : Tile → Tile) (k : Nat) : (s.onTile x f).stream k = s.stream k := rfl
@[simp] theorem State.onTile_ring (x : Site) (f : Tile → Tile) (q : RingSel) : (s.onTile x f).ring q = s.ring q := rfl
@[simp] theorem State.onTile_alive (x : Site) (f : Tile → Tile) : (s.onTile x f).alive = s.alive := rfl
@[simp] theorem State.onTile_working (x : Site) (f : Tile → Tile) : (s.onTile x f).working = s.working := rfl
@[simp] theorem State.onTile_isFused (x : Site) (f : Tile → Tile) (y : Site) : (s.onTile x f).isFused y = s.isFused y := rfl
@[simp] theorem State.onTile_localGts (x : Site) (f : Tile → Tile) (k : Nat) : (s.onTile x f).localGts k = s.localGts k := rfl
@[simp] theorem State.onTile_ownerOf (x : Site) (f : Tile → Tile) (y : Site) : (s.onTile x f).ownerOf y = s.ownerOf y := rfl
@[simp] theorem State.onTile_inRegion (x : Site) (f : Tile → Tile) (u : Tenant) (y : Site) : (s.onTile x f).inRegion u y = s.inRegion u y := rfl
@[simp] theorem State.onTile_instAt (x : Site) (f : Tile → Tile) (y : Site) : (s.onTile x f).instAt y = s.instAt y := rfl

/-! ## onCtx -/

@[simp] theorem State.onCtx_tile (t : Tenant) (f : Context → Context) (y : Site) : (s.onCtx t f).tile y = s.tile y := rfl
@[simp] theorem State.onCtx_inst (t : Tenant) (f : Context → Context) (m : BitVec 8) : (s.onCtx t f).inst? m = s.inst? m := rfl
@[simp] theorem State.onCtx_instances (t : Tenant) (f : Context → Context) : (s.onCtx t f).instances = s.instances := rfl
@[simp] theorem State.onCtx_die (t : Tenant) (f : Context → Context) (k : Nat) : (s.onCtx t f).die k = s.die k := rfl
@[simp] theorem State.onCtx_dieUp (t : Tenant) (f : Context → Context) (k : Nat) : (s.onCtx t f).dieUp k = s.dieUp k := rfl
@[simp] theorem State.onCtx_port (t : Tenant) (f : Context → Context) (q : PortRef) : (s.onCtx t f).port q = s.port q := rfl
@[simp] theorem State.onCtx_ethPort (t : Tenant) (f : Context → Context) (q : PortRef) : (s.onCtx t f).ethPort q = s.ethPort q := rfl
@[simp] theorem State.onCtx_sess (t : Tenant) (f : Context → Context) (y : SessRef) : (s.onCtx t f).sess y = s.sess y := rfl
@[simp] theorem State.onCtx_fnRegs (t : Tenant) (f : Context → Context) (h : Fn) : (s.onCtx t f).fnRegs h = s.fnRegs h := rfl
@[simp] theorem State.onCtx_pin (t : Tenant) (f : Context → Context) (k : Nat) : (s.onCtx t f).pin k = s.pin k := rfl
@[simp] theorem State.onCtx_stream (t : Tenant) (f : Context → Context) (k : Nat) : (s.onCtx t f).stream k = s.stream k := rfl
@[simp] theorem State.onCtx_alive (t : Tenant) (f : Context → Context) : (s.onCtx t f).alive = s.alive := rfl
@[simp] theorem State.onCtx_working (t : Tenant) (f : Context → Context) : (s.onCtx t f).working = s.working := rfl
@[simp] theorem State.onCtx_isFused (t : Tenant) (f : Context → Context) (y : Site) : (s.onCtx t f).isFused y = s.isFused y := rfl
@[simp] theorem State.onCtx_localGts (t : Tenant) (f : Context → Context) (k : Nat) : (s.onCtx t f).localGts k = s.localGts k := rfl

/-! ## onInst -/

@[simp] theorem State.onInst_tile (l : BitVec 8) (f : Instance → Instance) (y : Site) : (s.onInst l f).tile y = s.tile y := by simp [State.tile]
@[simp] theorem State.onInst_ctx (l : BitVec 8) (f : Instance → Instance) (u : Tenant) : (s.onInst l f).ctx u = s.ctx u := by simp [State.ctx]
@[simp] theorem State.onInst_die (l : BitVec 8) (f : Instance → Instance) (k : Nat) : (s.onInst l f).die k = s.die k := by simp [State.die]
@[simp] theorem State.onInst_dieUp (l : BitVec 8) (f : Instance → Instance) (k : Nat) : (s.onInst l f).dieUp k = s.dieUp k := by simp [State.dieUp, State.die]
@[simp] theorem State.onInst_port (l : BitVec 8) (f : Instance → Instance) (q : PortRef) : (s.onInst l f).port q = s.port q := by simp [State.port]
@[simp] theorem State.onInst_ethPort (l : BitVec 8) (f : Instance → Instance) (q : PortRef) : (s.onInst l f).ethPort q = s.ethPort q := by simp [State.ethPort]
@[simp] theorem State.onInst_sess (l : BitVec 8) (f : Instance → Instance) (y : SessRef) : (s.onInst l f).sess y = s.sess y := by simp [State.sess]
@[simp] theorem State.onInst_fnRegs (l : BitVec 8) (f : Instance → Instance) (h : Fn) : (s.onInst l f).fnRegs h = s.fnRegs h := by cases h <;> simp [State.fnRegs]
@[simp] theorem State.onInst_pin (l : BitVec 8) (f : Instance → Instance) (k : Nat) : (s.onInst l f).pin k = s.pin k := by simp [State.pin]
@[simp] theorem State.onInst_stream (l : BitVec 8) (f : Instance → Instance) (k : Nat) : (s.onInst l f).stream k = s.stream k := by simp [State.stream]
@[simp] theorem State.onInst_ring (l : BitVec 8) (f : Instance → Instance) (q : RingSel) : (s.onInst l f).ring q = s.ring q := by cases q <;> simp [State.ring, State.ctx]
@[simp] theorem State.onInst_alive (l : BitVec 8) (f : Instance → Instance) : (s.onInst l f).alive = s.alive := by simp [State.alive]
@[simp] theorem State.onInst_working (l : BitVec 8) (f : Instance → Instance) : (s.onInst l f).working = s.working := by simp [State.working]
@[simp] theorem State.onInst_isFused (l : BitVec 8) (f : Instance → Instance) (y : Site) : (s.onInst l f).isFused y = s.isFused y := by simp [State.isFused]
@[simp] theorem State.onInst_localGts (l : BitVec 8) (f : Instance → Instance) (k : Nat) : (s.onInst l f).localGts k = s.localGts k := by simp [State.localGts]
@[simp] theorem State.onInst_ownerOf (l : BitVec 8) (f : Instance → Instance) (y : Site) : (s.onInst l f).ownerOf y = s.ownerOf y := by simp [State.ownerOf, State.inRegion, State.ctx]
@[simp] theorem State.onInst_inRegion (l : BitVec 8) (f : Instance → Instance) (u : Tenant) (y : Site) : (s.onInst l f).inRegion u y = s.inRegion u y := by simp [State.inRegion, State.ctx]

/-! ## onDie -/

@[simp] theorem State.onDie_tile (d : Nat) (f : DiePower → DiePower) (y : Site) : (s.onDie d f).tile y = s.tile y := rfl
@[simp] theorem State.onDie_ctx (d : Nat) (f : DiePower → DiePower) (u : Tenant) : (s.onDie d f).ctx u = s.ctx u := rfl
@[simp] theorem State.onDie_inst (d : Nat) (f : DiePower → DiePower) (m : BitVec 8) : (s.onDie d f).inst? m = s.inst? m := rfl
@[simp] theorem State.onDie_instances (d : Nat) (f : DiePower → DiePower) : (s.onDie d f).instances = s.instances := rfl
@[simp] theorem State.onDie_port (d : Nat) (f : DiePower → DiePower) (q : PortRef) : (s.onDie d f).port q = s.port q := rfl
@[simp] theorem State.onDie_ethPort (d : Nat) (f : DiePower → DiePower) (q : PortRef) : (s.onDie d f).ethPort q = s.ethPort q := rfl
@[simp] theorem State.onDie_sess (d : Nat) (f : DiePower → DiePower) (y : SessRef) : (s.onDie d f).sess y = s.sess y := rfl
@[simp] theorem State.onDie_fnRegs (d : Nat) (f : DiePower → DiePower) (h : Fn) : (s.onDie d f).fnRegs h = s.fnRegs h := rfl
@[simp] theorem State.onDie_pin (d : Nat) (f : DiePower → DiePower) (k : Nat) : (s.onDie d f).pin k = s.pin k := rfl
@[simp] theorem State.onDie_stream (d : Nat) (f : DiePower → DiePower) (k : Nat) : (s.onDie d f).stream k = s.stream k := rfl
@[simp] theorem State.onDie_ring (d : Nat) (f : DiePower → DiePower) (q : RingSel) : (s.onDie d f).ring q = s.ring q := rfl
@[simp] theorem State.onDie_alive (d : Nat) (f : DiePower → DiePower) : (s.onDie d f).alive = s.alive := rfl
@[simp] theorem State.onDie_working (d : Nat) (f : DiePower → DiePower) : (s.onDie d f).working = s.working := rfl
@[simp] theorem State.onDie_isFused (d : Nat) (f : DiePower → DiePower) (y : Site) : (s.onDie d f).isFused y = s.isFused y := rfl
@[simp] theorem State.onDie_localGts (d : Nat) (f : DiePower → DiePower) (k : Nat) : (s.onDie d f).localGts k = s.localGts k := rfl
@[simp] theorem State.onDie_ownerOf (d : Nat) (f : DiePower → DiePower) (y : Site) : (s.onDie d f).ownerOf y = s.ownerOf y := rfl
@[simp] theorem State.onDie_inRegion (d : Nat) (f : DiePower → DiePower) (u : Tenant) (y : Site) : (s.onDie d f).inRegion u y = s.inRegion u y := rfl
@[simp] theorem State.onDie_instAt (d : Nat) (f : DiePower → DiePower) (y : Site) : (s.onDie d f).instAt y = s.instAt y := rfl

/-! ## onPort -/

@[simp] theorem State.onPort_tile (p : PortRef) (f : Port → Port) (y : Site) : (s.onPort p f).tile y = s.tile y := rfl
@[simp] theorem State.onPort_ctx (p : PortRef) (f : Port → Port) (u : Tenant) : (s.onPort p f).ctx u = s.ctx u := rfl
@[simp] theorem State.onPort_inst (p : PortRef) (f : Port → Port) (m : BitVec 8) : (s.onPort p f).inst? m = s.inst? m := rfl
@[simp] theorem State.onPort_instances (p : PortRef) (f : Port → Port) : (s.onPort p f).instances = s.instances := rfl
@[simp] theorem State.onPort_die (p : PortRef) (f : Port → Port) (k : Nat) : (s.onPort p f).die k = s.die k := rfl
@[simp] theorem State.onPort_dieUp (p : PortRef) (f : Port → Port) (k : Nat) : (s.onPort p f).dieUp k = s.dieUp k := rfl
@[simp] theorem State.onPort_sess (p : PortRef) (f : Port → Port) (y : SessRef) : (s.onPort p f).sess y = s.sess y := rfl
@[simp] theorem State.onPort_fnRegs (p : PortRef) (f : Port → Port) (h : Fn) : (s.onPort p f).fnRegs h = s.fnRegs h := rfl
@[simp] theorem State.onPort_pin (p : PortRef) (f : Port → Port) (k : Nat) : (s.onPort p f).pin k = s.pin k := rfl
@[simp] theorem State.onPort_stream (p : PortRef) (f : Port → Port) (k : Nat) : (s.onPort p f).stream k = s.stream k := rfl
@[simp] theorem State.onPort_ring (p : PortRef) (f : Port → Port) (q : RingSel) : (s.onPort p f).ring q = s.ring q := rfl
@[simp] theorem State.onPort_alive (p : PortRef) (f : Port → Port) : (s.onPort p f).alive = s.alive := rfl
@[simp] theorem State.onPort_working (p : PortRef) (f : Port → Port) : (s.onPort p f).working = s.working := rfl
@[simp] theorem State.onPort_isFused (p : PortRef) (f : Port → Port) (y : Site) : (s.onPort p f).isFused y = s.isFused y := rfl
@[simp] theorem State.onPort_localGts (p : PortRef) (f : Port → Port) (k : Nat) : (s.onPort p f).localGts k = s.localGts k := rfl
@[simp] theorem State.onPort_ownerOf (p : PortRef) (f : Port → Port) (y : Site) : (s.onPort p f).ownerOf y = s.ownerOf y := rfl
@[simp] theorem State.onPort_inRegion (p : PortRef) (f : Port → Port) (u : Tenant) (y : Site) : (s.onPort p f).inRegion u y = s.inRegion u y := rfl
@[simp] theorem State.onPort_instAt (p : PortRef) (f : Port → Port) (y : Site) : (s.onPort p f).instAt y = s.instAt y := rfl

/-! ## onEth -/

@[simp] theorem State.onEth_tile (p : PortRef) (f : EthPort → EthPort) (y : Site) : (s.onEth p f).tile y = s.tile y := rfl
@[simp] theorem State.onEth_ctx (p : PortRef) (f : EthPort → EthPort) (u : Tenant) : (s.onEth p f).ctx u = s.ctx u := rfl
@[simp] theorem State.onEth_inst (p : PortRef) (f : EthPort → EthPort) (m : BitVec 8) : (s.onEth p f).inst? m = s.inst? m := rfl
@[simp] theorem State.onEth_instances (p : PortRef) (f : EthPort → EthPort) : (s.onEth p f).instances = s.instances := rfl
@[simp] theorem State.onEth_die (p : PortRef) (f : EthPort → EthPort) (k : Nat) : (s.onEth p f).die k = s.die k := rfl
@[simp] theorem State.onEth_dieUp (p : PortRef) (f : EthPort → EthPort) (k : Nat) : (s.onEth p f).dieUp k = s.dieUp k := rfl
@[simp] theorem State.onEth_sess (p : PortRef) (f : EthPort → EthPort) (y : SessRef) : (s.onEth p f).sess y = s.sess y := rfl
@[simp] theorem State.onEth_fnRegs (p : PortRef) (f : EthPort → EthPort) (h : Fn) : (s.onEth p f).fnRegs h = s.fnRegs h := rfl
@[simp] theorem State.onEth_pin (p : PortRef) (f : EthPort → EthPort) (k : Nat) : (s.onEth p f).pin k = s.pin k := rfl
@[simp] theorem State.onEth_stream (p : PortRef) (f : EthPort → EthPort) (k : Nat) : (s.onEth p f).stream k = s.stream k := rfl
@[simp] theorem State.onEth_ring (p : PortRef) (f : EthPort → EthPort) (q : RingSel) : (s.onEth p f).ring q = s.ring q := rfl
@[simp] theorem State.onEth_alive (p : PortRef) (f : EthPort → EthPort) : (s.onEth p f).alive = s.alive := rfl
@[simp] theorem State.onEth_working (p : PortRef) (f : EthPort → EthPort) : (s.onEth p f).working = s.working := rfl
@[simp] theorem State.onEth_isFused (p : PortRef) (f : EthPort → EthPort) (y : Site) : (s.onEth p f).isFused y = s.isFused y := rfl
@[simp] theorem State.onEth_localGts (p : PortRef) (f : EthPort → EthPort) (k : Nat) : (s.onEth p f).localGts k = s.localGts k := rfl
@[simp] theorem State.onEth_ownerOf (p : PortRef) (f : EthPort → EthPort) (y : Site) : (s.onEth p f).ownerOf y = s.ownerOf y := rfl
@[simp] theorem State.onEth_inRegion (p : PortRef) (f : EthPort → EthPort) (u : Tenant) (y : Site) : (s.onEth p f).inRegion u y = s.inRegion u y := rfl
@[simp] theorem State.onEth_instAt (p : PortRef) (f : EthPort → EthPort) (y : Site) : (s.onEth p f).instAt y = s.instAt y := rfl

/-! ## onSess -/

@[simp] theorem State.onSess_tile (x : SessRef) (f : Session → Session) (y : Site) : (s.onSess x f).tile y = s.tile y := rfl
@[simp] theorem State.onSess_ctx (x : SessRef) (f : Session → Session) (u : Tenant) : (s.onSess x f).ctx u = s.ctx u := rfl
@[simp] theorem State.onSess_inst (x : SessRef) (f : Session → Session) (m : BitVec 8) : (s.onSess x f).inst? m = s.inst? m := rfl
@[simp] theorem State.onSess_instances (x : SessRef) (f : Session → Session) : (s.onSess x f).instances = s.instances := rfl
@[simp] theorem State.onSess_die (x : SessRef) (f : Session → Session) (k : Nat) : (s.onSess x f).die k = s.die k := rfl
@[simp] theorem State.onSess_dieUp (x : SessRef) (f : Session → Session) (k : Nat) : (s.onSess x f).dieUp k = s.dieUp k := rfl
@[simp] theorem State.onSess_port (x : SessRef) (f : Session → Session) (q : PortRef) : (s.onSess x f).port q = s.port q := rfl
@[simp] theorem State.onSess_ethPort (x : SessRef) (f : Session → Session) (q : PortRef) : (s.onSess x f).ethPort q = s.ethPort q := rfl
@[simp] theorem State.onSess_fnRegs (x : SessRef) (f : Session → Session) (h : Fn) : (s.onSess x f).fnRegs h = s.fnRegs h := rfl
@[simp] theorem State.onSess_pin (x : SessRef) (f : Session → Session) (k : Nat) : (s.onSess x f).pin k = s.pin k := rfl
@[simp] theorem State.onSess_stream (x : SessRef) (f : Session → Session) (k : Nat) : (s.onSess x f).stream k = s.stream k := rfl
@[simp] theorem State.onSess_ring (x : SessRef) (f : Session → Session) (q : RingSel) : (s.onSess x f).ring q = s.ring q := rfl
@[simp] theorem State.onSess_alive (x : SessRef) (f : Session → Session) : (s.onSess x f).alive = s.alive := rfl
@[simp] theorem State.onSess_working (x : SessRef) (f : Session → Session) : (s.onSess x f).working = s.working := rfl
@[simp] theorem State.onSess_isFused (x : SessRef) (f : Session → Session) (y : Site) : (s.onSess x f).isFused y = s.isFused y := rfl
@[simp] theorem State.onSess_localGts (x : SessRef) (f : Session → Session) (k : Nat) : (s.onSess x f).localGts k = s.localGts k := rfl
@[simp] theorem State.onSess_ownerOf (x : SessRef) (f : Session → Session) (y : Site) : (s.onSess x f).ownerOf y = s.ownerOf y := rfl
@[simp] theorem State.onSess_inRegion (x : SessRef) (f : Session → Session) (u : Tenant) (y : Site) : (s.onSess x f).inRegion u y = s.inRegion u y := rfl
@[simp] theorem State.onSess_instAt (x : SessRef) (f : Session → Session) (y : Site) : (s.onSess x f).instAt y = s.instAt y := rfl

/-! ## onFnRegs -/

@[simp] theorem State.onFnRegs_tile (g : Fn) (f : FnRegs → FnRegs) (y : Site) : (s.onFnRegs g f).tile y = s.tile y := by simp [State.tile]
@[simp] theorem State.onFnRegs_ctx (g : Fn) (f : FnRegs → FnRegs) (u : Tenant) : (s.onFnRegs g f).ctx u = s.ctx u := by simp [State.ctx]
@[simp] theorem State.onFnRegs_inst (g : Fn) (f : FnRegs → FnRegs) (m : BitVec 8) : (s.onFnRegs g f).inst? m = s.inst? m := by simp [State.inst?]
@[simp] theorem State.onFnRegs_instances (g : Fn) (f : FnRegs → FnRegs) : (s.onFnRegs g f).instances = s.instances := by simp [State.instances]
@[simp] theorem State.onFnRegs_die (g : Fn) (f : FnRegs → FnRegs) (k : Nat) : (s.onFnRegs g f).die k = s.die k := by simp [State.die]
@[simp] theorem State.onFnRegs_dieUp (g : Fn) (f : FnRegs → FnRegs) (k : Nat) : (s.onFnRegs g f).dieUp k = s.dieUp k := by simp [State.dieUp, State.die]
@[simp] theorem State.onFnRegs_port (g : Fn) (f : FnRegs → FnRegs) (q : PortRef) : (s.onFnRegs g f).port q = s.port q := by simp [State.port]
@[simp] theorem State.onFnRegs_ethPort (g : Fn) (f : FnRegs → FnRegs) (q : PortRef) : (s.onFnRegs g f).ethPort q = s.ethPort q := by simp [State.ethPort]
@[simp] theorem State.onFnRegs_sess (g : Fn) (f : FnRegs → FnRegs) (y : SessRef) : (s.onFnRegs g f).sess y = s.sess y := by simp [State.sess]
@[simp] theorem State.onFnRegs_pin (g : Fn) (f : FnRegs → FnRegs) (k : Nat) : (s.onFnRegs g f).pin k = s.pin k := by simp [State.pin]
@[simp] theorem State.onFnRegs_stream (g : Fn) (f : FnRegs → FnRegs) (k : Nat) : (s.onFnRegs g f).stream k = s.stream k := by simp [State.stream]
@[simp] theorem State.onFnRegs_alive (g : Fn) (f : FnRegs → FnRegs) : (s.onFnRegs g f).alive = s.alive := by simp [State.alive]
@[simp] theorem State.onFnRegs_isFused (g : Fn) (f : FnRegs → FnRegs) (y : Site) : (s.onFnRegs g f).isFused y = s.isFused y := by simp [State.isFused]
@[simp] theorem State.onFnRegs_localGts (g : Fn) (f : FnRegs → FnRegs) (k : Nat) : (s.onFnRegs g f).localGts k = s.localGts k := by simp [State.localGts]
@[simp] theorem State.onFnRegs_ownerOf (g : Fn) (f : FnRegs → FnRegs) (y : Site) : (s.onFnRegs g f).ownerOf y = s.ownerOf y := by simp [State.ownerOf, State.inRegion, State.ctx]
@[simp] theorem State.onFnRegs_inRegion (g : Fn) (f : FnRegs → FnRegs) (u : Tenant) (y : Site) : (s.onFnRegs g f).inRegion u y = s.inRegion u y := by simp [State.inRegion, State.ctx]
@[simp] theorem State.onFnRegs_instAt (g : Fn) (f : FnRegs → FnRegs) (y : Site) : (s.onFnRegs g f).instAt y = s.instAt y := by simp [State.instAt, State.ownerOf, State.inRegion, State.ctx, State.instances]

/-! ## onPin -/

@[simp] theorem State.onPin_tile (n : Nat) (f : Pin → Pin) (y : Site) : (s.onPin n f).tile y = s.tile y := rfl
@[simp] theorem State.onPin_ctx (n : Nat) (f : Pin → Pin) (u : Tenant) : (s.onPin n f).ctx u = s.ctx u := rfl
@[simp] theorem State.onPin_inst (n : Nat) (f : Pin → Pin) (m : BitVec 8) : (s.onPin n f).inst? m = s.inst? m := rfl
@[simp] theorem State.onPin_instances (n : Nat) (f : Pin → Pin) : (s.onPin n f).instances = s.instances := rfl
@[simp] theorem State.onPin_die (n : Nat) (f : Pin → Pin) (k : Nat) : (s.onPin n f).die k = s.die k := rfl
@[simp] theorem State.onPin_dieUp (n : Nat) (f : Pin → Pin) (k : Nat) : (s.onPin n f).dieUp k = s.dieUp k := rfl
@[simp] theorem State.onPin_port (n : Nat) (f : Pin → Pin) (q : PortRef) : (s.onPin n f).port q = s.port q := rfl
@[simp] theorem State.onPin_ethPort (n : Nat) (f : Pin → Pin) (q : PortRef) : (s.onPin n f).ethPort q = s.ethPort q := rfl
@[simp] theorem State.onPin_sess (n : Nat) (f : Pin → Pin) (y : SessRef) : (s.onPin n f).sess y = s.sess y := rfl
@[simp] theorem State.onPin_fnRegs (n : Nat) (f : Pin → Pin) (h : Fn) : (s.onPin n f).fnRegs h = s.fnRegs h := rfl
@[simp] theorem State.onPin_stream (n : Nat) (f : Pin → Pin) (k : Nat) : (s.onPin n f).stream k = s.stream k := rfl
@[simp] theorem State.onPin_ring (n : Nat) (f : Pin → Pin) (q : RingSel) : (s.onPin n f).ring q = s.ring q := rfl
@[simp] theorem State.onPin_alive (n : Nat) (f : Pin → Pin) : (s.onPin n f).alive = s.alive := rfl
@[simp] theorem State.onPin_working (n : Nat) (f : Pin → Pin) : (s.onPin n f).working = s.working := rfl
@[simp] theorem State.onPin_isFused (n : Nat) (f : Pin → Pin) (y : Site) : (s.onPin n f).isFused y = s.isFused y := rfl
@[simp] theorem State.onPin_localGts (n : Nat) (f : Pin → Pin) (k : Nat) : (s.onPin n f).localGts k = s.localGts k := rfl
@[simp] theorem State.onPin_ownerOf (n : Nat) (f : Pin → Pin) (y : Site) : (s.onPin n f).ownerOf y = s.ownerOf y := rfl
@[simp] theorem State.onPin_inRegion (n : Nat) (f : Pin → Pin) (u : Tenant) (y : Site) : (s.onPin n f).inRegion u y = s.inRegion u y := rfl
@[simp] theorem State.onPin_instAt (n : Nat) (f : Pin → Pin) (y : Site) : (s.onPin n f).instAt y = s.instAt y := rfl

/-! ## onStream -/

@[simp] theorem State.onStream_tile (n : Nat) (f : Stream → Stream) (y : Site) : (s.onStream n f).tile y = s.tile y := rfl
@[simp] theorem State.onStream_ctx (n : Nat) (f : Stream → Stream) (u : Tenant) : (s.onStream n f).ctx u = s.ctx u := rfl
@[simp] theorem State.onStream_inst (n : Nat) (f : Stream → Stream) (m : BitVec 8) : (s.onStream n f).inst? m = s.inst? m := rfl
@[simp] theorem State.onStream_instances (n : Nat) (f : Stream → Stream) : (s.onStream n f).instances = s.instances := rfl
@[simp] theorem State.onStream_die (n : Nat) (f : Stream → Stream) (k : Nat) : (s.onStream n f).die k = s.die k := rfl
@[simp] theorem State.onStream_dieUp (n : Nat) (f : Stream → Stream) (k : Nat) : (s.onStream n f).dieUp k = s.dieUp k := rfl
@[simp] theorem State.onStream_port (n : Nat) (f : Stream → Stream) (q : PortRef) : (s.onStream n f).port q = s.port q := rfl
@[simp] theorem State.onStream_ethPort (n : Nat) (f : Stream → Stream) (q : PortRef) : (s.onStream n f).ethPort q = s.ethPort q := rfl
@[simp] theorem State.onStream_sess (n : Nat) (f : Stream → Stream) (y : SessRef) : (s.onStream n f).sess y = s.sess y := rfl
@[simp] theorem State.onStream_fnRegs (n : Nat) (f : Stream → Stream) (h : Fn) : (s.onStream n f).fnRegs h = s.fnRegs h := rfl
@[simp] theorem State.onStream_pin (n : Nat) (f : Stream → Stream) (k : Nat) : (s.onStream n f).pin k = s.pin k := rfl
@[simp] theorem State.onStream_ring (n : Nat) (f : Stream → Stream) (q : RingSel) : (s.onStream n f).ring q = s.ring q := rfl
@[simp] theorem State.onStream_alive (n : Nat) (f : Stream → Stream) : (s.onStream n f).alive = s.alive := rfl
@[simp] theorem State.onStream_working (n : Nat) (f : Stream → Stream) : (s.onStream n f).working = s.working := rfl
@[simp] theorem State.onStream_isFused (n : Nat) (f : Stream → Stream) (y : Site) : (s.onStream n f).isFused y = s.isFused y := rfl
@[simp] theorem State.onStream_localGts (n : Nat) (f : Stream → Stream) (k : Nat) : (s.onStream n f).localGts k = s.localGts k := rfl
@[simp] theorem State.onStream_ownerOf (n : Nat) (f : Stream → Stream) (y : Site) : (s.onStream n f).ownerOf y = s.ownerOf y := rfl
@[simp] theorem State.onStream_inRegion (n : Nat) (f : Stream → Stream) (u : Tenant) (y : Site) : (s.onStream n f).inRegion u y = s.inRegion u y := rfl
@[simp] theorem State.onStream_instAt (n : Nat) (f : Stream → Stream) (y : Site) : (s.onStream n f).instAt y = s.instAt y := rfl

/-! ## onRing -/

@[simp] theorem State.onRing_tile (r : RingSel) (f : Ring → Ring) (y : Site) : (s.onRing r f).tile y = s.tile y := by simp [State.tile]
@[simp] theorem State.onRing_inst (r : RingSel) (f : Ring → Ring) (m : BitVec 8) : (s.onRing r f).inst? m = s.inst? m := by simp [State.inst?]
@[simp] theorem State.onRing_instances (r : RingSel) (f : Ring → Ring) : (s.onRing r f).instances = s.instances := by simp [State.instances]
@[simp] theorem State.onRing_die (r : RingSel) (f : Ring → Ring) (k : Nat) : (s.onRing r f).die k = s.die k := by simp [State.die]
@[simp] theorem State.onRing_dieUp (r : RingSel) (f : Ring → Ring) (k : Nat) : (s.onRing r f).dieUp k = s.dieUp k := by simp [State.dieUp, State.die]
@[simp] theorem State.onRing_port (r : RingSel) (f : Ring → Ring) (q : PortRef) : (s.onRing r f).port q = s.port q := by simp [State.port]
@[simp] theorem State.onRing_ethPort (r : RingSel) (f : Ring → Ring) (q : PortRef) : (s.onRing r f).ethPort q = s.ethPort q := by simp [State.ethPort]
@[simp] theorem State.onRing_sess (r : RingSel) (f : Ring → Ring) (y : SessRef) : (s.onRing r f).sess y = s.sess y := by simp [State.sess]
@[simp] theorem State.onRing_pin (r : RingSel) (f : Ring → Ring) (k : Nat) : (s.onRing r f).pin k = s.pin k := by simp [State.pin]
@[simp] theorem State.onRing_stream (r : RingSel) (f : Ring → Ring) (k : Nat) : (s.onRing r f).stream k = s.stream k := by simp [State.stream]
@[simp] theorem State.onRing_alive (r : RingSel) (f : Ring → Ring) : (s.onRing r f).alive = s.alive := by simp [State.alive]
@[simp] theorem State.onRing_isFused (r : RingSel) (f : Ring → Ring) (y : Site) : (s.onRing r f).isFused y = s.isFused y := by simp [State.isFused]
@[simp] theorem State.onRing_localGts (r : RingSel) (f : Ring → Ring) (k : Nat) : (s.onRing r f).localGts k = s.localGts k := by simp [State.localGts]

/-! ## hostWrite -/

@[simp] theorem State.hostWrite_tile (a : Nat) (bs : List Byte) (y : Site) : (s.hostWrite a bs).tile y = s.tile y := rfl
@[simp] theorem State.hostWrite_ctx (a : Nat) (bs : List Byte) (u : Tenant) : (s.hostWrite a bs).ctx u = s.ctx u := rfl
@[simp] theorem State.hostWrite_inst (a : Nat) (bs : List Byte) (m : BitVec 8) : (s.hostWrite a bs).inst? m = s.inst? m := rfl
@[simp] theorem State.hostWrite_instances (a : Nat) (bs : List Byte) : (s.hostWrite a bs).instances = s.instances := rfl
@[simp] theorem State.hostWrite_die (a : Nat) (bs : List Byte) (k : Nat) : (s.hostWrite a bs).die k = s.die k := rfl
@[simp] theorem State.hostWrite_dieUp (a : Nat) (bs : List Byte) (k : Nat) : (s.hostWrite a bs).dieUp k = s.dieUp k := rfl
@[simp] theorem State.hostWrite_port (a : Nat) (bs : List Byte) (q : PortRef) : (s.hostWrite a bs).port q = s.port q := rfl
@[simp] theorem State.hostWrite_ethPort (a : Nat) (bs : List Byte) (q : PortRef) : (s.hostWrite a bs).ethPort q = s.ethPort q := rfl
@[simp] theorem State.hostWrite_sess (a : Nat) (bs : List Byte) (y : SessRef) : (s.hostWrite a bs).sess y = s.sess y := rfl
@[simp] theorem State.hostWrite_pin (a : Nat) (bs : List Byte) (k : Nat) : (s.hostWrite a bs).pin k = s.pin k := rfl
@[simp] theorem State.hostWrite_stream (a : Nat) (bs : List Byte) (k : Nat) : (s.hostWrite a bs).stream k = s.stream k := rfl
@[simp] theorem State.hostWrite_alive (a : Nat) (bs : List Byte) : (s.hostWrite a bs).alive = s.alive := rfl
@[simp] theorem State.hostWrite_isFused (a : Nat) (bs : List Byte) (y : Site) : (s.hostWrite a bs).isFused y = s.isFused y := rfl
@[simp] theorem State.hostWrite_localGts (a : Nat) (bs : List Byte) (k : Nat) : (s.hostWrite a bs).localGts k = s.localGts k := rfl
@[simp] theorem State.hostWrite_ownerOf (a : Nat) (bs : List Byte) (y : Site) : (s.hostWrite a bs).ownerOf y = s.ownerOf y := rfl
@[simp] theorem State.hostWrite_inRegion (a : Nat) (bs : List Byte) (u : Tenant) (y : Site) : (s.hostWrite a bs).inRegion u y = s.inRegion u y := rfl
@[simp] theorem State.hostWrite_instAt (a : Nat) (bs : List Byte) (y : Site) : (s.hostWrite a bs).instAt y = s.instAt y := rfl

/-! ## emitAt -/

@[simp] theorem State.emitAt_tile (d : Nat) (e : Event) (y : Site) : (s.emitAt d e).tile y = s.tile y := rfl
@[simp] theorem State.emitAt_ctx (d : Nat) (e : Event) (u : Tenant) : (s.emitAt d e).ctx u = s.ctx u := rfl
@[simp] theorem State.emitAt_inst (d : Nat) (e : Event) (m : BitVec 8) : (s.emitAt d e).inst? m = s.inst? m := rfl
@[simp] theorem State.emitAt_instances (d : Nat) (e : Event) : (s.emitAt d e).instances = s.instances := rfl
@[simp] theorem State.emitAt_die (d : Nat) (e : Event) (k : Nat) : (s.emitAt d e).die k = s.die k := rfl
@[simp] theorem State.emitAt_dieUp (d : Nat) (e : Event) (k : Nat) : (s.emitAt d e).dieUp k = s.dieUp k := rfl
@[simp] theorem State.emitAt_port (d : Nat) (e : Event) (q : PortRef) : (s.emitAt d e).port q = s.port q := rfl
@[simp] theorem State.emitAt_ethPort (d : Nat) (e : Event) (q : PortRef) : (s.emitAt d e).ethPort q = s.ethPort q := rfl
@[simp] theorem State.emitAt_sess (d : Nat) (e : Event) (y : SessRef) : (s.emitAt d e).sess y = s.sess y := rfl
@[simp] theorem State.emitAt_fnRegs (d : Nat) (e : Event) (h : Fn) : (s.emitAt d e).fnRegs h = s.fnRegs h := rfl
@[simp] theorem State.emitAt_pin (d : Nat) (e : Event) (k : Nat) : (s.emitAt d e).pin k = s.pin k := rfl
@[simp] theorem State.emitAt_stream (d : Nat) (e : Event) (k : Nat) : (s.emitAt d e).stream k = s.stream k := rfl
@[simp] theorem State.emitAt_ring (d : Nat) (e : Event) (q : RingSel) : (s.emitAt d e).ring q = s.ring q := rfl
@[simp] theorem State.emitAt_alive (d : Nat) (e : Event) : (s.emitAt d e).alive = s.alive := rfl
@[simp] theorem State.emitAt_working (d : Nat) (e : Event) : (s.emitAt d e).working = s.working := rfl
@[simp] theorem State.emitAt_isFused (d : Nat) (e : Event) (y : Site) : (s.emitAt d e).isFused y = s.isFused y := rfl
@[simp] theorem State.emitAt_localGts (d : Nat) (e : Event) (k : Nat) : (s.emitAt d e).localGts k = s.localGts k := rfl
@[simp] theorem State.emitAt_ownerOf (d : Nat) (e : Event) (y : Site) : (s.emitAt d e).ownerOf y = s.ownerOf y := rfl
@[simp] theorem State.emitAt_inRegion (d : Nat) (e : Event) (u : Tenant) (y : Site) : (s.emitAt d e).inRegion u y = s.inRegion u y := rfl
@[simp] theorem State.emitAt_instAt (d : Nat) (e : Event) (y : Site) : (s.emitAt d e).instAt y = s.instAt y := rfl

/-! ## emit -/

@[simp] theorem State.emit_tile (src : Src) (b : EventBody) (y : Site) : (s.emit src b).tile y = s.tile y := rfl
@[simp] theorem State.emit_ctx (src : Src) (b : EventBody) (u : Tenant) : (s.emit src b).ctx u = s.ctx u := rfl
@[simp] theorem State.emit_inst (src : Src) (b : EventBody) (m : BitVec 8) : (s.emit src b).inst? m = s.inst? m := rfl
@[simp] theorem State.emit_instances (src : Src) (b : EventBody) : (s.emit src b).instances = s.instances := rfl
@[simp] theorem State.emit_die (src : Src) (b : EventBody) (k : Nat) : (s.emit src b).die k = s.die k := rfl
@[simp] theorem State.emit_dieUp (src : Src) (b : EventBody) (k : Nat) : (s.emit src b).dieUp k = s.dieUp k := rfl
@[simp] theorem State.emit_port (src : Src) (b : EventBody) (q : PortRef) : (s.emit src b).port q = s.port q := rfl
@[simp] theorem State.emit_ethPort (src : Src) (b : EventBody) (q : PortRef) : (s.emit src b).ethPort q = s.ethPort q := rfl
@[simp] theorem State.emit_sess (src : Src) (b : EventBody) (y : SessRef) : (s.emit src b).sess y = s.sess y := rfl
@[simp] theorem State.emit_fnRegs (src : Src) (b : EventBody) (h : Fn) : (s.emit src b).fnRegs h = s.fnRegs h := rfl
@[simp] theorem State.emit_pin (src : Src) (b : EventBody) (k : Nat) : (s.emit src b).pin k = s.pin k := rfl
@[simp] theorem State.emit_stream (src : Src) (b : EventBody) (k : Nat) : (s.emit src b).stream k = s.stream k := rfl
@[simp] theorem State.emit_ring (src : Src) (b : EventBody) (q : RingSel) : (s.emit src b).ring q = s.ring q := rfl
@[simp] theorem State.emit_alive (src : Src) (b : EventBody) : (s.emit src b).alive = s.alive := rfl
@[simp] theorem State.emit_working (src : Src) (b : EventBody) : (s.emit src b).working = s.working := rfl
@[simp] theorem State.emit_isFused (src : Src) (b : EventBody) (y : Site) : (s.emit src b).isFused y = s.isFused y := rfl
@[simp] theorem State.emit_localGts (src : Src) (b : EventBody) (k : Nat) : (s.emit src b).localGts k = s.localGts k := rfl
@[simp] theorem State.emit_ownerOf (src : Src) (b : EventBody) (y : Site) : (s.emit src b).ownerOf y = s.ownerOf y := rfl
@[simp] theorem State.emit_inRegion (src : Src) (b : EventBody) (u : Tenant) (y : Site) : (s.emit src b).inRegion u y = s.inRegion u y := rfl
@[simp] theorem State.emit_instAt (src : Src) (b : EventBody) (y : Site) : (s.emit src b).instAt y = s.instAt y := rfl

/-! ## logEv -/

@[simp] theorem State.logEv_tile (src : Src) (code : BitVec 16) (t : Byte) (p : List Byte) (y : Site) : (s.logEv src code t p).tile y = s.tile y := rfl
@[simp] theorem State.logEv_ctx (src : Src) (code : BitVec 16) (t : Byte) (p : List Byte) (u : Tenant) : (s.logEv src code t p).ctx u = s.ctx u := rfl
@[simp] theorem State.logEv_inst (src : Src) (code : BitVec 16) (t : Byte) (p : List Byte) (m : BitVec 8) : (s.logEv src code t p).inst? m = s.inst? m := rfl
@[simp] theorem State.logEv_instances (src : Src) (code : BitVec 16) (t : Byte) (p : List Byte) : (s.logEv src code t p).instances = s.instances := rfl
@[simp] theorem State.logEv_die (src : Src) (code : BitVec 16) (t : Byte) (p : List Byte) (k : Nat) : (s.logEv src code t p).die k = s.die k := rfl
@[simp] theorem State.logEv_dieUp (src : Src) (code : BitVec 16) (t : Byte) (p : List Byte) (k : Nat) : (s.logEv src code t p).dieUp k = s.dieUp k := rfl
@[simp] theorem State.logEv_port (src : Src) (code : BitVec 16) (t : Byte) (p : List Byte) (q : PortRef) : (s.logEv src code t p).port q = s.port q := rfl
@[simp] theorem State.logEv_ethPort (src : Src) (code : BitVec 16) (t : Byte) (p : List Byte) (q : PortRef) : (s.logEv src code t p).ethPort q = s.ethPort q := rfl
@[simp] theorem State.logEv_sess (src : Src) (code : BitVec 16) (t : Byte) (p : List Byte) (y : SessRef) : (s.logEv src code t p).sess y = s.sess y := rfl
@[simp] theorem State.logEv_fnRegs (src : Src) (code : BitVec 16) (t : Byte) (p : List Byte) (h : Fn) : (s.logEv src code t p).fnRegs h = s.fnRegs h := rfl
@[simp] theorem State.logEv_pin (src : Src) (code : BitVec 16) (t : Byte) (p : List Byte) (k : Nat) : (s.logEv src code t p).pin k = s.pin k := rfl
@[simp] theorem State.logEv_stream (src : Src) (code : BitVec 16) (t : Byte) (p : List Byte) (k : Nat) : (s.logEv src code t p).stream k = s.stream k := rfl
@[simp] theorem State.logEv_ring (src : Src) (code : BitVec 16) (t : Byte) (p : List Byte) (q : RingSel) : (s.logEv src code t p).ring q = s.ring q := rfl
@[simp] theorem State.logEv_alive (src : Src) (code : BitVec 16) (t : Byte) (p : List Byte) : (s.logEv src code t p).alive = s.alive := rfl
@[simp] theorem State.logEv_working (src : Src) (code : BitVec 16) (t : Byte) (p : List Byte) : (s.logEv src code t p).working = s.working := rfl
@[simp] theorem State.logEv_isFused (src : Src) (code : BitVec 16) (t : Byte) (p : List Byte) (y : Site) : (s.logEv src code t p).isFused y = s.isFused y := rfl
@[simp] theorem State.logEv_localGts (src : Src) (code : BitVec 16) (t : Byte) (p : List Byte) (k : Nat) : (s.logEv src code t p).localGts k = s.localGts k := rfl
@[simp] theorem State.logEv_ownerOf (src : Src) (code : BitVec 16) (t : Byte) (p : List Byte) (y : Site) : (s.logEv src code t p).ownerOf y = s.ownerOf y := rfl
@[simp] theorem State.logEv_inRegion (src : Src) (code : BitVec 16) (t : Byte) (p : List Byte) (u : Tenant) (y : Site) : (s.logEv src code t p).inRegion u y = s.inRegion u y := rfl
@[simp] theorem State.logEv_instAt (src : Src) (code : BitVec 16) (t : Byte) (p : List Byte) (y : Site) : (s.logEv src code t p).instAt y = s.instAt y := rfl

/-! ## logTile -/

@[simp] theorem State.logTile_tile (x : Site) (code : BitVec 16) (p : List Byte) (y : Site) : (s.logTile x code p).tile y = s.tile y := rfl
@[simp] theorem State.logTile_ctx (x : Site) (code : BitVec 16) (p : List Byte) (u : Tenant) : (s.logTile x code p).ctx u = s.ctx u := rfl
@[simp] theorem State.logTile_inst (x : Site) (code : BitVec 16) (p : List Byte) (m : BitVec 8) : (s.logTile x code p).inst? m = s.inst? m := rfl
@[simp] theorem State.logTile_instances (x : Site) (code : BitVec 16) (p : List Byte) : (s.logTile x code p).instances = s.instances := rfl
@[simp] theorem State.logTile_die (x : Site) (code : BitVec 16) (p : List Byte) (k : Nat) : (s.logTile x code p).die k = s.die k := rfl
@[simp] theorem State.logTile_dieUp (x : Site) (code : BitVec 16) (p : List Byte) (k : Nat) : (s.logTile x code p).dieUp k = s.dieUp k := rfl
@[simp] theorem State.logTile_port (x : Site) (code : BitVec 16) (p : List Byte) (q : PortRef) : (s.logTile x code p).port q = s.port q := rfl
@[simp] theorem State.logTile_ethPort (x : Site) (code : BitVec 16) (p : List Byte) (q : PortRef) : (s.logTile x code p).ethPort q = s.ethPort q := rfl
@[simp] theorem State.logTile_sess (x : Site) (code : BitVec 16) (p : List Byte) (y : SessRef) : (s.logTile x code p).sess y = s.sess y := rfl
@[simp] theorem State.logTile_fnRegs (x : Site) (code : BitVec 16) (p : List Byte) (h : Fn) : (s.logTile x code p).fnRegs h = s.fnRegs h := rfl
@[simp] theorem State.logTile_pin (x : Site) (code : BitVec 16) (p : List Byte) (k : Nat) : (s.logTile x code p).pin k = s.pin k := rfl
@[simp] theorem State.logTile_stream (x : Site) (code : BitVec 16) (p : List Byte) (k : Nat) : (s.logTile x code p).stream k = s.stream k := rfl
@[simp] theorem State.logTile_ring (x : Site) (code : BitVec 16) (p : List Byte) (q : RingSel) : (s.logTile x code p).ring q = s.ring q := rfl
@[simp] theorem State.logTile_alive (x : Site) (code : BitVec 16) (p : List Byte) : (s.logTile x code p).alive = s.alive := rfl
@[simp] theorem State.logTile_working (x : Site) (code : BitVec 16) (p : List Byte) : (s.logTile x code p).working = s.working := rfl
@[simp] theorem State.logTile_isFused (x : Site) (code : BitVec 16) (p : List Byte) (y : Site) : (s.logTile x code p).isFused y = s.isFused y := rfl
@[simp] theorem State.logTile_localGts (x : Site) (code : BitVec 16) (p : List Byte) (k : Nat) : (s.logTile x code p).localGts k = s.localGts k := rfl
@[simp] theorem State.logTile_ownerOf (x : Site) (code : BitVec 16) (p : List Byte) (y : Site) : (s.logTile x code p).ownerOf y = s.ownerOf y := rfl
@[simp] theorem State.logTile_inRegion (x : Site) (code : BitVec 16) (p : List Byte) (u : Tenant) (y : Site) : (s.logTile x code p).inRegion u y = s.inRegion u y := rfl
@[simp] theorem State.logTile_instAt (x : Site) (code : BitVec 16) (p : List Byte) (y : Site) : (s.logTile x code p).instAt y = s.instAt y := rfl

/-! ## raise -/

@[simp] theorem State.raise_tile (src : Src) (g : Fn) (v : BitVec 11) (c : Byte) (y : Site) : (s.raise src g v c).tile y = s.tile y := by simp [State.tile]
@[simp] theorem State.raise_ctx (src : Src) (g : Fn) (v : BitVec 11) (c : Byte) (u : Tenant) : (s.raise src g v c).ctx u = s.ctx u := by simp [State.ctx]
@[simp] theorem State.raise_inst (src : Src) (g : Fn) (v : BitVec 11) (c : Byte) (m : BitVec 8) : (s.raise src g v c).inst? m = s.inst? m := by simp [State.inst?]
@[simp] theorem State.raise_instances (src : Src) (g : Fn) (v : BitVec 11) (c : Byte) : (s.raise src g v c).instances = s.instances := by simp [State.instances]
@[simp] theorem State.raise_die (src : Src) (g : Fn) (v : BitVec 11) (c : Byte) (k : Nat) : (s.raise src g v c).die k = s.die k := by simp [State.die]
@[simp] theorem State.raise_dieUp (src : Src) (g : Fn) (v : BitVec 11) (c : Byte) (k : Nat) : (s.raise src g v c).dieUp k = s.dieUp k := by simp [State.dieUp, State.die]
@[simp] theorem State.raise_port (src : Src) (g : Fn) (v : BitVec 11) (c : Byte) (q : PortRef) : (s.raise src g v c).port q = s.port q := by simp [State.port]
@[simp] theorem State.raise_ethPort (src : Src) (g : Fn) (v : BitVec 11) (c : Byte) (q : PortRef) : (s.raise src g v c).ethPort q = s.ethPort q := by simp [State.ethPort]
@[simp] theorem State.raise_sess (src : Src) (g : Fn) (v : BitVec 11) (c : Byte) (y : SessRef) : (s.raise src g v c).sess y = s.sess y := by simp [State.sess]
@[simp] theorem State.raise_fnRegs (src : Src) (g : Fn) (v : BitVec 11) (c : Byte) (h : Fn) : (s.raise src g v c).fnRegs h = s.fnRegs h := by cases h <;> simp [State.fnRegs]
@[simp] theorem State.raise_pin (src : Src) (g : Fn) (v : BitVec 11) (c : Byte) (k : Nat) : (s.raise src g v c).pin k = s.pin k := by simp [State.pin]
@[simp] theorem State.raise_stream (src : Src) (g : Fn) (v : BitVec 11) (c : Byte) (k : Nat) : (s.raise src g v c).stream k = s.stream k := by simp [State.stream]
@[simp] theorem State.raise_ring (src : Src) (g : Fn) (v : BitVec 11) (c : Byte) (q : RingSel) : (s.raise src g v c).ring q = s.ring q := by cases q <;> simp [State.ring, State.ctx]
@[simp] theorem State.raise_alive (src : Src) (g : Fn) (v : BitVec 11) (c : Byte) : (s.raise src g v c).alive = s.alive := by simp [State.alive]
@[simp] theorem State.raise_working (src : Src) (g : Fn) (v : BitVec 11) (c : Byte) : (s.raise src g v c).working = s.working := by simp [State.working]
@[simp] theorem State.raise_isFused (src : Src) (g : Fn) (v : BitVec 11) (c : Byte) (y : Site) : (s.raise src g v c).isFused y = s.isFused y := by simp [State.isFused]
@[simp] theorem State.raise_localGts (src : Src) (g : Fn) (v : BitVec 11) (c : Byte) (k : Nat) : (s.raise src g v c).localGts k = s.localGts k := by simp [State.localGts]
@[simp] theorem State.raise_ownerOf (src : Src) (g : Fn) (v : BitVec 11) (c : Byte) (y : Site) : (s.raise src g v c).ownerOf y = s.ownerOf y := by simp [State.ownerOf, State.inRegion, State.ctx]
@[simp] theorem State.raise_inRegion (src : Src) (g : Fn) (v : BitVec 11) (c : Byte) (u : Tenant) (y : Site) : (s.raise src g v c).inRegion u y = s.inRegion u y := by simp [State.inRegion, State.ctx]
@[simp] theorem State.raise_instAt (src : Src) (g : Fn) (v : BitVec 11) (c : Byte) (y : Site) : (s.raise src g v c).instAt y = s.instAt y := by simp [State.instAt, State.ownerOf, State.inRegion, State.ctx, State.instances]

/-! ## causeInst -/

@[simp] theorem State.causeInst_tile (l : BitVec 8) (st : Status) (src : Src) (y : Site) : (s.causeInst l st src).tile y = s.tile y := by simp [State.tile]
@[simp] theorem State.causeInst_ctx (l : BitVec 8) (st : Status) (src : Src) (u : Tenant) : (s.causeInst l st src).ctx u = s.ctx u := by simp [State.ctx]
@[simp] theorem State.causeInst_die (l : BitVec 8) (st : Status) (src : Src) (k : Nat) : (s.causeInst l st src).die k = s.die k := by simp [State.die]
@[simp] theorem State.causeInst_dieUp (l : BitVec 8) (st : Status) (src : Src) (k : Nat) : (s.causeInst l st src).dieUp k = s.dieUp k := by simp [State.dieUp, State.die]
@[simp] theorem State.causeInst_port (l : BitVec 8) (st : Status) (src : Src) (q : PortRef) : (s.causeInst l st src).port q = s.port q := by simp [State.port]
@[simp] theorem State.causeInst_ethPort (l : BitVec 8) (st : Status) (src : Src) (q : PortRef) : (s.causeInst l st src).ethPort q = s.ethPort q := by simp [State.ethPort]
@[simp] theorem State.causeInst_sess (l : BitVec 8) (st : Status) (src : Src) (y : SessRef) : (s.causeInst l st src).sess y = s.sess y := by simp [State.sess]
@[simp] theorem State.causeInst_fnRegs (l : BitVec 8) (st : Status) (src : Src) (h : Fn) : (s.causeInst l st src).fnRegs h = s.fnRegs h := by cases h <;> simp [State.fnRegs]
@[simp] theorem State.causeInst_pin (l : BitVec 8) (st : Status) (src : Src) (k : Nat) : (s.causeInst l st src).pin k = s.pin k := by simp [State.pin]
@[simp] theorem State.causeInst_stream (l : BitVec 8) (st : Status) (src : Src) (k : Nat) : (s.causeInst l st src).stream k = s.stream k := by simp [State.stream]
@[simp] theorem State.causeInst_ring (l : BitVec 8) (st : Status) (src : Src) (q : RingSel) : (s.causeInst l st src).ring q = s.ring q := by cases q <;> simp [State.ring, State.ctx]
@[simp] theorem State.causeInst_alive (l : BitVec 8) (st : Status) (src : Src) : (s.causeInst l st src).alive = s.alive := by simp [State.alive]
@[simp] theorem State.causeInst_working (l : BitVec 8) (st : Status) (src : Src) : (s.causeInst l st src).working = s.working := by simp [State.working]
@[simp] theorem State.causeInst_isFused (l : BitVec 8) (st : Status) (src : Src) (y : Site) : (s.causeInst l st src).isFused y = s.isFused y := by simp [State.isFused]
@[simp] theorem State.causeInst_localGts (l : BitVec 8) (st : Status) (src : Src) (k : Nat) : (s.causeInst l st src).localGts k = s.localGts k := by simp [State.localGts]
@[simp] theorem State.causeInst_ownerOf (l : BitVec 8) (st : Status) (src : Src) (y : Site) : (s.causeInst l st src).ownerOf y = s.ownerOf y := by simp [State.ownerOf, State.inRegion, State.ctx]
@[simp] theorem State.causeInst_inRegion (l : BitVec 8) (st : Status) (src : Src) (u : Tenant) (y : Site) : (s.causeInst l st src).inRegion u y = s.inRegion u y := by simp [State.inRegion, State.ctx]

/-! ## causeAt -/

@[simp] theorem State.causeAt_tile (x : Site) (st : Status) (src : Src) (y : Site) : (s.causeAt x st src).tile y = s.tile y := by simp [State.tile]
@[simp] theorem State.causeAt_ctx (x : Site) (st : Status) (src : Src) (u : Tenant) : (s.causeAt x st src).ctx u = s.ctx u := by simp [State.ctx]
@[simp] theorem State.causeAt_die (x : Site) (st : Status) (src : Src) (k : Nat) : (s.causeAt x st src).die k = s.die k := by simp [State.die]
@[simp] theorem State.causeAt_dieUp (x : Site) (st : Status) (src : Src) (k : Nat) : (s.causeAt x st src).dieUp k = s.dieUp k := by simp [State.dieUp, State.die]
@[simp] theorem State.causeAt_port (x : Site) (st : Status) (src : Src) (q : PortRef) : (s.causeAt x st src).port q = s.port q := by simp [State.port]
@[simp] theorem State.causeAt_ethPort (x : Site) (st : Status) (src : Src) (q : PortRef) : (s.causeAt x st src).ethPort q = s.ethPort q := by simp [State.ethPort]
@[simp] theorem State.causeAt_sess (x : Site) (st : Status) (src : Src) (y : SessRef) : (s.causeAt x st src).sess y = s.sess y := by simp [State.sess]
@[simp] theorem State.causeAt_fnRegs (x : Site) (st : Status) (src : Src) (h : Fn) : (s.causeAt x st src).fnRegs h = s.fnRegs h := by cases h <;> simp [State.fnRegs]
@[simp] theorem State.causeAt_pin (x : Site) (st : Status) (src : Src) (k : Nat) : (s.causeAt x st src).pin k = s.pin k := by simp [State.pin]
@[simp] theorem State.causeAt_stream (x : Site) (st : Status) (src : Src) (k : Nat) : (s.causeAt x st src).stream k = s.stream k := by simp [State.stream]
@[simp] theorem State.causeAt_ring (x : Site) (st : Status) (src : Src) (q : RingSel) : (s.causeAt x st src).ring q = s.ring q := by cases q <;> simp [State.ring, State.ctx]
@[simp] theorem State.causeAt_alive (x : Site) (st : Status) (src : Src) : (s.causeAt x st src).alive = s.alive := by simp [State.alive]
@[simp] theorem State.causeAt_working (x : Site) (st : Status) (src : Src) : (s.causeAt x st src).working = s.working := by simp [State.working]
@[simp] theorem State.causeAt_isFused (x : Site) (st : Status) (src : Src) (y : Site) : (s.causeAt x st src).isFused y = s.isFused y := by simp [State.isFused]
@[simp] theorem State.causeAt_localGts (x : Site) (st : Status) (src : Src) (k : Nat) : (s.causeAt x st src).localGts k = s.localGts k := by simp [State.localGts]
@[simp] theorem State.causeAt_ownerOf (x : Site) (st : Status) (src : Src) (y : Site) : (s.causeAt x st src).ownerOf y = s.ownerOf y := by simp [State.ownerOf, State.inRegion, State.ctx]
@[simp] theorem State.causeAt_inRegion (x : Site) (st : Status) (src : Src) (u : Tenant) (y : Site) : (s.causeAt x st src).inRegion u y = s.inRegion u y := by simp [State.inRegion, State.ctx]

/-! ## signItem -/

@[simp] theorem State.signItem_tile (x : Site) (a b c : Nat) (p : List Byte) (y : Site) : (s.signItem x a b c p).tile y = s.tile y := by simp [State.tile]
@[simp] theorem State.signItem_ctx (x : Site) (a b c : Nat) (p : List Byte) (u : Tenant) : (s.signItem x a b c p).ctx u = s.ctx u := by simp [State.ctx]
@[simp] theorem State.signItem_die (x : Site) (a b c : Nat) (p : List Byte) (k : Nat) : (s.signItem x a b c p).die k = s.die k := by simp [State.die]
@[simp] theorem State.signItem_dieUp (x : Site) (a b c : Nat) (p : List Byte) (k : Nat) : (s.signItem x a b c p).dieUp k = s.dieUp k := by simp [State.dieUp, State.die]
@[simp] theorem State.signItem_port (x : Site) (a b c : Nat) (p : List Byte) (q : PortRef) : (s.signItem x a b c p).port q = s.port q := by simp [State.port]
@[simp] theorem State.signItem_ethPort (x : Site) (a b c : Nat) (p : List Byte) (q : PortRef) : (s.signItem x a b c p).ethPort q = s.ethPort q := by simp [State.ethPort]
@[simp] theorem State.signItem_sess (x : Site) (a b c : Nat) (p : List Byte) (y : SessRef) : (s.signItem x a b c p).sess y = s.sess y := by simp [State.sess]
@[simp] theorem State.signItem_fnRegs (x : Site) (a b c : Nat) (p : List Byte) (h : Fn) : (s.signItem x a b c p).fnRegs h = s.fnRegs h := by cases h <;> simp [State.fnRegs]
@[simp] theorem State.signItem_pin (x : Site) (a b c : Nat) (p : List Byte) (k : Nat) : (s.signItem x a b c p).pin k = s.pin k := by simp [State.pin]
@[simp] theorem State.signItem_stream (x : Site) (a b c : Nat) (p : List Byte) (k : Nat) : (s.signItem x a b c p).stream k = s.stream k := by simp [State.stream]
@[simp] theorem State.signItem_ring (x : Site) (a b c : Nat) (p : List Byte) (q : RingSel) : (s.signItem x a b c p).ring q = s.ring q := by cases q <;> simp [State.ring, State.ctx]
@[simp] theorem State.signItem_alive (x : Site) (a b c : Nat) (p : List Byte) : (s.signItem x a b c p).alive = s.alive := by simp [State.alive]
@[simp] theorem State.signItem_working (x : Site) (a b c : Nat) (p : List Byte) : (s.signItem x a b c p).working = s.working := by simp [State.working]
@[simp] theorem State.signItem_isFused (x : Site) (a b c : Nat) (p : List Byte) (y : Site) : (s.signItem x a b c p).isFused y = s.isFused y := by simp [State.isFused]
@[simp] theorem State.signItem_localGts (x : Site) (a b c : Nat) (p : List Byte) (k : Nat) : (s.signItem x a b c p).localGts k = s.localGts k := by simp [State.localGts]
@[simp] theorem State.signItem_ownerOf (x : Site) (a b c : Nat) (p : List Byte) (y : Site) : (s.signItem x a b c p).ownerOf y = s.ownerOf y := by simp [State.ownerOf, State.inRegion, State.ctx]
@[simp] theorem State.signItem_inRegion (x : Site) (a b c : Nat) (p : List Byte) (u : Tenant) (y : Site) : (s.signItem x a b c p).inRegion u y = s.inRegion u y := by simp [State.inRegion, State.ctx]

/-! ## dropStarted -/

@[simp] theorem State.dropStarted_tile (f : Started) (y : Site) : (s.dropStarted f).tile y = s.tile y := rfl
@[simp] theorem State.dropStarted_ctx (f : Started) (u : Tenant) : (s.dropStarted f).ctx u = s.ctx u := rfl
@[simp] theorem State.dropStarted_inst (f : Started) (m : BitVec 8) : (s.dropStarted f).inst? m = s.inst? m := rfl
@[simp] theorem State.dropStarted_instances (f : Started) : (s.dropStarted f).instances = s.instances := rfl
@[simp] theorem State.dropStarted_die (f : Started) (k : Nat) : (s.dropStarted f).die k = s.die k := rfl
@[simp] theorem State.dropStarted_dieUp (f : Started) (k : Nat) : (s.dropStarted f).dieUp k = s.dieUp k := rfl
@[simp] theorem State.dropStarted_port (f : Started) (q : PortRef) : (s.dropStarted f).port q = s.port q := rfl
@[simp] theorem State.dropStarted_ethPort (f : Started) (q : PortRef) : (s.dropStarted f).ethPort q = s.ethPort q := rfl
@[simp] theorem State.dropStarted_sess (f : Started) (y : SessRef) : (s.dropStarted f).sess y = s.sess y := rfl
@[simp] theorem State.dropStarted_pin (f : Started) (k : Nat) : (s.dropStarted f).pin k = s.pin k := rfl
@[simp] theorem State.dropStarted_stream (f : Started) (k : Nat) : (s.dropStarted f).stream k = s.stream k := rfl
@[simp] theorem State.dropStarted_alive (f : Started) : (s.dropStarted f).alive = s.alive := rfl
@[simp] theorem State.dropStarted_isFused (f : Started) (y : Site) : (s.dropStarted f).isFused y = s.isFused y := rfl
@[simp] theorem State.dropStarted_localGts (f : Started) (k : Nat) : (s.dropStarted f).localGts k = s.localGts k := rfl
@[simp] theorem State.dropStarted_ownerOf (f : Started) (y : Site) : (s.dropStarted f).ownerOf y = s.ownerOf y := rfl
@[simp] theorem State.dropStarted_inRegion (f : Started) (u : Tenant) (y : Site) : (s.dropStarted f).inRegion u y = s.inRegion u y := rfl
@[simp] theorem State.dropStarted_instAt (f : Started) (y : Site) : (s.dropStarted f).instAt y = s.instAt y := rfl

/-! ## ringWrite -/

@[simp] theorem State.ringWrite_tile (r : RingSel) (bs : List Byte) (y : Site) : (s.ringWrite r bs).tile y = s.tile y := by simp [State.tile]
@[simp] theorem State.ringWrite_inst (r : RingSel) (bs : List Byte) (m : BitVec 8) : (s.ringWrite r bs).inst? m = s.inst? m := by simp [State.inst?]
@[simp] theorem State.ringWrite_instances (r : RingSel) (bs : List Byte) : (s.ringWrite r bs).instances = s.instances := by simp [State.instances]
@[simp] theorem State.ringWrite_die (r : RingSel) (bs : List Byte) (k : Nat) : (s.ringWrite r bs).die k = s.die k := by simp [State.die]
@[simp] theorem State.ringWrite_dieUp (r : RingSel) (bs : List Byte) (k : Nat) : (s.ringWrite r bs).dieUp k = s.dieUp k := by simp [State.dieUp, State.die]
@[simp] theorem State.ringWrite_port (r : RingSel) (bs : List Byte) (q : PortRef) : (s.ringWrite r bs).port q = s.port q := by simp [State.port]
@[simp] theorem State.ringWrite_ethPort (r : RingSel) (bs : List Byte) (q : PortRef) : (s.ringWrite r bs).ethPort q = s.ethPort q := by simp [State.ethPort]
@[simp] theorem State.ringWrite_sess (r : RingSel) (bs : List Byte) (y : SessRef) : (s.ringWrite r bs).sess y = s.sess y := by simp [State.sess]
@[simp] theorem State.ringWrite_pin (r : RingSel) (bs : List Byte) (k : Nat) : (s.ringWrite r bs).pin k = s.pin k := by simp [State.pin]
@[simp] theorem State.ringWrite_stream (r : RingSel) (bs : List Byte) (k : Nat) : (s.ringWrite r bs).stream k = s.stream k := by simp [State.stream]
@[simp] theorem State.ringWrite_alive (r : RingSel) (bs : List Byte) : (s.ringWrite r bs).alive = s.alive := by simp [State.alive]
@[simp] theorem State.ringWrite_isFused (r : RingSel) (bs : List Byte) (y : Site) : (s.ringWrite r bs).isFused y = s.isFused y := by simp [State.isFused]
@[simp] theorem State.ringWrite_localGts (r : RingSel) (bs : List Byte) (k : Nat) : (s.ringWrite r bs).localGts k = s.localGts k := by simp [State.localGts]

/-! ## finish -/

@[simp] theorem State.finish_tile (f : Started) (st : Status) (v : Nat) (y : Site) : (s.finish f st v).tile y = s.tile y := by simp [State.tile]
@[simp] theorem State.finish_inst (f : Started) (st : Status) (v : Nat) (m : BitVec 8) : (s.finish f st v).inst? m = s.inst? m := by simp [State.inst?]
@[simp] theorem State.finish_instances (f : Started) (st : Status) (v : Nat) : (s.finish f st v).instances = s.instances := by simp [State.instances]
@[simp] theorem State.finish_die (f : Started) (st : Status) (v : Nat) (k : Nat) : (s.finish f st v).die k = s.die k := by simp [State.die]
@[simp] theorem State.finish_dieUp (f : Started) (st : Status) (v : Nat) (k : Nat) : (s.finish f st v).dieUp k = s.dieUp k := by simp [State.dieUp, State.die]
@[simp] theorem State.finish_port (f : Started) (st : Status) (v : Nat) (q : PortRef) : (s.finish f st v).port q = s.port q := by simp [State.port]
@[simp] theorem State.finish_ethPort (f : Started) (st : Status) (v : Nat) (q : PortRef) : (s.finish f st v).ethPort q = s.ethPort q := by simp [State.ethPort]
@[simp] theorem State.finish_sess (f : Started) (st : Status) (v : Nat) (y : SessRef) : (s.finish f st v).sess y = s.sess y := by simp [State.sess]
@[simp] theorem State.finish_pin (f : Started) (st : Status) (v : Nat) (k : Nat) : (s.finish f st v).pin k = s.pin k := by simp [State.pin]
@[simp] theorem State.finish_stream (f : Started) (st : Status) (v : Nat) (k : Nat) : (s.finish f st v).stream k = s.stream k := by simp [State.stream]
@[simp] theorem State.finish_alive (f : Started) (st : Status) (v : Nat) : (s.finish f st v).alive = s.alive := by simp [State.alive]
@[simp] theorem State.finish_isFused (f : Started) (st : Status) (v : Nat) (y : Site) : (s.finish f st v).isFused y = s.isFused y := by simp [State.isFused]
@[simp] theorem State.finish_localGts (f : Started) (st : Status) (v : Nat) (k : Nat) : (s.finish f st v).localGts k = s.localGts k := by simp [State.localGts]

end Sys2Proof.Machine
end

