-- ==== Sys2Proof/Laws/Issue.lean ====
section
/-! SUPPORT. What the shared operations that carry a command can do: issuing an instruction, and serving a started command. -/

namespace Sys2Proof.Machine

open Sys2Proof

variable {s : State}

/-! ## Serving a started command -/

/-- Serving runs the handler on the started command that the row names, or changes nothing. -/
theorem State.serve_cases (c : Serve) (op : Nat) (k : Started → State → State) :
    s.serve c op k = s ∨
      ∃ f, s.host.started.find? (fun f => f.id = c.id && f.op = op) = some f ∧ s.serving = true ∧ s.serve c op k = k f s := by
  unfold State.serve
  split
  · next f h =>
    by_cases hs : s.serving = true
    · exact .inr ⟨f, h, hs, by simp [hs]⟩
    · exact .inl (by simp [hs])
  · exact .inl rfl

/-- A command that is there is served while the steward serves. -/
theorem State.serve_some {c : Serve} {op : Nat} {f : Started} (k : Started → State → State)
    (h : s.host.started.find? (fun f => f.id = c.id && f.op = op) = some f) (hs : s.serving = true) : s.serve c op k = k f s := by
  unfold State.serve
  rw [h]
  simp [hs]

/-- Without such a command nothing changes. -/
theorem State.serve_none {c : Serve} {op : Nat} (k : Started → State → State)
    (h : s.host.started.find? (fun f => f.id = c.id && f.op = op) = none) : s.serve c op k = s := by
  unfold State.serve
  rw [h]

/-! ## Issuing an instruction -/

/-- The state in which an instruction's checks and effect are taken: the waits before its issue are counted. -/
def State.counted (s : State) (i : Issue) : State :=
  s.onTile i.site fun t => { t with issueStalls := addSat t.issueStalls i.stalls }

/-- What an effect leaves behind: a wait leaves the tile as it was before. -/
def State.afterEff (s : State) (x : Site) (rep : Bool) : Eff → State
  | .wait => s
  | .done s2 => s2.advance x rep
  | .jump s2 a loops => s2.onTile x fun t => t.refetch (siteKind x) a loops
  | .loop s2 a loops => s2.onTile x fun t => t.goOn (siteKind x) (t.seq.held.drop 1) a loops
  | .ended s2 => s2

/-- A tile that may not issue, or whose issue the pacer holds, is left as it is. -/
theorem State.issue_blocked (i : Issue) (op : Nat) (legal : State → Site → DWord → Nat → Bool) (sealedBad : Bool)
    (effect : State → Site → DWord → Nat → Eff) (h : s.mayIssue i.site = false ∨ s.paceHeld i.site op = true) :
    s.issue i op legal sealedBad effect = s := by
  unfold State.issue
  rcases h with h | h <;> simp [h]

/-- A tile whose next word has another opcode is left as it is, or stops on that word where its tile has no such opcode. -/
theorem State.issue_other (i : Issue) (op : Nat) (legal : State → Site → DWord → Nat → Bool) (sealedBad : Bool)
    (effect : State → Site → DWord → Nat → Eff) (h : opcodeOf ((s.tile i.site).nextWord (siteKind i.site)).1 ≠ op) :
    let n := (s.tile i.site).nextWord (siteKind i.site)
    s.issue i op legal sealedBad effect = s ∨
      (opDefined (siteKind i.site) (opcodeOf n.1) = false ∧ s.issue i op legal sealedBad effect = s.illegalInsn i.site n.1 n.2.1) := by
  intro n
  by_cases h1 : (!s.mayIssue i.site || s.paceHeld i.site op) = true
  · exact .inl (if_pos h1)
  have e0 := (if_neg h1).trans (if_pos h) (a := s.issue i op legal sealedBad effect)
  by_cases h2 : opDefined (siteKind i.site) (opcodeOf n.1) = true
  · exact .inl (e0.trans (if_pos h2))
  · exact .inr ⟨by simpa using h2, e0.trans (if_neg h2)⟩

/-- A tile whose next word waits for a register in flight is left as it is (R131, R183). -/
theorem State.issue_waits (i : Issue) (op : Nat) (legal : State → Site → DWord → Nat → Bool) (sealedBad : Bool)
    (effect : State → Site → DWord → Nat → Eff) (ho : opcodeOf ((s.tile i.site).nextWord (siteKind i.site)).1 = op)
    (h : (s.tile i.site).hazard (siteKind i.site) s.clk.fclk ((s.tile i.site).nextWord (siteKind i.site)).1 = true) :
    s.issue i op legal sealedBad effect = s := by
  by_cases h1 : (!s.mayIssue i.site || s.paceHeld i.site op) = true
  · exact if_pos h1
  · exact (if_neg h1).trans ((if_neg (fun q => q ho)).trans (if_pos h))

/-- Everything an issue can do: nothing, the stop at a word without a meaning, a parity stop, the illegal-instruction stop, the class refusal
of a sealed section, or the instruction's effect. -/
theorem State.issue_cases (i : Issue) (op : Nat) (legal : State → Site → DWord → Nat → Bool) (sealedBad : Bool)
    (effect : State → Site → DWord → Nat → Eff) :
    let x := i.site
    let n := (s.tile x).nextWord (siteKind x)
    s.issue i op legal sealedBad effect = s ∨
    (opDefined (siteKind x) (opcodeOf n.1) = false ∧ s.issue i op legal sealedBad effect = s.illegalInsn x n.1 n.2.1) ∨
    (∃ h, i.parity = some h ∧ s.issue i op legal sealedBad effect = (s.counted i).regParity x h n.2.1) ∨
    (legal (s.counted i) x n.1 n.2.1 = false ∧ s.issue i op legal sealedBad effect = (s.counted i).illegalInsn x n.1 n.2.1) ∨
    (sealedBad = true ∧ s.issue i op legal sealedBad effect = (s.counted i).classRefused x n.1 n.2.1) ∨
    (legal (s.counted i) x n.1 n.2.1 = true ∧
      s.issue i op legal sealedBad effect = s.afterEff x n.2.2 (effect (s.counted i) x n.1 n.2.1)) := by
  intro x n
  by_cases h1 : (!s.mayIssue x || s.paceHeld x op) = true
  · exact .inl (if_pos h1)
  by_cases h2 : opcodeOf n.1 ≠ op
  · rcases State.issue_other i op legal sealedBad effect h2 with h | h
    · exact .inl h
    · exact .inr (.inl h)
  by_cases hz : (s.tile x).hazard (siteKind x) s.clk.fclk n.1 = true
  · exact .inl (State.issue_waits i op legal sealedBad effect (Decidable.not_not.mp h2) hz)
  have e0 : s.issue i op legal sealedBad effect =
      if (match i.parity with | some h => decide (h.reg.val ≠ 74) | none => false) = true then
        (match i.parity with | some h => (s.counted i).regParity x h n.2.1 | none => s)
      else if (!legal (s.counted i) x n.1 n.2.1) = true then (s.counted i).illegalInsn x n.1 n.2.1
      else if (sealedBad && s.sealedAt x) = true then (s.counted i).classRefused x n.1 n.2.1
      else s.afterEff x n.2.2 (effect (s.counted i) x n.1 n.2.1) := by
    refine (if_neg h1).trans ((if_neg h2).trans ((if_neg hz).trans ?_))
    cases hp : i.parity <;> cases he : effect (s.counted i) x n.1 n.2.1 <;>
      (unfold State.counted at he; simp only [x, n] at he; simp only [he]; rfl)
  rw [e0]
  refine .inr (.inr ?_)
  by_cases h4 : legal (s.counted i) x n.1 n.2.1 = true
  · by_cases h5 : (sealedBad && s.sealedAt x) = true
    · have h6 : sealedBad = true := (Bool.and_eq_true _ _ ▸ h5).1
      cases hp : i.parity with
      | none => exact .inr (.inr (.inl ⟨h6, by simp [h4, h5]⟩))
      | some h =>
        by_cases h3 : h.reg.val = 74
        · exact .inr (.inr (.inl ⟨h6, by simp [h3, h4, h5]⟩))
        · exact .inl ⟨h, rfl, by simp [h3]⟩
    · cases hp : i.parity with
      | none => exact .inr (.inr (.inr ⟨h4, by simp [h4, h5]⟩))
      | some h =>
        by_cases h3 : h.reg.val = 74
        · exact .inr (.inr (.inr ⟨h4, by simp [h3, h4, h5]⟩))
        · exact .inl ⟨h, rfl, by simp [h3]⟩
  · cases hp : i.parity with
    | none => exact .inr (.inl ⟨by simpa using h4, by simp [h4]⟩)
    | some h =>
      by_cases h3 : h.reg.val = 74
      · exact .inr (.inl ⟨by simpa using h4, by simp [h3, h4]⟩)
      · exact .inl ⟨h, rfl, by simp [h3]⟩

end Sys2Proof.Machine
end

