-- ==== Sys2Proof/Laws/Memory.lean ====
section
/-! SUPPORT. What the operations over device memory do: reads of HBM, translations, and accesses by virtual address. -/

namespace Sys2Proof.Machine

open Sys2Proof

/-- What was written reads back. -/
theorem Memory.read_write (m : Memory) (a : Nat) (bs : List Byte) : Memory.read (Memory.write m a bs) a bs.length = bs := by
  suffices h : ∀ (k : Nat) (xs : List Byte), k + xs.length ≤ bs.length → (∀ i (hi : i < xs.length) (hb : k + i < bs.length), xs[i] = bs[k + i]) →
      Memory.read (Memory.write m a bs) (a + k) xs.length = xs by
    exact h 0 bs (by omega) (fun i hi hb => by simp)
  intro k xs
  induction xs generalizing k with
  | nil => intro _ _; rfl
  | cons x xs ih =>
    intro hk hx
    simp only [List.length_cons] at hk
    have h0 : x = bs[k] := hx 0 (by simp) (by omega)
    rw [List.length_cons, Memory.read, Memory.byte_write m a bs k (by omega), ← h0]
    congr 1
    refine ih (k + 1) (by omega) fun i hi hb => ?_
    have h := hx (i + 1) (by simpa using hi) (by omega)
    simpa [Nat.add_assoc, Nat.add_comm 1 i] using h

/-- A shorter read gives the first bytes of a longer one. -/
theorem Memory.read_take (m : Memory) (a n k : Nat) (h : n ≤ k) : Memory.read m a n = (Memory.read m a k).take n := by
  induction n generalizing a k with
  | zero => rfl
  | succ n ih =>
    cases k with
    | zero => omega
    | succ k => rw [Memory.read, Memory.read, List.take_succ_cons, ih (a + 1) k (by omega)]

theorem Memory.read_length (m : Memory) (a n : Nat) : (Memory.read m a n).length = n := by
  induction n generalizing a with
  | zero => rfl
  | succ n ih => rw [Memory.read, List.length_cons, ih]

/-- Without a warm reset and a range of open bytes the store lists the bytes as they are. -/
theorem MemState.mask_none (m : MemState) (h : m.epoch = none) (hf : m.fresh = []) (a : Nat) (bs : List Byte) : m.mask a bs = bs := by
  induction bs generalizing a with
  | nil => rfl
  | cons b bs ih => simp [MemState.mask, MemState.pad, h, hf, ih]

/-- A read of one burst without an error changes nothing. -/
theorem State.readBurst_none (s : State) (b : Nat) (r : Src) (t : Byte) (h : s.burstErr b = none) : s.readBurst b r t = (false, s) := by
  simp [State.readBurst, h]

/-- A read of bytes whose bursts have no error gives them and changes nothing. -/
theorem State.hbmRead_clean (s : State) (dpa n : Nat) (r : Src) (t : Byte) (h : ∀ b ∈ bursts dpa n, s.burstErr b = none) :
    s.hbmRead dpa n r t = (s.mem.mask dpa (Memory.read s.mem.hbm dpa n), false, s) := by
  suffices hs : ∀ l : List Nat, (∀ b ∈ l, s.burstErr b = none) →
      l.foldl (fun a b => let x := a.2.readBurst b r t; (a.1 || x.1, x.2)) (false, s) = (false, s) by
    simp only [State.hbmRead, hs _ h]
  intro l
  induction l with
  | nil => intro _; rfl
  | cons b l ih =>
    intro hb
    rw [List.foldl_cons, State.readBurst_none s b r t (hb b (by simp))]
    exact ih fun c hc => hb c (by simp [hc])

/-- A translation changes nothing, or does what the walk of the tables does, and then may fill its unit's cache. -/
theorem State.translate_state (s : State) (half : Fin 2) (t : Tenant) (va : Nat) (a : Access) :
    (s.translate half t va a).2 = s ∨ (s.translate half t va a).2 = (s.walk half t va a).2 ∨
      ∃ e, (s.translate half t va a).2 = (s.walk half t va a).2.tlbFill e := by
  cases h : s.tlbFind half t va with
  | some e => exact .inl (by simp only [State.translate, h])
  | none =>
    cases hw : (s.walk half t va a).1 with
    | ok d b e => exact .inr (.inr ⟨_, by simp only [State.translate, h, hw]; rfl⟩)
    | fault c l => exact .inr (.inl (by simp only [State.translate, h, hw]))

/-- A cached translation changes nothing. -/
theorem State.translate_cached (s : State) (half : Fin 2) (t : Tenant) (va : Nat) (a : Access) (e : TlbEntry)
    (h : s.tlbFind half t va = some e) : s.translate half t va a = (leafCheck a va e.big e.entry, s) := by
  simp only [State.translate, h]

/-- A tenant's read within one page gives the bytes at its translation, where no burst has an error. -/
theorem State.vaRead_one (s u : State) (t : Tenant) (half : Fin 2) (va n dpa : Nat) (big : Bool) (e : DWord) (i : FaultInfo)
    (hp : vaPieces va n = [(va, n)]) (ht : s.translate half t va { write := false } = (.ok dpa big e, u))
    (hb : ∀ b ∈ bursts dpa n, u.burstErr b = none) :
    s.vaRead t half va n i = (some (u.mem.mask dpa (Memory.read u.mem.hbm dpa n), false), u) := by
  simp only [State.vaRead, hp, List.foldl_cons, List.foldl_nil, ht, State.hbmRead_clean u dpa n _ _ hb]
  rfl

/-- A tenant's write within one page writes HBM at its translation. -/
theorem State.vaWrite_one (s u : State) (t : Tenant) (half : Fin 2) (va dpa : Nat) (bs : List Byte) (big : Bool) (e : DWord) (i : FaultInfo)
    (hp : vaPieces va bs.length = [(va, bs.length)]) (ht : s.translate half t va { write := true } = (.ok dpa big e, u)) :
    s.vaWrite t half va bs i = (true, u.hbmWrite dpa bs i.src (tenantByte t)) := by
  simp [State.vaWrite, hp, ht]

end Sys2Proof.Machine
end

