-- ==== Sys2Proof/Tests/Slice0.lean ====
section
/-! SUPPORT. Tests: the checks of well-formedness refuse what they are for; worked cases of the spec; and, for every statement with hypotheses,
states and operands that meet all of them together, clause by clause. -/

open Sys2Proof Sys2Proof.Machine Sys2Proof.Claims

namespace Sys2Proof.Tests

set_option Elab.async false
set_option maxRecDepth 100000
set_option linter.unusedVariables false

/-! ## Well-formedness -/

theorem test_wf_sizes : ∀ n ∈ [0, 3, 5, 6, 7, 9, 16], (Instr.adbWrite .pf0 n 0).wf = false ∧ (Instr.cdbWrite .pf0 0 n 0).wf = false ∧
    (Instr.doorbellSignal .pf0 0 n 0).wf = false ∧ (Instr.doorbellTake .pf0 0 n 0).wf = false ∧ (Instr.gtsLoRead .pf0 n).wf = false ∧
    (Instr.registerWrite (.bar0 .pf0) 0 n 0).wf = false := by decide

theorem test_wf_sizes_allowed : ∀ n ∈ [1, 2, 4, 8], (Instr.adbWrite .pf0 n 0).wf = true := by decide

theorem test_wf_view_offsets : (Instr.activeViewWrite ⟨0, 1, 0⟩ 0 0x3F42 0).wf = false ∧ (Instr.shadowViewWrite ⟨0, 1, 0⟩ 0 1 0).wf = false ∧
    (Instr.activeViewWrite ⟨0, 1, 0⟩ 0 0x3F40 0).wf = true := by decide

theorem test_wf_bar2_read : (Instr.bar2Read .pf0 .bar2 0 0 []).wf = false ∧ (Instr.bar2Read .pf0 .bar2 0 8 [⟨8, .ce⟩]).wf = false ∧
    (Instr.bar2Read .pf0 .bar2 0 8 [⟨7, .ue⟩]).wf = true := by decide

theorem test_wf_bar2_write : (Instr.bar2Write .pf0 0 [] []).wf = false ∧ (Instr.bar2Write .pf0 0 [(1, true)] [⟨1, .ce⟩]).wf = false ∧
    (Instr.bar2Write .pf0 0 [(1, true)] [⟨0, .ce⟩]).wf = true := by decide

theorem test_wf_bar2_write_long : (Instr.bar2Write .pf0 0 (List.replicate 4097 (0, true)) []).wf = false := by decide +kernel

theorem test_wf_upsets : ∀ i ∈ [Instr.tld ⟨⟨0, 1, 0⟩, 0, none⟩ [⟨786432, .ce⟩], .vld ⟨⟨0, 4, 0⟩, 0, none⟩ [⟨786432, .ce⟩], .copyLocal ⟨0, 3, 0⟩ [⟨786432, .ce⟩],
    .gridWrite ⟨0, 3, 0⟩ [⟨786432, .ce⟩], .hbmWrite ⟨0, 3, 0⟩ [⟨786432, .ce⟩], .windowWrite ⟨0, 3, 0⟩ [⟨786432, .ce⟩], .tallyEmit ⟨0, 3, 0⟩ 0 [⟨786432, .ue⟩]],
    i.wf = false := by decide

/-- A message of a codeword. -/
def nopMsg : LinkMsg :=
  { op := 0, tenant := 0, handle := 0, status := 0, offset := 0, srcId := 0, tag := 0, reqCredits := 0, rspCredits := 0, body := 0, badReserved := false, data := [] }

theorem test_wf_codeword : (Instr.codewordRx ⟨0, 0⟩ ⟨true, false, 0, 0, false, true, [nopMsg]⟩).wf = false ∧
    (Instr.codewordRx ⟨0, 0⟩ ⟨true, false, 0, 0, false, true, []⟩).wf = true := by decide

theorem test_wf_bypass : (Instr.bypass 6).wf = false ∧ (Instr.bypass 7).wf = true := by decide

/-! ## Sites and states -/

/-- An M-tile, its home B-tile, the V-tile beside that one, and a P-tile of FD0. -/
def m0 : Site := ⟨0, 1, 0⟩
def b0 : Site := ⟨0, 3, 0⟩
def v0 : Site := ⟨0, 4, 0⟩
def p0 : Site := ⟨0, 0, 0⟩

/-- A section without a seal. -/
def sec0 : Section := { index := 0, isSealed := false, fold := false, foldPart := false, foldOf := 0, period := 1, rampSteps := 0, counts := [], recs := [] }

/-- A layout of tenant 0 on FD0. -/
def inst0 : Instance := { id := 1, tenant := 0, crc := 7, dieMask := 1, sections := [sec0], loaded := true }

/-- An open context that owns FD0. -/
def ctx0 : Context := { isOpen := true, gen := 1, regions := [(0, 0x08)], hbmQuota := 64, streamQuota := 64, ccq := { enable := true, sizeLog2 := 4 } }

/-- Reset with a working host link, tenant 0's context and its layout. -/
def base : State :=
  { State.reset with
    host := { linkUp := 1, configReady := 1, vfEnabled := 1, ready := true, acq := { enable := true, sizeLog2 := 4 } }
    ctxs := [(0, ctx0)], insts := [(1, inst0)], lastLayout := some 1 }

/-- A tile that runs section 0 with one instruction word. -/
def runs (w : DWord) : Tile := { parked := false, active := { configured := true, imem := [(0, w)] } }

/-- The base state with a tile put in place. -/
def at_ (x : Site) (t : Tile) (s : State := base) : State := s.setTile x t

/-- An issue of a tile. -/
def iss (x : Site) : Issue := { site := x, stalls := 3, parity := none }

/-- An instruction word: opcode, and the other bits. -/
def ins (op rest : Nat) : DWord := BitVec.ofNat 64 (op * 2 ^ 58 + rest)

/-- The home B-tile of `m0` and `v0`, configured, with eight bytes at 64. -/
def bt : Tile := { parked := false, active := { configured := true }, b := { mem := [(64, 1), (65, 2), (70, 9)] } }

/-- A descriptor of two rows of 64 bytes: kind, flags, B-tile offset, remote address, STATUS_ADDR. -/
def dsc (kind flags loc remote sa : Nat) : BitVec 256 :=
  BitVec.ofNat 256 (kind + flags * 2 ^ 8 + loc * 2 ^ 32 + remote * 2 ^ 64 + 2 * 2 ^ 128 + 64 * 2 ^ 144 + 64 * 2 ^ 160 + 64 * 2 ^ 192 + sa * 2 ^ 224)

/-- A descriptor with its first unit still to send. -/
def dma (kind remote : Nat) : Dma := { seq := 3, desc := dsc kind 0 64 remote 0, poster := 9, phase := .started }

/-- The head of a packet of tenant 0 for a tile of FD0 at a unit. -/
def hd (x y : Site) (kind tag : Nat) : Head :=
  { tenant := 0, spine := false, vc := false, destDie := BitVec.ofNat 6 y.die.val, destUnit := BitVec.ofNat 10 (siteUnit y), ep := 1
    kind := BitVec.ofNat 3 kind, src := siteSrc x, tag := BitVec.ofNat 16 tag }

/-- The base state with one packet in flight. -/
def fly (p : Packet) (s : State := base) : State := { s with net := { s.net with flow := [p] } }

/-- The context with its first 2 MiB mapped to the DPAs from 2 MiB on. -/
def ctxMap : Context := { ctx0 with ptRoot := some 0x400000, pt := [(ptKey 1 0, 0x410001), (ptKey 2 0, 0x420001), (ptKey 3 0, 0x20003F)] }

/-- HBM with the tables of that context, from 4 MiB on. -/
def tables0 : List Host.Cell :=
  Memory.write (Memory.write (Memory.write [] 0x400000 (leBytes 8 0x410001)) 0x410000 (leBytes 8 0x420001)) 0x420000 (leBytes 8 0x20003F)

/-- The base state with that context and bytes at virtual addresses. -/
def mapped (ws : List (Nat × List Byte)) (s : State := base) : State :=
  { s with ctxs := [(0, ctxMap)], mem := { s.mem with hbm := ws.foldl (fun m w => Memory.write m (2 ^ 21 + w.1) w.2) tables0 } }


/-! ## Worked cases of the spec -/

/-- Source numbers of 02_time_and_order.md and 09_memory_and_address_map.md: B-tile 9.11.4, XD2 lane 2, and pseudo-channel 26 of H3. -/
theorem test_source_numbers : siteSrc ⟨9, 11, 4⟩ = 0x24B4 ∧ portSrc ⟨2, 2⟩ = 0x4822 ∧ srcOf 31 26 = 0x7C1A := by decide

/-- The address of TILE_LIVE_CTRL of M-tile 6.9.4 (09_memory_and_address_map.md). -/
theorem test_control_address : State.reset.ctlTarget 0x0206004A3F00 = some (6, 0x94, 0x3F00) := by decide +kernel

/-- The worked translation of 09_memory_and_address_map.md: VA 0x0042_6F38_1A40 by way of level-3 entry 377 and level-4 entry 24. -/
theorem test_translation :
    ({ pt := [(ptKey 1 0x426F381A40, 1), (ptKey 2 0x426F381A40, 1), (ptKey 3 0x426F381A40, 1), (ptKey 4 0x426F381A40, 0x300A45000F)] } : Context).walk
      0x426F381A40 { write := false, host := false, window := false } = .ok 0x300A451A40 false 0x300A45000F := by decide +kernel

/-- The fields of the TMMA word of 06_matrix_tiles.md. -/
theorem test_tmma_word : ([(0x1144A1FFF3400000 : DWord)].map fun w =>
    [fld w 63 58, fld w 57 56, fld w 55 54, fld w 53 53, fld w 52 49, fld w 48 45, fld w 44 44, fld w 43 43, fld w 42 41, fld w 40 40, fld w 39 36, fld w 35 31,
      fld w 30 28, fld w 27 24, fld w 23 20]) = [[4, 1, 1, 0, 2, 5, 0, 0, 0, 1, 15, 31, 7, 3, 4]] := by decide

/-- The tally of 08_channels_tallies_and_beacons.md: 2^24 + 1 rounds to 2^24. -/
theorem test_sum_order : addF32 (addF32 0x4B800000 0x3F800000) 0x3F800000 = 0x4B800000 ∧ addF32 (addF32 0x3F800000 0x3F800000) 0x4B800000 = 0x4B800001 := by
  decide +kernel

/-- The word of 07_vector_tiles.md for FADD v1 = v2 + v3, with 1 in v2 and 2 in v3: 3 in element 0 of v1 and 0 elsewhere. -/
theorem test_fadd_word :
    (match execVop (iss v0) (at_ v0 { runs 0x0400221800000000 with v := { v := [(128, 0x3F800000), (192, 0x40000000)] } }) with
      | .next t => decide (Map.get 0 (t.tile v0).v.v 64 = 0x40400000) && decide (Map.get 0 (t.tile v0).v.v 65 = 0) && decide ((t.tile v0).seq.ip = 8)
      | _ => false) = true := by decide +kernel

/-- Rows 10 and 12 of Table PN-3: the second and the third sample of the new level, with DEBOUNCE 2 and TRIG 1. -/
theorem test_debounce :
    (((State.reset.onPin 5 fun p => { p with mode := 4, debounce := 2, tick := 2, count := 1 }).gpioTick 5 true).pin 5).level = false ∧
    (((State.reset.onPin 5 fun p => { p with mode := 4, debounce := 2, tick := 2, count := 2 }).gpioTick 5 true).pin 5).level = true ∧
    (((State.reset.onPin 5 fun p => { p with mode := 4, debounce := 2, tick := 2, count := 2 }).gpioTick 5 true).pin 5).pend = true := by decide +kernel

/-! ## The common control subset -/

/-- A word of an opcode at the start of an M-tile's program, with q0 = 24, q1 = 5 and q2 = 9. -/
def cw (op rest : Nat) : State := at_ m0 { runs (ins op rest) with m := { q := [(0, 24), (1, 5), (2, 9)] } }

theorem wit_NopSecendIfenceMoveOnlyTheSequencer_1 : ∃ (i : Issue) (s : State) (w : DWord), Issues s i 0x30 w ∧ onlyBits w 0 = true :=
  ⟨iss m0, cw 0x30 0, ins 0x30 0, by decide +kernel⟩

theorem wit_NopSecendIfenceMoveOnlyTheSequencer_2 : ∃ (i : Issue) (s : State) (w : DWord), Issues s i 0x31 w ∧ onlyBits w 0 = true :=
  ⟨iss m0, cw 0x31 0, ins 0x31 0, by decide +kernel⟩

theorem wit_NopSecendIfenceMoveOnlyTheSequencer_3 : ∃ (i : Issue) (s : State) (w : DWord), Issues s i 0x3A w ∧ onlyBits w 0 = true :=
  ⟨iss m0, cw 0x3A 0, ins 0x3A 0, by decide +kernel⟩

theorem wit_JumpsGoToTheirTargets_1 : ∃ (i : Issue) (s : State) (w : DWord), Issues s i 0x34 w ∧ jmpLegal s i.site w (ipOf s i) = true :=
  ⟨iss m0, cw 0x34 (5 * 2 ^ 32), ins 0x34 (5 * 2 ^ 32), by decide +kernel⟩

theorem wit_JumpsGoToTheirTargets_2 : ∃ (i : Issue) (s : State) (w : DWord), Issues s i 0x35 w ∧ callLegal s i.site w (ipOf s i) = true :=
  ⟨iss v0, at_ v0 (runs (ins 0x35 (5 * 2 ^ 32))), ins 0x35 (5 * 2 ^ 32), by decide +kernel⟩

theorem wit_JumpsGoToTheirTargets_3 : ∃ (i : Issue) (s : State) (w : DWord) (a : Nat) (rest : List Nat), Issues s i 0x36 w ∧ onlyBits w 0 = true ∧
    (s.tile i.site).seq.stack = a :: rest :=
  ⟨iss m0, at_ m0 { runs (ins 0x36 0) with seq := { stack := [16, 8] } }, ins 0x36 0, 16, [8], by decide +kernel⟩

theorem wit_BranchesAndLoopsFollowTheirOperands_1 : ∃ (i : Issue) (s : State) (w : DWord), Issues s i 0x33 w ∧ brLegal s i.site w (ipOf s i) = true ∧
    brTaken (fld w 48 46) (s.scalar i.site (fld w 57 54)) (brOperand s i.site w) = true :=
  ⟨iss v0, at_ v0 (runs (ins 0x33 (3 * 2 ^ 32 + 2 ^ 49))), ins 0x33 (3 * 2 ^ 32 + 2 ^ 49), by decide +kernel⟩

theorem wit_BranchesAndLoopsFollowTheirOperands_2 : ∃ (i : Issue) (s : State) (w : DWord), Issues s i 0x33 w ∧ brLegal s i.site w (ipOf s i) = true ∧
    brTaken (fld w 48 46) (s.scalar i.site (fld w 57 54)) (brOperand s i.site w) = false :=
  ⟨iss m0, cw 0x33 (3 * 2 ^ 32 + 2 ^ 49), ins 0x33 (3 * 2 ^ 32 + 2 ^ 49), by decide +kernel⟩

theorem wit_BranchesAndLoopsFollowTheirOperands_3 : ∃ (i : Issue) (s : State) (w : DWord), Issues s i 0x32 w ∧ loopLegal s i.site w (ipOf s i) = true
    ∧ loopCount s i.site w ≠ 0 :=
  ⟨iss m0, cw 0x32 (2 * 2 ^ 42 + 7), ins 0x32 (2 * 2 ^ 42 + 7), by decide +kernel⟩

theorem wit_BranchesAndLoopsFollowTheirOperands_4 : ∃ (i : Issue) (s : State) (w : DWord), Issues s i 0x32 w ∧ loopLegal s i.site w (ipOf s i) = true
    ∧ loopCount s i.site w = 0 :=
  ⟨iss m0, cw 0x32 (2 * 2 ^ 42), ins 0x32 (2 * 2 ^ 42), by decide +kernel⟩

theorem wit_ScalarsAndInstructionWordsAreWritten_1 : ∃ (i : Issue) (s : State) (w : DWord), Issues s i 0x37 w ∧ sliLegal s i.site w (ipOf s i) = true
    :=
  ⟨iss m0, cw 0x37 (3 * 2 ^ 54 + 77), ins 0x37 (3 * 2 ^ 54 + 77), by decide +kernel⟩

theorem wit_ScalarsAndInstructionWordsAreWritten_2 : ∃ (i : Issue) (s : State) (w : DWord), Issues s i 0x38 w ∧ sopLegal s i.site w (ipOf s i) = true
    :=
  ⟨iss m0, cw 0x38 (3 * 2 ^ 54 + 1 * 2 ^ 50 + 2 * 2 ^ 46 + 2 ^ 41), ins 0x38 (3 * 2 ^ 54 + 1 * 2 ^ 50 + 2 * 2 ^ 46 + 2 ^ 41), by decide +kernel⟩

theorem wit_ScalarsAndInstructionWordsAreWritten_3 : ∃ (i : Issue) (s : State) (w : DWord), Issues s i 0x39 w ∧ imwLegal s i.site w (ipOf s i) = true
    :=
  ⟨iss m0, cw 0x39 (2 * 2 ^ 50), ins 0x39 (2 * 2 ^ 50), by decide +kernel⟩

theorem wit_TilesSendTheirMessages_1 : ∃ (i : Issue) (s : State) (w : DWord), Issues s i 0x3B w ∧ openLegal s i.site w (ipOf s i) = true ∧ ((s.tile
    i.site).outEp (fld w 57 55)).state = .closed :=
  ⟨iss m0, cw 0x3B (1 * 2 ^ 51 + 3 * 2 ^ 46), ins 0x3B (1 * 2 ^ 51 + 3 * 2 ^ 46), by decide +kernel⟩

theorem wit_TilesSendTheirMessages_2 : ∃ (i : Issue) (s : State) (w : DWord), Issues s i 0x3C w ∧ closeLegal s i.site w (ipOf s i) = true ∧ ((s.tile
    i.site).outEp (fld w 57 55)).state = .opened :=
  ⟨iss m0, at_ m0 { runs (ins 0x3C 0) with outs := [(0, { state := .opened, target := 3 })] }, ins 0x3C 0, by decide +kernel⟩

theorem wit_TilesSendTheirMessages_3 : ∃ (i : Issue) (s : State) (w : DWord) (u : Tenant), Issues s i 0x3D w ∧ beaconLegal s i.site w (ipOf s i) =
    true ∧ s.sealedAt i.site = false ∧ s.ownerOf i.site = some u :=
  ⟨iss m0, cw 0x3D (5 * 2 ^ 46 + 2), ins 0x3D (5 * 2 ^ 46 + 2), 0, by decide +kernel⟩

theorem wit_TilesSendTheirMessages_4 : ∃ (i : Issue) (s : State) (w : DWord) (u : Tenant), Issues s i 0x3E w ∧ beaconLegal s i.site w (ipOf s i) =
    true ∧ s.sealedAt i.site = false ∧ s.ownerOf i.site = some u :=
  ⟨iss m0, cw 0x3E (5 * 2 ^ 46 + 2), ins 0x3E (5 * 2 ^ 46 + 2), 0, by decide +kernel⟩

theorem wit_TilesSendTheirMessages_5 : ∃ (i : Issue) (s : State) (w : DWord) (u : Tenant), Issues s i 0x3F w ∧ gtsrLegal s i.site w (ipOf s i) = true
    ∧ s.sealedAt i.site = false ∧ s.ownerOf i.site = some u ∧ (s.ctx u).replay = none :=
  ⟨iss m0, cw 0x3F (2 * 2 ^ 54), ins 0x3F (2 * 2 ^ 54), 0, by decide +kernel⟩

/-! ## Matrix tiles -/

/-- A matrix tile with numbers in registers 0 and 1 and accumulator 0. -/
def mreg : MState :=
  { t := [(0, 0x80), (1, 0x3F), (64, 0x40), (65, 0x40), (4096, 0x80), (4097, 0x3F), (4160, 0xC0)]
    scale := [(0, 127)], acc := [(0, 0x3F800000), (33, 0x40490FDB), (512, 5)], full := 3, q := [(0, 64), (1, 0)] }

/-- A word at the start of an M-tile's program beside its B-tile. -/
def mw (op rest : Nat) (f : Tile → Tile := id) : State := at_ m0 (f { runs (ins op rest) with m := mreg }) (at_ b0 bt)

/-- TLD and TST of two rows of 8 bytes, from 64 on with a stride of 8. -/
def ldRest : Nat := 2 ^ 55 + 1 * 2 ^ 48 + 2 ^ 41 + 8 * 2 ^ 20 + 1 * 2 ^ 6

/-- A TLDW that has stopped on row 2. -/
def run2 : TldwRun := { w := ins 0x03 0, ip := 8, va := 0, done := [0], sent := [0], fault := some (2, 5), waiting := false }

theorem wit_TldLoadsItsRows_1 : ∃ (i : Issue) (s : State) (w : DWord), Issues s i 0x01 w ∧ siteKind i.site = .m ∧ ldLegal s i.site w (ipOf s i) = true
    ∧ (s.tile (homeB i.site)).b.bad = [] :=
  ⟨iss m0, mw 0x01 ldRest, ins 0x01 ldRest, by decide +kernel⟩

theorem wit_TstStoresItsRows_1 : ∃ (i : Issue) (s : State) (w : DWord), Issues s i 0x02 w ∧ siteKind i.site = .m ∧ ldLegal s i.site w (ipOf s i) =
    true :=
  ⟨iss m0, mw 0x02 ldRest, ins 0x02 ldRest, by decide +kernel⟩

theorem wit_TmmaAccumulatesItsProducts_1 : ∃ (i : Issue) (s : State) (w : DWord) (fa : Fmt) (fb : Fmt), Issues s i 0x04 w ∧ siteKind i.site = .m ∧
    tmmaLegal s i.site w (ipOf s i) = true ∧ mmaFormats w = some (fa, fb) :=
  ⟨iss m0, mw 0x04 (1 * 2 ^ 45 + 1 * 2 ^ 36 + 1 * 2 ^ 31 + 7 * 2 ^ 28 + 2 ^ 24 + 2 ^ 20), ins 0x04 (1 * 2 ^ 45 + 1 * 2 ^ 36 + 1 * 2 ^ 31 + 7 * 2 ^ 28 +
    2 ^ 24 + 2 ^ 20), bf16, bf16,
    by decide +kernel⟩

theorem wit_TcvtConvertsItsRows_1 : ∃ (i : Issue) (s : State) (w : DWord) (f : Fmt), Issues s i 0x05 w ∧ siteKind i.site = .m ∧ tcvtLegal s i.site w
    (ipOf s i) = true ∧ fmtOf (fld w 52 49) = some f :=
  ⟨iss m0, mw 0x05 (2 * 2 ^ 53 + 2 ^ 49 + 1 * 2 ^ 35 + 7 * 2 ^ 23), ins 0x05 (2 * 2 ^ 53 + 2 ^ 49 + 1 * 2 ^ 35 + 7 * 2 ^ 23), bf16, by decide +kernel⟩

theorem wit_TldaAndTrelWriteWhatTheyName_1 : ∃ (i : Issue) (s : State) (w : DWord), Issues s i 0x06 w ∧ siteKind i.site = .m ∧ tldaLegal s i.site w
    (ipOf s i) = true :=
  ⟨iss m0, mw 0x06 (1 * 2 ^ 56 + 2 ^ 49 + 1 * 2 ^ 45 + 1 * 2 ^ 33), ins 0x06 (1 * 2 ^ 56 + 2 ^ 49 + 1 * 2 ^ 45 + 1 * 2 ^ 33), by decide +kernel⟩

theorem wit_TldaAndTrelWriteWhatTheyName_2 : ∃ (i : Issue) (s : State) (w : DWord), Issues s i 0x07 w ∧ siteKind i.site = .m ∧ trelLegal s i.site w
    (ipOf s i) = true :=
  ⟨iss m0, mw 0x07 (2 ^ 51 + 2 ^ 46), ins 0x07 (2 ^ 51 + 2 ^ 46), by decide +kernel⟩

theorem wit_TldwRequestsItsMissingRows_1 : ∃ (i : Issue) (s : State) (w : DWord), Issues s i 0x03 w ∧ siteKind i.site = .m ∧ tldwLegal s i.site w
    (ipOf s i) = true ∧ s.sealedAt i.site = false ∧ (s.tile i.site).m.tldw = none ∧ (s.tile i.site).m.line (tldwRowVa (tldwVa s i.site w) w 0) = none
    :=
  ⟨iss m0, mw 0x03 (2 * 2 ^ 48 + 2 ^ 41 + 64 * 2 ^ 15), ins 0x03 (2 * 2 ^ 48 + 2 ^ 41 + 64 * 2 ^ 15), by decide +kernel⟩

theorem wit_MtilePostsSendsAndWaits_1 : ∃ (i : Issue) (s : State) (w : DWord), Issues s i 0x08 w ∧ siteKind i.site = .m ∧ tdmaLegal s i.site w (ipOf s
    i) = true ∧ s.dmaRoom (homeB i.site) = true :=
  ⟨iss m0, mw 0x08 0, ins 0x08 0, by decide +kernel⟩

theorem wit_MtilePostsSendsAndWaits_2 : ∃ (i : Issue) (s : State) (w : DWord), Issues s i 0x09 w ∧ siteKind i.site = .m ∧ tsendLegal s i.site w (ipOf
    s i) = true ∧ ((s.tile i.site).outEp (fld w 54 52)).state = .opened ∧ ((s.tile i.site).outEp (fld w 54 52)).cut = false :=
  ⟨iss m0, mw 0x09 (19 * 2 ^ 46 + 2 ^ 39) (fun t => { t with outs := [(0, { state := .opened, target := 3 })] }), ins 0x09 (19 * 2 ^ 46 + 2 ^ 39),
    by decide +kernel⟩

theorem wit_MtilePostsSendsAndWaits_3 : ∃ (i : Issue) (s : State) (w : DWord), Issues s i 0x0A w ∧ siteKind i.site = .m ∧ onlyBits w 0 = true ∧
    s.sealedAt i.site = false ∧ (s.tile i.site).m.tldw = none :=
  ⟨iss m0, mw 0x0A 0 (fun t => { t with m := { t.m with cache := [{ set := 0, tag := 1, data := 0 }] } }), ins 0x0A 0, by decide +kernel⟩

theorem wit_MtilePostsSendsAndWaits_4 : ∃ (x : Site) (s : State) (d : TldwRun) (row : Nat) (id : Nat), (s.tile x).m.tldw = some d ∧ d.fault = some
    (row, id) ∧ s.alive = true ∧ d.waiting = false ∧ d.outstanding = 0 :=
  ⟨m0, at_ m0 { (runs 0) with m := { tldw := some run2 } }, run2, 2, 5, by decide +kernel⟩

/-! ## Vector tiles -/

/-- Numbers in v0 to v2, a mask in m1, scalars. -/
def vreg : VState :=
  { v := [(0, 0x3F800000), (1, 0xC0200000), (5, 7), (64, 0x40000000), (65, 0x40490FDB), (128, 0x3E000000)]
    m := [(1, 0x2B)], s := [(2, 0x40000000), (3, 16)], queues := [(0, [0x1122334455667788, 9, 10])] }

/-- A word at the start of a V-tile's program beside its B-tile. -/
def vw (op rest : Nat) (f : Tile → Tile := id) : State := at_ v0 (f { runs (ins op rest) with v := vreg }) (at_ b0 bt)

theorem wit_VectorArithmeticWritesItsElements_1 : ∃ (i : Issue) (s : State) (w : DWord), Issues s i 0x01 w ∧ siteKind i.site = .v ∧ vopLegal w = true
    :=
  ⟨iss v0, vw 0x01 (3 * 2 ^ 45 + 2 ^ 35 + 2 ^ 25 + 2 ^ 26), ins 0x01 (3 * 2 ^ 45 + 2 ^ 35 + 2 ^ 25 + 2 ^ 26), by decide +kernel⟩

theorem wit_VectorArithmeticWritesItsElements_2 : ∃ (i : Issue) (s : State) (w : DWord), Issues s i 0x02 w ∧ siteKind i.site = .v ∧ (vecLegal w true
    false false false && vFn w = 0 && vTy w < 2) = true :=
  ⟨iss v0, vw 0x02 (3 * 2 ^ 45 + 2 ^ 35 + 2 * 2 ^ 29), ins 0x02 (3 * 2 ^ 45 + 2 ^ 35 + 2 * 2 ^ 29), by decide +kernel⟩

theorem wit_VectorArithmeticWritesItsElements_3 : ∃ (i : Issue) (s : State) (w : DWord), Issues s i 0x04 w ∧ siteKind i.site = .v ∧ (vecLegal w false
    false false false && vFn w < 9 && vTy w < 2) = true :=
  ⟨iss v0, vw 0x04 (1 * 2 ^ 52 + 3 * 2 ^ 45 + 2 ^ 40), ins 0x04 (1 * 2 ^ 52 + 3 * 2 ^ 45 + 2 ^ 40), by decide +kernel⟩

theorem wit_ComparesMovesAndConversions_1 : ∃ (i : Issue) (s : State) (w : DWord), Issues s i 0x03 w ∧ siteKind i.site = .v ∧ (vecLegal w false false
    false false && vFn w < 7) = true :=
  ⟨iss v0, vw 0x03 (2 * 2 ^ 52 + 2 * 2 ^ 45 + 2 ^ 35), ins 0x03 (2 * 2 ^ 52 + 2 * 2 ^ 45 + 2 ^ 35), by decide +kernel⟩

theorem wit_ComparesMovesAndConversions_2 : ∃ (i : Issue) (s : State) (w : DWord), Issues s i 0x06 w ∧ siteKind i.site = .v ∧ (vecLegal w false false
    false false && vFn w < 4 && vTy w = 0) = true :=
  ⟨iss v0, vw 0x06 (3 * 2 ^ 45 + 3 * 2 ^ 16), ins 0x06 (3 * 2 ^ 45 + 3 * 2 ^ 16), by decide +kernel⟩

theorem wit_ComparesMovesAndConversions_3 : ∃ (i : Issue) (s : State) (w : DWord), Issues s i 0x07 w ∧ siteKind i.site = .v ∧ vcvtLegal s i.site w
    (ipOf s i) = true ∧ vRnd w = false :=
  ⟨iss v0, vw 0x07 (3 * 2 ^ 45), ins 0x07 (3 * 2 ^ 45), by decide +kernel⟩

theorem wit_ComparesMovesAndConversions_4 : ∃ (i : Issue) (s : State) (w : DWord), Issues s i 0x07 w ∧ siteKind i.site = .v ∧ vcvtLegal s i.site w
    (ipOf s i) = true ∧ vRnd w = true :=
  ⟨iss v0, vw 0x07 (2 * 2 ^ 52 + 3 * 2 ^ 45 + 2 ^ 23), ins 0x07 (2 * 2 ^ 52 + 3 * 2 ^ 45 + 2 ^ 23), by decide +kernel⟩

theorem wit_ReductionsAndScalarMoves_1 : ∃ (i : Issue) (s : State) (w : DWord), Issues s i 0x05 w ∧ siteKind i.site = .v ∧ (vecLegal w false false
    true false && vFn w < 3 && (vRs w || !vMz w)) = true :=
  ⟨iss v0, vw 0x05 (5 * 2 ^ 45 + 2 ^ 22), ins 0x05 (5 * 2 ^ 45 + 2 ^ 22), by decide +kernel⟩

theorem wit_ReductionsAndScalarMoves_2 : ∃ (i : Issue) (s : State) (w : DWord), Issues s i 0x0C w ∧ siteKind i.site = .v ∧ (vecLegal w false false
    false false && vFn w < 3 && vTy w = 0) = true :=
  ⟨iss v0, vw 0x0C (5 * 2 ^ 45 + 2 ^ 16), ins 0x0C (5 * 2 ^ 45 + 2 ^ 16), by decide +kernel⟩

theorem wit_ReductionsAndScalarMoves_3 : ∃ (i : Issue) (s : State) (w : DWord), Issues s i 0x0D w ∧ siteKind i.site = .v ∧ (vecLegal w false false
    false false && vFn w < 10 && vTy w = 0) = true :=
  ⟨iss v0, vw 0x0D (2 * 2 ^ 45 + 2 ^ 40 + 2 ^ 35), ins 0x0D (2 * 2 ^ 45 + 2 ^ 40 + 2 ^ 35), by decide +kernel⟩

theorem wit_NarrowLoadsAndStores_1 : ∃ (i : Issue) (s : State) (w : DWord), Issues s i 0x08 w ∧ siteKind i.site = .v ∧ fld w 11 0 = 0 ∧ s.vlBad i.site
    w = none ∧ (s.tile (homeB i.site)).b.bad = [] :=
  ⟨iss v0, vw 0x08 (3 * 2 ^ 53 + 2 ^ 48 + 8 * 2 ^ 26 + 2 ^ 12), ins 0x08 (3 * 2 ^ 53 + 2 ^ 48 + 8 * 2 ^ 26 + 2 ^ 12), by decide +kernel⟩

theorem wit_NarrowLoadsAndStores_2 : ∃ (i : Issue) (s : State) (w : DWord), Issues s i 0x09 w ∧ siteKind i.site = .v ∧ fld w 11 0 = 0 ∧ s.vlBad i.site
    w = none :=
  ⟨iss v0, vw 0x09 (2 ^ 48 + 3 * 2 ^ 26 + 2 ^ 12), ins 0x09 (2 ^ 48 + 3 * 2 ^ 26 + 2 ^ 12), by decide +kernel⟩

theorem wit_QueuesSendsAndPosts_1 : ∃ (i : Issue) (s : State) (w : DWord), Issues s i 0x0A w ∧ siteKind i.site = .v ∧ vprdLegal s i.site w (ipOf s i)
    = true ∧ fld w 49 45 + 1 ≤ (Map.get [] (s.tile i.site).v.queues (fld w 52 50)).length :=
  ⟨iss v0, vw 0x0A (4 * 2 ^ 53 + 2 ^ 45), ins 0x0A (4 * 2 ^ 53 + 2 ^ 45), by decide +kernel⟩

theorem wit_QueuesSendsAndPosts_2 : ∃ (i : Issue) (s : State) (w : DWord), Issues s i 0x0B w ∧ siteKind i.site = .v ∧ fld w 47 0 = 0 ∧ ((s.tile
    i.site).outEp (fld w 52 50)).state = .opened ∧ ((s.tile i.site).outEp (fld w 52 50)).cut = false :=
  ⟨iss v0, vw 0x0B (1 * 2 ^ 53 + 2 ^ 48) (fun t => { t with outs := [(0, { state := .opened, target := 3 })] }), ins 0x0B (1 * 2 ^ 53 + 2 ^ 48),
    by decide +kernel⟩

theorem wit_QueuesSendsAndPosts_3 : ∃ (i : Issue) (s : State) (w : DWord), Issues s i 0x0E w ∧ siteKind i.site = .v ∧ fld w 52 0 = 0 ∧ s.homeOk i.site
    = true ∧ s.dmaRoom (homeB i.site) = true :=
  ⟨iss v0, vw 0x0E (1 * 2 ^ 53), ins 0x0E (1 * 2 ^ 53), by decide +kernel⟩

/-! ## DMA engines -/

/-- A B-tile with descriptors. -/
def withDma (ds : List Dma) (s : State := base) : State := at_ b0 { (bt) with b := { bt.b with dmas := ds } } s

/-- A started descriptor whose first unit was sent. -/
def sent1 (kind remote : Nat) : Dma := { dma kind remote with sent := 1 }

/-- A B-tile DPA on FD0. -/
def gridDpa : Nat := 2 ^ 40 + 5 * 2 ^ 20 + 4096

/-- A finished descriptor that writes its word at 4096. -/
def fin0 : Dma := { dma 4 0 with desc := dsc 4 2 64 0 4096, phase := .finished, sent := 2, answered := [1, 0] }

/-- A packet that has arrived. -/
def arr (y : Site) (kind tag : Nat) (b : Body) : Packet := { place := .arrived y, head := hd m0 y kind tag, body := b }

/-- A refusal of a memory request of row 0. -/
def nak0 : Nak := { code := NAK_REGION, ofKind := 1, tagKind := 0, die := 26, mem := true }

/-- An open import of tenant 0. -/
def imp0 : Window := { isOpen := true, permR := true, permW := true, size := 65536, port := 16 * 256 }

/-- The context with that import as handle 1. -/
def withImport (s : State := base) : State := s.onCtx 0 fun c => { c with imports := [(1, imp0)] }

theorem wit_LocalTransfersWriteTheirSegment_1 : ∃ (x : Site) (s : State) (d : Dma) (r : Nat) (off : Nat) (n : Nat), (s.tile x).b.dmaNow 1 = some d ∧
    s.dmaRuns x = true ∧ (s.dmaStart x d).1 = true ∧ d.segs[d.sent]? = some (r, off, n) ∧ (s.tile x).b.bad = [] :=
  ⟨b0, withDma [dma 1 8192], dma 1 8192, 0, 64, 64, by decide +kernel⟩

theorem wit_LocalTransfersWriteTheirSegment_2 : ∃ (x : Site) (s : State) (d : Dma) (r : Nat) (off : Nat) (n : Nat), (s.tile x).b.dmaNow 2 = some d ∧
    s.dmaRuns x = true ∧ (s.dmaStart x d).1 = true ∧ d.segs[d.sent]? = some (r, off, n) ∧ n % 8 = 0 :=
  ⟨b0, withDma [dma 2 0x1122334455667788], dma 2 0x1122334455667788, 0, 64, 64, by decide +kernel⟩

theorem wit_GridWriteSendsItsWord_1 : ∃ (x : Site) (s : State) (d : Dma), (s.tile x).b.dmaSend 3 = some d ∧ s.dmaRuns x = true ∧ (s.dmaStart x d).1 =
    true ∧ d.sent < d.units ∧ GridTarget (d.unitRem d.sent) ∧ (s.tile x).b.bad = [] ∧ s.isScheduled x = false :=
  ⟨b0, withDma [dma 3 gridDpa], dma 3 gridDpa, by unfold GridTarget; decide +kernel⟩

theorem wit_GridWriteSendsItsWord_2 : ∃ (x : Site) (s : State) (d : Dma), (s.tile x).b.dmaSend 3 = some d ∧ s.dmaRuns x = true ∧ (s.dmaStart x d).1 =
    true ∧ d.sent < d.units ∧ GridTarget (d.unitRem d.sent) ∧ (s.tile x).b.bad = [] ∧ s.isScheduled x = true ∧ s.localSlot x = true ∧ s.isFused
    (gridDest (d.unitRem d.sent)) = false :=
  ⟨b0, (withDma [dma 3 gridDpa]).onTile b0 (fun t => { t with active := { t.active with routerWord := 1, slots := [(0, 0xC0)] } }), dma 3 gridDpa,
    by unfold GridTarget; decide +kernel⟩

theorem wit_GridWriteSendsItsWord_3 : ∃ (x : Site) (s : State) (d : Dma), (s.tile x).b.dmaSend 3 = some d ∧ s.dmaRuns x = true ∧ (s.dmaStart x d).1 =
    true ∧ d.sent < d.units ∧ GridTarget (d.unitRem d.sent) ∧ (s.tile x).b.bad = [] ∧ s.isScheduled x = true ∧ s.localSlot x = true ∧ s.isFused
    (gridDest (d.unitRem d.sent)) = true ∧ OwnSeq s x d ∧ d.failing = none :=
  ⟨b0, { (withDma [dma 3 gridDpa]).onTile b0 (fun t => { t with active := { t.active with routerWord := 1, slots := [(0, 0xC0)] } }) with
      pkg := { base.pkg with fused := [btSite 0 5] } },
    dma 3 gridDpa, by unfold GridTarget OwnSeq; decide +kernel⟩

theorem wit_MemoryTransfersSendTheirRequests_1 : ∃ (x : Site) (s : State) (d : Dma), (s.tile x).b.dmaSend 4 = some d ∧ s.dmaRuns x = true ∧
    (s.dmaStart x d).1 = true ∧ d.sent < d.units ∧ (s.tile x).b.outstanding 4 < 32 :=
  ⟨b0, withDma [dma 4 4096], dma 4 4096, by decide +kernel⟩

theorem wit_MemoryTransfersSendTheirRequests_2 : ∃ (x : Site) (s : State) (d : Dma), (s.tile x).b.dmaSend 5 = some d ∧ s.dmaRuns x = true ∧
    (s.dmaStart x d).1 = true ∧ d.sent < d.units ∧ (s.tile x).b.outstanding 5 < 32 ∧ (s.tile x).b.bad = [] :=
  ⟨b0, withDma [dma 5 4096], dma 5 4096, by decide +kernel⟩

theorem wit_MemoryTransfersSendTheirRequests_3 : ∃ (x : Site) (s : State) (d : Dma), (s.ctx ((s.ownerOf x).getD 0)).replay = none ∧ (s.tile
    x).b.dmaSend 6 = some d ∧ s.dmaRuns x = true ∧ (s.dmaStart x d).1 = true ∧ d.sent < d.units ∧ (s.tile x).b.outstanding 6 < 32 ∧ ImportOpen s x d
    :=
  ⟨b0, withDma [dma 6 (2 ^ 48 + 4096)] withImport, dma 6 (2 ^ 48 + 4096), by unfold ImportOpen; decide +kernel⟩

theorem wit_MemoryTransfersSendTheirRequests_4 : ∃ (x : Site) (s : State) (d : Dma), (s.tile x).b.dmaSend 7 = some d ∧ s.dmaRuns x = true ∧
    (s.dmaStart x d).1 = true ∧ d.sent < d.units ∧ (s.tile x).b.outstanding 7 < 32 ∧ ImportOpen s x d ∧ (s.tile x).b.bad = [] :=
  ⟨b0, withDma [dma 7 (2 ^ 48 + 4096)] withImport, dma 7 (2 ^ 48 + 4096), by unfold ImportOpen; decide +kernel⟩

theorem wit_CompletionWritesItsWord_1 : ∃ (x : Site) (s : State) (d : Dma) (rest : List Dma), s.dmaRuns x = true ∧ (s.tile x).b.dmas = d :: rest ∧
    d.phase = .finished ∧ (∀ e ∈ rest, e.phase ≠ .finished) ∧ d.flag 1 = true ∧ d.noWord = false :=
  ⟨b0, withDma [fin0, { dma 5 0 with seq := 4 }], fin0, [{ dma 5 0 with seq := 4 }], by decide +kernel⟩

theorem wit_AnswersReachTheirDescriptors_1 : ∃ (k : Nat) (s : State) (x : Site) (p : Packet) (row : Nat) (data : Flit) (d : Dma), s.arrivedAt k = some
    (x, p) ∧ siteKind x = .b ∧ p.body = .readRsp row data OK ∧ s.dmaAt x p.head.tag = some d ∧ row = d.moved ∧ d.held = [] ∧ row ∉ d.answered ∧
    d.cutOff row = false :=
  ⟨0, fly (arr b0 3 3 (.readRsp 0 0xABCD OK)) (withDma [sent1 4 4096]), b0, arr b0 3 3 (.readRsp 0 0xABCD OK), 0, 0xABCD, sent1 4 4096,
    by decide +kernel⟩

theorem wit_AnswersReachTheirDescriptors_2 : ∃ (k : Nat) (s : State) (x : Site) (p : Packet) (row : Nat) (data : Flit) (d : Dma), s.arrivedAt k = some
    (x, p) ∧ siteKind x = .b ∧ p.body = .readRsp row data OK ∧ s.dmaAt x p.head.tag = some d ∧ row ≠ d.moved ∧ (∀ h ∈ d.held, h.1 ≠ d.moved) ∧ row ∉
    d.answered :=
  ⟨0, fly (arr b0 3 3 (.readRsp 1 0xABCD OK)) (withDma [{ dma 4 4096 with sent := 2 }]), b0, arr b0 3 3 (.readRsp 1 0xABCD OK), 1, 0xABCD,
    { dma 4 4096 with sent := 2 }, by decide +kernel⟩

theorem wit_AnswersReachTheirDescriptors_3 : ∃ (k : Nat) (s : State) (x : Site) (p : Packet) (row : Nat) (d : Dma), s.arrivedAt k = some (x, p) ∧
    p.body = .writeAck row OK ∧ d ∈ (s.tile x).b.dmas ∧ d.seq = p.head.tag ∧ d.phase = .started :=
  ⟨0, fly (arr b0 3 3 (.writeAck 0 OK)) (withDma [sent1 5 4096]), b0, arr b0 3 3 (.writeAck 0 OK), 0, sent1 5 4096, by decide +kernel⟩

theorem wit_AnswersReachTheirDescriptors_4 : ∃ (k : Nat) (s : State) (x : Site) (p : Packet) (q : BitVec 16) (u : Nat), s.arrivedAt k = some (x, p) ∧
    p.body = .gridAck ∧ s.gridMatch x p.head.src (p.head.tag.toNat % 16384) = some (q, u) :=
  ⟨0, fly { arr b0 3 (3 * 16384 + 64) .gridAck with head := { hd m0 b0 3 (3 * 16384 + 64) with src := siteSrc (btSite 0 5) } } (withDma [sent1 3
    gridDpa]), b0, { arr b0 3 (3 * 16384 + 64) .gridAck with head := { hd m0 b0 3 (3 * 16384 + 64) with src := siteSrc (btSite 0 5) } }, 3, 0,
    by decide +kernel⟩

theorem wit_GridWritesLandAndRefusalsEnd_1 : ∃ (k : Nat) (s : State) (x : Site) (p : Packet) (data : Flit), s.arrivedAt k = some (x, p) ∧ p.body =
    .gridWrite data ∧ (s.tile x).b.ports.inb.length < 16 :=
  ⟨0, fly (arr b0 2 (3 * 16384 + 5) (.gridWrite 0x77)) (withDma []), b0, arr b0 2 (3 * 16384 + 5) (.gridWrite 0x77), 0x77, by decide +kernel⟩

theorem wit_GridWritesLandAndRefusalsEnd_2 : ∃ (k : Nat) (s : State) (x : Site) (p : Packet) (n : Nak) (d : Dma), s.arrivedAt k = some (x, p) ∧
    siteKind x = .b ∧ p.body = .nak n ∧ n.ofKind ≠ 3 ∧ n.mem = true ∧ s.dmaAt x p.head.tag = some d ∧ OwnSeq s x d ∧ d.failing = none :=
  ⟨0, fly (arr b0 4 3 (.nak nak0)) (withDma [sent1 4 4096]), b0, arr b0 4 3 (.nak nak0), nak0, sent1 4 4096, by unfold OwnSeq; decide +kernel⟩

/-! ## Routers, channels and beacons -/

/-- A packet at the local input of a router, from one tile for another. -/
def pk (x y : Site) (kind : Nat) (b : Body) : Packet := { place := .router x 4, head := hd x y kind 5, body := b }

/-- The same state with only the columns 0 to 4 of FD0 in the tenant's region. -/
def narrow : State := base.onCtx 0 fun c => { c with regions := [(0, 0x11)] }

/-- The M-tile of column 6. -/
def m6 : Site := ⟨0, 6, 0⟩

/-- A V-tile that is a channel's target, with the request and an arrived packet of it. -/
def chanBase : State := at_ v0 { (runs 0) with active := { configured := true, cfg := 4 } } (at_ b0 (bt) base)

/-- A request to open the V-tile's endpoint 1. -/
def opn : OpenReq := { rank := 1, sect := 0, ring := false, ep := 1, src := siteSrc m0, tag := 0x4000, tenant := 0, spine := false }

/-- The V-tile's or B-tile's endpoint 1 is open for `m0`. -/
def openFor (x : Site) (e : InEp) : State := chanBase.onTile x fun t => { t with ins := [(1, { e with openFrom := some (siteSrc m0) })] }

/-- A ring of 256 bytes at 4096. -/
def ring0 : RingLatch := { sig := false, beacon := 0, base := 4096, size := 256, wr := 64, rd := 64 }

/-- A tally of two contributors of 64 bytes each. -/
def tally0 (got : Nat) : TallyLatch :=
  { sig := false, beacon := 0, base := 4096, vbytes := 64, nc := 2, ty := 0, result := 8192, emitted := 0, taken := 0, held := []
    slots := [({ opn with tag := 5 }, got), ({ opn with rank := 2, src := 1 }, got)], start := 0, closed := 0 }

/-- A scheduled flit at the local input of `m0`. -/
def sf (m : Site) : SchedFlit := { site := m, port := 4, at_ := 0, head := hd m0 m6 0 0, body := .chan [7] }

/-- A beacon operation of tenant 0. -/
def bop (w : Option Waiter) : BeaconOp := { tenant := 0, gen := 1, beacon := 5, count := 2, src := siteSrc m0, wait := w }

/-- The base state with one beacon operation on its way. -/
def withOp (o : BeaconOp) (b : Beacon) : State := { base with net := { ops := [o] }, ctxs := [(0, { ctx0 with beacons := [(5, b)] })] }

/-- A doorbell value: operation, beacon 5, COUNT. -/
def dbv (op count : Nat) : DWord := BitVec.ofNat 64 (op * 2 ^ 28 + 5 * 2 ^ 16 + count)

/-- The base state with beacon 5. -/
def withBeacon (b : Beacon) : State := { base with ctxs := [(0, { ctx0 with beacons := [(5, b)] })] }

/-- A notification. -/
def note0 : Note := { beacon := 5, value := 6, gts := 77 }

theorem wit_PacketsHopAreDeliveredOrRefused_1 : ∃ (k : Nat) (s : State) (p : Packet) (x : Site) (y : Site) (port : Fin 5), AtRouter s k p x port ∧
    s.route x p.head ≠ 4 ∧ neighbour x (s.route x p.head).val = some y ∧ s.entryRefusal y p.head (y.die ≠ x.die) = none :=
  ⟨0, fly (pk m0 m6 0 (.chan [7])), pk m0 m6 0 (.chan [7]), m0, ⟨0, 2, 0⟩, 4, by unfold AtRouter; decide +kernel⟩

theorem wit_PacketsHopAreDeliveredOrRefused_2 : ∃ (k : Nat) (s : State) (p : Packet) (x : Site) (port : Fin 5), AtRouter s k p x port ∧ s.route x
    p.head = 4 ∧ p.head.isFor x = true ∧ s.isFused x = false ∧ noEndpoint x p = false :=
  ⟨0, fly (pk v0 v0 0 (.chan [7])), pk v0 v0 0 (.chan [7]), v0, 4, by unfold AtRouter; decide +kernel⟩

theorem wit_PacketsHopAreDeliveredOrRefused_3 : ∃ (k : Nat) (s : State) (p : Packet) (x : Site) (y : Site) (port : Fin 5), AtRouter s k p x port ∧
    s.route x p.head ≠ 4 ∧ neighbour x (s.route x p.head).val = some y ∧ s.entryRefusal y p.head (y.die ≠ x.die) = some NAK_REGION ∧ p.head.kind ≠ 4
    :=
  ⟨0, fly (pk v0 m6 0 (.chan [7])) narrow, pk v0 m6 0 (.chan [7]), v0, ⟨0, 5, 0⟩, 4, by unfold AtRouter; decide +kernel⟩

theorem wit_ScheduledFlitsFollowTheSlotTables_1 : ∃ (k : Nat) (s : State) (f : SchedFlit), s.net.sched[k]? = some f ∧ s.alive = true ∧ s.frozenAt
    f.site = false ∧ f.at_ ≤ s.cycleAt f.site ∧ (s.tile f.site).parityStop = false ∧ (s.tile f.site).outputsFor ((s.tile f.site).slot (f.at_ + 1))
    f.port.val ≠ [] ∧ (∀ o ∈ (s.tile f.site).outputsFor ((s.tile f.site).slot (f.at_ + 1)) f.port.val, o ≠ 4 ∧ ∃ y, neighbour f.site o = some y ∧
    s.ownerOf y = some f.head.tenant) :=
  ⟨0, (at_ m0 { (runs 0) with active := { configured := true, routerWord := 1, slots := [(256, 0xC0)] } } { base with net := { sched := [sf m0] } }),
    sf m0,
    by simp only [show ((at_ m0 { (runs 0) with active := { configured := true, routerWord := 1, slots := [(256, 0xC0)] } } { base with net := { sched := [sf m0] } }).tile (sf m0).site).outputsFor (((at_ m0 { (runs 0) with active := { configured := true, routerWord := 1, slots := [(256, 0xC0)] } } { base with net := { sched := [sf m0] } }).tile (sf m0).site).slot ((sf m0).at_ + 1)) (sf m0).port.val = [1] by decide +kernel]; refine ⟨by decide +kernel, by decide +kernel, by decide +kernel, by decide +kernel, by decide +kernel, by decide +kernel, fun o h => ?_⟩; obtain rfl : o = 1 := (by simpa using h); exact ⟨by decide, ⟨0, 2, 0⟩, by decide +kernel⟩⟩

theorem wit_ScheduledFlitsFollowTheSlotTables_2 : ∃ (k : Nat) (s : State) (f : SchedFlit), s.net.sched[k]? = some f ∧ s.alive = true ∧ s.frozenAt
    f.site = false ∧ f.at_ ≤ s.cycleAt f.site ∧ (s.tile f.site).parityStop = false ∧ (s.tile f.site).outputsFor ((s.tile f.site).slot (f.at_ + 1))
    f.port.val = [] :=
  ⟨0, (at_ m0 { (runs 0) with active := { configured := true, routerWord := 1 } } { base with net := { sched := [sf m0] } }), sf m0,
    by decide +kernel⟩

theorem wit_ChannelsOpenAndClose_1 : ∃ (k : Nat) (s : State) (x : Site) (p : Packet) (r : OpenReq), s.arrivedAt k = some (x, p) ∧ p.body = .openReq r
    ∧ OpenOk s x p.head.ep.val r :=
  ⟨0, fly (arr v0 1 0x4000 (.openReq opn)) chanBase, v0, arr v0 1 0x4000 (.openReq opn), opn, by unfold OpenOk; decide +kernel⟩

theorem wit_ChannelsOpenAndClose_2 : ∃ (k : Nat) (s : State) (x : Site) (p : Packet) (st : Status), s.arrivedAt k = some (x, p) ∧ p.body = .openRsp st
    ∧ ((s.tile x).outEp (tagEp p.head.tag)).state = .pending :=
  ⟨0, fly (arr m0 3 0x4000 (.openRsp OK)) (at_ m0 { (runs 0) with outs := [(0, { state := .pending, target := 3, sd := 2 })] }), m0, arr m0 3 0x4000
    (.openRsp OK), OK,
    by decide +kernel⟩

theorem wit_ChannelsOpenAndClose_3 : ∃ (k : Nat) (s : State) (x : Site) (p : Packet), s.arrivedAt k = some (x, p) ∧ p.body = .close ∧ ((s.tile x).inEp
    p.head.ep.val).openFrom = some p.head.src :=
  ⟨0, fly (arr v0 0 0x8000 .close) (openFor v0 {}), v0, arr v0 0 0x8000 .close, by decide +kernel⟩

theorem wit_FlitsReachTheirEndpoints_1 : ∃ (k : Nat) (s : State) (x : Site) (p : Packet) (f : Flit) (fs : List Flit), s.arrivedAt k = some (x, p) ∧
    p.body = .chan (f :: fs) ∧ siteKind x = .v ∧ (p.accepted = true ∨ ((s.tile x).inEp p.head.ep.val).openFrom = some p.head.src) ∧ (Map.get []
    (s.tile x).v.queues p.head.ep.val).length ≤ 8 :=
  ⟨0, fly (arr v0 0 0 (.chan [7, 8])) (openFor v0 {}), v0, arr v0 0 0 (.chan [7, 8]), 7, [8], by decide +kernel⟩

theorem wit_FlitsReachTheirEndpoints_2 : ∃ (k : Nat) (s : State) (x : Site) (p : Packet) (f : Flit) (g : Flit) (fs : List Flit) (l : RingLatch),
    s.arrivedAt k = some (x, p) ∧ p.body = .chan (f :: g :: fs) ∧ siteKind x = .b ∧ ((s.tile x).inEp p.head.ep.val).openFrom = some p.head.src ∧
    ((s.tile x).inEp p.head.ep.val).tally = none ∧ ((s.tile x).inEp p.head.ep.val).ring = some l ∧ 64 ≤ l.free ∧ l.base + l.size ≤ 786176 ∧ 0 < l.size
    ∧ l.size % 64 = 0 ∧ l.wr.toNat % 64 = 0 ∧ (s.tile x).b.ports.inb.length < 16 :=
  ⟨0, fly (arr b0 0 0 (.chan [7, 8])) (openFor b0 { ring := some ring0 }), b0, arr b0 0 0 (.chan [7, 8]), 7, 8, [], ring0, by decide +kernel⟩

theorem wit_FlitsReachTheirEndpoints_3 : ∃ (k : Nat) (s : State) (x : Site) (p : Packet) (f : Flit) (fs : List Flit) (l : TallyLatch) (slot : Nat)
    (done : Nat), s.arrivedAt k = some (x, p) ∧ p.body = .chan (f :: fs) ∧ siteKind x = .b ∧ ((s.tile x).inEp p.head.ep.val).tally = some l ∧ l.slotOf
    p.head.src (tagEp p.head.tag) = some (slot, done) ∧ l.start.toNat + done * 64 / l.vbytes < l.emitted.toNat + 2 ∧ (s.tile x).b.ports.inb.length <
    16 :=
  ⟨0, fly (arr b0 0 5 (.chan [7])) (openFor b0 { tally := some (tally0 0) }), b0, arr b0 0 5 (.chan [7]), 7, [], tally0 0, 0, 0, by decide +kernel⟩

theorem wit_TallyEmitsTheSumOfItsRound_1 : ∃ (x : Site) (ep : Fin 8) (s : State) (l : TallyLatch), ((s.tile x).inEp ep.val).tally = some l ∧ s.btRuns
    x = true ∧ l.ready = true ∧ (s.tile x).b.bad = [] ∧ l.ty ≠ 2 ∧ l.result + 2 * l.vbytes ≤ 786176 ∧ l.vbytes % 4 = 0 :=
  ⟨b0, 1, openFor b0 { tally := some (tally0 1) }, tally0 1, by decide +kernel⟩

theorem wit_BeaconsCountWaitAndGrant_1 : ∃ (k : Nat) (s : State) (o : BeaconOp), OpAt s k o ∧ o.wait = none ∧ (s.beacon o.tenant o.beacon).waiters =
    [] :=
  ⟨0, withOp (bop none) { value := 1 }, bop none, by unfold OpAt; decide +kernel⟩

theorem wit_BeaconsCountWaitAndGrant_2 : ∃ (k : Nat) (s : State) (o : BeaconOp) (x : Site) (n : BitVec 16), OpAt s k o ∧ o.wait = none ∧ (s.beacon
    o.tenant o.beacon).waiters = [(.tile x, n)] ∧ n.toNat ≤ (addSat (s.beacon o.tenant o.beacon).value o.count.toNat).toNat :=
  ⟨0, withOp (bop none) { value := 1, waiters := [(.tile m0, 3)] }, bop none, m0, 3, by unfold OpAt; decide +kernel⟩

theorem wit_BeaconsCountWaitAndGrant_3 : ∃ (k : Nat) (s : State) (o : BeaconOp) (x : Site), OpAt s k o ∧ o.wait = some (.tile x) ∧ (s.beacon o.tenant
    o.beacon).waiters = [] ∧ o.count.toNat ≤ (s.beacon o.tenant o.beacon).value.toNat :=
  ⟨0, withOp (bop (some (.tile m0))) { value := 2 }, bop (some (.tile m0)), m0, by unfold OpAt; decide +kernel⟩

theorem wit_BeaconsCountWaitAndGrant_4 : ∃ (k : Nat) (s : State) (o : BeaconOp) (w : Waiter), OpAt s k o ∧ o.wait = some w ∧ ((s.beacon o.tenant
    o.beacon).waiters ≠ [] ∨ (s.beacon o.tenant o.beacon).value.toNat < o.count.toNat) :=
  ⟨0, withOp (bop (some (.tile m0))) { value := 1 }, bop (some (.tile m0)), .tile m0, by unfold OpAt; decide +kernel⟩

theorem wit_BeaconsCountWaitAndGrant_5 : ∃ (k : Nat) (s : State) (g : Grant), s.net.grants[k]? = some g ∧ s.alive = true ∧ (s.ctx g.tenant).gen =
    g.gen :=
  ⟨0, at_ m0 { (runs 0) with seq := { waiting := true } } { base with net := { grants := [{ tenant := 0, gen := 1, site := m0, beacon := 5, count := 2 }] } },
    { tenant := 0, gen := 1, site := m0, beacon := 5, count := 2 },
    by decide +kernel⟩

theorem wit_BeaconsCountWaitAndGrant_6 : ∃ (k : Nat) (s : State) (g : Grant), s.net.grants[k]? = some g ∧ s.alive = true ∧ (s.ctx g.tenant).gen ≠
    g.gen :=
  ⟨0, { base with net := { grants := [{ tenant := 0, gen := 9, site := m0, beacon := 5, count := 2 }] } },
    { tenant := 0, gen := 9, site := m0, beacon := 5, count := 2 }, by decide +kernel⟩

theorem wit_DoorbellsSignalAndTake_1 : ∃ (t : Tenant) (s : State) (v : DWord), DoorbellOk s t v 0 ∧ (s.beacon t (dbBeacon v)).waiters = [] :=
  ⟨0, withBeacon { value := 1 }, dbv 0 2, by unfold DoorbellOk; decide +kernel⟩

theorem wit_DoorbellsSignalAndTake_2 : ∃ (t : Tenant) (s : State) (v : DWord), DoorbellOk s t v 1 ∧ (s.beacon t (dbBeacon v)).waiters = [] ∧ bitsOf v
    0 16 ≤ (s.beacon t (dbBeacon v)).value.toNat :=
  ⟨0, withBeacon { value := 2 }, dbv 1 2, by unfold DoorbellOk; decide +kernel⟩

theorem wit_DoorbellsSignalAndTake_3 : ∃ (t : Tenant) (s : State) (v : DWord), DoorbellOk s t v 1 ∧ (s.beacon t (dbBeacon v)).value.toNat < bitsOf v 0
    16 :=
  ⟨0, withBeacon { value := 1 }, dbv 1 2, by unfold DoorbellOk; decide +kernel⟩

theorem wit_DoorbellsSignalAndTake_4 : ∃ (t : Tenant) (s : State) (n : Note) (ns : List Note), (s.ctx t).notes = n :: ns ∧ s.alive = true ∧ 0 <
    s.freeEntries (.ctx t) ∧ s.host.safePending = false :=
  ⟨0, base.onCtx 0 (fun c => { c with notes := [note0] }), note0, [], by decide +kernel⟩

/-! ## Sections, fronts, the seal, steps -/

/-- A record of `m0`. -/
def recAt (kind : Byte) (off : Nat) (bs : List Byte) : Rec := { kind := kind, die := 0, col := 1, row := 0, off := off, payload := bs }

/-- A section whose router at `m0` lets the front in and out. -/
def secE (n : Nat) (sealed_ : Bool) (cfg : Nat := 0) : Section :=
  { sec0 with index := n, isSealed := sealed_, recs := [recAt 1 0 (leBytes 8 0x101000), recAt 2 0 (leBytes 64 cfg)] }

/-- The base state with an instance in place, whose tenant owns the columns 0 to 4 of FD0. -/
def withInst (i : Instance) (ts : List (Site × Tile) := []) (s : State := base) : State :=
  ts.foldl (fun a e => a.setTile e.1 e.2) { s with ctxs := [(0, { ctx0 with regions := [(0, 0x11)] })], insts := [(1, i)] }

/-- An instance with two sections. -/
def two (r : Run) (s0 : Bool := false) (s1 : Bool := false) : Instance := { inst0 with sections := [secE 0 s0, secE 1 s1], run := r }

/-- A token of the front into a section. -/
def tok (n : Nat) : Token := { tenant := 0, layout := 1, sectionNext := n, stepLo := 0, sealBreak := false, holdMax := 0, holder := 0 }

/-- The token at `m0`, at its local port, or gone out there. -/
def tokAt (n : Nat) (exit : Bool) : TokenAt := { site := m0, port := 4, exit := exit, token := tok n }

/-- `m0` with its router word of section 0. -/
def routed : Tile := { runs 0 with active := { configured := true, routerWord := 0x101000 } }

/-- `m0` at the end of section 0, with section 1 in its shadow. -/
def ready1 : Tile :=
  { (routed) with active := { routed.active with routerWord := 0x121000 }, seq := { secend := true }, shadowComplete := true, shadowSection := 1
                  shadow := { configured := true, sect := 1, imem := [(0, 7)] }, tokens := [(4, tok 1)] }

/-- A cause of a step abort. -/
def cause0 : Cause := { status := E_OVERRUN, gts := 5, src := stewardSrc }

theorem wit_ShadowLoadsTakeTheirRecordsInOrder_1 : ∃ (x : Site) (s : State) (i : Instance) (c : Section) (r : Rec) (rest : List Rec), s.loadSection x
    = some (i, c) ∧ (s.tile x).due = r :: rest ∧ LoadRuns s x :=
  ⟨m0, withInst (two {}) [(m0, { due := [recAt 1 0 (leBytes 8 5), recAt 3 8 (leBytes 8 6)] })], two {}, secE 0 false, recAt 1 0 (leBytes 8 5), [recAt 3
    8 (leBytes 8 6)],
    by unfold LoadRuns; decide +kernel⟩

theorem wit_ShadowLoadsEndByTheirCrc_1 : ∃ (x : Site) (s : State) (i : Instance) (c : Section), s.loadSection x = some (i, c) ∧ LoadRuns s x ∧ (s.tile
    x).loading = true ∧ (s.tile x).due = [] ∧ (s.tile x).preload = [] :=
  ⟨m0, withInst (two {}) [(m0, { loading := true })], two {}, secE 0 false, by unfold LoadRuns; decide +kernel⟩

theorem wit_ShadowLoadsEndByTheirCrc_2 : ∃ (x : Site) (s : State) (i : Instance) (c : Section), s.loadSection x = some (i, c) ∧ LoadRuns s x ∧ (s.tile
    x).loading = true ∧ (s.tile x).due = [] ∧ (s.tile x).preload = [] ∧ (s.tile x).loadTries = 0 :=
  ⟨m0, withInst (two {}) [(m0, { loading := true })], two {}, secE 0 false, by unfold LoadRuns; decide +kernel⟩

theorem wit_ShadowLoadsEndByTheirCrc_3 : ∃ (x : Site) (s : State) (i : Instance) (c : Section), s.loadSection x = some (i, c) ∧ LoadRuns s x ∧ (s.tile
    x).loading = true ∧ (s.tile x).due = [] ∧ (s.tile x).preload = [] ∧ (s.tile x).loadTries ≠ 0 :=
  ⟨m0, withInst (two {}) [(m0, { loading := true, loadTries := 1 })], two {}, secE 0 false, by unfold LoadRuns; decide +kernel⟩

theorem wit_BanksTakeImagesCorrectionsAndClears_1 : ∃ (x : Site) (s : State) (off : Nat) (b : Byte) (bs : List (Nat × Byte)), (s.tile x).descDue =
    (off, b) :: bs ∧ LoadRuns s x ∧ BankFree s x off :=
  ⟨b0, at_ b0 { (bt) with descDue := [(8, 1), (9, 2)], preload := [(16, 5)] }, 8, 1, [(9, 2)], by unfold BankFree LoadRuns; decide +kernel⟩

theorem wit_BanksTakeImagesCorrectionsAndClears_2 : ∃ (x : Site) (s : State) (off : Nat) (b : Byte) (bs : List (Nat × Byte)), (s.tile x).descDue = []
    ∧ (s.tile x).preload = (off, b) :: bs ∧ LoadRuns s x ∧ BankFree s x off :=
  ⟨b0, at_ b0 { (bt) with preload := [(8, 1), (9, 2)] }, 8, 1, [(9, 2)], by unfold BankFree LoadRuns; decide +kernel⟩

theorem wit_BanksTakeImagesCorrectionsAndClears_3 : ∃ (x : Site) (s : State) (w : Nat), (s.tile x).b.writeBacks.find? (fun w => s.bankIdle x (bankOf
    w)) = some w ∧ s.alive = true :=
  ⟨b0, at_ b0 { (bt) with b := { bt.b with bad := [(5, .ce)], writeBacks := [5, 6] } }, 5, by decide +kernel⟩

theorem wit_BanksTakeImagesCorrectionsAndClears_4 : ∃ (x : Site) (s : State) (k : Nat), s.alive = true ∧ s.frozenAt x = false ∧ k < 16 ∧ Map.get 0
    (s.tile x).b.clearing k ≠ 0 ∧ Map.get 0 (s.tile x).b.clearing k ≤ s.cycleAt x :=
  ⟨b0, at_ b0 { (bt) with b := { bt.b with clearing := [(2, 3)], clearAgain := 4 } } { base with clk := { base.clk with fclk := 9 } }, 2,
    by decide +kernel⟩

theorem wit_FrontsAreInjectedAtTheEntries_1 : ∃ (s : State) (i : Instance) (n : Nat) (c : Section) (e : Section), FrontFree s i ∧ i.nextSection = n ∧
    n ≠ 0 ∧ i.run.running = true ∧ i.section? n = some c ∧ i.section? i.ending = some e ∧ s.rampAllows i c = true :=
  ⟨withInst (two { running := true, current := some 0 }), two { running := true, current := some 0 }, 1, secE 1 false, secE 0 false,
    by unfold FrontFree; decide +kernel⟩

theorem wit_FrontsAreInjectedAtTheEntries_2 : ∃ (s : State) (i : Instance) (c : Section), FrontFree s i ∧ i.nextSection = 0 ∧ i.run.running = false ∧
    i.section? 0 = some c ∧ s.rampAllows i c = true ∧ s.mayStart i = true :=
  ⟨withInst { two {} with stepCmd := some 3 }, { two {} with stepCmd := some 3 }, secE 0 false, by unfold FrontFree; decide +kernel⟩

theorem wit_FrontTokensWaitOrAreStray_1 : ∃ (k : Nat) (s : State) (e : TokenAt) (i : Instance), TokenHere s k e ∧ s.instAt e.site = some i ∧
    s.evicting i.tenant e.site = false ∧ (frontIn (s.tile e.site).active.routerWord).contains e.port = true ∧ (e.port = 4 → s.inboundOver e.site =
    true ∧ s.entryOpen i e.site e.token.sectionNext = true) :=
  ⟨0, withInst (two { current := some 0 }) [(m0, routed)] { base with net := { tokens := [tokAt 1 false] } }, tokAt 1 false, two { current := some 0 },
    by unfold TokenHere; decide +kernel⟩

theorem wit_FrontTokensWaitOrAreStray_2 : ∃ (k : Nat) (s : State) (e : TokenAt) (i : Instance), TokenHere s k e ∧ s.instAt e.site = some i ∧
    s.evicting i.tenant e.site = false ∧ (frontIn (s.tile e.site).active.routerWord).contains e.port = false :=
  ⟨0, withInst (two {}) [(m0, runs 0)] { base with net := { tokens := [tokAt 1 false] } }, tokAt 1 false, two {}, by unfold TokenHere; decide +kernel⟩

theorem wit_SwapsEnterTheNextSection_1 : ∃ (x : Site) (s : State) (i : Instance) (c : Section) (p : Fin 5) (k : Token) (ks : List (Fin 5 × Token)),
    OneInst s x i ∧ i.section? (s.tile x).shadowSection = some c ∧ c.index = (s.tile x).shadowSection ∧ s.maySwap x i = true ∧ (s.tile x).tokens = (p,
    k) :: ks :=
  ⟨m0, withInst (two { running := true, current := some 0, frontTo := some 1 }) [(m0, ready1)], two
    { running := true, current := some 0, frontTo := some 1 }, secE 1 false, 4, tok 1, [],
    by unfold OneInst; decide +kernel⟩

theorem wit_FrontsLeaveByTheExits_1 : ∃ (k : Nat) (s : State) (e : TokenAt) (i : Instance), ExitHere s k e i ∧ AllExits i e ∧ (i.run.nextStart = none
    ∨ e.token.sectionNext ≠ 0) :=
  ⟨0, withInst (two { running := true, current := some 0, frontTo := some 1 }) [(m0, routed)] { base with net := { tokens := [tokAt 1 true] } }, tokAt
    1 true, two { running := true, current := some 0, frontTo := some 1 },
    ⟨by unfold ExitHere; decide +kernel, fun c h => by obtain rfl : secE 0 false = c := Option.some.inj ((show _ = some (secE 0 false) by decide +kernel).symm.trans h); decide +kernel, by decide +kernel⟩⟩

theorem wit_FrontsLeaveByTheExits_2 : ∃ (k : Nat) (s : State) (e : TokenAt) (i : Instance) (g : DWord), ExitHere s k e i ∧ AllExits i e ∧
    i.run.nextStart = some g ∧ e.token.sectionNext = 0 ∧ i.run.causes = [] ∧ i.run.running = true ∧ (s.ctx i.tenant).replay = none :=
  ⟨0, withInst (two { running := true, current := some 1, frontTo := some 0, nextStart := some 9 }) [(m0, routed)]
    { base with net := { tokens := [tokAt 0 true] } }, tokAt 0 true, two
    { running := true, current := some 1, frontTo := some 0, nextStart := some 9 }, 9,
    ⟨by unfold ExitHere; decide +kernel, fun c h => by obtain rfl : secE 1 false = c := Option.some.inj ((show _ = some (secE 1 false) by decide +kernel).symm.trans h); decide +kernel, by decide +kernel⟩⟩

theorem wit_FrontsLeaveByTheExits_3 : ∃ (k : Nat) (s : State) (e : TokenAt) (i : Instance) (c : Section) (x : Site), ExitHere s k e i ∧ i.section?
    i.ending = some c ∧ x ∈ c.exits ∧ x ≠ e.site ∧ (∀ q ∈ i.run.exitsSeen, q.1 ≠ x) :=
  ⟨0, withInst
    { two { running := true, current := some 0 } with sections := [{ secE 0 false with recs := [recAt 1 0 (leBytes 8 0x101000), { recAt 1 0 (leBytes 8 0x101000) with col := 2 }] }] }
    [(m0, routed)] { base with net := { tokens := [tokAt 1 true] } }, tokAt 1 true,
    { two { running := true, current := some 0 } with sections := [{ secE 0 false with recs := [recAt 1 0 (leBytes 8 0x101000), { recAt 1 0 (leBytes 8 0x101000) with col := 2 }] }] },
    { secE 0 false with recs := [recAt 1 0 (leBytes 8 0x101000), { recAt 1 0 (leBytes 8 0x101000) with col := 2 }] }, ⟨0, 2, 0⟩,
    by unfold ExitHere; decide +kernel⟩

theorem wit_SealedRunsStartStallAndResume_1 : ∃ (s : State) (i : Instance) (n : Nat) (c : Section), s.inst? i.id = some i ∧ s.working = true ∧
    i.run.frontTo = some n ∧ i.section? i.ending = some c ∧ i.startsRun n = true ∧ s.clk.units % 480 = 0 ∧ (∀ x ∈ c.entries, ∃ k ∈ s.net.tokens,
    k.site = x ∧ k.port = 4 ∧ k.exit = false) ∧ (∀ x ∈ s.instSites i, s.isFused x = true ∨ (s.tileDone x = true ∧ s.shadowReady x = true)) :=
  ⟨{ withInst (two { running := true, current := some 0, frontTo := some 1 } false true) [] { base with net := { tokens := [tokAt 1 false] } } with tiles := (((List.range 5).flatMap fun c => (List.range 16).map fun r => (c * 16 + r, ({ shadowComplete := true } : Tile)))) },
    two { running := true, current := some 0, frontTo := some 1 } false true, 1, secE 0 false,
    by decide +kernel⟩

theorem wit_SealedRunsStartStallAndResume_2 : ∃ (x : Site) (s : State) (i : Instance), s.instAt x = some i ∧ s.inst? i.id = some i ∧ s.working = true
    ∧ i.run.current.isSome = true ∧ s.sealedAt x = true ∧ s.frozenAt x = false ∧ s.cycleAt x + 16 = (s.tile x).swapAt + s.sealLenAt x ∧ s.shadowReady
    x = false ∧ s.isFused x = false :=
  ⟨m0,
    { withInst (two { running := true, current := some 0 } true true) [(m0, { (routed) with swapAt := 0, active := { routed.active with cfg := BitVec.ofNat 512 (100 * 2 ^ 64) } })] with clk := { base.clk with fclk := 84 } },
    two { running := true, current := some 0 } true true,
    by decide +kernel⟩

theorem wit_SealedRunsStartStallAndResume_3 : ∃ (s : State) (i : Instance), s.inst? i.id = some i ∧ s.working = true ∧ (i.run.freezeAt.isSome = true ∨
    i.run.frozenSince.isSome = true) ∧ i.run.releaseAt = none ∧ s.pacerHolds i = false ∧ (∀ x ∈ s.instSites i, (s.tile x).sealAsserted ≠ 0 →
    s.sealSatisfied x = true) :=
  ⟨withInst (two { running := true, current := some 0, freezeAt := some 20 } true true) [(m0, { ready1 with sealAsserted := 1 })], two
    { running := true, current := some 0, freezeAt := some 20 } true true,
    by decide +kernel⟩

theorem wit_BudgetsExpireAndStepsAbort_1 : ∃ (s : State) (i : Instance) (e : Nat), s.inst? i.id = some i ∧ i.run.expiry = some e ∧ s.working = true ∧
    i.run.running = true ∧ (s.ctx i.tenant).preempted = false ∧ (∀ c ∈ i.run.causes, c.status ≠ E_OVERRUN) ∧ e < s.clk.gts.toNat :=
  ⟨withInst (two { running := true, current := some 0, budget := some 1 }) [] { base with clk := { base.clk with gts := 1001 } }, two
    { running := true, current := some 0, budget := some 1 }, 1000,
    by decide +kernel⟩

theorem wit_BudgetsExpireAndStepsAbort_2 : ∃ (s : State) (i : Instance) (c : Cause), s.inst? i.id = some i ∧ firstCause i.run.causes = some c ∧
    s.working = true ∧ i.run.running = true ∧ (s.ctx i.tenant).preempted = false ∧ s.dmaQuiet i = true ∧ i.unloadCmd = none :=
  ⟨withInst (two { running := true, current := some 0, causes := [cause0] }), two { running := true, current := some 0, causes := [cause0] }, cause0,
    by decide +kernel⟩

theorem wit_BudgetsExpireAndStepsAbort_3 : ∃ (s : State) (i : Instance) (c : Cause), s.inst? i.id = some i ∧ firstCause i.run.causes = some c ∧
    s.working = true ∧ i.run.running = true ∧ (s.ctx i.tenant).preempted = false ∧ i.run.aborting = false ∧ s.dmaQuiet i = false :=
  ⟨withInst (two { running := true, current := some 0, causes := [cause0] }) [(b0,
    { (bt) with b := { bt.b with dmas := [dma 4 0, { dma 5 0 with seq := 4, phase := .queued }] } })], two
    { running := true, current := some 0, causes := [cause0] }, cause0,
    by decide +kernel⟩

/-! ## Pacer, power steps, composition -/

/-- The base state with a die's power. -/
def withDie (d : Nat) (p : DiePower) (s : State := base) : State := { s with power := { s.power with dies := Map.set {} s.power.dies d p } }

/-- A die that drains and is empty. -/
def closingDie : DiePower := { state := .closing, steps := 0, stages := 0, drained := true }

/-- A yield that began at 0 with a limit of 1 µs. -/
def pre0 : Preempting := { cmd := 4, evict := false, since := 0, limit := 1 }

/-- A binding of one descriptor buffer on the B-tile at FD0. -/
def bind0 : Binding := { model := 2, batchMax := 4, reportBeacon := 5, eventBeacon := 6, descDpas := [2 ^ 40 + 4096], reportDpa := 2 ^ 40 + 8192, eventVa := 0, eventEntries := 64 }

/-- A bound instance with a cut-off. -/
def bound0 : Instance := { inst0 with binding := some bind0, cutoff := some (100, 0) }

/-- A media record of stream 3. -/
def mi0 : MediaInput := { handle := 3, status := OK, output := true, va := 65536, size := 10, tag := 7, slot := 0, src := 9, stamp := 50 }

/-- The base state with that record and stream 3. -/
def withStream (x : Stream) (s : State := base) : State := { s with media := { s.media with inputs := [mi0] }, streams := [(3, x)] }

/-- A state some thousand cycles later. -/
def later (s : State) : State := { s with clk := { s.clk with fclk := 8192 } }

theorem wit_PacerTicksKeepTheirBounds_1 : ∃ (d : FieldDie) (r : Fin 3) (s : State) (t : Tenant) (b : Byte), s.alive = true ∧ s.tickDue d.val r = true
    ∧ s.regionOf d.val r = some (t, b) :=
  ⟨0, 0, later base, 0, 0x08, by decide +kernel⟩

theorem wit_PacerTicksKeepTheirBounds_2 : ∃ (d : FieldDie) (s : State), s.alive = true ∧ s.tickDue d.val 2 = true :=
  ⟨1, later base, by decide +kernel⟩

theorem wit_PacerTicksKeepTheirBounds_3 : ∃ (d : FieldDie) (r : Fin 3) (s : State), s.alive = true ∧ s.tickDue d.val r = true ∧ r ≠ 2 ∧ s.regionOf
    d.val r = none ∧ s.paceWant d.val r = 0 :=
  ⟨1, 0, later base, by decide +kernel⟩

theorem wit_PacerTicksKeepTheirBounds_4 : ∃ (d : FieldDie) (r : Fin 3) (s : State), s.tickDue d.val r = false :=
  ⟨0, 0, base, by decide +kernel⟩

theorem wit_PowerStepsMoveOneDie_1 : ∃ (d : Die) (s : State), StepMay s d.val ∧ s.power.descent = false ∧ (s.die d.val).state = .on ∧ d.val < 16 ∧
    s.stepsOn d.val = false ∧ 0 < (s.die d.val).steps :=
  ⟨1, base, by unfold StepMay; decide +kernel⟩

theorem wit_PowerStepsMoveOneDie_2 : ∃ (d : Die) (s : State), StepMay s d.val ∧ s.power.descent = false ∧ (s.die d.val).state = .gated ∧ s.stepsOn
    d.val = true ∧ (s.die d.val).stages = 2 ∧ (s.die d.val).steps < 8 :=
  ⟨0, withDie 0 { state := .gated, steps := 7, stages := 2 } (withInst (two { running := true })), by unfold StepMay; decide +kernel⟩

theorem wit_PowerStepsMoveOneDie_3 : ∃ (d : Die) (s : State), StepMay s d.val ∧ (s.power.descent = true ∧ (∀ e, e < 16 → s.tilesQuiet e = true) ∨
    s.power.descent = false ∧ (s.die d.val).state = .closing ∧ (s.die d.val).drained = true) :=
  ⟨0, withDie 0 { state := .closing, steps := 2, stages := 2, drained := true }, by unfold StepMay; decide +kernel⟩

theorem wit_DiesDrainAndGoOff_1 : ∃ (d : Die) (s : State), d.val < 16 ∧ s.alive = true ∧ (s.die d.val).state = .closing ∧ (s.die d.val).drained =
    false ∧ (s.die d.val).closingAt.toNat + 2000 ≤ s.clk.gts.toNat :=
  ⟨0, withDie 0 { state := .closing, closingAt := 0 } { fly (arr b0 0 0 (.chan [7])) with clk := { base.clk with gts := 2000 } }, by decide +kernel⟩

theorem wit_DiesDrainAndGoOff_2 : ∃ (d : Die) (s : State), s.alive = true ∧ (s.die d.val).state = .closing ∧ (s.die d.val).drained = true ∧ (s.die
    d.val).steps = 0 ∧ (s.die d.val).stages = 0 ∧ s.dieEmpty d.val = true :=
  ⟨0, withDie 0 closingDie (at_ m0 (runs 0)), by decide +kernel⟩

theorem wit_YieldsGoOnAsEvicts_1 : ∃ (t : Tenant) (s : State) (p : Preempting), (s.ctx t).preempting = some p ∧ s.working = true ∧ p.evict = false ∧
    p.since.toNat + 1000 * p.limit ≤ s.clk.gts.toNat :=
  ⟨0, ({ base with clk := { base.clk with gts := 1000 } }).onCtx 0 (fun c => { c with preempting := some pre0 }), pre0, by decide +kernel⟩

theorem wit_YieldsGoOnAsEvicts_2 : ∃ (t : Tenant) (s : State) (p : Preempting), (s.ctx t).preempting = some p ∧ s.clk.gts.toNat < p.since.toNat + 1000
    * p.limit :=
  ⟨0, base.onCtx 0 (fun c => { c with preempting := some pre0 }), pre0, by decide +kernel⟩

theorem wit_CompositionsBatchTheReadyStreams_1 : ∃ (s : State) (i : Instance) (b : Binding) (k : DWord × Src), s.inst? i.id = some i ∧ i.binding =
    some b ∧ i.cutoff = some k ∧ i.batch = [] ∧ s.mayCompose i = true :=
  ⟨withStream { state := stReady, tenant := 0, model := 2, readyGts := 5, inputs := [7] } (withInst bound0), bound0, bind0, (100, 0),
    by decide +kernel⟩

theorem wit_MediaRecordsBecomeStreamInputs_1 : ∃ (k : Nat) (s : State) (m : MediaInput), s.media.inputs[k]? = some m ∧ s.working = true ∧ m.status =
    OK ∧ m.output = true ∧ StreamLive s m ∧ (s.stream (m.handle.toNat % 2 ^ 21)).inputs.length < 8 :=
  ⟨0, withStream { state := stIdle, tenant := 0, model := 2 }, mi0, by unfold StreamLive; decide +kernel⟩

theorem wit_MediaRecordsBecomeStreamInputs_2 : ∃ (k : Nat) (s : State) (m : MediaInput), s.media.inputs[k]? = some m ∧ s.working = true ∧ ¬ StreamLive
    s m :=
  ⟨0, withStream { state := stIdle, tenant := 0, model := 2, gen := 1 }, mi0, by unfold StreamLive; decide +kernel⟩

theorem wit_MediaRecordsBecomeStreamInputs_3 : ∃ (k : Nat) (s : State) (m : MediaInput), s.media.inputs[k]? = some m ∧ s.working = true ∧ ¬ (m.status
    = OK ∧ m.output = false) ∧ StreamLive s m ∧ 8 ≤ (s.stream (m.handle.toNat % 2 ^ 21)).inputs.length ∧ (s.stream (m.handle.toNat % 2 ^ 21)).state ≠
    stFailed ∧ (s.stream (m.handle.toNat % 2 ^ 21)).closePending = false :=
  ⟨0, withStream { state := stReady, tenant := 0, model := 2, inputs := [1, 2, 3, 4, 5, 6, 7, 8] }, mi0, by unfold StreamLive; decide +kernel⟩

/-! ## Media dies -/

/-- Session 1 of MD0. -/
def ses : SessRef := ⟨0, 1⟩

/-- A parameter block: KIND, two slots and four job entries, the rings and the pool, a largest frame of 64 × 64, a work area, no stream. -/
def par (kind rest : Nat) : BitVec 1024 :=
  BitVec.ofNat 1024 (kind + 2 * 2 ^ 80 + 4 * 2 ^ 96 + 0x20000 * 2 ^ 192 + 0x10000 * 2 ^ 256 + 4096 * 2 ^ 320 + 64 * 2 ^ 352 + 64 * 2 ^ 368 +
    0x40000 * 2 ^ 384 + 4096 * 2 ^ 448 + 0xFFFFFFFF * 2 ^ 512 + rest)

/-- A job descriptor: OP, input address, sizes, output address and room, profile address. -/
def job (op src size out room prof_ : Nat) : Flit :=
  BitVec.ofNat 512 (op + 9 * 2 ^ 32 + src * 2 ^ 64 + size * 2 ^ 128 + out * 2 ^ 192 + room * 2 ^ 256 + 77 * 2 ^ 320 + prof_ * 2 ^ 384)

/-- A profile: a tensor of one channel, 2 × 2, in a slot of 4096 bytes at 0x30000. -/
def profT : BitVec 1024 :=
  BitVec.ofNat 1024 (1 * 2 ^ 16 + 1 * 2 ^ 40 + 2 * 2 ^ 96 + 2 * 2 ^ 112 + 2 * 2 ^ 128 + 2 * 2 ^ 144 + 2 * 2 ^ 160 + 2 * 2 ^ 176 + 0x30000 * 2 ^ 256 + 4096 * 2 ^ 320)

/-- The state of a granted session with a job in its ring, and the profile at 0x4000. -/
def jobAt (kind : Nat) (j : Flit) (f : Session → Session := id) (rest : Nat := 0) : State :=
  { mapped [(0, flitBytes j), (0x1000, [1, 2, 3, 4]), (0x4000, leBytes 128 profT.toNat)] with
    media := { sessions := [(1, f { isOpen := true, params := par kind rest, jobGranted := true })] } }

/-- The state after the descriptor read of session 1 by engine 0. -/
def readJob (s : State) : State :=
  ((engineAt s ses 0).vaRead (s.sess ses).tenant (s.mdHalf ses)
    ((s.sess ses).f 16 8 + ((s.sess ses).jobs % (s.sess ses).entries) * 64) 64 ((engineAt s ses 0).sessAccess ses)).2

/-- The bytes and the state after the read of the job's input, and the bytes. -/
def readInput (s : State) (j : Flit) (b : Nat × Nat) : Option (List Byte × Bool) × State :=
  (jobTaken (readJob s) ses (s.sess ses) j).vaRead (s.sess ses).tenant (s.mdHalf ses) b.1 b.2 ((engineAt s ses 0).sessAccess ses)
def inputOf (s : State) (j : Flit) (b : Nat × Nat) : List Byte := ((readInput s j b).1.getD ([], false)).1

/-- What the checks of a job ask of its descriptor and its buffers. -/
def JobFine (s : State) (row : Nat) (j : Flit) : Prop :=
  jobF j 0 1 = row ∧ opKind row = some (s.sess ses).kind ∧ jobReservedOk j = true ∧ jobFieldsOk (s.sess ses) j = true ∧
    sourceOk (s.sess ses) j = true ∧ ∀ b ∈ jobBuffers (s.sess ses) j, ((readJob s).ctx (s.sess ses).tenant).rangeFault b.1 b.2.1 b.2.2 = none

/-- A job with an input passes its checks. -/
theorem jobOk_input (s : State) (count busy row : Nat) (j : Flit) (b : Nat × Nat) (h1 : jobInput (s.sess ses) j = some b)
    (h2 : (readInput s j b).1 = some (inputOf s j b, false)) (h3 : JobRead s ses count busy 0 row j (readJob s)) (h4 : JobFine s row j) :
    JobOk s ses count busy row j (inputOf s j b) ((readInput s j b).2.fillWork ses) :=
  ⟨0, readJob s, h3, h4.1, h4.2.1, h4.2.2.1, h4.2.2.2.1, h4.2.2.2.2.1, h4.2.2.2.2.2, by rw [h1]; exact ⟨_, Prod.ext h2 rfl, rfl⟩⟩

/-- A job without an input passes its checks. -/
theorem jobOk_none (s : State) (count busy row : Nat) (j : Flit) (h1 : jobInput (s.sess ses) j = none)
    (h3 : JobRead s ses count busy 0 row j (readJob s)) (h4 : JobFine s row j) :
    JobOk s ses count busy row j [] ((jobTaken (readJob s) ses (s.sess ses) j).fillWork ses) :=
  ⟨0, readJob s, h3, h4.1, h4.2.1, h4.2.2.1, h4.2.2.2.1, h4.2.2.2.2.1, h4.2.2.2.2.2, by rw [h1]; exact ⟨rfl, rfl⟩⟩

/-- The scale job's states: after the profile read, and after its pieces. -/
def scaleS : State := jobAt 4 (job 7 0x1000 (2 + 2 * 65536) 0x8000 4096 0x4000)
def scaleJ : Flit := job 7 0x1000 (2 + 2 * 65536) 0x8000 4096 0x4000
def scaleB : Nat × Nat := (0x1000, 1088)
def scale2 : State := (readInput scaleS scaleJ scaleB).2.fillWork ses
def scale3 : State := (scale2.vaRead 0 (scaleS.mdHalf ses) 0x4000 128 (scale2.sessAccess ses)).2
def scale4 : Bool × State :=
  scale3.writePieces ses 0x8000 (scalePieces profT (frameOf 0 2 2 (inputOf scaleS scaleJ scaleB)))

/-- A 2 × 2 frame. -/
def frame2 : VideoFrame := { width := 2, height := 2, luma := [16, 32, 64, 128], cb := [128], cr := [128] }

/-- A decoder's state with an output due. -/
def dueAt (o : MediaOut) (taps : Nat) (f : Session → Session := id) : State :=
  jobAt 1 0 (fun n => f { n with jobGranted := false, due := [o] }) (taps * 2 ^ 24 + 0x4000 * 2 ^ 576)

theorem wit_DecodeJobsMakeTheirFramesDue_1 : ∃ (x : SessRef) (busy : BitVec 16) (s : State) (s2 : State) (j : Flit) (bs : List Byte), JobOk s x 16
    busy.toNat 1 j bs s2 :=
  ⟨ses, 0, jobAt 1 (job 1 0x1000 4 0 0 0), _, job 1 0x1000 4 0 0 0, _,
    jobOk_input _ _ _ _ _ (0x1000, 4) (by decide +kernel) (by decide +kernel) (by unfold JobRead; decide +kernel) (by unfold JobFine; decide +kernel)⟩

theorem wit_DecodeJobsMakeTheirFramesDue_2 : ∃ (x : SessRef) (busy : BitVec 16) (s : State) (s2 : State) (j : Flit), JobOk s x 16 busy.toNat 2 j [] s2
    :=
  ⟨ses, 0, jobAt 1 (job 2 0 0 0 0 0), _, job 2 0 0 0 0 0,
    jobOk_none _ _ _ _ _ (by decide +kernel) (by unfold JobRead; decide +kernel) (by unfold JobFine; decide +kernel)⟩

theorem wit_EncodeJobsWriteTheirUnits_1 : ∃ (x : SessRef) (busy : BitVec 8) (s : State) (s2 : State) (j : Flit) (bs : List Byte), JobOk s x 8
    busy.toNat 3 j bs s2 :=
  ⟨ses, 0, jobAt 2 (job 3 0x1000 (16 + 16 * 65536) 0x8000 4096 0), _, job 3 0x1000 (16 + 16 * 65536) 0x8000 4096 0, _,
    jobOk_input _ _ _ _ _ (0x1000, 1536) (by decide +kernel) (by decide +kernel) (by unfold JobRead; decide +kernel) (by unfold JobFine; decide +kernel)⟩

theorem wit_EncodeJobsWriteTheirUnits_2 : ∃ (x : SessRef) (busy : BitVec 8) (s : State) (s2 : State) (j : Flit), JobOk s x 8 busy.toNat 4 j [] s2 :=
  ⟨ses, 0, jobAt 2 (job 4 0 0 0x8000 4096 0), _, job 4 0 0 0x8000 4096 0,
    jobOk_none _ _ _ _ _ (by decide +kernel) (by unfold JobRead; decide +kernel) (by unfold JobFine; decide +kernel)⟩

theorem wit_AudioJobsConfigureAndMakeBlocks_1 : ∃ (x : SessRef) (busy : BitVec 8) (s : State) (s2 : State) (j : Flit) (bs : List Byte), JobOk s x 8
    busy.toNat 6 j bs s2 ∧ (s.sess x).jobs = 0 :=
  ⟨ses, 0, jobAt 3 (job 6 0x1000 4 0 0 0), _, job 6 0x1000 4 0 0 0, _,
    ⟨jobOk_input _ _ _ _ _ (0x1000, 4) (by decide +kernel) (by decide +kernel) (by unfold JobRead; decide +kernel) (by unfold JobFine; decide +kernel), by decide +kernel⟩⟩

theorem wit_AudioJobsConfigureAndMakeBlocks_2 : ∃ (x : SessRef) (busy : BitVec 8) (s : State) (s2 : State) (j : Flit) (bs : List Byte), JobOk s x 8
    busy.toNat 5 j bs s2 ∧ (s.sess x).configured = true :=
  ⟨ses, 0, jobAt 3 (job 5 0x1000 4 0 0 0) (fun n => { n with configured := true }), _, job 5 0x1000 4 0 0 0, _,
    ⟨jobOk_input _ _ _ _ _ (0x1000, 4) (by decide +kernel) (by decide +kernel) (by unfold JobRead; decide +kernel) (by unfold JobFine; decide +kernel), by decide +kernel⟩⟩

theorem wit_AudioJobsConfigureAndMakeBlocks_3 : ∃ (x : SessRef) (busy : BitVec 8) (s : State) (s2 : State) (j : Flit) (bs : List Byte), JobOk s x 8
    busy.toNat 5 j bs s2 ∧ (s.sess x).configured = false :=
  ⟨ses, 0, jobAt 3 (job 5 0x1000 4 0 0 0), _, job 5 0x1000 4 0 0 0, _,
    ⟨jobOk_input _ _ _ _ _ (0x1000, 4) (by decide +kernel) (by decide +kernel) (by unfold JobRead; decide +kernel) (by unfold JobFine; decide +kernel), by decide +kernel⟩⟩

theorem wit_ScaleJobsWriteTheScaledFrame_1 : ∃ (x : SessRef) (busy : BitVec 16) (s : State) (s2 : State) (s3 : State) (s4 : State) (j : Flit) (bs :
    List Byte) (ps : List Byte), JobOk s x 16 busy.toNat 7 j bs s2 ∧ s2.vaRead (s.sess x).tenant (s.mdHalf x) (jobF j 48 8) 128 (s2.sessAccess x) =
    (some (ps, false), s3) ∧ profOk (BitVec.ofNat 1024 (leNat ps)) (frameOf (s.sess x).format (jobF j 16 2) (jobF j 18 2) bs).width (frameOf (s.sess
    x).format (jobF j 16 2) (jobF j 18 2) bs).height false = true ∧ profNeed (BitVec.ofNat 1024 (leNat ps)) ≤ jobF j 32 4 ∧ s3.writePieces x (jobF j
    24 8) (scalePieces (BitVec.ofNat 1024 (leNat ps)) (frameOf (s.sess x).format (jobF j 16 2) (jobF j 18 2) bs)) = (true, s4) :=
  ⟨ses, 0, scaleS, scale2, scale3, scale4.2, scaleJ, inputOf scaleS scaleJ scaleB, leBytes 128 profT.toNat,
    by refine ⟨jobOk_input scaleS 16 0 7 scaleJ scaleB (by decide +kernel) (by decide +kernel) (by unfold JobRead; decide +kernel)
         (by unfold JobFine; decide +kernel), ?_⟩; decide +kernel⟩

theorem wit_OutputsAndTapsAreWritten_1 : ∃ (x : SessRef) (s : State) (w : State) (o : MediaOut) (rest : List MediaOut), OutputHere s x o rest ∧
    (s.sess x).slotGranted = true ∧ o.written = false ∧ (s.sess x).taps ≤ o.tapsDone ∧ s.writePieces x (outSlot (s.sess x) o) (outPieces (s.sess x) o)
    = (true, w) :=
  ⟨ses, dueAt { frame := frame2 } 0 (fun n => { n with slotGranted := true }), ((dueAt { frame := frame2 } 0 (fun n =>
    { n with slotGranted := true })).writePieces ses 0x10000 (framePieces 0 frame2)).2, { frame := frame2 }, [],
    by unfold OutputHere; decide +kernel⟩

theorem wit_OutputsAndTapsAreWritten_2 : ∃ (x : SessRef) (s : State) (w : State) (v : State) (o : MediaOut) (rest : List MediaOut) (ps : List Byte),
    OutputHere s x o rest ∧ (s.sess x).slotGranted = true ∧ o.written = false ∧ o.tapsDone < (s.sess x).taps ∧ s.writePieces x (outSlot (s.sess x) o)
    (outPieces (s.sess x) o) = (true, w) ∧ (outWritten w x (outSlot (s.sess x) o)).vaRead (s.sess x).tenant (s.mdHalf x) ((s.sess x).tapVa o.tapsDone)
    128 (s.sessAccess x) = (some (ps, false), v) ∧ tapOk (BitVec.ofNat 1024 (leNat ps)) = true :=
  ⟨ses, dueAt { frame := frame2 } 1 (fun n => { n with slotGranted := true }), ((dueAt { frame := frame2 } 1 (fun n =>
    { n with slotGranted := true })).writePieces ses 0x10000 (framePieces 0 frame2)).2, ((outWritten ((dueAt { frame := frame2 } 1 (fun n =>
    { n with slotGranted := true })).writePieces ses 0x10000 (framePieces 0 frame2)).2 ses 0x10000).vaRead 0 ((dueAt { frame := frame2 } 1).mdHalf
    ses) 0x4000 128 ((dueAt { frame := frame2 } 1).sessAccess ses)).2, { frame := frame2 }, [], leBytes 128 profT.toNat,
    by unfold OutputHere; decide +kernel⟩

theorem wit_OutputsAndTapsAreWritten_3 : ∃ (x : SessRef) (s : State) (w : State) (o : MediaOut) (rest : List MediaOut), OutputHere s x o rest ∧
    (s.sess x).tapGranted = true ∧ o.written = true ∧ (s.sess x).taps ≤ o.tapsDone + 1 ∧ s.writePieces x (prof o.profile 32 8 + (o.number % prof
    o.profile 5 1) * prof o.profile 40 4) (scalePieces o.profile o.frame) = (true, w) :=
  ⟨ses, dueAt { frame := frame2, written := true, profile := profT } 1 (fun n => { n with tapGranted := true }), ((dueAt
    { frame := frame2, written := true, profile := profT } 1 (fun n => { n with tapGranted := true })).writePieces ses 0x30000 (scalePieces profT
    frame2)).2, { frame := frame2, written := true, profile := profT }, [],
    by unfold OutputHere; decide +kernel⟩

theorem wit_OutputsAndTapsAreWritten_4 : ∃ (x : SessRef) (s : State) (w : State) (o : MediaOut) (rest : List MediaOut), OutputHere s x o rest ∧
    (s.sess x).slotGranted = true ∧ o.written = false ∧ s.writePieces x (outSlot (s.sess x) o) (outPieces (s.sess x) o) = (false, w) :=
  ⟨ses, { dueAt { frame := frame2 } 0 (fun n => { n with slotGranted := true }) with ctxs := [(0, ctx0)] }, _, { frame := frame2 }, [],
    by unfold OutputHere; decide +kernel, by decide +kernel, by decide +kernel, Prod.ext (by decide +kernel) rfl⟩

/-! ## HBM, windows and ports -/

/-- A memory request. -/
def mreq (write window : Bool) (va : Nat) : MemReq :=
  { write := write, va := BitVec.ofNat 64 va, handle := 1, window := window, bytes := 64, row := 0, data := 0x55 }

/-- A packet from `b0` at a unit. -/
def unitPk (d : Die) (u : Nat) (r : MemReq) : Packet := { place := .unit d (BitVec.ofNat 10 u), head := hd b0 b0 1 3, body := .memReq r }

/-- The base state with one burst request at a controller, and bytes there. -/
def withReq (write : Bool) : State :=
  { base with mem := { base.mem with hbm := [(4096, 7)], reqs := [{ dpa := 4096, write := write, bytes := 64, data := 0x55, head := hd b0 b0 1 3, row := 0 }] } }

/-- A port of XD0. -/
def xp : PortRef := ⟨0, 0⟩

/-- A Karex Link port that is up, with credits. -/
def up0 : Port := { mode := 16, state := .up, peerId := 0x77, reqCredits := 8, rspCredits := 8 }

/-- A state with a port in place. -/
def withPort (p : Port) (s : State := base) (q : PortRef := xp) : State := s.onPort q fun _ => p

/-- The port's import of tenant 0, and a request for it at the engine of XD0. -/
def impX : Window := { imp0 with peerId := 0x77 }
def impS (write : Bool) (p : Port) : State :=
  withPort p ((fly (unitPk 16 64 (mreq write true 0))).onCtx 0 fun c => { c with imports := [(1, impX)] })

/-- A message of the peer. -/
def lm (op : Nat) (data : List Flit) : LinkMsg :=
  { op := BitVec.ofNat 8 op, tenant := 2, handle := 0, status := if op = 5 then 5 else 0, offset := 64, srcId := 0x77, tag := 9
    reqCredits := if op = 6 then 3 else 0, rspCredits := if op = 6 then 4 else 0, body := 0, badReserved := false, data := data }

/-- A port that received a message, and waits for the answer to a request of `b0`. -/
def got (m : LinkMsg) (read : Bool := true) : Port :=
  { up0 with rx := [(m, false)], outReqs := [{ tag := 9, head := hd b0 b0 1 3, row := 0, read := read }] }

/-- The owner's side: an export over the mapped pages. -/
def expS (perm : Bool) (m : LinkMsg) : State :=
  let s := withPort (got m) (mapped [(64, [1, 2])])
  { s with mem := { s.mem with exports := [(0, { isOpen := true, permR := perm, permW := perm, tenant := 0, peerTenant := 2, base := 0, size := 65536, peerId := 0x77 })] } }

/-- A codeword. -/
def cwd (ok : Bool) (seq : Nat) (ms : List LinkMsg) : Codeword :=
  { correctable := ok, corrected := false, seq := BitVec.ofNat 9 seq, ackSeq := 0, replay := false, isNull := false, msgs := ms }

/-- A port that trains, and the clock far on. -/
def trainP (st : LinkState) (mode : Byte := 16) : Port := { mode := mode, state := st, peerId := 0x77, attempts := 1 }
def late (n : Nat) (s : State := base) : State := { s with clk := { s.clk with gts := BitVec.ofNat 64 n } }

/-- An IDENT flit. -/
def idf (id : Nat) : IdentFlit :=
  { magic := 0x544E4449, version := 1, mode := 16, resume := false, reservedZero := true, packageId := BitVec.ofNat 64 id
    reqCredits := 8, rspCredits := 8, ackSeq := 0, nextSeq := 0, oldestSeq := 0 }

theorem wit_MemoryUnitsAnswerTheirRequests_1 : ∃ (k : Nat) (s : State) (r : HbmReq), RequestHere s k r ∧ r.write = false ∧ r.bytes = 64 :=
  ⟨0, withReq false, { dpa := 4096, write := false, bytes := 64, data := 0x55, head := hd b0 b0 1 3, row := 0 },
    by unfold RequestHere; decide +kernel⟩

theorem wit_MemoryUnitsAnswerTheirRequests_2 : ∃ (k : Nat) (s : State) (r : HbmReq), RequestHere s k r ∧ r.write = true :=
  ⟨0, withReq true, { dpa := 4096, write := true, bytes := 64, data := 0x55, head := hd b0 b0 1 3, row := 0 }, by unfold RequestHere; decide +kernel⟩

theorem wit_MemoryUnitsAnswerTheirRequests_3 : ∃ (k : Nat) (s : State) (u : State) (p : Packet) (d : Die) (r : MemReq) (half : Fin 2) (dpa : Nat) (big
    : Bool) (e : DWord), s.net.flow[k]? = some p ∧ p.place = .unit d 16 ∧ d.val = 26 + half.val ∧ p.body = .memReq r ∧ r.window = false ∧ s.alive =
    true ∧ s.power.pstate = .p0 ∧ s.translate half p.head.tenant r.va.toNat { write := r.write } = (.ok dpa big e, u) :=
  ⟨0, fly (unitPk 26 16 (mreq false false 4096)) (mapped []), ((fly (unitPk 26 16 (mreq false false 4096)) (mapped [])).translate 0 0 4096
    { write := false }).2, unitPk 26 16 (mreq false false 4096), 26, mreq false false 4096, 0, 2 ^ 21 + 4096, true, 0x20003F,
    by decide +kernel⟩

theorem wit_MemoryUnitsAnswerTheirRequests_4 : ∃ (k : Nat) (s : State) (u : State) (p : Packet) (d : Die) (r : MemReq) (half : Fin 2) (c : Nat) (l :
    Nat), s.net.flow[k]? = some p ∧ p.place = .unit d 16 ∧ d.val = 26 + half.val ∧ p.body = .memReq r ∧ r.window = false ∧ s.alive = true ∧
    s.power.pstate = .p0 ∧ s.translate half p.head.tenant r.va.toNat { write := r.write } = (.fault c l, u) :=
  ⟨0, fly (unitPk 26 16 (mreq false false (2 ^ 21))) (mapped []),
    ((fly (unitPk 26 16 (mreq false false (2 ^ 21))) (mapped [])).translate 0 0 (2 ^ 21) { write := false }).2,
    unitPk 26 16 (mreq false false (2 ^ 21)), 26, mreq false false (2 ^ 21), 0, 1, 3, by decide +kernel⟩

theorem wit_MemoryUnitsAnswerTheirRequests_5 : ∃ (k : Fin 12) (s : State), k.val < stackCount s.pkg.variant ∧ s.alive = true ∧ s.mem.selfRefresh =
    false ∧ (∀ r ∈ s.mem.reqs, r.stack ≠ k.val) :=
  ⟨1, base, by decide +kernel⟩

theorem wit_MemoryUnitsAnswerTheirRequests_6 : ∃ (k : Fin 12) (s : State), k.val < stackCount s.pkg.variant ∧ s.alive = true ∧ s.mem.selfRefresh =
    false :=
  ⟨1, base, by decide +kernel⟩

theorem wit_WindowsCarryReadsAndWrites_1 : ∃ (k : Nat) (s : State) (p : Packet) (d : Die) (r : MemReq) (w : Window) (q : PortRef), ImportRequest s k p
    d r w q ∧ (s.port q).windowRefusal w = none ∧ (s.port q).txWait = [] ∧ (s.port q).maySend (windowMsg r p.head.tenant w s.pkg.packageId (s.port
    q).nextTag) = true :=
  ⟨0, impS true up0, unitPk 16 64 (mreq true true 0), 16, mreq true true 0, impX, xp, by unfold ImportRequest; decide +kernel⟩

theorem wit_WindowsCarryReadsAndWrites_2 : ∃ (k : Nat) (s : State) (p : Packet) (d : Die) (r : MemReq) (w : Window) (q : PortRef), ImportRequest s k p
    d r w q ∧ (s.port q).state ≠ .up :=
  ⟨0, impS false { up0 with state := .retrain }, unitPk 16 64 (mreq false true 0), 16, mreq false true 0, impX, xp,
    by unfold ImportRequest; decide +kernel⟩

theorem wit_WindowsCarryReadsAndWrites_3 : ∃ (q : PortRef) (s : State) (u : State) (m : LinkMsg) (n : Nat) (dpa : Nat) (big : Bool) (e : DWord),
    InboundHere s q m false n ∧ m.op = 1 ∧ (s.takeMsg q n m).inboundOk m false = true ∧ (s.exportOf m.handle.toNat).btile = false ∧ (s.takeMsg q n
    m).translate (halfOf s.pkg.variant (xdDie q.xd.val)) (Fin.ofNat 16 (s.exportOf m.handle.toNat).tenant.toNat) ((s.exportOf
    m.handle.toNat).base.toNat + m.offset.toNat) { write := true, window := true } = (.ok dpa big e, u) :=
  ⟨xp, expS true (lm 1 [0x55]), (((expS true (lm 1 [0x55])).takeMsg xp 0 (lm 1 [0x55])).translate 0 0 64 { write := true, window := true }).2, lm 1
    [0x55], 0, 2 ^ 21 + 64, true, 0x20003F,
    by unfold InboundHere; decide +kernel⟩

theorem wit_WindowsCarryReadsAndWrites_4 : ∃ (q : PortRef) (s : State) (u : State) (m : LinkMsg) (n : Nat) (dpa : Nat) (big : Bool) (e : DWord),
    InboundHere s q m false n ∧ m.op = 2 ∧ (s.takeMsg q n m).inboundOk m false = true ∧ (s.exportOf m.handle.toNat).btile = false ∧ s.mem.bad = [] ∧
    (s.takeMsg q n m).translate (halfOf s.pkg.variant (xdDie q.xd.val)) (Fin.ofNat 16 (s.exportOf m.handle.toNat).tenant.toNat) ((s.exportOf
    m.handle.toNat).base.toNat + m.offset.toNat) { write := false, window := true } = (.ok dpa big e, u) :=
  ⟨xp, expS true (lm 2 []), (((expS true (lm 2 [])).takeMsg xp 0 (lm 2 [])).translate 0 0 64 { write := false, window := true }).2, lm 2 [], 0, 2 ^ 21
    + 64, true, 0x20003F,
    by unfold InboundHere; decide +kernel⟩

theorem wit_WindowsCarryReadsAndWrites_5 : ∃ (q : PortRef) (s : State) (m : LinkMsg) (late : Bool) (n : Nat), InboundHere s q m late n ∧ m.op = 1 ∧
    (s.takeMsg q n m).inboundOk m late = false :=
  ⟨xp, expS false (lm 1 [0x55]), lm 1 [0x55], false, 0, by unfold InboundHere; decide +kernel⟩

theorem wit_WindowsCarryReadsAndWrites_6 : ∃ (q : PortRef) (s : State) (m : LinkMsg) (r : OutReq), ResponseHere s q m 3 r ∧ r.read = true :=
  ⟨xp, withPort (got (lm 3 [0x55])), lm 3 [0x55], { tag := 9, head := hd b0 b0 1 3, row := 0, read := true },
    ⟨⟨⟨false, 0, by decide +kernel⟩, by decide +kernel⟩, by decide +kernel⟩⟩

theorem wit_WindowsCarryReadsAndWrites_7 : ∃ (q : PortRef) (s : State) (m : LinkMsg) (r : OutReq), ResponseHere s q m 4 r ∧ r.read = false :=
  ⟨xp, withPort (got (lm 4 []) false), lm 4 [], { tag := 9, head := hd b0 b0 1 3, row := 0, read := false },
    ⟨⟨⟨false, 0, by decide +kernel⟩, by decide +kernel⟩, by decide +kernel⟩⟩

theorem wit_WindowsCarryReadsAndWrites_8 : ∃ (q : PortRef) (s : State) (m : LinkMsg) (r : OutReq), ResponseHere s q m 5 r :=
  ⟨xp, withPort (got (lm 5 [])), lm 5 [], { tag := 9, head := hd b0 b0 1 3, row := 0, read := true },
    ⟨⟨false, 0, by decide +kernel⟩, by decide +kernel⟩⟩

theorem wit_WindowsCarryReadsAndWrites_9 : ∃ (q : PortRef) (s : State) (m : LinkMsg) (late : Bool) (n : Nat), (s.port q).next (fun op => op = 6) =
    some ((m, late), n) ∧ s.alive = true ∧ (s.port q).txWait = [] :=
  ⟨xp, withPort (got (lm 6 [])), lm 6 [], false, 0, by decide +kernel⟩

theorem wit_PortsTrainRetryAndRecover_1 : ∃ (p : PortRef) (s : State) (c : Codeword), KarexUp s p ∧ c.correctable = true ∧ c.corrected = false ∧
    c.isNull = false ∧ c.replay = false ∧ c.seq = (s.port p).rxExpect ∧ (∀ m ∈ c.msgs, badMsg m = false) ∧ (s.port p).unacked.contains c.ackSeq =
    false :=
  ⟨xp, withPort up0, cwd true 0 [lm 1 [0x55]], by unfold KarexUp; decide +kernel⟩

theorem wit_PortsTrainRetryAndRecover_2 : ∃ (p : PortRef) (s : State) (c : Codeword), KarexUp s p ∧ c.correctable = false :=
  ⟨xp, withPort up0, cwd false 0 [], by unfold KarexUp; decide +kernel⟩

theorem wit_PortsTrainRetryAndRecover_3 : ∃ (p : PortRef) (s : State) (c : Codeword), KarexUp s p ∧ c.correctable = true ∧ c.isNull = false ∧ c.seq ≠
    (s.port p).rxExpect :=
  ⟨xp, withPort up0, cwd true 3 [lm 1 [0x55]], by unfold KarexUp; decide +kernel⟩

theorem wit_PortsTrainRetryAndRecover_4 : ∃ (p : PortRef) (s : State), s.alive = true ∧ (s.port p).state = .up ∧ (s.port p).unacked ≠ [] ∧ (s.port
    p).lastAdvance.toNat + 2000 ≤ s.clk.gts.toNat ∧ (s.port p).replaysNoAdvance < 7 :=
  ⟨xp, withPort { up0 with unacked := [0] } (late 2000), by decide +kernel⟩

theorem wit_PortsTrainRetryAndRecover_5 : ∃ (p : PortRef) (why : LaneLoss) (s : State), s.alive = true ∧ (s.port p).state = .up :=
  ⟨xp, .signal, withPort up0, by decide +kernel⟩

theorem wit_PortsTrainRetryAndRecover_6 : ∃ (p : PortRef) (s : State), s.alive = true ∧ (s.port p).trainSince.toNat + 500000000 ≤ s.clk.gts.toNat ∧
    (s.port p).between = false ∧ (s.port p).state = .retrain ∧ (s.port p).attempts < 3 :=
  ⟨xp, withPort (trainP .retrain) (late 500000000), by decide +kernel⟩

theorem wit_PortsTrainRetryAndRecover_7 : ∃ (p : PortRef) (s : State), s.alive = true ∧ (s.port p).trainSince.toNat + 500000000 ≤ s.clk.gts.toNat ∧
    (s.port p).between = false ∧ (s.port p).state = .training :=
  ⟨xp, withPort (trainP .training) (late 500000000), by decide +kernel⟩

theorem wit_PortsTrainRetryAndRecover_8 : ∃ (p : PortRef) (s : State), s.alive = true ∧ (s.port p).mode ≠ 0 ∧ (s.port p).between = true ∧ (s.port
    p).trainSince.toNat + 1000000000 ≤ s.clk.gts.toNat :=
  ⟨xp, withPort { trainP .training with between := true } (late 1000000000), by decide +kernel⟩

theorem wit_PortsTrainRetryAndRecover_9 : ∃ (p : PortRef) (s : State), Trains s p ∧ isEthMode (s.port p).mode = true :=
  ⟨xp, withPort (trainP .training 1), by unfold Trains; decide +kernel⟩

theorem wit_PortsTrainRetryAndRecover_10 : ∃ (p : PortRef) (f : IdentFlit) (s : State), Trains s p ∧ (s.port p).state = .training ∧ 16 ≤ (s.port
    p).mode.toNat ∧ GoodIdent s p f :=
  ⟨xp, idf 0x77, withPort (trainP .training), by unfold GoodIdent Trains; decide +kernel⟩

theorem wit_PortsTrainRetryAndRecover_11 : ∃ (p : PortRef) (f : IdentFlit) (s : State), Trains s p ∧ (s.port p).state = .retrain ∧ 16 ≤ (s.port
    p).mode.toNat ∧ f.magic = 0x544E4449 ∧ f.version = 1 ∧ f.reservedZero = true ∧ f.mode = (s.port p).mode ∧ f.packageId ≠ (s.port p).peerId ∧ p ≠
    twinPort :=
  ⟨xp, idf 0x78, withPort (trainP .retrain), by unfold Trains; decide +kernel⟩

/-! ## Ethernet, twins, time, the merger -/

/-- An Ethernet port that is up. -/
def ethP : Port := { mode := 1, state := .up, pause := true }

/-- A frame of 60 bytes. -/
def frame60 : List Byte := List.replicate 60 0xAB

/-- A ring of 16 entries at 0x1000, granted. -/
def eRing : EthRing := { baseLo := 0x1000, enable := true, sizeLog2 := 4, granted := true }

/-- An entry: buffer 0x2000, 60 bytes or a room of 2048. -/
def rxE : List Byte := leBytes 8 0x2000 ++ leBytes 4 2048 ++ List.replicate 20 0
def txE : List Byte := leBytes 8 0x2000 ++ leBytes 2 60 ++ List.replicate 22 0

/-- The base state with an Ethernet slot, an entry at 0x1000 and a frame at 0x2000. -/
def ethS (e : EthPort) (entry : List Byte := []) : State :=
  (withPort ethP (mapped [(0x1000, entry), (0x2000, frame60)])).onEth xp fun _ => e

/-- The state after the read of the entry, the frame's bytes, or after their writes. -/
def rxV : State := ((ethS { rx := eRing, buffer := [⟨frame60, 5⟩] } rxE).vaRead 0 0 0x1000 32 (portAccess xp)).2
def rxW : State := (rxV.vaWrite 0 0 0x2000 frame60 (portAccess xp)).2
def rxX : State := (rxW.vaWrite 0 0 0x1000 (rxEntry rxE 60 OK 5 (portSrc xp) false) (portAccess xp)).2
def txS : State := ethS { tx := eRing } txE
def txV : State := (txS.vaRead 0 0 0x1000 32 (portAccess xp)).2
def txU : State := (txV.vaRead 0 0 0x2000 60 (portAccess xp)).2
def txD : State := ethS { tx := eRing, sending := some frame60 } txE
def txDv : State := (txD.vaRead 0 0 0x1000 32 (portAccess xp)).2
def txDw : State :=
  (((txDv.onEth xp fun e => { e with wire := e.wire ++ [frame60], txFrames := addSat e.txFrames 1 }).onEth xp fun e => { e with sending := none }).vaWrite
    0 0 0x1000 (txEntry txE OK (txD.localGts 16) (portSrc xp)) (portAccess xp)).2

/-- A TWIN message. -/
def tw (kind tag : Nat) (body : Nat := 0) (data : List Flit := []) : LinkMsg :=
  { lm 7 data with handle := BitVec.ofNat 16 kind, tag := BitVec.ofNat 32 tag, body := BitVec.ofNat 256 body, offset := 5 }

/-- The base state with a binding and a message at the twin port. -/
def twS (w : Twin) (ms : List LinkMsg) (s : State := base) : State :=
  (withPort { mode := 20, state := .up, peerId := 0x77, rx := ms.map fun m => (m, false), reqCredits := 9, rspCredits := 9 } s twinPort).onTwin fun _ => w

/-- A binding as FOLLOW. -/
def bw : Twin := { tenant := some 0, bound := true, follow := true, gotCount := 1 }

/-- Signatures. -/
def sg (v : Nat) : StepSig := { sig := BitVec.ofNat 128 v, crc := 7, step := 5, gts := 0 }

/-- A STEP_BEGIN record for LAYOUT_CRC 7. -/
def beginRec : List Byte := [1, 0, 1, 0] ++ leBytes 4 8 ++ leBytes 8 0 ++ leBytes 8 5 ++ leBytes 8 0 ++ leBytes 8 7 ++ List.replicate 24 0

/-- The base state with a discipline. -/
def withTime (t : TimeState) (s : State := base) : State := { s with time := t }

/-- An event, and the base state with a feeder of FD0. -/
def ev0 (g : Nat) : Event := { stamp := BitVec.ofNat 64 g, src := 3, body := .log 0x101 1 0 [1, 2] }
def withFeeder (f : Feeder) (s : State := base) : State := { s with merger := { s.merger with feeders := Map.set {} s.merger.feeders 0 f } }

/-- A log entry and an interrupt, and a ring of 16 entries. -/
def le0 : LogEntry := { code := 0x101, src := 3, late := false, sev := 1, tenant := 0, gts := 9, seq := 4, payload := [1, 2] }
def ie0 : IqEntry := { gts := 9, src := 3, vector := 1, fn := .pf0, cause := 2, late := false }
def ring16 : Ring := { baseLo := 0x4000, enable := true, sizeLog2 := 4 }

theorem wit_EthernetRingsCarryFrames_1 : ∃ (p : PortRef) (bs : List Byte) (s : State), EthUp s p ∧ RingFrame s p bs ∧ s.ethStarts p = true ∧
    (s.ethPort p).rx.enable = true ∧ (s.ethPort p).buffered + bs.length ≤ 262144 :=
  ⟨xp, frame60, ethS { rx := { eRing with granted := false } }, by unfold EthUp RingFrame; decide +kernel⟩

theorem wit_EthernetRingsCarryFrames_2 : ∃ (p : PortRef) (bs : List Byte) (s : State), EthUp s p :=
  ⟨xp, frame60, ethS {}, by unfold EthUp; decide +kernel⟩

theorem wit_EthernetRingsCarryFrames_3 : ∃ (p : PortRef) (bs : List Byte) (s : State), EthUp s p ∧ RingFrame s p bs ∧ (s.ethStarts p = false ∨
    (s.ethPort p).rx.enable = false) :=
  ⟨xp, frame60, ethS {}, by unfold EthUp RingFrame; decide +kernel⟩

theorem wit_EthernetRingsCarryFrames_4 : ∃ (p : PortRef) (bs : List Byte) (s : State), EthUp s p ∧ 60 ≤ bs.length ∧ bs.length ≤ 9212 ∧ isPauseFrame bs
    = true ∧ (s.port p).pause = true :=
  ⟨xp, List.replicate 12 1 ++ [0x88, 8, 0, 1, 0, 5] ++ List.replicate 42 0, ethS {}, by unfold EthUp; decide +kernel⟩

theorem wit_EthernetRingsCarryFrames_5 : ∃ (p : PortRef) (s : State) (v : State) (w : State) (x : State) (f : Frame) (fs : List Frame) (bs : List
    Byte), RxReady s p f fs bs v w x :=
  ⟨xp, ethS { rx := eRing, buffer := [⟨frame60, 5⟩] } rxE, rxV, rxW, rxX, ⟨frame60, 5⟩, [], rxE, by unfold RxReady; decide +kernel⟩

theorem wit_EthernetRingsCarryFrames_6 : ∃ (p : PortRef) (s : State) (u : State) (bs : List Byte) (data : List Byte), TxReady s p bs data u :=
  ⟨xp, txS, txU, txE, frame60,
    ⟨by decide +kernel, by decide +kernel, by decide +kernel, by decide +kernel, by decide +kernel, by decide +kernel, by decide +kernel, txV, by decide +kernel⟩⟩

theorem wit_EthernetRingsCarryFrames_7 : ∃ (p : PortRef) (s : State) (v : State) (w : State) (bs : List Byte) (data : List Byte) (bad : Bool),
    (s.ethPort p).sending = some data ∧ s.alive = true ∧ (s.port p).state = .up ∧ s.vaRead (s.port p).tenant (s.portHalf p) (s.ethPort p).tx.entryVa
    32 (portAccess p) = (some (bs, bad), v) ∧ ((v.onEth p fun e => { e with wire := e.wire ++ [data], txFrames := addSat e.txFrames 1 }).onEth p fun e
    => { e with sending := none }).vaWrite (s.port p).tenant (s.portHalf p) (s.ethPort p).tx.entryVa (txEntry bs OK (s.localGts (xdDie p.xd.val))
    (portSrc p)) (portAccess p) = (true, w) :=
  ⟨xp, txD, txDv, txDw, txE, frame60, false, by decide +kernel⟩

theorem wit_EthernetRingsCarryFrames_8 : ∃ (p : PortRef) (n : BitVec 16) (s : State), EthUp s p ∧ (s.port p).pause = true :=
  ⟨xp, 9, ethS {}, by unfold EthUp; decide +kernel⟩

theorem wit_EthernetRingsCarryFrames_10 : ∃ (c : Tenant) (p : PortRef) (d : EthDir) (v : Word) (s : State), s.fnLive (.vf c) = true ∧ s.ownsPort c p =
    true ∧ bitAt v 31 = true ∧ 4 ≤ bitsOf v 24 5 ∧ bitsOf v 24 5 ≤ 14 ∧ ((s.ethPort p).ring d).enable = false :=
  ⟨0, xp, .tx, 0x84005006, ethS {}, by decide +kernel⟩

theorem wit_TwinsBindCompareAndEnd_1 : ∃ (s : State) (m : LinkMsg) (n : Nat) (id : Nat), s.twinNext 1 = some (m, n) ∧ m.tag = 0 ∧ ¬ Bound s ∧
    s.links.twin.cmd = some id ∧ s.links.twin.matches m = true ∧ s.links.twin.gotAck = false :=
  ⟨twS { cmd := some 3, tenant := some 0, follow := true } [tw 1 0], tw 1 0, 0, 3, by unfold Bound; decide +kernel⟩

theorem wit_TwinsBindCompareAndEnd_2 : ∃ (s : State) (m : LinkMsg) (n : Nat) (id : Nat), TwinHere s 2 m n ∧ ¬ Bound s ∧ s.links.twin.cmd = some id ∧
    s.links.twin.matches m = true ∧ s.links.twin.sentAck = true :=
  ⟨twS { cmd := some 3, tenant := some 0, follow := true, sentAck := true, gotCount := 1 } [tw 2 1], tw 2 1, 0, 3,
    by unfold Bound TwinHere; decide +kernel⟩

theorem wit_TwinsBindCompareAndEnd_3 : ∃ (s : State) (m : LinkMsg) (n : Nat) (c : Tenant) (i : Instance), TwinHere s 3 m n ∧ Bound s ∧
    s.links.twin.follow = true ∧ s.links.twin.tenant = some c ∧ (s.ctx c).replay = none ∧ (parseRecord (m.data.flatMap flitBytes)).kind = 1 ∧ s.pairOf
    c (parseRecord (m.data.flatMap flitBytes)) = some i ∧ s.inst? i.id = some i :=
  ⟨twS bw [tw 3 1 0 [flitOf beginRec]], tw 3 1 0 [flitOf beginRec], 0, 0, inst0, by unfold Bound TwinHere; decide +kernel⟩

theorem wit_TwinsBindCompareAndEnd_4 : ∃ (s : State) (m : LinkMsg) (n : Nat), TwinHere s 4 m n ∧ Bound s :=
  ⟨twS bw [tw 4 1 77], tw 4 1 77, 0, by unfold Bound TwinHere; decide +kernel⟩

theorem wit_TwinsBindCompareAndEnd_5 : ∃ (s : State) (m : LinkMsg) (n : Nat), TwinHere s 5 m n ∧ s.safeBound = true ∧ MayEnterSafe s :=
  ⟨twS { bw with safeMode := true } [tw 5 1], tw 5 1, 0, by unfold MayEnterSafe TwinHere; decide +kernel⟩

theorem wit_TwinsBindCompareAndEnd_6 : ∃ (s : State) (m : LinkMsg) (n : Nat), TwinHere s 6 m n ∧ Bound s ∧ s.links.twin.unbindCmd = none :=
  ⟨twS bw [tw 6 1], tw 6 1, 0, by unfold Bound TwinHere; decide +kernel⟩

theorem wit_TwinsBindCompareAndEnd_7 : ∃ (s : State) (o : StepSig) (q : StepSig), s.alive = true ∧ Bound s ∧ s.twinPair = some (o, q) ∧ o.sig = q.sig
    ∧ o.step = q.step ∧ o.crc = q.crc :=
  ⟨twS { bw with own := [sg 1], peer := [sg 1] } [], sg 1, sg 1, by unfold Bound; decide +kernel⟩

theorem wit_TwinsBindCompareAndEnd_8 : ∃ (s : State) (o : StepSig) (q : StepSig), s.alive = true ∧ s.safeBound = true ∧ s.twinPair = some (o, q) ∧
    o.sig ≠ q.sig ∧ MayEnterSafe s :=
  ⟨twS { bw with own := [sg 1], peer := [sg 2], safeMode := true } [], sg 1, sg 2, by unfold MayEnterSafe; decide +kernel⟩

theorem wit_TwinsBindCompareAndEnd_9 : ∃ (s : State) (o : StepSig) (os : List StepSig), s.links.twin.own = o :: os ∧ s.alive = true ∧ Bound s ∧
    s.twinPair = none ∧ o.gts.toNat + 10000000 ≤ s.clk.gts.toNat ∧ s.links.twin.safeMode = false :=
  ⟨twS { bw with own := [sg 1] } [] (late 10000000), sg 1, [], by unfold Bound; decide +kernel⟩

theorem wit_TwinsBindCompareAndEnd_10 : ∃ (s : State) (id : Nat), s.links.twin.cmd = some id ∧ s.alive = true ∧ s.links.twin.since.toNat + 10000000000
    ≤ s.clk.gts.toNat :=
  ⟨twS { cmd := some 3, tenant := some 0 } [] (late 10000000000), 3, by decide +kernel⟩

theorem wit_TwinsBindCompareAndEnd_11 : ∃ (s : State), s.alive = true ∧ s.safeBound = true ∧ MayEnterSafe s :=
  ⟨twS { bw with safeMode := true } [], by unfold MayEnterSafe; decide +kernel⟩

theorem wit_TimeSourcesLockSteerAndHold_1 : ∃ (s : State), s.alive = true ∧ s.time.source = .ppsIn ∧ s.time.holdover = false ∧ s.time.locked = false ∧
    s.time.taiSet = false :=
  ⟨withTime { source := .ppsIn, taiSeconds := 1000 } (late 77), by decide +kernel⟩

theorem wit_TimeSourcesLockSteerAndHold_2 : ∃ (s : State), s.alive = true ∧ s.time.source = .ppsIn ∧ s.time.holdover = false ∧ s.time.locked = true :=
  ⟨withTime { source := .ppsIn, locked := true }, by decide +kernel⟩

theorem wit_TimeSourcesLockSteerAndHold_3 : ∃ (s : State), s.alive = true ∧ s.time.source = .gtsRef :=
  ⟨withTime { source := .gtsRef } (late 77), by decide +kernel⟩

theorem wit_TimeSourcesLockSteerAndHold_4 : ∃ (p : PortRef) (master : Int) (off : Int) (s : State), s.ptpPort p = true ∧ s.time.holdover = false ∧
    s.time.locked = false ∧ s.time.taiSet = false :=
  ⟨xp, 12345, 3, withTime { source := .ptp, xd := 16 } (ethS {}), by decide +kernel⟩

theorem wit_TimeSourcesLockSteerAndHold_5 : ∃ (p : PortRef) (s : State), s.ptpPort p = true :=
  ⟨xp, withTime { source := .ptp, xd := 16 } (ethS {}), by decide +kernel⟩

theorem wit_TimeSourcesLockSteerAndHold_6 : ∃ (s : State), s.alive = true ∧ s.time.source ≠ .none ∧ s.time.holdover = false :=
  ⟨withTime { source := .ppsIn }, by decide +kernel⟩

theorem wit_TimeSourcesLockSteerAndHold_7 : ∃ (s : State), s.alive = true ∧ s.time.source = .ptp ∧ s.time.holdover = false ∧ s.time.locked = true ∧
    s.time.lastSync.toNat + 4000000000 ≤ s.clk.gts.toNat :=
  ⟨withTime { source := .ptp, locked := true } (late 4000000000), by decide +kernel⟩

theorem wit_TimeSourcesLockSteerAndHold_8 : ∃ (s : State), s.alive = true ∧ s.time.holdover = true :=
  ⟨withTime { source := .ppsIn, holdover := true }, by decide +kernel⟩

theorem wit_TimeSourcesLockSteerAndHold_9 : ∃ (s : State), s.alive = true ∧ s.time.source ≠ .none ∧ s.time.holdover = false ∧ s.time.lastRate.toNat +
    1000000000 ≤ s.clk.gts.toNat :=
  ⟨withTime { source := .ppsIn } (late 1000000000), by decide +kernel⟩

theorem wit_TimeSourcesLockSteerAndHold_10 : ∃ (d : Die) (drift : DWord) (s : State), s.alive = true ∧ (dieKind s.pkg.variant d.val).isSome = true ∧
    s.gtsReached 1024 = true :=
  ⟨3, 5, { late 1024 with time := { slips := [(3, 4), (4, 4)] } }, by decide +kernel⟩

theorem wit_TimeSourcesLockSteerAndHold_11 : ∃ (d : Die) (drift : DWord) (s : State), s.alive = true ∧ (dieKind s.pkg.variant d.val).isSome = true ∧
    s.gtsReached 1024 = false :=
  ⟨3, 5, late 1000, by decide +kernel⟩

theorem wit_TimeSourcesLockSteerAndHold_12 : ∃ (s : State), s.alive = true ∧ s.time.ppsReady = true ∧ s.ppsDue = true ∧ s.time.ppsOutEdges = 0 :=
  ⟨withTime { source := .ppsIn, locked := true } (late 999999996), by decide +kernel⟩

theorem wit_TheMergerCommitsEventsInOrder_1 : ∃ (d : Die) (s : State) (e : Event) (es : List Event) (k : DWord × Src) (code : BitVec 16) (sev : Byte)
    (c : Byte) (pay : List Byte), (Map.get {} s.merger.feeders d.val).queue = e :: es ∧ s.alive = true ∧ s.merger.lastKey = some k ∧ keyLt (e.stamp,
    e.src) k = true ∧ e.body = .log code sev c pay ∧ s.log.buffer.length < logBufferSize :=
  ⟨0, withFeeder { live := true, queue := [ev0 5] } { base with merger := { base.merger with lastKey := some (9, 3) } }, ev0 5, [], (9, 3), 0x101, 1,
    0, [1, 2],
    by decide +kernel⟩

theorem wit_TheMergerCommitsEventsInOrder_2 : ∃ (s : State) (e : Event) (code : BitVec 16) (sev : Byte) (c : Byte) (pay : List Byte), s.alive = true ∧
    s.merger.waiting = [e] ∧ e.body = .log code sev c pay ∧ e.stamp.toNat + 1000 ≤ s.clk.gts.toNat ∧ s.log.buffer.length < logBufferSize :=
  ⟨{ late 1005 with merger := { base.merger with waiting := [ev0 5] } }, ev0 5, 0x101, 1, 0, [1, 2], by decide +kernel⟩

theorem wit_TheMergerCommitsEventsInOrder_3 : ∃ (d : Die) (s : State), s.alive = true ∧ (Map.get {} s.merger.feeders d.val).live = true ∧ (Map.get {}
    s.merger.feeders d.val).queue = [] ∧ s.merger.waiting = [] ∧ (Map.get {} s.merger.feeders d.val).lastItem.toNat + 64 ≤ s.clk.gts.toNat :=
  ⟨0, late 88, by decide +kernel⟩

theorem wit_TheMergerCommitsEventsInOrder_4 : ∃ (d : Die) (s : State), s.alive = true ∧ (Map.get {} s.merger.feeders d.val).live = true ∧ (Map.get {}
    s.merger.feeders d.val).silentLogged = false ∧ (Map.get {} s.merger.feeders d.val).lastItem.toNat + 10000 ≤ s.clk.gts.toNat :=
  ⟨0, late 10000, by decide +kernel⟩

theorem wit_TheMergerCommitsEventsInOrder_5 : ∃ (s : State) (e : LogEntry) (es : List LogEntry), s.log.buffer = e :: es ∧ s.alive = true ∧
    s.host.log.enable = true ∧ s.host.log.count < s.host.log.size ∧ e.payload.length ≤ 40 :=
  ⟨{ base with log := { buffer := [le0] }, host := { base.host with log := ring16 } }, le0, [], by decide +kernel⟩

theorem wit_TheMergerCommitsEventsInOrder_6 : ∃ (s : State) (e : IqEntry) (es : List IqEntry), s.iq.queue = e :: es ∧ s.alive = true ∧
    s.host.iq.enable = true ∧ s.host.iq.count < s.host.iq.size :=
  ⟨{ base with iq := { queue := [ie0] }, host := { base.host with iq := ring16 } }, ie0, [], by decide +kernel⟩

/-! ## Pins, SMBus, JTAG -/

/-- The base state with pin 3, and with pins that a tenant holds. -/
def withPin (p : Pin) (s : State := base) : State := s.onPin 3 fun _ => p

/-- The base state without the steward, or with a fault record. -/
def off (p : PState := .off) : State := { base with power := { base.power with pstate := p, pwrGood := p != .off }, clk := { base.clk with running := false } }
def withAo (a : AlwaysOn) (s : State := base) : State := { s with ao := a }
def ao0 : AlwaysOn := { startCount := 3, valid := true, more := true, cause := 2, detail := 5, source := 6, gts := 77, start := 1 }

/-- The base state of a variant, and in test mode. -/
def ofVariant (v : Variant) : State := { base with pkg := { base.pkg with variant := v } }
def testS (n : Bool) : State := { base with host := { base.host with straps := { hostBif := false, smbAddr1 := true, smbAddr0 := true, testModeN := n } }, pins := { jtag := { boundary := [true, false] } } }

/-- An SMBus transaction. -/
def sx (v : Byte) : SmbXfer := { pecOk := true, data := v }

theorem wit_PinsSampleTriggerAndLatch_1 : ∃ (n : Fin 24) (s : State), s.alive = true :=
  ⟨3, withPin { level := true, mode := 4, count := 2 }, by decide +kernel⟩

theorem wit_PinsSampleTriggerAndLatch_2 : ∃ (n : Fin 24) (s : State), s.alive = true ∧ (s.pin n.val).count < (s.pin n.val).debounce.toNat :=
  ⟨3, withPin { debounce := 4, count := 3 }, by decide +kernel⟩

theorem wit_PinsSampleTriggerAndLatch_3 : ∃ (n : Fin 24) (s : State), s.alive = true ∧ (s.pin n.val).debounce.toNat ≤ (s.pin n.val).count :=
  ⟨3, withPin { mode := 4, vector := 5 }, by decide +kernel⟩

theorem wit_PinsSampleTriggerAndLatch_4 : ∃ (v : Word) (s : State), s.alive = true :=
  ⟨0xFFFFFFFF, withPin { owner := .granted 0 }, by decide +kernel⟩

theorem wit_TheSidebandTargetAnswers_1 : ∃ (x : SmbXfer) (s : State), s.pkg.variant = .l36 :=
  ⟨sx 0, ofVariant .l36, by decide +kernel⟩

theorem wit_TheSidebandTargetAnswers_4 : ∃ (x : SmbXfer) (s : State), s.alive = false :=
  ⟨sx 0, off, by decide +kernel⟩

theorem wit_TheSidebandTargetAnswers_5 : ∃ (x : SmbXfer) (s : State), s.alive = false :=
  ⟨sx 0, off, by decide +kernel⟩

theorem wit_TheSidebandTargetAnswers_6 : ∃ (x : SmbXfer) (w : BitVec 16) (s : State), s.alive = true :=
  ⟨sx 0, 450, base, by decide +kernel⟩

theorem wit_TheSidebandTargetAnswers_7 : ∃ (x : SmbXfer) (w : Option (BitVec 16)) (s : State), s.alive = false :=
  ⟨sx 0, some 450, off, by decide +kernel⟩

theorem wit_TheSidebandTargetAnswers_8 : ∃ (x : SmbXfer) (s : State), s.power.pstate = .p2 :=
  ⟨sx 0, off .p2, by decide +kernel⟩

theorem wit_TheSidebandTargetAnswers_9 : ∃ (s : State), s.ao.valid = true :=
  ⟨withAo ao0, by decide +kernel⟩

theorem wit_TheSidebandTargetAnswers_11 : ∃ (b : Byte) (s : State), b ≠ 0xC0 :=
  ⟨0x80, withAo ao0, by decide +kernel⟩

theorem wit_TheSidebandTargetAnswers_12 : ∃ (s : State), MayEnterSafe s :=
  ⟨base, by unfold MayEnterSafe; decide +kernel⟩

theorem wit_TheTestPortReachesOnlyThePins_2 : ∃ (s : State), s.power.pstate = .p0 ∧ s.pkg.variant = .n40 :=
  ⟨ofVariant .n40, by decide +kernel⟩

theorem wit_TheTestPortReachesOnlyThePins_3 : ∃ (cap : List Bool) (sh : List Bool) (s : State), s.power.pstate = .p0 :=
  ⟨[true], [false], testS false, by decide +kernel⟩

theorem wit_TheTestPortReachesOnlyThePins_4 : ∃ (bs : List Bool) (s : State), s.power.pstate = .p0 ∧ InTestMode s :=
  ⟨[true], testS false, by unfold InTestMode; decide +kernel⟩

theorem wit_TheTestPortReachesOnlyThePins_5 : ∃ (bs : List Bool) (s : State), s.host.straps.testModeN = true :=
  ⟨[true], testS true, by decide +kernel⟩

theorem wit_TheTestPortReachesOnlyThePins_6 : ∃ (code : BitVec 8) (s : State), 6 < code.toNat ∧ s.power.pstate = .p0 :=
  ⟨0xFF, testS false, by decide +kernel⟩

/-! ## The host's side -/

/-- The base state with a ring in place. -/
def withRing (r : RingSel) (g : Ring) (s : State := base) : State := s.onRing r fun _ => g

/-- A ring of 16 entries in use. -/
def ringOn : Ring := { baseLo := 0x4000, enable := true, sizeLog2 := 4, prod := 2, cons := 1 }

/-- The base state without an open context, its HBM holding four bytes at 4096, and one burst bad. -/
def closedS : State := { base with ctxs := [] }
def hbmS (bad : Bool) : State := { base with mem := { base.mem with hbm := [(4096, 7), (4097, 8)], bad := if bad then [(64, .ue)] else [] } }

/-- The base state before READY, and in the safe state. -/
def notReady : State := { base with host := { base.host with ready := false } }
def descending : State := { base with host := { base.host with safePending := true }, power := { base.power with descent := true } }
def opened : State := { descending with power := { descending.power with dies := [] } }

theorem wit_RingsAndDoorbellsTakeTheirValues_1 : ∃ (v : Word) (s : State), s.fnLive .pf0 = true ∧ DoorbellTakes (s.ring .asq) v :=
  ⟨5, withRing .asq ringOn, by unfold DoorbellTakes; decide +kernel⟩

theorem wit_RingsAndDoorbellsTakeTheirValues_2 : ∃ (v : Word) (s : State), s.fnLive .pf0 = true ∧ ¬ DoorbellTakes (s.ring .asq) v :=
  ⟨18, withRing .asq ringOn, by unfold DoorbellTakes; decide +kernel⟩

theorem wit_RingsAndDoorbellsTakeTheirValues_3 : ∃ (c : Tenant) (v : Word) (s : State), s.fnLive (.vf c) = true ∧ (s.ctx c).isOpen = true ∧ (s.ctx
    c).closing = false ∧ DoorbellTakes (s.ring (.csq c)) v :=
  ⟨0, 5, withRing (.csq 0) ringOn, by unfold DoorbellTakes; decide +kernel⟩

theorem wit_RingsAndDoorbellsTakeTheirValues_4 : ∃ (c : Tenant) (v : Word) (s : State), s.fnLive (.vf c) = true ∧ ((s.ctx c).isOpen = false ∨ (s.ctx
    c).closing = true) :=
  ⟨0, 5, closedS, by decide +kernel⟩

theorem wit_RingsAndDoorbellsTakeTheirValues_5 : ∃ (r : RingSel) (v : Word) (s : State), s.fnLive (ringFn r) = true ∧ bitAt v 31 = true ∧ (s.ring
    r).enable = false ∧ (sizeRange r).1 ≤ bitsOf v 0 5 ∧ bitsOf v 0 5 ≤ (sizeRange r).2 :=
  ⟨.iq, 0x80000108, base, by decide +kernel⟩

theorem wit_RingsAndDoorbellsTakeTheirValues_6 : ∃ (r : RingSel) (v : Word) (s : State), s.fnLive (ringFn r) = true ∧ bitAt v 31 = false ∧ (s.ring
    r).enable = true :=
  ⟨.iq, 0x100, { withRing .iq ringOn with iq := { queue := [ie0] } }, by decide +kernel⟩

theorem wit_HostRegistersAndViewsTakeTheirWrites_1 : ∃ (f : Fn) (hi : Word) (s : State), s.fnLive f = true :=
  ⟨.vf 0, 3, base.onFnRegs (.vf 0) fun g => { g with apLo := 0x200000 }, by decide +kernel⟩

theorem wit_HostRegistersAndViewsTakeTheirWrites_2 : ∃ (f : Fn) (s : State), s.fnLive f = true :=
  ⟨.vf 0, late (2 ^ 33 + 7), by decide +kernel⟩

theorem wit_HostRegistersAndViewsTakeTheirWrites_3 : ∃ (c : Tenant) (off : BitVec 16) (v : Word) (s : State), s.fnLive .pf0 = true ∧ (s.ctxRead c
    off.toNat).isSome = true :=
  ⟨0, 0x28, 5, base, by decide +kernel⟩

theorem wit_HostRegistersAndViewsTakeTheirWrites_4 : ∃ (v : DWord) (s : State), s.fnLive .pf0 = true :=
  ⟨5, base, by decide +kernel⟩

theorem wit_HostRegistersAndViewsTakeTheirWrites_5 : ∃ (x : Site) (w : Src) (i : Nat) (v : Word) (s : State), s.slotUp x = true ∧ HoldsField (siteKind
    x) i :=
  ⟨m0, 9, 0, 0xFFFFFFFF, at_ m0 (runs 0), by unfold HoldsField; decide +kernel⟩

theorem wit_HostRegistersAndViewsTakeTheirWrites_6 : ∃ (x : Site) (w : Src) (i : Nat) (v : Word) (s : State), s.slotUp x = true ∧ HoldsField (siteKind
    x) i :=
  ⟨b0, 9, 6, 0xFFFFFFFF, at_ b0 (runs 0), by unfold HoldsField; decide +kernel⟩

theorem wit_HostRegistersAndViewsTakeTheirWrites_7 : ∃ (x : Site) (w : Src) (i : Nat) (v : Word) (s : State), s.slotUp x = true ∧ i < 16 ∧ ¬
    HoldsField (siteKind x) i :=
  ⟨m0, 9, 6, 0xFFFFFFFF, at_ m0 (runs 0), by unfold HoldsField; decide +kernel⟩

theorem wit_HostRegistersAndViewsTakeTheirWrites_8 : ∃ (x : Site) (s : State), s.slotUp x = true :=
  ⟨m0, at_ m0 { (runs 0) with debugHalt := true }, by decide +kernel⟩

theorem wit_HostRegistersAndViewsTakeTheirWrites_9 : ∃ (x : Site) (s : State), s.slotUp x = true :=
  ⟨m0, at_ m0 (runs 0), by decide +kernel⟩

theorem wit_TheAperturesReachMemory_1 : ∃ (f : Fn) (off : BitVec 36) (n : Fin 4097) (dpa : Nat) (s : State) (u : State), Bar2Reaches s f off.toNat
    n.val false dpa u ∧ (∀ b ∈ bursts dpa n.val, u.burstErr b = none) :=
  ⟨.pf0, 4096, 4, 4096, hbmS false, hbmS false, by unfold Bar2Reaches; decide +kernel⟩

theorem wit_TheAperturesReachMemory_2 : ∃ (f : Fn) (off : BitVec 36) (n : Fin 4097) (dpa : Nat) (b : Nat) (s : State) (u : State), Bar2Reaches s f
    off.toNat n.val false dpa u ∧ b ∈ bursts dpa n.val ∧ u.burstErr b = some .ue :=
  ⟨.pf0, 4096, 4, 4096, 64, hbmS true, hbmS true, by unfold Bar2Reaches; decide +kernel⟩

theorem wit_TheAperturesReachMemory_3 : ∃ (f : Fn) (off : BitVec 36) (bs : List (Byte × Bool)) (dpa : Nat) (s : State) (u : State), Bar2Reaches s f
    off.toNat bs.length true dpa u :=
  ⟨.pf0, 4096, [(1, true), (2, false), (3, true)], 4096, hbmS false, hbmS false, by unfold Bar2Reaches; decide +kernel⟩

theorem wit_TheAperturesReachMemory_4 : ∃ (off : BitVec 36) (n : Fin 4097) (s : State), s.fnLive .pf0 = true ∧ s.mem.selfRefresh = false ∧ 0 < n.val ∧
    s.fnBase .pf0 off.toNat % 65536 + n.val ≤ 65536 ∧ hbmRangeOk s.pkg.variant (s.fnBase .pf0 off.toNat) n.val = false :=
  ⟨0xFFFFFFFFF, 1, base.onFnRegs .pf0 fun g => { g with apBase := 2 ^ 41 }, by decide +kernel⟩

theorem wit_TheAperturesReachMemory_5 : ∃ (p : Fin 2) (q : CfgRequest) (s : State), s.portThere p = true ∧ s.host.configReady.getLsbD p.val = false :=
  ⟨0, .other, State.reset, by decide +kernel⟩

theorem wit_TheAperturesReachMemory_6 : ∃ (p : Fin 2) (c : Tenant) (s : State), s.portThere p = true ∧ s.host.configReady.getLsbD p.val = true ∧
    s.fnPort (.vf c) = p.val :=
  ⟨0, 0, { base with host := { base.host with vfEnabled := 4 } }, by decide +kernel⟩

theorem wit_TheAperturesReachMemory_7 : ∃ (p : Fin 2) (f : Fn) (s : State), s.portThere p = true ∧ s.host.configReady.getLsbD p.val = true ∧ s.fnThere
    p f = true :=
  ⟨0, .vf 0, base, by decide +kernel⟩

theorem wit_TheAperturesReachMemory_8 : ∃ (e : HostError) (addr : DWord) (s : State), s.fnLive .pf0 = true ∧ s.mayFetch .admin = true ∧ addr.toNat =
    (s.ring .asq).addr (s.ring .asq).cons 64 :=
  ⟨.timeout, 0x4040, withRing .asq ringOn, by decide +kernel⟩

theorem wit_TheAperturesReachMemory_9 : ∃ (e : HostError) (addr : DWord) (s : State), s.fnLive .pf1 = true :=
  ⟨.abort, 0x4040, { base with host := { base.host with linkUp := 3, straps := { base.host.straps with hostBif := true } } }, by decide +kernel⟩

theorem wit_FunctionsAreResetWithTheirContexts_1 : ∃ (c : Tenant) (s : State), s.fnLive (.vf c) = true ∧ (s.ctx c).isOpen = false :=
  ⟨0, { closedS with ctxs := [(0, { csq := ringOn })] }, by decide +kernel⟩

theorem wit_FunctionsAreResetWithTheirContexts_2 : ∃ (c : Tenant) (s : State), s.fnLive (.vf c) = true ∧ (s.ctx c).isOpen = true :=
  ⟨0, base, by decide +kernel⟩

theorem wit_FunctionsAreResetWithTheirContexts_3 : ∃ (s : State), s.fnLive .pf0 = true ∧ (∀ c, (s.ctx c).isOpen = false) :=
  ⟨{ withRing .asq ringOn closedS with insts := [] }, by decide +kernel⟩

theorem wit_FunctionsAreResetWithTheirContexts_4 : ∃ (c : Tenant) (s : State), s.fnLive (.vf c) = true :=
  ⟨0, base, by decide +kernel⟩

theorem wit_FunctionsAreResetWithTheirContexts_5 : ∃ (s : State), s.alive = true ∧ s.host.linkUp.getLsbD 0 = true ∧ (∀ c, (s.ctx c).isOpen = false) :=
  ⟨{ withRing .asq ringOn closedS with insts := [] }, by decide +kernel⟩

theorem wit_StartsAndTheSafeState_2 : ∃ (s : State), s.power.pwrGood = true ∧ s.alive = true ∧ s.host.safePending = false :=
  ⟨at_ m0 (runs 0) (late 77), by decide +kernel⟩

theorem wit_StartsAndTheSafeState_3 : ∃ (s : State), s.power.pwrGood = true :=
  ⟨at_ m0 (runs 0), by decide +kernel⟩

theorem wit_StartsAndTheSafeState_4 : ∃ (us : Word) (s : State), s.alive = true ∧ s.host.ready = false ∧ s.host.safePending = false ∧
    s.host.straps.testModeN = true :=
  ⟨900, notReady, by decide +kernel⟩

theorem wit_StartsAndTheSafeState_5 : ∃ (c : Fin 9) (src : Src) (s : State), s.alive = true ∧ s.host.ready = false ∧ s.host.straps.testModeN = true ∧
    MayEnterSafe s :=
  ⟨3, 9, notReady, by unfold MayEnterSafe; decide +kernel⟩

theorem wit_StartsAndTheSafeState_6 : ∃ (s : State), s.alive = true ∧ MayEnterSafe s :=
  ⟨base, by unfold MayEnterSafe; decide +kernel⟩

theorem wit_StartsAndTheSafeState_7 : ∃ (p : Fin 6) (s : State), s.alive = true ∧ MayEnterSafe s :=
  ⟨2, base, by unfold MayEnterSafe; decide +kernel⟩

theorem wit_StartsAndTheSafeState_8 : ∃ (x : Fin 8) (s : State), s.alive = true :=
  ⟨2, base, by decide +kernel⟩

theorem wit_StartsAndTheSafeState_9 : ∃ (s : State), MayEnterSafe s :=
  ⟨base, by unfold MayEnterSafe; decide +kernel⟩

theorem wit_StartsAndTheSafeState_10 : ∃ (d : Die) (c : Int) (s : State), s.alive = true ∧ (dieKind s.pkg.variant d.val).isSome = true ∧ (s.die
    d.val).state ≠ .off ∧ MayEnterSafe s ∧ warnLimit s.pkg.variant d.val + 160 ≤ c :=
  ⟨0, 1760, base, by unfold MayEnterSafe; decide +kernel⟩

theorem wit_StartsAndTheSafeState_11 : ∃ (d : Die) (c : Int) (s : State), s.alive = true ∧ (dieKind s.pkg.variant d.val).isSome = true ∧ (s.die
    d.val).state ≠ .off ∧ c < warnLimit s.pkg.variant d.val ∧ s.power.warned = 0 :=
  ⟨0, 1599, base, by decide +kernel⟩

theorem wit_StartsAndTheSafeState_12 : ∃ (s : State), s.alive = true ∧ MayEnterSafe s :=
  ⟨base, by unfold MayEnterSafe; decide +kernel⟩

theorem wit_StartsAndTheSafeState_13 : ∃ (s : State), s.alive = true ∧ MayEnterSafe s :=
  ⟨base, by unfold MayEnterSafe; decide +kernel⟩

theorem wit_StartsAndTheSafeState_14 : ∃ (s : State), s.power.descent = true ∧ s.descended = true :=
  ⟨opened, by decide +kernel⟩

theorem wit_StartsAndTheSafeState_15 : ∃ (s : State), s.power.limiterOpen = false :=
  ⟨base, by decide +kernel⟩

theorem wit_StartsAndTheSafeState_17 : ∃ (n : Word) (s : State), s.power.pwrGood = false :=
  ⟨4, off, by decide +kernel⟩

/-! ## The steward's commands -/

/-- A parameter of a command at a byte offset. -/
def pp (off v : Nat) : Nat := v * 2 ^ (8 * off)

/-- A command of an opcode with its parameters, started as number 3 by tenant 0, and the steward's turn on it. -/
def cmd (op rest : Nat) (ring : SubRing := .ctx 0) (accepted : Bool := false) : Started :=
  { id := 3, ring := ring, consAfter := 1, w := BitVec.ofNat 512 (op + rest), accepted := accepted }
def srv : Serve := ⟨3, true⟩

/-- A state with a command in progress. -/
def serves (f : Started) (s : State := base) : State := { s with host := { s.host with started := [f] } }

/-- The base state with tenant 0's context changed. -/
def withCtx (g : Context → Context) (s : State := base) : State := s.onCtx 0 g

/-- An OPEN_CONTEXT of tenant 0: FD0, a quota of 64 KiB, and the state before it. -/
def openCmd (region : Nat) : Started := cmd 3 (pp 2 0 + pp 20 region + pp 36 4 + pp 40 65536) .admin
def openS (region : Nat) : State := serves (openCmd region) { base with ctxs := [(0, { fault := { enable := true, sizeLog2 := 6 } })], insts := [] }

/-- PREEMPT with a MODE and a limit of 1 µs, of a context whose save area lies in the mapped pages. -/
def preemptS (mode : Nat) (i : Instance := inst0) (g : Context → Context := id) : State :=
  serves (cmd 9 (pp 20 mode + pp 24 1))
    { base with insts := [(1, i)], ctxs := [(0, g { ctxMap with regions := [], saveVa := 0x10000, saveBytes := 0x40000 })] }

/-- A saved image of FD0's first columns, and the context that holds it. -/
def saved0 : Saved :=
  { evicted := false, regions := [(0, 0x11)], tiles := [], beacons := [(5, { value := 2 })], flow := [pk m0 v0 0 (.chan [7])], sched := []
    tokens := [], savedAt := 0, savedCycle := 0, frames := [33], crcBad := false }
def resumeS (v : Option Saved) : State :=
  serves (cmd 10 0) (withCtx fun c => { c with preempted := v.isSome, saved := v, regions := [] })

/-- A container for the columns 0 to 4 of FD0: one section with a router at every site, where the front goes in at the P-tiles and east. -/
def routerRec (c r : Nat) : List Byte :=
  [1, 0, 0, 0, 0, BitVec.ofNat 8 c, BitVec.ofNat 8 r, 0] ++ leBytes 4 8 ++ leBytes 4 0 ++
    leBytes 8 ((if c = 0 then 0x1000 else 0x0800) + if c = 4 then 0 else 0x20000) ++ List.replicate 8 0
def section0 : List Byte :=
  leBytes 8 0 ++ leBytes 4 81 ++ leBytes 4 2912 ++ leBytes 4 3430468399 ++ leBytes 4 1 ++ List.replicate 296 0 ++
    ((List.range 80).flatMap fun i => routerRec (i / 16) (i % 16)) ++ [5, 0, 0, 0, 0, 0, 0, 0, 4] ++ List.replicate 23 0
def container0 : List Byte :=
  leBytes 4 0x5459414C ++ leBytes 2 1 ++ leBytes 2 0 ++ leBytes 2 1 ++ leBytes 2 1 ++ leBytes 4 482776029 ++ leBytes 8 3040 ++ leBytes 8 0 ++
    leBytes 4 0 ++ leBytes 4 1611722406 ++ List.replicate 24 0 ++ leBytes 8 128 ++ List.replicate 56 0 ++ section0
def loadCmd : Started := cmd 6 (pp 20 0x11) .admin
def loadS : State :=
  serves loadCmd { (mapped []) with insts := [], ctxs := [(0, { ctxMap with regions := [] })],
                                    mem := { base.mem with hbm := Memory.write [] (2 ^ 21) container0,
                                                           tlb := [{ half := 0, tenant := 0, gen := 1, big := true, page := 0, entry := 0x20003F }] } }
def load2 : State := loadS.grantRegions 0 loadCmd.regions
def loadK : Container := (parseContainer container0).getD { folded := false, dieMask := 0, gradeCrc := 0, hbmBytes := 0, crc := 0, images := [], sections := [], order := [] }

/-- The reads of the container, and what its sections say. -/
theorem load_mem : loadS.mem.hbm = Memory.write [] (2 ^ 21) container0 := rfl
theorem load_head : loadS.vaRead 0 0 0 64 (stewardAccess stewardSrc) = (some (container0.take 64, false), loadS) := by
  rw [State.vaRead_one loadS loadS 0 0 0 64 (2 ^ 21) true 0x20003F _ (by decide +kernel) (by rfl) (by decide +kernel)]
  rw [MemState.mask_none _ rfl rfl, Memory.read_take _ _ 64 container0.length (by decide +kernel), load_mem, Memory.read_write]
theorem load_all : loadS.vaRead 0 0 0 3040 (stewardAccess stewardSrc) = (some (container0, false), loadS) := by
  have h : container0.length = 3040 := by decide +kernel
  rw [State.vaRead_one loadS loadS 0 0 0 3040 (2 ^ 21) true 0x20003F _ (by decide +kernel) (by rfl) (by decide +kernel)]
  rw [MemState.mask_none _ rfl rfl, ← h, load_mem, Memory.read_write]
theorem load_read : loadS.readContainer 0 0 = (some container0, loadS) := by
  have h : rd (container0.take 64) 16 8 = 3040 := by decide +kernel
  unfold State.readContainer
  simp only [load_head, h, load_all]
  rfl
theorem loadK_says : loadK.dieMask = 1 ∧ loadK.images = [] := by decide +kernel
/-- A ring of records at 0 with one STEP_BEGIN of step 5, in 1 MiB. -/
def ringHead : List Byte := padTo 64 (leBytes 4 0x52435253 ++ leBytes 2 1 ++ leBytes 2 0 ++ leBytes 8 (2 ^ 20) ++ leBytes 8 64 ++ leBytes 8 0)
def replayCmd : Started := cmd 0x1C (pp 20 1 + pp 24 0 + pp 32 (2 ^ 20) + pp 40 5)
def replayS : State := serves replayCmd (mapped [(0, ringHead), (64, beginRec)])
def replay1 : State := (replayS.vaRead 0 0 0 64 (stewardAccess scrivSrc)).2
def rec5 : ReplayRec := { kind := 1, layout := 1, step := 5, src := 0, seq := 0, gts := 0, payload := [7, 0, 0, 0, 0, 0, 0, 0] }

theorem wit_ReportingCommandsChangeNothingElse_1 : ∃ (c : Serve) (f : Started) (s : State), Serves s c 0x28 f :=
  ⟨srv, cmd 0x28 0, serves (cmd 0x28 0), by unfold Serves; decide +kernel⟩

theorem wit_ReportingCommandsChangeNothingElse_2 : ∃ (c : Serve) (f : Started) (s : State), Serves s c 0x01 f ∧ c.resultOk = true ∧ 256 ≤ f.p 16 4 :=
  ⟨srv, cmd 1 (pp 8 0x9000 + pp 16 256), serves (cmd 1 (pp 8 0x9000 + pp 16 256)), by unfold Serves; decide +kernel⟩

theorem wit_ReportingCommandsChangeNothingElse_3 : ∃ (c : Serve) (f : Started) (s : State), Serves s c 0x01 f ∧ c.resultOk = false ∧ 256 ≤ f.p 16 4 :=
  ⟨⟨3, false⟩, cmd 1 (pp 8 0x9000 + pp 16 256), serves (cmd 1 (pp 8 0x9000 + pp 16 256)), by unfold Serves; decide +kernel⟩

theorem wit_ReportingCommandsChangeNothingElse_4 : ∃ (c : Serve) (f : Started) (s : State), Serves s c 0x02 f ∧ c.resultOk = true ∧ 2048 ≤ f.p 16 4 :=
  ⟨srv, cmd 2 (pp 8 0x9000 + pp 16 2048), serves (cmd 2 (pp 8 0x9000 + pp 16 2048)), by unfold Serves; decide +kernel⟩

theorem wit_ContextsOpenShareAndClose_1 : ∃ (c : Serve) (f : Started) (s : State), Serves s c 0x03 f ∧ s.openRefusal f = none :=
  ⟨srv, openCmd 8, openS 8, by unfold Serves; decide +kernel⟩

theorem wit_ContextsOpenShareAndClose_2 : ∃ (c : Serve) (f : Started) (s : State) (st : Status), Serves s c 0x03 f ∧ s.openRefusal f = some st :=
  ⟨srv, openCmd 9, openS 9, E_BAD_FIELD, by unfold Serves; decide +kernel⟩

theorem wit_ContextsOpenShareAndClose_3 : ∃ (c : Serve) (f : Started) (s : State), Serves s c 0x04 f ∧ s.instsOf f.tenant = [] ∧ (s.ctx
    f.tenant).replay = none ∧ (∀ g ∈ s.host.started, onContext f.tenant g = true → isClose f.tenant g = true) :=
  ⟨srv, cmd 4 0 .admin, { serves (cmd 4 0 .admin) with insts := [] }, by unfold Serves; decide +kernel⟩

theorem wit_ContextsOpenShareAndClose_4 : ∃ (c : Serve) (f : Started) (s : State), Serves s c 0x05 f ∧ f.p 20 1 ≤ 64 ∧ f.p 21 1 ≤ 1 ∧ s.otherShares
    f.tenant + f.p 20 1 ≤ 62 :=
  ⟨srv, cmd 5 (pp 20 40 + pp 21 1), serves (cmd 5 (pp 20 40 + pp 21 1)), by unfold Serves; decide +kernel⟩

theorem wit_ContextsOpenShareAndClose_5 : ∃ (c : Serve) (f : Started) (s : State), Serves s c 0x05 f ∧ f.p 20 1 ≤ 64 ∧ f.p 21 1 ≤ 1 ∧ 62 <
    s.otherShares f.tenant + f.p 20 1 :=
  ⟨srv, cmd 5 (pp 20 63), serves (cmd 5 (pp 20 63)), by unfold Serves; decide +kernel⟩

theorem wit_ContextsOpenShareAndClose_6 : ∃ (c : Serve) (f : Started) (s : State), Serves s c 0x0B f ∧ 0 < f.p 20 4 ∧ f.p 20 4 ≤ 10000000 ∧ f.p 24 1 =
    0 :=
  ⟨srv, cmd 11 (pp 20 500), serves (cmd 11 (pp 20 500)), by unfold Serves; decide +kernel⟩

theorem wit_ContextsOpenShareAndClose_7 : ∃ (c : Serve) (f : Started) (s : State), Serves s c 0x0B f ∧ 0 < f.p 20 4 ∧ f.p 20 4 ≤ 10000000 ∧ f.p 24 1 =
    1 :=
  ⟨srv, cmd 11 (pp 20 500 + pp 24 1), serves (cmd 11 (pp 20 500 + pp 24 1)) (withCtx fun c => { c with quarantined := true, overruns := 3 }),
    by unfold Serves; decide +kernel⟩

theorem wit_ContextsOpenShareAndClose_8 : ∃ (c : Serve) (f : Started) (s : State), Serves s c 0x16 f ∧ s.isFollow f.tenant = false ∧ f.p 20 1 = 0 :=
  ⟨srv, cmd 0x16 0, serves (cmd 0x16 0), by unfold Serves; decide +kernel⟩

theorem wit_ContextsOpenShareAndClose_9 : ∃ (c : Serve) (f : Started) (s : State), Serves s c 0x16 f ∧ s.isFollow f.tenant = false ∧ f.p 20 1 = 1 ∧ 0
    < f.p 21 1 :=
  ⟨srv, cmd 0x16 (pp 20 1 + pp 21 3), serves (cmd 0x16 (pp 20 1 + pp 21 3)), by unfold Serves; decide +kernel⟩

theorem wit_ContextsOpenShareAndClose_10 : ∃ (c : Serve) (f : Started) (s : State), Serves s c 0x17 f ∧ f.p 20 2 < 4096 ∧ f.p 22 1 ≤ 3 ∧ s.vectorOk
    (.vf f.tenant) (f.p 28 2) = true :=
  ⟨srv, cmd 0x17 (pp 20 5 + pp 22 2 + pp 24 9 + pp 28 1), serves (cmd 0x17 (pp 20 5 + pp 22 2 + pp 24 9 + pp 28 1)), by unfold Serves; decide +kernel⟩

theorem replayPasses : ReplayPasses replayS replayCmd inst0 { layout := 1, cmd := some 3, recs := [rec5] } :=
  ⟨by decide +kernel, by decide +kernel, by decide +kernel, by decide +kernel, by decide +kernel, by decide +kernel, by decide +kernel, by decide +kernel,
    by decide +kernel, by decide +kernel, by decide +kernel, by decide +kernel, by decide +kernel, ringHead, false, replay1, [rec5],
    (State.ringRecords 0 0 (2 ^ 20 - 64) 64 2 0 replay1).2, by decide +kernel⟩

theorem wit_LayoutsAreLoadedSteppedAndSaved_1 : ∃ (c : Serve) (f : Started) (s : State) (u : State) (k : Container), Serves s c 0x06 f ∧ LoadPasses s
    f k u :=
  ⟨srv, loadCmd, loadS, load2, loadK,
    ⟨by unfold Serves; decide +kernel, by decide +kernel, by decide +kernel, by decide +kernel, by decide +kernel, by decide +kernel, by decide +kernel, container0, loadS, load_read, by decide +kernel, by rw [loadK_says.1]; decide +kernel, by decide, by rw [loadK_says.2]; rfl⟩⟩

theorem wit_LayoutsAreLoadedSteppedAndSaved_2 : ∃ (c : Serve) (f : Started) (s : State) (s1 : State) (bs : List Byte) (st : Status), Serves s c 0x06 f
    ∧ f.accepted = false ∧ s.power.pstate = .p0 ∧ f.ring = .admin ∧ (s.ctx f.tenant).quarantined = false ∧ (s.instsOf f.tenant).length < 8 ∧
    s.regionsBad f.tenant f.regions = none ∧ s.readContainer f.tenant (f.p 40 8) = (some bs, s1) ∧ (s1.grantRegions f.tenant f.regions).layoutChecks
    f.tenant bs = .bad st :=
  ⟨srv, cmd 6 (pp 40 0) .admin, { serves (cmd 6 (pp 40 0) .admin) (mapped [(16, [64])]) with insts := [] },
    (({ serves (cmd 6 (pp 40 0) .admin) (mapped [(16, [64])]) with insts := [] } : State).readContainer 0 0).2, padTo 64 (List.replicate 16 0 ++
    [64]), E_BAD_LAYOUT,
    by unfold Serves; decide +kernel⟩

theorem wit_LayoutsAreLoadedSteppedAndSaved_3 : ∃ (c : Serve) (f : Started) (s : State) (i : Instance), Serves s c 0x07 f ∧ f.accepted = false ∧
    s.inst? (BitVec.ofNat 8 (f.p 20 1)) = some i ∧ s.inst? i.id = some i ∧ i.tenant = f.tenant ∧ i.loaded = true ∧ i.run.running = false :=
  ⟨srv, cmd 7 (pp 20 1), serves (cmd 7 (pp 20 1)) (withInst inst0 [(m0, runs 0)]), inst0, by unfold Serves; decide +kernel⟩

theorem wit_LayoutsAreLoadedSteppedAndSaved_4 : ∃ (c : Serve) (f : Started) (s : State) (i : Instance), Serves s c 0x07 f ∧ f.accepted = false ∧
    s.inst? (BitVec.ofNat 8 (f.p 20 1)) = some i ∧ s.inst? i.id = some i ∧ i.tenant = f.tenant ∧ i.loaded = true ∧ i.run.running = true ∧ (s.ctx
    f.tenant).preempted = false :=
  ⟨srv, cmd 7 (pp 20 1), serves (cmd 7 (pp 20 1)) (withInst { inst0 with run := { running := true } }), { inst0 with run := { running := true } },
    by unfold Serves; decide +kernel⟩

theorem wit_LayoutsAreLoadedSteppedAndSaved_5 : ∃ (c : Serve) (f : Started) (s : State) (i : Instance), Serves s c 0x08 f ∧ f.accepted = false ∧
    s.stepRefusal f = none ∧ s.inst? (BitVec.ofNat 8 (f.p 20 1)) = some i :=
  ⟨srv, cmd 8 (pp 20 1 + pp 24 2), serves (cmd 8 (pp 20 1 + pp 24 2)) (withCtx fun c => { c with budget := some 9 }), inst0,
    by unfold Serves; decide +kernel⟩

theorem wit_LayoutsAreLoadedSteppedAndSaved_6 : ∃ (c : Serve) (f : Started) (s : State) (st : Status), Serves s c 0x08 f ∧ f.accepted = false ∧
    s.stepRefusal f = some st :=
  ⟨srv, cmd 8 (pp 20 1), serves (cmd 8 (pp 20 1)), E_NO_BUDGET, by unfold Serves; decide +kernel⟩

theorem wit_LayoutsAreLoadedSteppedAndSaved_7 : ∃ (c : Serve) (f : Started) (s : State), Serves s c 0x09 f ∧ PreemptPasses s f 0 ∧ (withPreempting s f
    false).preemptReady f.tenant false = true :=
  ⟨srv, cmd 9 (pp 20 0 + pp 24 1), preemptS 0, by unfold PreemptPasses Serves; decide +kernel⟩

theorem wit_LayoutsAreLoadedSteppedAndSaved_8 : ∃ (c : Serve) (f : Started) (s : State), Serves s c 0x09 f ∧ PreemptPasses s f 0 ∧ (withPreempting s f
    false).preemptReady f.tenant false = false :=
  ⟨srv, cmd 9 (pp 20 0 + pp 24 1), preemptS 0 { inst0 with run := { running := true, frontTo := some 0 } },
    by unfold PreemptPasses Serves; decide +kernel⟩

theorem wit_LayoutsAreLoadedSteppedAndSaved_9 : ∃ (c : Serve) (f : Started) (s : State), Serves s c 0x09 f ∧ PreemptPasses s f 1 ∧ ((withPreempting s
    f true).evictStart f.tenant).preemptReady f.tenant true = true :=
  ⟨srv, cmd 9 (pp 20 1 + pp 24 1), preemptS 1, by unfold PreemptPasses Serves; decide +kernel⟩

theorem wit_LayoutsAreLoadedSteppedAndSaved_10 : ∃ (c : Serve) (f : Started) (s : State), Serves s c 0x09 f ∧ PreemptPasses s f 1 ∧ ((withPreempting s
    f true).evictStart f.tenant).preemptReady f.tenant true = false :=
  ⟨srv, cmd 9 (pp 20 1 + pp 24 1), { preemptS 1 with net := { grants := [{ tenant := 0, gen := 1, site := m0, beacon := 5, count := 2 }] } },
    by unfold PreemptPasses Serves; decide +kernel⟩

theorem wit_LayoutsAreLoadedSteppedAndSaved_11 : ∃ (c : Serve) (f : Started) (s : State) (v : Saved), Serves s c 0x0A f ∧ (s.ctx f.tenant).saved =
    some v ∧ s.power.pstate = .p0 ∧ s.savedBusy f.tenant v = false ∧ s.savedBad v = false :=
  ⟨srv, cmd 10 0, resumeS (some saved0), saved0, by unfold Serves; decide +kernel⟩

theorem wit_LayoutsAreLoadedSteppedAndSaved_12 : ∃ (c : Serve) (f : Started) (s : State), Serves s c 0x0A f ∧ (s.ctx f.tenant).saved = none :=
  ⟨srv, cmd 10 0, resumeS none, by unfold Serves; decide +kernel⟩

theorem wit_LayoutsAreLoadedSteppedAndSaved_13 : ∃ (c : Serve) (f : Started) (s : State) (i : Instance) (r : Replay), Serves s c 0x1C f ∧ ReplayPasses
    s f i r :=
  ⟨srv, replayCmd, replayS, inst0, { layout := 1, cmd := some 3, recs := [rec5] }, by unfold Serves; decide +kernel, replayPasses⟩

/-! ## The steward's commands on their objects -/

/-- A command in progress on the mapped context, with a quota. -/
def onMap (f : Started) (g : Context → Context := id) : State :=
  serves f { (mapped []) with ctxs := [(0, g { ctxMap with hbmQuota := 2 ^ 23 })] }

/-- A MEM_MAP, MEM_UNMAP of a page. -/
def mapCmd (op flags va n dpa : Nat) : Started := cmd op (pp 20 flags + pp 24 va + pp 32 n + pp 40 dpa)
def freshS : State := onMap (mapCmd 0x0C 3 0x400000 0x10000 0)
def freshR : Option (Nat × State) := freshS.mapFresh 0 0x400000 0x10000 3 false

/-- A TLDW that waits on fault 7. -/
def waitS (f : Started) : State :=
  serves f (at_ m0 { (runs 0) with m := { tldw := some { w := 0, ip := 0, va := 0, done := [], sent := [], fault := some (0, 7), waiting := true } } })

/-- Windows. -/
def expCmd : Started := cmd 0x0F (pp 22 3 + pp 23 2 + pp 32 0 + pp 40 65536 + pp 48 0x77)
def impCmd : Started := cmd 0x0F (pp 20 1 + pp 22 3 + pp 24 9 + pp 26 0x1000 + pp 48 0x77)
def exps (s : State) (w : Window) : State := { s with mem := { s.mem with exports := [(0, w)] } }

/-- The base state with stream 0. -/
def stS (f : Started) (x : Stream) : State := serves f { base with streams := [(0, x)] }
def st0 : Stream := { state := 1, tenant := 0 }

/-- A binding block and a session's parameter block. -/
def blockBs : List Byte :=
  [1, 2] ++ leBytes 2 4 ++ leBytes 2 5 ++ leBytes 2 6 ++ [1] ++ List.replicate 7 0 ++ leBytes 8 (2 ^ 40 + 4096) ++ List.replicate 24 0 ++
    leBytes 8 (2 ^ 40 + 8192) ++ leBytes 8 0 ++ leBytes 4 64 ++ List.replicate 60 0
def parBs : List Byte :=
  [1, 1, 0, 0] ++ leBytes 6 0 ++ leBytes 2 2 ++ leBytes 4 16 ++ leBytes 8 0x20000 ++ leBytes 8 0x30000 ++ leBytes 8 0x10000 ++ leBytes 4 0x10000 ++
    leBytes 2 64 ++ leBytes 2 64 ++ leBytes 8 0x40000 ++ leBytes 8 0x1000000 ++ leBytes 4 0xFFFFFFFF ++ List.replicate 60 0
def blockS : State := serves (cmd 0x15 (pp 20 1 + pp 24 0)) (mapped [(0, blockBs)])
def openC : Started := cmd 0x18 (pp 20 20 + pp 24 0)
def openSes : State := serves openC (mapped [(0, parBs)])
def openSes1 : State := (openSes.vaRead 0 0 0 128 (stewardAccess stewardSrc)).2
def ses0 : Session := { isOpen := true, tenant := 0, params := BitVec.ofNat 1024 (leNat parBs) }
theorem openC_says : openC.tenant = 0 ∧ openC.p 24 8 = 0 := by decide +kernel
theorem openReads : openSes.vaRead openC.tenant 0 (openC.p 24 8) 128 (stewardAccess stewardSrc) = (some (parBs, false), openSes1) := by
  rw [openC_says.1, openC_says.2]
  exact Prod.ext (by decide +kernel) rfl
theorem noTaps : openSes1.readTaps openC.tenant ses0 = (some [], openSes1) := by
  have h : ses0.taps = 0 := by decide +kernel
  unfold State.readTaps
  rw [h]
  rfl
def closeSes (due : List MediaOut) : State :=
  serves (cmd 0x19 (pp 20 (20 * 2 ^ 24))) { base with media := { sessions := [(0, { ses0 with due := due })] } }

/-- A recording in progress. -/
def recd : Recorder :=
  { ringVa := 0, ringBytes := 2 ^ 20, stopWhenFull := false, written := 0, oldest := 0, sizes := [], records := 4, startGts := 0, wrapped := false, armed := [] }

/-- The base state in P2, with every die that sleeps at a power. -/
def p2S (refresh : Bool) (s : State := base) : State :=
  { s with power := { s.power with pstate := .p2 }, mem := { s.mem with selfRefresh := refresh } }

/-- The base state with the field gated since 0. -/
def gated : State :=
  { base with clk := { base.clk with gts := 1000 }
              power := { base.power with dies := (List.range 16).map fun d => (d, { state := .gated, steps := 0, stages := 2, gatedSince := some 0 }) } }

/-- A command of the package. -/
def pk3 (op rest : Nat) (acc : Bool := false) : Started := cmd op (pp 2 0xFF + rest) .admin acc
def fetched (w : Nat) : Started := { id := 0, ring := .admin, consAfter := 2, w := BitVec.ofNat 512 w }
def fetchS (l : List Started := []) : State := { withRing .asq ringOn with host := { (withRing .asq ringOn).host with started := l } }

theorem wit_MemoryAndWindowsAreMapped_1 : ∃ (c : Serve) (f : Started) (s : State), Serves s c 0x0C f ∧ MapOk s f ∧ bitsOf f.w 165 1 = 1 ∧ f.p 40 8 %
    65536 = 0 ∧ f.p 40 8 + f.p 32 8 ≤ 2 ^ 48 ∧ (∀ i, i < f.p 32 8 / 65536 → f.p 40 8 / 65536 + i ∈ (s.ctx f.tenant).frameSet) ∧ RoomForTables s (3 *
    (f.p 32 8 / 65536) + 1) :=
  ⟨srv, mapCmd 0x0C 0x23 0x400000 0x10000 0x200000, onMap (mapCmd 0x0C 0x23 0x400000 0x10000 0x200000),
    by unfold MapOk Serves RoomForTables; decide +kernel⟩

theorem wit_MemoryAndWindowsAreMapped_2 : ∃ (c : Serve) (f : Started) (s : State) (s1 : State) (d : Nat), Serves s c 0x0C f ∧ MapOk s f ∧ bitsOf f.w
    165 1 = 0 ∧ s.mapFresh f.tenant (f.p 24 8) (f.p 32 8) (f.p 20 1) false = some (d, s1) :=
  ⟨srv, mapCmd 0x0C 3 0x400000 0x10000 0, freshS, (freshR.getD (0, freshS)).2, (freshR.getD (0, freshS)).1, by unfold MapOk Serves; decide +kernel⟩

theorem wit_MemoryAndWindowsAreMapped_3 : ∃ (c : Serve) (f : Started) (s : State), Serves s c 0x0C f ∧ MapOk s f ∧ bitsOf f.w 165 1 = 0 ∧ (s.ctx
    f.tenant).hbmQuota < (s.ctx f.tenant).charged + f.p 32 8 :=
  ⟨srv, mapCmd 0x0C 3 0x400000 0x10000 0, onMap (mapCmd 0x0C 3 0x400000 0x10000 0) (fun c => { c with hbmQuota := 2 ^ 21 }),
    by unfold MapOk Serves; decide +kernel⟩

theorem wit_MemoryAndWindowsAreMapped_4 : ∃ (c : Serve) (f : Started) (s : State), Serves s c 0x0D f ∧ f.p 32 8 ≠ 0 ∧ f.p 24 8 % 65536 = 0 ∧ f.p 32 8
    % 65536 = 0 ∧ f.p 24 8 + f.p 32 8 ≤ 2 ^ 48 ∧ s.translating f.tenant = false ∧ s.mediaCovers f.tenant (f.p 24 8) (f.p 32 8) = false ∧ RoomForTables
    s 2 :=
  ⟨srv, mapCmd 0x0D 0 0x10000 0x10000 0, onMap (mapCmd 0x0D 0 0x10000 0x10000 0), by unfold Serves RoomForTables; decide +kernel⟩

theorem wit_MemoryAndWindowsAreMapped_5 : ∃ (c : Serve) (f : Started) (s : State) (x : Site), Serves s c 0x0E f ∧ s.faultTile f.tenant (f.p 20 2) =
    some x ∧ f.p 22 1 = 0 :=
  ⟨srv, cmd 0x0E (pp 20 7), waitS (cmd 0x0E (pp 20 7)), m0, by unfold Serves; decide +kernel⟩

theorem wit_MemoryAndWindowsAreMapped_6 : ∃ (c : Serve) (f : Started) (s : State) (x : Site), Serves s c 0x0E f ∧ s.faultTile f.tenant (f.p 20 2) =
    some x ∧ f.p 22 1 = 1 :=
  ⟨srv, cmd 0x0E (pp 20 7 + pp 22 1), waitS (cmd 0x0E (pp 20 7 + pp 22 1)), m0, by unfold Serves; decide +kernel⟩

theorem wit_MemoryAndWindowsAreMapped_7 : ∃ (c : Serve) (f : Started) (s : State), Serves s c 0x0E f ∧ s.faultTile f.tenant (f.p 20 2) = none ∧ f.p 22
    1 = 0 :=
  ⟨srv, cmd 0x0E (pp 20 8), waitS (cmd 0x0E (pp 20 8)), by unfold Serves; decide +kernel⟩

theorem wit_MemoryAndWindowsAreMapped_8 : ∃ (c : Serve) (f : Started) (s : State), Serves s c 0x0E f ∧ s.faultTile f.tenant (f.p 20 2) = none ∧ f.p 22
    1 = 1 :=
  ⟨srv, cmd 0x0E (pp 20 8 + pp 22 1), waitS (cmd 0x0E (pp 20 8 + pp 22 1)), by unfold Serves; decide +kernel⟩

theorem wit_MemoryAndWindowsAreMapped_9 : ∃ (c : Serve) (f : Started) (s : State) (h : Nat), Serves s c 0x0F f ∧ f.p 20 1 = 0 ∧ f.windowBad = false ∧
    f.exportBad = false ∧ s.exportRefusal f = none ∧ freeHandle s.mem.exports = some h :=
  ⟨srv, expCmd, onMap expCmd, 0, by unfold Serves; decide +kernel⟩

theorem wit_MemoryAndWindowsAreMapped_10 : ∃ (c : Serve) (f : Started) (s : State) (p : PortRef) (h : Nat), Serves s c 0x0F f ∧ f.p 20 1 = 1 ∧
    f.windowBad = false ∧ f.p 24 2 ≤ 4095 ∧ s.windowPort (f.window true) = some p ∧ isWindowMode (s.port p).mode = true ∧ freeHandle (s.ctx
    f.tenant).imports = some h :=
  ⟨srv, impCmd, withPort up0 (onMap impCmd), xp, 0, by unfold Serves; decide +kernel⟩

theorem wit_MemoryAndWindowsAreMapped_11 : ∃ (c : Serve) (f : Started) (s : State), Serves s c 0x10 f ∧ f.accepted = false ∧ f.p 20 1 = 0 ∧
    (s.exportOf (f.p 24 2)).isOpen = true ∧ (s.exportOf (f.p 24 2)).closing = none ∧ (s.exportOf (f.p 24 2)).tenant = tenantByte f.tenant ∧
    s.exportBusy (f.p 24 2) = false :=
  ⟨srv, cmd 0x10 0, exps (serves (cmd 0x10 0)) { isOpen := true }, by unfold Serves; decide +kernel⟩

theorem wit_MemoryAndWindowsAreMapped_12 : ∃ (c : Serve) (f : Started) (s : State), Serves s c 0x10 f ∧ f.accepted = false ∧ f.p 20 1 = 0 ∧
    (s.exportOf (f.p 24 2)).isOpen = true ∧ (s.exportOf (f.p 24 2)).closing = none ∧ (s.exportOf (f.p 24 2)).tenant = tenantByte f.tenant ∧
    s.exportBusy (f.p 24 2) = true :=
  ⟨srv, cmd 0x10 0, exps (withPort (got (lm 1 [0x55])) (serves (cmd 0x10 0))) { isOpen := true }, by unfold Serves; decide +kernel⟩

theorem wit_MemoryAndWindowsAreMapped_13 : ∃ (c : Serve) (f : Started) (s : State), Serves s c 0x10 f ∧ f.accepted = false ∧ f.p 20 1 = 1 ∧ (Map.get
    {} (s.ctx f.tenant).imports (f.p 24 2)).isOpen = true ∧ (Map.get {} (s.ctx f.tenant).imports (f.p 24 2)).closing = none ∧ s.importBusy f.tenant
    (f.p 24 2) = false :=
  ⟨srv, cmd 0x10 (pp 20 1), serves (cmd 0x10 (pp 20 1)) (withCtx fun c => { c with imports := [(0, { isOpen := true })] }),
    by unfold Serves; decide +kernel⟩

/-- The instance while a STEP waits. -/
def inst9 : Instance := { inst0 with stepCmd := some 9 }
def stepS : State := { blockS with insts := [(1, inst9)] }
def recCmd : Started := cmd 0x1A (pp 24 0 + pp 32 (2 ^ 20) + pp 40 1)
theorem sesFits : ses0.fieldsOk = true ∧ ses0.supported = true ∧ ses0.f 64 4 = 0xFFFFFFFF := by decide +kernel
theorem sesWork : ses0.workNeed ≤ ses0.f 56 8 := by decide +kernel
theorem sesFree : openSes1.freeSession 0 = some 0 := by decide +kernel
theorem sesPasses : SessionPasses openSes openC 0 ses0 0 openSes1 :=
  ⟨by decide +kernel, by decide +kernel, by decide +kernel, parBs, false, openSes1, [], openReads, rfl, sesFits.1, noTaps,
    (fun _ h => nomatch h), sesFits.2.1, sesWork, sesFree, sesFits.2.2⟩

theorem wit_StreamsSessionsAndRecordings_1 : ∃ (c : Serve) (f : Started) (s : State) (n : Nat), Serves s c 0x11 f ∧ f.p 21 1 = 0 ∧ s.openStreams
    f.tenant < (s.ctx f.tenant).streamQuota ∧ s.freeRecord = some n :=
  ⟨srv, cmd 0x11 (pp 20 2), serves (cmd 0x11 (pp 20 2)), 0, by unfold Serves; decide +kernel⟩

theorem wit_StreamsSessionsAndRecordings_2 : ∃ (c : Serve) (f : Started) (s : State) (n : Nat), Serves s c 0x11 f ∧ f.p 21 1 = 1 ∧ s.openStreams
    f.tenant < (s.ctx f.tenant).streamQuota ∧ s.freeRecord = some n :=
  ⟨srv, cmd 0x11 (pp 20 2 + pp 21 1), serves (cmd 0x11 (pp 20 2 + pp 21 1)), 0, by unfold Serves; decide +kernel⟩

theorem wit_StreamsSessionsAndRecordings_3 : ∃ (c : Serve) (f : Started) (s : State) (n : Nat), Serves s c 0x12 f ∧ s.streamOf f.tenant (f.p 20 4) =
    some n ∧ (s.stream n).closeCmd = none ∧ (s.stream n).state ≠ 3 :=
  ⟨srv, cmd 0x12 0, stS (cmd 0x12 0) st0, 0, by unfold Serves; decide +kernel⟩

theorem wit_StreamsSessionsAndRecordings_4 : ∃ (c : Serve) (f : Started) (s : State) (n : Nat), Serves s c 0x12 f ∧ s.streamOf f.tenant (f.p 20 4) =
    some n ∧ (s.stream n).closeCmd = none ∧ (s.stream n).state = 3 :=
  ⟨srv, cmd 0x12 0, stS (cmd 0x12 0) { st0 with state := 3 }, 0, by unfold Serves; decide +kernel⟩

theorem wit_StreamsSessionsAndRecordings_5 : ∃ (c : Serve) (f : Started) (s : State) (n : Nat), Serves s c 0x13 f ∧ s.streamOf f.tenant (f.p 20 4) =
    some n ∧ s.isFollow f.tenant = false ∧ bitsOf (BitVec.ofNat 128 (f.p 32 16)) 48 16 = 0 ∧ (s.stream n).state ≠ 4 ∧ (s.stream n).state ≠ 5 ∧
    (s.stream n).closePending = false ∧ (s.stream n).inputs.length < 8 :=
  ⟨srv, cmd 0x13 (pp 32 9), stS (cmd 0x13 (pp 32 9)) st0, 0, by unfold Serves; decide +kernel⟩

theorem wit_StreamsSessionsAndRecordings_6 : ∃ (c : Serve) (f : Started) (s : State) (n : Nat), Serves s c 0x13 f ∧ s.streamOf f.tenant (f.p 20 4) =
    some n ∧ s.isFollow f.tenant = false ∧ bitsOf (BitVec.ofNat 128 (f.p 32 16)) 48 16 = 0 ∧ (s.stream n).state ≠ 4 ∧ (s.stream n).state ≠ 5 ∧
    (s.stream n).closePending = false ∧ 8 ≤ (s.stream n).inputs.length :=
  ⟨srv, cmd 0x13 (pp 32 9), stS (cmd 0x13 (pp 32 9)) { st0 with inputs := [1, 2, 3, 4, 5, 6, 7, 8] }, 0, by unfold Serves; decide +kernel⟩

theorem wit_StreamsSessionsAndRecordings_7 : ∃ (c : Serve) (f : Started) (s : State) (n : Nat), Serves s c 0x14 f ∧ s.streamOf f.tenant (f.p 20 4) =
    some n ∧ c.resultOk = true ∧ 256 ≤ f.p 16 4 :=
  ⟨srv, cmd 0x14 (pp 8 0x9000 + pp 16 256), stS (cmd 0x14 (pp 8 0x9000 + pp 16 256)) st0, 0, by unfold Serves; decide +kernel⟩

theorem wit_StreamsSessionsAndRecordings_8 : ∃ (c : Serve) (f : Started) (s : State) (s1 : State) (i : Instance) (bs : List Byte) (bad : Bool), Serves
    s c 0x15 f ∧ s.inst? (BitVec.ofNat 8 (f.p 20 1)) = some i ∧ s.inst? i.id = some i ∧ i.tenant = f.tenant ∧ i.loaded = true ∧ i.binding = none ∧
    i.run.running = false ∧ s.vaRead f.tenant 0 (f.p 24 8) 128 (stewardAccess ledgerSrc) = (some (bs, bad), s1) ∧ BlockOk s i f bs ∧ i.stepCmd = none
    :=
  ⟨srv, cmd 0x15 (pp 20 1 + pp 24 0), blockS, (blockS.vaRead 0 0 0 128 (stewardAccess ledgerSrc)).2, inst0, blockBs, false,
    by unfold BlockOk Serves; decide +kernel⟩

theorem wit_StreamsSessionsAndRecordings_9 : ∃ (c : Serve) (f : Started) (s : State) (s1 : State) (i : Instance) (bs : List Byte) (bad : Bool), Serves
    s c 0x15 f ∧ s.inst? (BitVec.ofNat 8 (f.p 20 1)) = some i ∧ s.inst? i.id = some i ∧ i.tenant = f.tenant ∧ i.loaded = true ∧ i.binding = none ∧
    i.run.running = false ∧ s.vaRead f.tenant 0 (f.p 24 8) 128 (stewardAccess ledgerSrc) = (some (bs, bad), s1) ∧ BlockOk s i f bs ∧ i.stepCmd ≠ none
    :=
  ⟨srv, cmd 0x15 (pp 20 1 + pp 24 0), stepS, (stepS.vaRead 0 0 0 128 (stewardAccess ledgerSrc)).2, inst9, blockBs, false,
    by unfold BlockOk Serves; decide +kernel⟩

theorem wit_StreamsSessionsAndRecordings_10 : ∃ (c : Serve) (f : Started) (s : State) (s2 : State) (md : Nat) (n : Session) (i : Fin 512), Serves s c
    0x18 f ∧ SessionPasses s f md n i s2 :=
  ⟨srv, openC, openSes, openSes1, 0, ses0, 0, by unfold Serves; decide +kernel, sesPasses⟩

theorem wit_StreamsSessionsAndRecordings_11 : ∃ (c : Serve) (f : Started) (s : State) (x : SessRef), Serves s c 0x19 f ∧ f.accepted = false ∧ s.sessOf
    f.tenant (f.p 20 4) = some x ∧ (s.sess x).due = [] ∧ s.sessQuiet x = true :=
  ⟨srv, cmd 0x19 (pp 20 (20 * 2 ^ 24)), closeSes [], ⟨0, 0⟩, by unfold Serves; decide +kernel⟩

theorem wit_StreamsSessionsAndRecordings_12 : ∃ (c : Serve) (f : Started) (s : State) (x : SessRef), Serves s c 0x19 f ∧ f.accepted = false ∧ s.sessOf
    f.tenant (f.p 20 4) = some x ∧ ((s.sess x).due ≠ [] ∨ s.sessQuiet x = false) :=
  ⟨srv, cmd 0x19 (pp 20 (20 * 2 ^ 24)), closeSes [{}], ⟨0, 0⟩, by unfold Serves; decide +kernel⟩

theorem wit_StreamsSessionsAndRecordings_13 : ∃ (c : Serve) (f : Started) (s : State), Serves s c 0x1A f ∧ RecordPasses s f :=
  ⟨srv, recCmd, onMap recCmd, by unfold RecordPasses Serves; decide +kernel⟩

theorem wit_StreamsSessionsAndRecordings_14 : ∃ (c : Serve) (f : Started) (s : State) (r : Recorder), Serves s c 0x1B f ∧ (s.ctx f.tenant).recorder =
    some r :=
  ⟨srv, cmd 0x1B 0, onMap (cmd 0x1B 0) (fun c => { c with recorder := some recd }), recd, by unfold Serves; decide +kernel⟩

theorem wit_PackageCommandsActOnTheirUnits_1 : ∃ (c : Serve) (f : Started) (s : State), Serves s c 0x1D f ∧ f.accepted = false ∧ f.p 20 1 ≤ 1 ∧ f.p 21
    1 ≤ 1 ∧ s.twinUp = true ∧ s.links.twin.tenant = none ∧ (s.ctx f.tenant).replay = none ∧ (s.port twinPort).peerId.toNat = f.p 24 8 :=
  ⟨srv, cmd 0x1D (pp 20 1 + pp 24 0x77), serves (cmd 0x1D (pp 20 1 + pp 24 0x77)) (twS {} []), by unfold Serves; decide +kernel⟩

theorem wit_PackageCommandsActOnTheirUnits_2 : ∃ (c : Serve) (f : Started) (s : State), Serves s c 0x1E f ∧ f.accepted = false ∧ Bound s ∧
    s.links.twin.tenant = some f.tenant ∧ s.links.twin.unbindCmd = none ∧ (∀ i ∈ s.instsOf f.tenant, i.run.running = false) :=
  ⟨srv, cmd 0x1E 0, serves (cmd 0x1E 0) (twS bw []), by unfold Bound Serves; decide +kernel⟩

theorem wit_PackageCommandsActOnTheirUnits_3 : ∃ (c : Serve) (f : Started) (s : State) (i : Instance), Serves s c 0x1E f ∧ f.accepted = false ∧ Bound
    s ∧ s.links.twin.tenant = some f.tenant ∧ s.links.twin.unbindCmd = none ∧ i ∈ s.instsOf f.tenant ∧ i.run.running = true ∧ s.inst? i.id = some i :=
  ⟨srv, cmd 0x1E 0, serves (cmd 0x1E 0) (twS bw [] (withInst { inst0 with run := { running := true } })), { inst0 with run := { running := true } },
    by unfold Bound Serves; decide +kernel⟩

theorem wit_PackageCommandsActOnTheirUnits_4 : ∃ (c : Serve) (f : Started) (bad : BitVec 9) (src : Src) (s : State), Serves s c 0x1F f ∧ f.accepted =
    false ∧ f.p 20 2 ≤ 0x1FF ∧ s.power.pstate ≠ .p2 ∧ s.stepRuns = false ∧ s.sessionRuns = false ∧ bad &&& BitVec.ofNat 9 (f.p 20 2) ≠ 0 ∧
    MayEnterSafe s :=
  ⟨srv, pk3 0x1F (pp 20 0x1F0), 0x10, 5, serves (pk3 0x1F (pp 20 0x1F0)), by unfold MayEnterSafe Serves; decide +kernel⟩

theorem wit_PackageCommandsActOnTheirUnits_5 : ∃ (c : Serve) (f : Started) (bad : BitVec 9) (src : Src) (s : State), Serves s c 0x1F f ∧ f.accepted =
    false ∧ f.p 20 2 ≤ 0x1FF ∧ s.power.pstate ≠ .p2 ∧ s.stepRuns = false ∧ s.sessionRuns = false ∧ bad &&& BitVec.ofNat 9 (f.p 20 2) = 0 ∧ f.p 20 2 %
    16 = 0 :=
  ⟨srv, pk3 0x1F (pp 20 0x1F0), 0x1, 5, serves (pk3 0x1F (pp 20 0x1F0)), by unfold Serves; decide +kernel⟩

theorem wit_PackageCommandsActOnTheirUnits_6 : ∃ (c : Serve) (f : Started) (bad : BitVec 9) (src : Src) (s : State), Serves s c 0x1F f ∧ f.accepted =
    false ∧ f.p 20 2 ≤ 0x1FF ∧ s.power.pstate ≠ .p2 ∧ s.stepRuns = false ∧ s.sessionRuns = false ∧ bad &&& BitVec.ofNat 9 (f.p 20 2) = 0 ∧ f.p 20 2 %
    16 ≠ 0 :=
  ⟨srv, pk3 0x1F (pp 20 1), 0, 5, serves (pk3 0x1F (pp 20 1)) (at_ m0 (runs 0)), by unfold Serves; decide +kernel⟩

theorem wit_PackageCommandsActOnTheirUnits_7 : ∃ (c : Serve) (f : Started) (s : State), Serves s c 0x20 f ∧ f.accepted = false ∧ s.downRefusal f =
    none ∧ f.p 21 1 = 0 :=
  ⟨srv, pk3 0x20 (pp 20 5), serves (pk3 0x20 (pp 20 5)), by unfold Serves; decide +kernel⟩

theorem wit_PackageCommandsActOnTheirUnits_8 : ∃ (c : Serve) (f : Started) (bad : BitVec 9) (s : State), Serves s c 0x21 f ∧ f.accepted = false ∧
    s.power.pstate ≠ .p2 ∧ s.domainKind (f.p 20 1) = true ∧ (s.die (f.p 20 1)).state = .off :=
  ⟨srv, pk3 0x21 (pp 20 5), 0, withDie 5 {} (serves (pk3 0x21 (pp 20 5))), by unfold Serves; decide +kernel⟩

theorem wit_PackageCommandsActOnTheirUnits_9 : ∃ (c : Serve) (f : Started) (bad : BitVec 9) (s : State), Serves s c 0x21 f ∧ f.accepted = true ∧
    (s.die (f.p 20 1)).full = true ∧ bad &&& s.upClasses (f.p 20 1) = 0 :=
  ⟨srv, pk3 0x21 (pp 20 5) true, 0x10, withDie 5 { steps := 8, stages := 2, cmd := some 3 } (serves (pk3 0x21 (pp 20 5) true)),
    by unfold Serves; decide +kernel⟩

theorem wit_PackageCommandsActOnTheirUnits_10 : ∃ (c : Serve) (f : Started) (bad : BitVec 9) (s : State), Serves s c 0x21 f ∧ f.accepted = true ∧
    (s.die (f.p 20 1)).full = true ∧ bad &&& s.upClasses (f.p 20 1) ≠ 0 :=
  ⟨srv, pk3 0x21 (pp 20 5) true, 1, withDie 5 { steps := 8, stages := 2, cmd := some 3 } (serves (pk3 0x21 (pp 20 5) true)),
    by unfold Serves; decide +kernel⟩

theorem wit_PackageCommandsActOnTheirUnits_11 : ∃ (c : Serve) (f : Started) (s : State), Serves s c 0x22 f ∧ f.p 20 1 = 0 ∧ s.power.pstate ≠ .p2 :=
  ⟨srv, pk3 0x22 0, serves (pk3 0x22 0), by unfold Serves; decide +kernel⟩

theorem wit_PackageCommandsActOnTheirUnits_12 : ∃ (c : Serve) (f : Started) (s : State), Serves s c 0x22 f ∧ f.p 20 1 = 0 ∧ s.power.pstate = .p2 ∧
    f.accepted = false ∧ s.mem.selfRefresh = true :=
  ⟨srv, pk3 0x22 0, p2S true (serves (pk3 0x22 0)), by unfold Serves; decide +kernel⟩

theorem wit_PackageCommandsActOnTheirUnits_13 : ∃ (c : Serve) (f : Started) (s : State), Serves s c 0x22 f ∧ f.p 20 1 = 0 ∧ s.power.pstate = .p2 ∧
    f.accepted = true ∧ (∀ d ∈ p2Dies, (s.die d).full = true) :=
  ⟨srv, pk3 0x22 0 true, p2S false (serves (pk3 0x22 0 true)), by unfold Serves; decide +kernel⟩

theorem wit_PackageCommandsActOnTheirUnits_14 : ∃ (c : Serve) (f : Started) (s : State), Serves s c 0x22 f ∧ f.p 20 1 = 2 ∧ f.accepted = false ∧
    s.power.pstate ≠ .p2 ∧ s.stepRuns = false ∧ s.sessionRuns = false ∧ s.domainRuns = false :=
  ⟨srv, pk3 0x22 (pp 20 2), serves (pk3 0x22 (pp 20 2)), by unfold Serves; decide +kernel⟩

theorem wit_PackageCommandsActOnTheirUnits_15 : ∃ (c : Serve) (f : Started) (s : State), Serves s c 0x22 f ∧ f.p 20 1 = 2 ∧ f.accepted = false ∧
    s.power.pstate ≠ .p2 ∧ s.stepRuns = true :=
  ⟨srv, pk3 0x22 (pp 20 2), serves (pk3 0x22 (pp 20 2)) (withInst { inst0 with run := { running := true } }), by unfold Serves; decide +kernel⟩

theorem wit_PackageCommandsActOnTheirUnits_16 : ∃ (c : Serve) (f : Started) (s : State), Serves s c 0x22 f ∧ f.p 20 1 = 3 ∧ MayEnterSafe s :=
  ⟨srv, pk3 0x22 (pp 20 3), serves (pk3 0x22 (pp 20 3)), by unfold MayEnterSafe Serves; decide +kernel⟩

theorem wit_PackageCommandsActOnTheirUnits_17 : ∃ (c : Serve) (f : Started) (s : State), Serves s c 0x23 f ∧ f.p 20 1 < 3 ∧ s.fieldGated = true ∧
    s.clk.units % 480 = 0 :=
  ⟨srv, pk3 0x23 (pp 20 2), serves (pk3 0x23 (pp 20 2)) gated, by unfold Serves; decide +kernel⟩

theorem wit_PackageCommandsActOnTheirUnits_18 : ∃ (c : Serve) (f : Started) (s : State), Serves s c 0x23 f ∧ f.p 20 1 < 3 ∧ s.fieldGated = false :=
  ⟨srv, pk3 0x23 (pp 20 2), serves (pk3 0x23 (pp 20 2)), by unfold Serves; decide +kernel⟩

theorem wit_PackageCommandsActOnTheirUnits_19 : ∃ (c : Serve) (f : Started) (s : State), Serves s c 0x24 f ∧ f.p 20 1 ≤ 3 ∧ (f.p 20 1 = 3 → dieKind
    s.pkg.variant (f.p 21 1) = some .xd ∧ s.ethUp (f.p 21 1) = true) :=
  ⟨srv, pk3 0x24 (pp 20 2 + pp 24 77), serves (pk3 0x24 (pp 20 2 + pp 24 77)), by unfold Serves; decide +kernel⟩

theorem wit_PackageCommandsActOnTheirUnits_20 : ∃ (c : Serve) (f : Started) (s : State), Serves s c 0x25 f ∧ f.p 20 1 < 24 ∧ f.p 21 1 = 0 ∧ (s.pin
    (f.p 20 1)).function = 0 ∧ (s.pin (f.p 20 1)).owner = .steward :=
  ⟨srv, cmd 0x25 (pp 20 3), serves (cmd 0x25 (pp 20 3)), by unfold Serves; decide +kernel⟩

theorem wit_PackageCommandsActOnTheirUnits_21 : ∃ (c : Serve) (f : Started) (s : State) (u : Tenant), Serves s c 0x25 f ∧ f.p 20 1 < 24 ∧ f.p 21 1 = 0
    ∧ (s.pin (f.p 20 1)).function = 0 ∧ u ≠ f.tenant ∧ (s.pin (f.p 20 1)).owner = .granted u :=
  ⟨srv, cmd 0x25 (pp 20 3), serves (cmd 0x25 (pp 20 3)) (withPin { owner := .granted 1 }), 1, by unfold Serves; decide +kernel⟩

theorem wit_PackageCommandsActOnTheirUnits_22 : ∃ (c : Serve) (f : Started) (s : State), Serves s c 0x25 f ∧ f.p 20 1 < 24 ∧ f.p 21 1 = 1 ∧ (s.pin
    (f.p 20 1)).function = 0 ∧ (s.pin (f.p 20 1)).owner = .granted f.tenant ∧ s.pinNamed f.tenant (f.p 20 1) = false :=
  ⟨srv, cmd 0x25 (pp 20 3 + pp 21 1), serves (cmd 0x25 (pp 20 3 + pp 21 1)) (withPin { owner := .granted 0 }), by unfold Serves; decide +kernel⟩

theorem wit_PackageCommandsActOnTheirUnits_23 : ∃ (c : Serve) (f : Started) (s : State), Serves s c 0x26 f ∧ f.p 20 1 < 24 ∧ modeOk (f.p 20 1) (f.p 21
    1) = true ∧ f.p 24 2 ≠ 0 ∧ s.vectorOk .pf0 (f.p 26 2) = true ∧ (s.pin (f.p 20 1)).owner = .steward :=
  ⟨srv, pk3 0x26 (pp 20 3 + pp 21 5 + pp 22 9 + pp 24 1 + pp 26 2), serves (pk3 0x26 (pp 20 3 + pp 21 5 + pp 22 9 + pp 24 1 + pp 26 2)),
    by unfold Serves; decide +kernel⟩

theorem wit_PackageCommandsActOnTheirUnits_24 : ∃ (c : Serve) (f : Started) (s : State), Serves s c 0x26 f ∧ f.p 20 1 < 24 ∧ modeOk (f.p 20 1) (f.p 21
    1) = true ∧ f.p 24 2 ≠ 0 ∧ s.vectorOk .pf0 (f.p 26 2) = true ∧ (s.pin (f.p 20 1)).owner ≠ .steward :=
  ⟨srv, pk3 0x26 (pp 20 3 + pp 21 5 + pp 22 9 + pp 24 1 + pp 26 2), serves (pk3 0x26 (pp 20 3 + pp 21 5 + pp 22 9 + pp 24 1 + pp 26 2)) (withPin
    { owner := .granted 1 }),
    by unfold Serves; decide +kernel⟩

theorem wit_PackageCommandsActOnTheirUnits_25 : ∃ (c : Serve) (f : Started) (s : State) (p : PortRef), Serves s c 0x27 f ∧ f.accepted = false ∧
    s.linkRefusal f = none ∧ p = { xd := Fin.ofNat 8 (xdNumber (f.p 20 1)), lane := Fin.ofNat 8 (f.p 21 1) } ∧ f.p 22 1 ≠ 0 :=
  ⟨srv, pk3 0x27 (pp 20 16 + pp 22 17), serves (pk3 0x27 (pp 20 16 + pp 22 17)), xp, by unfold Serves; decide +kernel⟩

theorem wit_PackageCommandsActOnTheirUnits_26 : ∃ (c : Serve) (f : Started) (s : State) (p : PortRef), Serves s c 0x27 f ∧ f.accepted = false ∧
    s.linkRefusal f = none ∧ p = { xd := Fin.ofNat 8 (xdNumber (f.p 20 1)), lane := Fin.ofNat 8 (f.p 21 1) } ∧ f.p 22 1 = 0 :=
  ⟨srv, pk3 0x27 (pp 20 16), withPort up0 (serves (pk3 0x27 (pp 20 16))), xp, by unfold Serves; decide +kernel⟩

theorem wit_CommandsAreFetchedInTurn_1 : ∃ (r : SubRing) (a : HostAnswer) (s : State), s.mayFetch r = false :=
  ⟨.ctx 0, .timeout, base, by decide +kernel⟩

theorem wit_CommandsAreFetchedInTurn_2 : ∃ (r : SubRing) (w : Flit) (s : State) (f : Started), s.mayFetch r = true ∧
    f = { id := s.host.nextId, ring := r, consAfter := (s.ring (subSel r)).cons + 1, w := w } ∧
    (bitAt w 9 = false ∨ s.inProgress r = 0) ∧ s.conflicts f = false ∧ s.refusal f = none
    :=
  ⟨.admin, BitVec.ofNat 512 (0x28 + pp 2 0xFF), fetchS, fetched (0x28 + pp 2 0xFF), by decide +kernel⟩

theorem wit_CommandsAreFetchedInTurn_3 : ∃ (r : SubRing) (w : Flit) (s : State) (f : Started) (st : Status), s.mayFetch r = true ∧
    f = { id := s.host.nextId, ring := r, consAfter := (s.ring (subSel r)).cons + 1, w := w } ∧
    (bitAt w 9 = false ∨ s.inProgress r = 0) ∧ s.conflicts f = false ∧
    s.refusal f = some st :=
  ⟨.admin, BitVec.ofNat 512 0xFE, fetchS, fetched 0xFE, E_BAD_OPCODE, by decide +kernel⟩

theorem wit_CommandsAreFetchedInTurn_4 : ∃ (r : SubRing) (w : Flit) (s : State) (f : Started), s.mayFetch r = true ∧
    f = { id := s.host.nextId, ring := r, consAfter := (s.ring (subSel r)).cons + 1, w := w } ∧
    ((bitAt w 9 = true ∧ 0 < s.inProgress r) ∨ s.conflicts f = true) :=
  ⟨.admin, BitVec.ofNat 512 (0x228 + pp 2 0xFF), fetchS [pk3 0x28 0], fetched (0x228 + pp 2 0xFF), by decide +kernel⟩

theorem wit_CommandsAreFetchedInTurn_5 : ∃ (r : SubRing) (a : HostAnswer) (s : State), s.mayFetch r = true ∧ (∀ w, a ≠ .entry w) :=
  ⟨.admin, .abort, fetchS, by refine ⟨by decide +kernel, fun w => ?_⟩; intro h; cases h⟩

/-! ## Rules stated whole -/

/-- A SET_PLACEMENT of a policy and a limit. -/
def placeCmd (policy limit : Nat) : Started := cmd 0x16 (pp 20 policy + pp 21 limit)

/-- The state of a safe-state record that is held already. -/
def pendingSafe : State := withAo ao0 descending

/-- A state whose twins are bound with SAFE. -/
def safeTwin : State := twS { bw with safeMode := true } []

theorem wit_PlacementIsFirstFreeOrAffinity_1 : ∃ (c : Serve) (f : Started) (s : State), Serves s c 0x03 f ∧ s.openRefusal f = none :=
  ⟨srv, openCmd 0x11, openS 0x11, by unfold Serves; decide +kernel⟩

theorem wit_PlacementIsFirstFreeOrAffinity_2 : ∃ (c : Serve) (f : Started) (s : State), Serves s c 0x16 f ∧ s.isFollow f.tenant = false ∧ f.p 20 1 = 0
    :=
  ⟨srv, placeCmd 0 9, serves (placeCmd 0 9), by unfold Serves; decide +kernel⟩

theorem wit_PlacementIsFirstFreeOrAffinity_3 : ∃ (c : Serve) (f : Started) (s : State), Serves s c 0x16 f ∧ s.isFollow f.tenant = false ∧ f.p 20 1 = 1
    ∧ 1 ≤ f.p 21 1 :=
  ⟨srv, placeCmd 1 255, serves (placeCmd 1 255), by unfold Serves; decide +kernel⟩

theorem wit_PlacementIsFirstFreeOrAffinity_4 : ∃ (c : Serve) (f : Started) (s : State), Serves s c 0x16 f ∧ s.isFollow f.tenant = false ∧ (1 < f.p 20
    1 ∨ (f.p 20 1 = 1 ∧ f.p 21 1 = 0)) :=
  ⟨srv, placeCmd 2 1, serves (placeCmd 2 1), by unfold Serves; decide +kernel⟩

theorem wit_DoorbellsBeforeReadyWait_1 : ∃ (v : Word) (s : State), s.fnLive .pf0 = true ∧ s.host.ready = false ∧ DoorbellTakes (s.ring .asq) v :=
  ⟨3, withRing .asq ringOn notReady, by unfold DoorbellTakes; decide +kernel⟩

theorem wit_DoorbellsBeforeReadyWait_2 : ∃ (c : Tenant) (v : Word) (s : State), s.fnLive (.vf c) = true ∧ s.host.ready = false ∧ (s.ctx c).isOpen =
    true ∧ (s.ctx c).closing = false ∧ DoorbellTakes (s.ring (.csq c)) v :=
  ⟨0, 2, withRing (.csq 0) { ringOn with prod := 1 } notReady, by unfold DoorbellTakes; decide +kernel⟩

theorem wit_DoorbellsBeforeReadyWait_3 : ∃ (r : SubRing) (a : HostAnswer) (s : State), s.host.ready = false :=
  ⟨.admin, .entry 0, withRing .asq ringOn notReady, by decide +kernel⟩

theorem wit_DoorbellsBeforeReadyWait_4 : ∃ (us : Word) (w : Flit) (s : State), s.alive = true ∧ s.host.ready = false ∧ s.host.safePending = false ∧
    s.host.straps.testModeN = true ∧ s.waitingRing .admin = true ∧ s.host.started = [] ∧ s.host.lastServed = none :=
  ⟨100, BitVec.ofNat 512 (0x28 + pp 2 0xFF), withRing .asq ringOn { notReady with host := { notReady.host with straps := (testS true).host.straps } },
    by decide +kernel⟩

theorem wit_EveryCauseLeadsToP3_2 : ∃ (cause : Nat) (detail : Nat) (src : Src) (s : State), MayEnterSafe s :=
  ⟨5, 9, 0x6000, base, by unfold MayEnterSafe; decide +kernel⟩

theorem wit_EveryCauseLeadsToP3_3 : ∃ (cause : Nat) (detail : Nat) (src : Src) (s : State), s.power.pwrGood = true ∧ s.host.safePending = true ∧
    s.ao.valid = true :=
  ⟨5, 9, 0x6000, pendingSafe, by decide +kernel⟩

theorem wit_EveryCauseLeadsToP3_4 : ∃ (i : Instr) (cause : Nat) (s : State), Raises i s cause ∧ MayEnterSafe s :=
  ⟨.thermtripN, 5, base, by unfold MayEnterSafe Raises; decide +kernel⟩

theorem wit_EveryCauseLeadsToP3_5 : ∃ (i : Instr) (cause : Nat) (s : State), Raises i s cause ∧ s.power.pwrGood = true ∧ s.host.safePending = true ∧
    s.ao.valid = true :=
  ⟨.lockstep, 2, pendingSafe, by unfold Raises; decide +kernel⟩

theorem wit_LiveWritesAreLogged_1 : ∃ (x : Site) (w : Src) (i : Nat) (v : Word) (s : State), s.slotUp x = true ∧ s.tileStateNum x ≠ 0 ∧ HoldsField
    (siteKind x) i :=
  ⟨m0, 0x12, 4, 77, at_ m0 (runs 0), by unfold HoldsField; decide +kernel⟩

theorem wit_LiveWritesAreLogged_2 : ∃ (off : BitVec 26) (d : Nat) (u : Nat) (i : Nat) (x : Site) (v : DWord) (s : State), s.fnLive .pf0 = true ∧
    0x01000000 ≤ off.toNat ∧ off.toNat < 0x02000000 ∧ off.toNat % 4 = 0 ∧ s.ctlTarget (s.bar4Dpa off.toNat) = some (d, u, 4 * i) ∧ s.slotOf d u =
    .tile x ∧ s.tileStateNum x ≠ 0 ∧ HoldsField (siteKind x) i :=
  ⟨0x01000010, 0, siteUnit m0, 4, m0, 77,
    { at_ m0 (runs 0) with host := { base.host with dbgBase := BitVec.ofNat 64 (2 ^ 41 + siteUnit m0 * 2 ^ 15) } },
    by unfold HoldsField; decide +kernel⟩

theorem wit_AFailedFetchStopsItsRing_1 : ∃ (r : SubRing) (a : HostAnswer) (e : HostError) (s : State), s.mayFetch r = true ∧ failedBy a = some e :=
  ⟨.admin, .abort, .abort, fetchS, by decide +kernel⟩

theorem wit_DescentReachesP3_1 : ∃ (d : Die) (v : State), d.val < 16 ∧ v.power.descent = true ∧ v.alive = true ∧ v.stepDue d.val = true ∧ (∀ e, e < 16
    → v.tilesQuiet e = true) ∧ 0 < stepsLeft v d.val :=
  ⟨5, descending, by unfold stepsLeft; decide +kernel⟩

theorem wit_DescentReachesP3_2 : ∃ (v : State), v.power.descent = true ∧ (∀ d, d < 16 → stepsLeft v d = 0) :=
  ⟨opened, by unfold stepsLeft; decide +kernel⟩

theorem wit_ContextCommandsComplete_1 : ∃ (c : Serve) (f : Started) (s : State), Serves s c 0x03 f ∧ s.openRefusal f = none :=
  wit_PlacementIsFirstFreeOrAffinity_1

theorem wit_ContextCommandsComplete_2 : ∃ (c : Serve) (f : Started) (s : State), Serves s c 0x04 f ∧ s.instsOf f.tenant = [] ∧ (own f s).replay = none
    ∧ ∀ g ∈ s.host.started, onContext f.tenant g = true → isClose f.tenant g = true :=
  wit_ContextsOpenShareAndClose_3

theorem wit_ContextCommandsComplete_3 : ∃ (c : Serve) (f : Started) (s : State), Serves s c 0x05 f ∧ f.p 20 1 ≤ 64 ∧ f.p 21 1 ≤ 1 ∧ s.otherShares
    f.tenant + f.p 20 1 ≤ 62 :=
  wit_ContextsOpenShareAndClose_4

theorem wit_ContextCommandsComplete_4 : ∃ (c : Serve) (f : Started) (s : State), Serves s c 0x0B f ∧ 0 < f.p 20 4 ∧ f.p 20 4 ≤ 10000000 ∧ f.p 24 1 = 0
    :=
  wit_ContextsOpenShareAndClose_6

theorem wit_ContextCommandsComplete_5 : ∃ (c : Serve) (f : Started) (s : State), Serves s c 0x16 f ∧ s.isFollow f.tenant = false ∧ f.p 20 1 = 0 :=
  wit_PlacementIsFirstFreeOrAffinity_2

theorem wit_ContextCommandsComplete_6 : ∃ (c : Serve) (f : Started) (s : State), Serves s c 0x17 f ∧ f.p 20 2 < 4096 ∧ f.p 22 1 ≤ 3 ∧ s.vectorOk (.vf
    f.tenant) (f.p 28 2) = true :=
  wit_ContextsOpenShareAndClose_10

theorem wit_ContextCommandsComplete_7 : ∃ (c : Serve) (f : Started) (s : State), Serves s c 0x06 f ∧ ∃ k u, LoadPasses s f k u :=
  let ⟨c, f, s, u, k, h, p⟩ := wit_LayoutsAreLoadedSteppedAndSaved_1; ⟨c, f, s, h, k, u, p⟩

theorem wit_ContextCommandsComplete_8 : ∃ (c : Serve) (f : Started) (s : State), Serves s c 0x07 f ∧ f.accepted = false ∧ ∃ i, s.inst? (BitVec.ofNat 8
    (f.p 20 1)) = some i ∧ i.id = BitVec.ofNat 8 (f.p 20 1) ∧ i.tenant = f.tenant ∧ i.loaded = true ∧ i.run.running = false :=
  ⟨srv, cmd 7 (pp 20 1), serves (cmd 7 (pp 20 1)) (withInst inst0), by unfold Serves; decide +kernel, by decide +kernel, inst0, by decide +kernel⟩

theorem wit_ContextCommandsComplete_9 : ∃ (c : Serve) (f : Started) (s : State), Serves s c 0x08 f ∧ f.accepted = false ∧ s.stepRefusal f = none ∧
    (s.inst? (BitVec.ofNat 8 (f.p 20 1))).isSome = true :=
  let ⟨c, f, s, i, h, a, r, e⟩ := wit_LayoutsAreLoadedSteppedAndSaved_5; ⟨c, f, s, h, a, r, by rw [e]; rfl⟩

theorem wit_ContextCommandsComplete_10 : ∃ (c : Serve) (f : Started) (s : State), Serves s c 0x09 f ∧ PreemptPasses s f 0 ∧ (withPreempting s f
    false).preemptReady f.tenant false = true :=
  wit_LayoutsAreLoadedSteppedAndSaved_7

theorem wit_ContextCommandsComplete_11 : ∃ (c : Serve) (f : Started) (s : State), Serves s c 0x09 f ∧ PreemptPasses s f 1 ∧ ((withPreempting s f
    true).evictStart f.tenant).preemptReady f.tenant true = true :=
  wit_LayoutsAreLoadedSteppedAndSaved_9

theorem wit_ContextCommandsComplete_12 : ∃ (c : Serve) (f : Started) (s : State), Serves s c 0x0A f ∧ s.power.pstate = .p0 ∧ ∃ v, (own f s).saved =
    some v ∧ s.savedBusy f.tenant v = false ∧ s.savedBad v = false :=
  let ⟨c, f, s, v, h, e, p, b, d⟩ := wit_LayoutsAreLoadedSteppedAndSaved_11; ⟨c, f, s, h, p, v, e, b, d⟩

theorem wit_ContextCommandsComplete_13 : ∃ (c : Serve) (f : Started) (s : State), Serves s c 0x1C f ∧ ∃ i r, ReplayPasses s f i r :=
  let ⟨c, f, s, i, r, h, p⟩ := wit_LayoutsAreLoadedSteppedAndSaved_13; ⟨c, f, s, h, i, r, p⟩

theorem wit_MemoryCommandsComplete_1 : ∃ (c : Serve) (f : Started) (s : State), Serves s c 0x0C f ∧ MapOk s f ∧ bitsOf f.w 165 1 = 1 ∧ f.p 40 8 %
    65536 = 0 ∧ f.p 40 8 + f.p 32 8 ≤ 2 ^ 48 ∧ (∀ i, i < f.p 32 8 / 65536 → f.p 40 8 / 65536 + i ∈ (own f s).frameSet) ∧ RoomForTables s (3 * (f.p 32
    8 / 65536) + 1) :=
  wit_MemoryAndWindowsAreMapped_1

theorem wit_MemoryCommandsComplete_2 : ∃ (c : Serve) (f : Started) (s : State), Serves s c 0x0D f ∧ f.p 32 8 ≠ 0 ∧ f.p 24 8 % 65536 = 0 ∧ f.p 32 8 %
    65536 = 0 ∧ f.p 24 8 + f.p 32 8 ≤ 2 ^ 48 ∧ s.translating f.tenant = false ∧ s.mediaCovers f.tenant (f.p 24 8) (f.p 32 8) = false ∧ RoomForTables s
    2 :=
  wit_MemoryAndWindowsAreMapped_4

theorem wit_MemoryCommandsComplete_3 : ∃ (c : Serve) (f : Started) (s : State), Serves s c 0x0E f ∧ f.p 22 1 = 0 ∧ (s.faultTile f.tenant (f.p 20
    2)).isSome = true :=
  let ⟨c, f, s, _, h, e, k⟩ := wit_MemoryAndWindowsAreMapped_5; ⟨c, f, s, h, k, by rw [e]; rfl⟩

theorem wit_MemoryCommandsComplete_4 : ∃ (c : Serve) (f : Started) (s : State), Serves s c 0x0E f ∧ f.p 22 1 = 1 ∧ (s.faultTile f.tenant (f.p 20
    2)).isSome = true :=
  let ⟨c, f, s, _, h, e, k⟩ := wit_MemoryAndWindowsAreMapped_6; ⟨c, f, s, h, k, by rw [e]; rfl⟩

theorem wit_MemoryCommandsComplete_5 : ∃ (c : Serve) (f : Started) (s : State), Serves s c 0x0F f ∧ f.p 20 1 = 0 ∧ f.windowBad = false ∧ f.exportBad =
    false ∧ s.exportRefusal f = none ∧ (freeHandle s.mem.exports).isSome = true :=
  let ⟨c, f, s, _, h, a, w, b, e, k⟩ := wit_MemoryAndWindowsAreMapped_9; ⟨c, f, s, h, a, w, b, e, by rw [k]; rfl⟩

theorem wit_MemoryCommandsComplete_6 : ∃ (c : Serve) (f : Started) (s : State), Serves s c 0x0F f ∧ f.p 20 1 = 1 ∧ f.windowBad = false ∧ f.p 24 2 ≤
    4095 ∧ (freeHandle (own f s).imports).isSome = true ∧ ∃ p, s.windowPort (f.window true) = some p ∧ isWindowMode (s.port p).mode = true :=
  let ⟨c, f, s, p, _, h, a, w, b, e, m, k⟩ := wit_MemoryAndWindowsAreMapped_10; ⟨c, f, s, h, a, w, b, by unfold own; rw [k]; rfl, p, e, m⟩

theorem wit_MemoryCommandsComplete_7 : ∃ (c : Serve) (f : Started) (s : State), Serves s c 0x10 f ∧ f.accepted = false ∧ f.p 20 1 = 0 ∧ (s.exportOf
    (f.p 24 2)).isOpen = true ∧ (s.exportOf (f.p 24 2)).closing = none ∧ (s.exportOf (f.p 24 2)).tenant = tenantByte f.tenant ∧ s.exportBusy (f.p 24
    2) = false :=
  wit_MemoryAndWindowsAreMapped_11

theorem wit_StreamCommandsComplete_1 : ∃ (c : Serve) (f : Started) (s : State), Serves s c 0x11 f ∧ f.p 21 1 = 0 ∧ s.openStreams f.tenant < (own f
    s).streamQuota ∧ s.freeRecord.isSome = true :=
  let ⟨c, f, s, _, h, a, q, e⟩ := wit_StreamsSessionsAndRecordings_1; ⟨c, f, s, h, a, q, by rw [e]; rfl⟩

theorem wit_StreamCommandsComplete_2 : ∃ (c : Serve) (f : Started) (s : State), Serves s c 0x12 f ∧ ∃ n, s.streamOf f.tenant (f.p 20 4) = some n ∧
    (s.stream n).closeCmd = none ∧ (s.stream n).state ≠ 3 :=
  let ⟨c, f, s, n, h, r⟩ := wit_StreamsSessionsAndRecordings_3; ⟨c, f, s, h, n, r⟩

theorem wit_StreamCommandsComplete_3 : ∃ (c : Serve) (f : Started) (s : State), Serves s c 0x13 f ∧ s.isFollow f.tenant = false ∧ bitsOf (BitVec.ofNat
    128 (f.p 32 16)) 48 16 = 0 ∧ ∃ n, s.streamOf f.tenant (f.p 20 4) = some n ∧ (s.stream n).state ≠ 4 ∧ (s.stream n).state ≠ 5 ∧ (s.stream
    n).closePending = false ∧ (s.stream n).inputs.length < 8 :=
  let ⟨c, f, s, n, h, e, o, z, r⟩ := wit_StreamsSessionsAndRecordings_5; ⟨c, f, s, h, o, z, n, e, r⟩

theorem wit_StreamCommandsComplete_4 : ∃ (c : Serve) (f : Started) (s : State), Serves s c 0x14 f ∧ (s.streamOf f.tenant (f.p 20 4)).isSome = true :=
  let ⟨c, f, s, _, h, e, _⟩ := wit_StreamsSessionsAndRecordings_7; ⟨c, f, s, h, by rw [e]; rfl⟩

theorem wit_StreamCommandsComplete_5 : ∃ (c : Serve) (f : Started) (s : State), Serves s c 0x15 f ∧ ∃ i bs bad s1, s.inst? (BitVec.ofNat 8 (f.p 20 1))
    = some i ∧ i.id = BitVec.ofNat 8 (f.p 20 1) ∧ i.tenant = f.tenant ∧ i.loaded = true ∧ i.binding = none ∧ i.run.running = false ∧ s.vaRead f.tenant
    0 (f.p 24 8) 128 (stewardAccess ledgerSrc) = (some (bs, bad), s1) ∧ BlockOk s i f bs :=
  ⟨srv, cmd 0x15 (pp 20 1 + pp 24 0), blockS, by unfold Serves; decide +kernel, inst0, blockBs, false,
    (blockS.vaRead 0 0 0 128 (stewardAccess ledgerSrc)).2, by unfold BlockOk; decide +kernel⟩

theorem wit_StreamCommandsComplete_6 : ∃ (c : Serve) (f : Started) (s : State), Serves s c 0x18 f ∧ ∃ md n i s2, SessionPasses s f md n i s2 :=
  let ⟨c, f, s, s2, md, n, i, h, p⟩ := wit_StreamsSessionsAndRecordings_10; ⟨c, f, s, h, md, n, i, s2, p⟩

theorem wit_StreamCommandsComplete_7 : ∃ (c : Serve) (f : Started) (s : State), Serves s c 0x19 f ∧ f.accepted = false ∧ ∃ x, s.sessOf f.tenant (f.p
    20 4) = some x ∧ (s.sess x).due = [] ∧ s.sessQuiet x = true :=
  let ⟨c, f, s, x, h, a, r⟩ := wit_StreamsSessionsAndRecordings_11; ⟨c, f, s, h, a, x, r⟩

theorem wit_StreamCommandsComplete_8 : ∃ (c : Serve) (f : Started) (s : State), Serves s c 0x1A f ∧ RecordPasses s f :=
  wit_StreamsSessionsAndRecordings_13

theorem wit_StreamCommandsComplete_9 : ∃ (c : Serve) (f : Started) (s : State), Serves s c 0x1B f ∧ (own f s).recorder.isSome = true :=
  let ⟨c, f, s, _, h, e⟩ := wit_StreamsSessionsAndRecordings_14; ⟨c, f, s, h, by unfold own; rw [e]; rfl⟩

theorem wit_PackageCommandsComplete_1 : ∃ (c : Serve) (f : Started) (s : State), Serves s c 0x1D f ∧ f.accepted = false ∧ f.p 20 1 ≤ 1 ∧ f.p 21 1 ≤ 1
    ∧ s.twinUp = true ∧ s.links.twin.tenant = none ∧ (own f s).replay = none ∧ (s.port twinPort).peerId.toNat = f.p 24 8 :=
  wit_PackageCommandsActOnTheirUnits_1

theorem wit_PackageCommandsComplete_2 : ∃ (c : Serve) (f : Started) (s : State), Serves s c 0x1E f ∧ f.accepted = false ∧ Bound s ∧
    s.links.twin.tenant = some f.tenant ∧ s.links.twin.unbindCmd = none ∧ ∀ i ∈ s.instsOf f.tenant, i.run.running = false :=
  wit_PackageCommandsActOnTheirUnits_2

theorem wit_PackageCommandsComplete_3 : ∃ (bad : BitVec 9) (src : Src) (c : Serve) (f : Started) (s : State), Serves s c 0x1F f ∧ f.accepted = false ∧
    f.p 20 2 ≤ 0x1FF ∧ s.power.pstate ≠ .p2 ∧ s.stepRuns = false ∧ s.sessionRuns = false ∧ bad &&& BitVec.ofNat 9 (f.p 20 2) = 0 ∧ f.p 20 2 % 16 = 0
    :=
  let ⟨c, f, b, r, s, p⟩ := wit_PackageCommandsActOnTheirUnits_5; ⟨b, r, c, f, s, p⟩

theorem wit_PackageCommandsComplete_4 : ∃ (c : Serve) (f : Started) (s : State), Serves s c 0x20 f ∧ f.accepted = false ∧ s.downRefusal f = none ∧ f.p
    21 1 = 0 :=
  wit_PackageCommandsActOnTheirUnits_7

theorem wit_PackageCommandsComplete_5 : ∃ (bad : BitVec 9) (c : Serve) (f : Started) (s : State), Serves s c 0x21 f ∧ f.accepted = true ∧ (s.die (f.p
    20 1)).full = true ∧ bad &&& s.upClasses (f.p 20 1) = 0 :=
  let ⟨c, f, b, s, p⟩ := wit_PackageCommandsActOnTheirUnits_9; ⟨b, c, f, s, p⟩

theorem wit_PackageCommandsComplete_6 : ∃ (c : Serve) (f : Started) (s : State), Serves s c 0x22 f ∧ f.p 20 1 = 0 ∧ s.power.pstate = .p2 ∧ f.accepted
    = true ∧ ∀ d ∈ p2Dies, (s.die d).full = true :=
  wit_PackageCommandsActOnTheirUnits_13

theorem wit_PackageCommandsComplete_7 : ∃ (c : Serve) (f : Started) (s : State), Serves s c 0x22 f ∧ f.p 20 1 = 2 ∧ f.accepted = false ∧
    s.power.pstate ≠ .p2 ∧ s.stepRuns = false ∧ s.sessionRuns = false ∧ s.domainRuns = false :=
  wit_PackageCommandsActOnTheirUnits_14

theorem wit_PackageCommandsComplete_8 : ∃ (c : Serve) (f : Started) (s : State), Serves s c 0x22 f ∧ f.p 20 1 = 3 ∧ MayEnterSafe s :=
  wit_PackageCommandsActOnTheirUnits_16

theorem wit_PackageCommandsComplete_9 : ∃ (c : Serve) (f : Started) (s : State), Serves s c 0x23 f ∧ f.p 20 1 < 3 ∧ s.fieldGated = true ∧ s.clk.units
    % 480 = 0 :=
  wit_PackageCommandsActOnTheirUnits_17

theorem wit_PackageCommandsComplete_10 : ∃ (c : Serve) (f : Started) (s : State), Serves s c 0x24 f ∧ f.p 20 1 ≤ 2 :=
  ⟨srv, pk3 0x24 (pp 20 2 + pp 24 77), serves (pk3 0x24 (pp 20 2 + pp 24 77)), by unfold Serves; decide +kernel⟩

theorem wit_PackageCommandsComplete_11 : ∃ (c : Serve) (f : Started) (s : State), Serves s c 0x25 f ∧ f.p 20 1 < 24 ∧ f.p 21 1 = 0 ∧ (s.pin (f.p 20
    1)).function = 0 ∧ (s.pin (f.p 20 1)).owner = .steward :=
  wit_PackageCommandsActOnTheirUnits_20

theorem wit_PackageCommandsComplete_12 : ∃ (c : Serve) (f : Started) (s : State), Serves s c 0x25 f ∧ f.p 20 1 < 24 ∧ f.p 21 1 = 1 ∧ (s.pin (f.p 20
    1)).function = 0 ∧ (s.pin (f.p 20 1)).owner = .granted f.tenant ∧ s.pinNamed f.tenant (f.p 20 1) = false :=
  wit_PackageCommandsActOnTheirUnits_22

theorem wit_PackageCommandsComplete_13 : ∃ (c : Serve) (f : Started) (s : State), Serves s c 0x26 f ∧ f.p 20 1 < 24 ∧ modeOk (f.p 20 1) (f.p 21 1) =
    true ∧ f.p 24 2 ≠ 0 ∧ s.vectorOk .pf0 (f.p 26 2) = true ∧ (s.pin (f.p 20 1)).owner = .steward :=
  wit_PackageCommandsActOnTheirUnits_23

theorem wit_PackageCommandsComplete_14 : ∃ (c : Serve) (f : Started) (s : State), Serves s c 0x27 f ∧ f.accepted = false ∧ s.linkRefusal f = none ∧
    f.p 22 1 = 0 :=
  let ⟨c, f, s, _, h, a, r, _, z⟩ := wit_PackageCommandsActOnTheirUnits_26; ⟨c, f, s, h, a, r, z⟩

theorem wit_EventsAroundStartsRun_1 : ∃ (c : Tenant) (s : State), s.fnLive (.vf c) = true ∧ (s.ctx c).isOpen = false :=
  wit_FunctionsAreResetWithTheirContexts_1

theorem wit_EventsAroundStartsRun_2 : ∃ (c : Tenant) (s : State), s.fnLive (.vf c) = true :=
  wit_FunctionsAreResetWithTheirContexts_4

theorem wit_EventsAroundStartsRun_3 : ∃ (s : State), s.alive = true ∧ s.host.linkUp.getLsbD 0 = true :=
  ⟨base, by decide +kernel⟩

theorem wit_EventsAroundStartsRun_5 : ∃ (s : State), s.power.pwrGood = true ∧ s.alive = true ∧ s.host.safePending = false :=
  wit_StartsAndTheSafeState_2

theorem wit_EventsAroundStartsRun_6 : ∃ (s : State), s.power.pwrGood = true :=
  wit_StartsAndTheSafeState_3

theorem wit_EventsAroundStartsRun_7 : ∃ (us : Word) (s : State), s.alive = true ∧ s.host.ready = false ∧ s.host.safePending = false ∧
    s.host.straps.testModeN = true :=
  wit_StartsAndTheSafeState_4

theorem wit_EventsAroundStartsRun_8 : ∃ (s : State), s.alive = true ∧ MayEnterSafe s :=
  wit_StartsAndTheSafeState_6

theorem wit_EventsAroundStartsRun_9 : ∃ (s : State), MayEnterSafe s :=
  wit_StartsAndTheSafeState_9

theorem wit_EventsAroundStartsRun_10 : ∃ (d : Die) (c : Int) (s : State), s.alive = true ∧ (dieKind s.pkg.variant d.val).isSome = true ∧ (s.die
    d.val).state ≠ .off ∧ c < warnLimit s.pkg.variant d.val :=
  let ⟨d, c, s, a, k, o, w, _⟩ := wit_StartsAndTheSafeState_11; ⟨d, c, s, a, k, o, w⟩

theorem wit_EventsAroundStartsRun_11 : ∃ (s : State), s.alive = true ∧ MayEnterSafe s :=
  wit_StartsAndTheSafeState_12

theorem wit_EventsAroundStartsRun_12 : ∃ (s : State), s.alive = true ∧ MayEnterSafe s :=
  wit_StartsAndTheSafeState_12

theorem wit_EventsAroundStartsRun_13 : ∃ (s : State), s.power.descent = true ∧ s.descended = true :=
  wit_StartsAndTheSafeState_14

theorem wit_EventsAroundStartsRun_14 : ∃ (s : State), s.power.limiterOpen = false :=
  wit_StartsAndTheSafeState_15

theorem wit_EventsAroundStartsRun_16 : ∃ (n : Word) (s : State), s.power.pwrGood = false :=
  wit_StartsAndTheSafeState_17

/-! ## The whole machine -/

theorem wit_AStepRunsTheCommandInFront_1 : ∃ (c : Instr) (rest : List Instr) (s : State), s.pending = c :: rest :=
  ⟨.startAssay (.pass 9), [.heartbeat], { base with pending := [.startAssay (.pass 9), .heartbeat] }, by decide +kernel⟩

theorem wit_AnEmptyQueueLetsACyclePass_1 : ∃ (s : State), s.pending = [] ∧ s.alive = false :=
  ⟨off, by decide +kernel⟩

theorem wit_AnEmptyQueueLetsACyclePass_2 : ∃ (s : State), s.pending = [] ∧ s.alive = true ∧ (∀ c, (s.ctx c).closing = false) :=
  ⟨at_ m0 (runs (ins 0x30 0)), by decide +kernel⟩

theorem wit_EveryStepKeepsTheInvariant_1 : ∃ (s : State) (t : State), s.Sound ∧ step s = .next t :=
  ⟨hbmS false, (match step (hbmS false) with | .next t => t | _ => base),
    ⟨by decide +kernel, by decide +kernel, by decide +kernel, by decide +kernel, by decide +kernel⟩, rfl⟩

end Sys2Proof.Tests
end

section
/-! PROOFS. What the host's register writes and the writes through a tile's views change (R97, R98, R150, R212, R298, R302). -/

namespace Sys2Proof.Proofs

open Sys2Proof Sys2Proof.Machine Sys2Proof.Claims

/-! ## The words of TILE_CFG -/

/-- A bit of a configuration after a write of its word `i`: the word's own bits come from the value, every other bit stays. -/
theorem getLsbD_setWord (c : Flit) (i : Nat) (v : Word) (k : Nat) (hk : k < 512) :
    (setWord c (4 * i) v).getLsbD k = if 32 * i ≤ k ∧ k < 32 * i + 32 then v.getLsbD (k - 32 * i) else c.getLsbD k := by
  have ones (m : Nat) (hm : m < 512) : (0xFFFFFFFF : Flit).getLsbD m = decide (m < 32) := by
    rw [show (0xFFFFFFFF : Flit) = BitVec.ofNat 512 (2 ^ 32 - 1) from rfl, BitVec.getLsbD_ofNat, Nat.testBit_two_pow_sub_one]
    simp [hm]
  have shift : 8 * (4 * i) = 32 * i := by omega
  simp only [setWord, shift, BitVec.getLsbD_or, BitVec.getLsbD_and, BitVec.getLsbD_not, BitVec.getLsbD_shiftLeft,
    BitVec.getLsbD_setWidth, ones _ (show k - 32 * i < 512 by omega), hk, decide_true, Bool.true_and]
  by_cases low : k < 32 * i
  · simp [low, Nat.not_le.mpr low]
  · have width : k - 32 * i < 512 := by omega
    by_cases high : k < 32 * i + 32
    · have inside : k - 32 * i < 32 := by omega
      simp [low, width, inside, high, Nat.not_lt.mp low]
    · have outside : 32 ≤ k - 32 * i := by omega
      simp [high, width, Nat.not_lt.mpr outside, BitVec.getLsbD_of_ge v _ outside]

theorem extractLsb'_setWord_self (c : Flit) {i : Nat} (v : Word) (h : i < 16) : (setWord c (4 * i) v).extractLsb' (32 * i) 32 = v := by
  ext n hn
  rw [BitVec.getElem_extractLsb', getLsbD_setWord c i v _ (by omega), if_pos (by omega), Nat.add_sub_cancel_left]
  exact BitVec.getLsbD_eq_getElem hn

theorem extractLsb'_setWord_other (c : Flit) {i j : Nat} (v : Word) (hj : j < 16) (hne : j ≠ i) :
    (setWord c (4 * i) v).extractLsb' (32 * j) 32 = c.extractLsb' (32 * j) 32 := by
  ext n hn
  rw [BitVec.getElem_extractLsb', BitVec.getElem_extractLsb', getLsbD_setWord c i v _ (by omega), if_neg (by omega)]

theorem holdsField_lt {k : TileKind} {i : Nat} (h : HoldsField k i) : i < 16 := by
  obtain ⟨le_six, -, -⟩ := h
  omega

/-- The words whose fields take no bit at a kind of site are those that hold no field. -/
theorem rwsMask_eq_zero_iff (k : TileKind) (i : Nat) : rwsMask k i = 0#32 ↔ ¬ HoldsField k i := by
  match i with
  | 0 => simp [rwsMask, HoldsField]
  | 1 => cases k <;> simp [rwsMask, HoldsField, clearBits]
  | 2 | 3 | 4 | 5 => simp [rwsMask, HoldsField]
  | 6 => cases k <;> simp [rwsMask, HoldsField]
  | n + 7 => simp [rwsMask, HoldsField]

/-- What a word with a field keeps of a value is what its mask passes. -/
theorem and_rwsMask_eq_cfgKept {k : TileKind} {i : Nat} (v : Word) (h : HoldsField k i) : v &&& rwsMask k i = cfgKept k i v := by
  obtain ⟨le_six, -, only_b⟩ := h
  have ones : (0xFFFFFFFF : Word) = BitVec.allOnes 32 := by decide
  match i with
  | 0 | 1 => rfl
  | 2 | 3 | 4 | 5 => exact (congrArg (v &&& ·) ones).trans BitVec.and_allOnes
  | 6 => simp [rwsMask, cfgKept, only_b rfl]
  | n + 7 => omega

/-! ## Writes through the views of a tile (R97, R98) -/

theorem shadowWord_putShadow {k : TileKind} {i : Nat} (t : Tile) (v : Word) (h : HoldsField k i) : ShadowWord k t (t.putShadow k i v) i v := by
  refine ⟨?_, fun j hj hne => extractLsb'_setWord_other _ _ hj hne, rfl⟩
  rw [← and_rwsMask_eq_cfgKept v h]
  exact extractLsb'_setWord_self _ _ (holdsField_lt h)

/-- The view offset of a word of TILE_CFG, as a number. -/
theorem toNat_cfgOffset {i : Nat} (h : i < 16) : (BitVec.ofNat 14 (4 * i)).toNat = 4 * i := by
  rw [BitVec.toNat_ofNat]
  omega

theorem exec_activeViewWrite_cfg {x : Site} {s : State} {i : Nat} (w : Src) (v : Word) (up : s.slotUp x = true) (h : i < 16) :
    exec (.activeViewWrite x w (BitVec.ofNat 14 (4 * i)) v) s = .next (s.activeWrite x w (4 * i) v) := by
  have there : (s.activeRead x (4 * i)).isSome = true := by simp [State.activeRead, show 4 * i < 64 by omega]
  change execActiveViewWrite x w (BitVec.ofNat 14 (4 * i)) v s = _
  simp [execActiveViewWrite, toNat_cfgOffset h, up, there]

theorem exec_shadowViewWrite_cfg {x : Site} {s : State} {i : Nat} (w : Src) (v : Word) (up : s.slotUp x = true) (h : i < 16) :
    exec (.shadowViewWrite x w (BitVec.ofNat 14 (4 * i)) v) s = .next (s.shadowWrite x (4 * i) v) := by
  change execShadowViewWrite x w (BitVec.ofNat 14 (4 * i)) v s = _
  simp [execShadowViewWrite, toNat_cfgOffset h, up]

theorem activeWrite_without_field {x : Site} {i : Nat} (s : State) (w : Src) (v : Word) (h : i < 16) (noField : ¬ HoldsField (siteKind x) i) :
    s.activeWrite x w (4 * i) v = s := by
  simp [State.activeWrite, show 4 * i < 64 by omega, rwsMask_eq_zero_iff, noField]

theorem shadowWrite_without_field {x : Site} {i : Nat} (s : State) (v : Word) (noField : ¬ HoldsField (siteKind x) i) :
    s.shadowWrite x (4 * i) v = s := by
  simp [State.shadowWrite, rwsMask_eq_zero_iff, noField]

theorem shadowWrite_of_field {x : Site} {i : Nat} (s : State) (v : Word) (h : HoldsField (siteKind x) i) :
    s.shadowWrite x (4 * i) v = s.onTile x fun t => t.putShadow (siteKind x) i v := by
  simp [State.shadowWrite, rwsMask_eq_zero_iff, h]

/-- The active view's write of a word with a field is the shadow view's; where STATE does not read PARKED, it is logged besides. -/
theorem activeWrite_of_field {x : Site} {i : Nat} (s : State) (w : Src) (v : Word) (h : HoldsField (siteKind x) i) :
    s.activeWrite x w (4 * i) v =
      if s.tileStateNum x = 0 then s.shadowWrite x (4 * i) v else (s.shadowWrite x (4 * i) v).logLiveWrite x w (4 * i) v := by
  rw [shadowWrite_of_field s v h]
  have inRws : 4 * i < 64 := by have := holdsField_lt h; omega
  simp [State.activeWrite, inRws, rwsMask_eq_zero_iff, h]

theorem onlyTile_onTile (s : State) (x : Site) (f : Tile → Tile) : OnlyTile x s (s.onTile x f) :=
  ⟨rfl, fun _ hy => s.tile_onTile_other f hy⟩

theorem logLiveWrite_tile_self (s : State) (x : Site) (w : Src) (o : Nat) (v : Word) :
    (s.logLiveWrite x w o v).tile x = { s.tile x with liveWrites := addSat (s.tile x).liveWrites 1 } := by
  simp [State.logLiveWrite]

theorem logLiveWrite_tile_other {x y : Site} (s : State) (w : Src) (o : Nat) (v : Word) (hy : y ≠ x) :
    (s.logLiveWrite x w o v).tile y = s.tile y := by
  simp [State.logLiveWrite, s.tile_onTile_other _ hy]

theorem shadowViewWrite_lands (x : Site) (w : Src) (i : Nat) (v : Word) (s : State) (up : s.slotUp x = true) (h : HoldsField (siteKind x) i) :
    ∃ t, exec (.shadowViewWrite x w (BitVec.ofNat 14 (4 * i)) v) s = .next t ∧ ShadowWord (siteKind x) (s.tile x) (t.tile x) i v ∧
      OnlyTile x s t ∧ (t.tile x).liveWrites = (s.tile x).liveWrites := by
  refine ⟨_, exec_shadowViewWrite_cfg w v up (holdsField_lt h), ?_⟩
  rw [shadowWrite_of_field s v h, State.tile_onTile_self]
  exact ⟨shadowWord_putShadow _ v h, onlyTile_onTile s x _, rfl⟩

theorem activeViewWrite_lands (x : Site) (w : Src) (i : Nat) (v : Word) (s : State) (up : s.slotUp x = true) (h : HoldsField (siteKind x) i) :
    ∃ t, exec (.activeViewWrite x w (BitVec.ofNat 14 (4 * i)) v) s = .next t ∧ ShadowWord (siteKind x) (s.tile x) (t.tile x) i v ∧
      (∀ y, y ≠ x → t.tile y = s.tile y) ∧
      (t.tile x).liveWrites = (if s.tileStateNum x = 0 then (s.tile x).liveWrites else addSat (s.tile x).liveWrites 1) := by
  have lands := shadowWord_putShadow (s.tile x) v h
  refine ⟨_, exec_activeViewWrite_cfg w v up (holdsField_lt h), ?_⟩
  rw [activeWrite_of_field s w v h, shadowWrite_of_field s v h]
  split
  · rw [State.tile_onTile_self]
    exact ⟨lands, fun y hy => s.tile_onTile_other _ hy, rfl⟩
  · rw [logLiveWrite_tile_self, State.tile_onTile_self]
    exact ⟨lands, fun y hy => (logLiveWrite_tile_other _ w _ v hy).trans (s.tile_onTile_other _ hy), rfl⟩

theorem viewWrites_without_field (x : Site) (w : Src) (i : Nat) (v : Word) (s : State) (up : s.slotUp x = true) (h : i < 16)
    (noField : ¬ HoldsField (siteKind x) i) :
    exec (.activeViewWrite x w (BitVec.ofNat 14 (4 * i)) v) s = .next s ∧ exec (.shadowViewWrite x w (BitVec.ofNat 14 (4 * i)) v) s = .next s := by
  rw [exec_activeViewWrite_cfg w v up h, exec_shadowViewWrite_cfg w v up h, activeWrite_without_field s w v h noField,
    shadowWrite_without_field s v noField]
  exact ⟨rfl, rfl⟩

/-! ## DEBUG_HALT (R150) -/

theorem assertSeal_tile_other {x y : Site} (s : State) (c : Nat) (hy : y ≠ x) : (s.assertSeal x c).tile y = s.tile y := by
  unfold State.assertSeal
  split
  · rfl
  · simp [State.assertSealInst, s.tile_onTile_other _ hy]

theorem assertSeal_debugHalt (s : State) (x : Site) (c : Nat) : ((s.assertSeal x c).tile x).debugHalt = (s.tile x).debugHalt := by
  unfold State.assertSeal
  split
  · rfl
  · simp [State.assertSealInst]

/-- A tile's DEBUG_HALT takes a value, and nothing else does. -/
def putHalt (s : State) (x : Site) (b : Bool) : State := s.onTile x fun t => { t with debugHalt := b }

@[simp] theorem putHalt_tile_self (s : State) (x : Site) (b : Bool) : (putHalt s x b).tile x = { s.tile x with debugHalt := b } := by
  simp [putHalt]

theorem putHalt_tile_other {x y : Site} (s : State) (b : Bool) (hy : y ≠ x) : (putHalt s x b).tile y = s.tile y :=
  s.tile_onTile_other _ hy

/-- Everything a halt can do: nothing to a tile that is halted; else it sets the bit, and a tile that runs freezes its sealed section or, an M-tile,
abandons what it computes. -/
theorem haltOn_cases (s : State) (x : Site) :
    ((s.tile x).debugHalt = true ∧ s.haltOn x = s) ∨ s.haltOn x = putHalt s x true ∨ s.haltOn x = (putHalt s x true).assertSeal x 3 ∨
      s.haltOn x = (putHalt s x true).onTile x fun t => t.abandon s.clk.fclk := by
  simp only [State.haltOn]
  by_cases halted : (s.tile x).debugHalt = true
  · exact .inl ⟨halted, if_pos halted⟩
  · rw [if_neg halted]
    refine .inr ?_
    split
    · exact .inl rfl
    · split
      · exact .inr (.inl rfl)
      · split
        · exact .inr (.inr rfl)
        · exact .inl rfl

theorem haltOn_debugHalt (s : State) (x : Site) : ((s.haltOn x).tile x).debugHalt = true := by
  obtain ⟨halted, e⟩ | e | e | e := haltOn_cases s x
  · rw [e, halted]
  · rw [e, putHalt_tile_self]
  · rw [e, assertSeal_debugHalt, putHalt_tile_self]
  · rw [e, State.tile_onTile_self, putHalt_tile_self]
    rfl

theorem haltOn_tile_other {x y : Site} (s : State) (hy : y ≠ x) : (s.haltOn x).tile y = s.tile y := by
  obtain ⟨-, e⟩ | e | e | e := haltOn_cases s x
  · rw [e]
  · rw [e, putHalt_tile_other s true hy]
  · rw [e, assertSeal_tile_other _ _ hy, putHalt_tile_other s true hy]
  · rw [e, State.tile_onTile_other _ _ hy, putHalt_tile_other s true hy]

theorem mayIssue_of_debugHalt {s : State} {x : Site} (h : (s.tile x).debugHalt = true) : s.mayIssue x = false := by
  simp [State.mayIssue, h]

theorem debugHaltSet_stops_issue (x : Site) (s : State) (up : s.slotUp x = true) :
    ∃ t, exec (.debugHaltSet x) s = .next t ∧ (t.tile x).debugHalt = true ∧ t.mayIssue x = false ∧ (∀ y, y ≠ x → t.tile y = s.tile y) :=
  ⟨s.haltOn x, congrArg Host.Outcome.next (if_pos up), haltOn_debugHalt s x, mayIssue_of_debugHalt (haltOn_debugHalt s x),
    fun _ hy => haltOn_tile_other s hy⟩

/-- Everything the end of a halt can do: nothing to a tile that is not halted; else it clears the bit, and a tile that issues again fetches its held
words anew. -/
theorem haltOff_cases (s : State) (x : Site) :
    ((s.tile x).debugHalt = false ∧ s.haltOff x = s) ∨ s.haltOff x = putHalt s x false ∨
      s.haltOff x = (putHalt s x false).onTile x fun t => t.goOn (siteKind x) [] t.seq.ip t.seq.loops := by
  simp only [State.haltOff]
  by_cases halted : (s.tile x).debugHalt = true
  · rw [if_neg (by simp [halted])]
    refine .inr ?_
    split
    · exact .inl rfl
    · exact .inr rfl
  · exact .inl ⟨by simpa using halted, if_pos (by simp [halted])⟩

theorem haltOff_tile_self (s : State) (x : Site) :
    ((s.haltOff x).tile x).debugHalt = false ∧ ((s.haltOff x).tile x).seq.ip = (s.tile x).seq.ip ∧
      ((s.haltOff x).tile x).active = (s.tile x).active := by
  obtain ⟨running, e⟩ | e | e := haltOff_cases s x
  · rw [e]
    exact ⟨running, rfl, rfl⟩
  · rw [e, putHalt_tile_self]
    exact ⟨rfl, rfl, rfl⟩
  · rw [e, State.tile_onTile_self, putHalt_tile_self]
    exact ⟨rfl, rfl, rfl⟩

theorem haltOff_tile_other {x y : Site} (s : State) (hy : y ≠ x) : (s.haltOff x).tile y = s.tile y := by
  obtain ⟨-, e⟩ | e | e := haltOff_cases s x
  · rw [e]
  · rw [e, putHalt_tile_other s false hy]
  · rw [e, State.tile_onTile_other _ _ hy, putHalt_tile_other s false hy]

theorem debugHaltClear_resumes (x : Site) (s : State) (up : s.slotUp x = true) :
    ∃ t, exec (.debugHaltClear x) s = .next t ∧ (t.tile x).debugHalt = false ∧ (∀ y, y ≠ x → t.tile y = s.tile y) ∧
      (t.tile x).seq.ip = (s.tile x).seq.ip ∧ (t.tile x).active = (s.tile x).active := by
  obtain ⟨cleared, same_ip, same_bank⟩ := haltOff_tile_self s x
  exact ⟨s.haltOff x, congrArg Host.Outcome.next (if_pos up), cleared, fun _ hy => haltOff_tile_other s hy, same_ip, same_bank⟩

/-! ## The function block (R42, R302) -/

theorem fnRegs_onFnRegs_other {f g : Fn} (s : State) (u : FnRegs → FnRegs) (h : g ≠ f) : (s.onFnRegs f u).fnRegs g = s.fnRegs g := by
  cases f with
  | pf0 =>
    cases g with
    | pf0 => exact absurd rfl h
    | pf1 | vf _ => rfl
  | pf1 =>
    cases g with
    | pf1 => exact absurd rfl h
    | pf0 | vf _ => rfl
  | vf c =>
    cases g with
    | pf0 | pf1 => rfl
    | vf d => exact Map.get_upd_other _ _ _ fun e => h (congrArg Fn.vf (Fin.ext e))

theorem apertureBaseWrite_takes_both_halves (f : Fn) (hi : Word) (s : State) (live : s.fnLive f = true) :
    ∃ t, exec (.apertureBaseWrite f hi) s = .next t ∧ (t.fnRegs f).apBase = hi ++ (s.fnRegs f).apLo ∧ (t.fnRegs f).apHi = hi ∧
      (∀ g, g ≠ f → t.fnRegs g = s.fnRegs g) ∧ t.tiles = s.tiles ∧ t.ctxs = s.ctxs := by
  refine ⟨s.apertureHi f hi, congrArg Host.Outcome.next (if_pos live), ?_⟩
  simp only [State.apertureHi, State.fnRegs_onFnRegs_self, State.onFnRegs_tiles, State.onFnRegs_ctxs, true_and, and_true]
  exact fun g hg => fnRegs_onFnRegs_other s _ hg

@[simp] theorem answer_fnRegs (s : State) (n v : Nat) (g : Fn) : (s.answer n v).fnRegs g = s.fnRegs g := by cases g <;> rfl

theorem gtsLoRead_alone_latches (f : Fn) (s : State) (live : s.fnLive f = true) :
    ∃ t, exec (.gtsLoRead f 4) s = .next t ∧ t.host.reply = .data (leBytes 4 ((s.fnGts f).toNat % 2 ^ 32)) false ∧
      (t.fnRegs f).gtsLatch = (s.fnGts f).extractLsb' 32 32 ∧ (∀ g, g ≠ f → t.fnRegs g = s.fnRegs g) ∧ t.tiles = s.tiles := by
  refine ⟨s.gtsRead f 4, congrArg Host.Outcome.next (if_pos live), rfl, ?_, fun g hg => ?_, ?_⟩
  · simp [State.gtsRead]
  · simp [State.gtsRead, fnRegs_onFnRegs_other s _ hg]
  · simp [State.gtsRead, State.answer]

theorem gtsLoRead_wide_answers (f : Fn) (s : State) (live : s.fnLive f = true) :
    ∃ t, exec (.gtsLoRead f 8) s = .next t ∧ t.host.reply = .data (leBytes 8 (s.fnGts f).toNat) false ∧
      { t with host := { t.host with reply := s.host.reply } } = s :=
  ⟨s.gtsRead f 8, congrArg Host.Outcome.next (if_pos live), rfl, rfl⟩

/-! ## PF0's writes of a context page and of its registers (R8, R212, R298, R302) -/

theorem cfgHostRo_only_logs (c : Tenant) (off : BitVec 16) (v : Word) (s : State) (live : s.fnLive .pf0 = true)
    (there : (s.ctxRead c off.toNat).isSome = true) :
    ∃ t, exec (.cfgHostRo .pf0 c off v) s = .next t ∧ { t with merger := s.merger } = s ∧
      t.merger = (s.logEv (s.fnSrc .pf0) CFG_HOST_RO (tenantByte c)
        (leBytes 4 (0x01000000 + 0x10000 * c.val + off.toNat) ++ leBytes 4 v.toNat)).merger := by
  refine ⟨s.cfgHostRo .pf0 c (ctxOffset c off.toNat) v.toNat, congrArg Host.Outcome.next (if_pos ?_), rfl, ?_⟩
  · simp [live, there, seesPage, ownPage]
  · rw [State.cfgHostRo, Nat.mod_eq_of_lt v.isLt]
    rfl

theorem registerWrite_logLost (v : DWord) (s : State) (live : s.fnLive .pf0 = true) :
    exec (.registerWrite (.bar0 .pf0) 0x1180 4 v) s = .next { s with log := { s.log with lost := v.extractLsb' 0 32 } } := by
  have there : (s.regWord false .pf0 0x1180).isNone = false := rfl
  have written : s.regWrite false .pf0 0x1180 4 v = s.bar0Write .pf0 0x1180 (v.extractLsb' 0 32) := by
    simp [State.regWrite, there, accessOk, State.putWord]
  change Host.Outcome.next (if s.fnLive .pf0 then s.regWrite false .pf0 0x1180 4 v else s) = _
  rw [if_pos live, written]
  rfl

theorem registerWrite_dbgBaseHi (v : DWord) (s : State) (live : s.fnLive .pf0 = true) :
    exec (.registerWrite (.bar4 .pf0) 4 4 v) s =
      .next { s with host := { s.host with dbgBase := v.extractLsb' 0 32 ++ s.host.dbgBase.extractLsb' 0 32 } } := by
  have there : (s.regWord true .pf0 4).isNone = false := rfl
  have written : s.regWrite true .pf0 4 4 v = s.bar4Write .pf0 4 (v.extractLsb' 0 32) := by
    simp [State.regWrite, there, accessOk, State.putWord]
  change Host.Outcome.next (if s.fnLive .pf0 then s.regWrite true .pf0 4 4 v else s) = _
  rw [if_pos live, written]
  rfl

/-- Settles O40, a clause for each kind of write: the function block and the GTS, PF0's page and register writes, the two views, DEBUG_HALT. -/
theorem hostRegistersAndViewsTakeTheirWrites : Obligations.HostRegistersAndViewsTakeTheirWrites :=
  ⟨apertureBaseWrite_takes_both_halves,
    fun f s live => ⟨gtsLoRead_alone_latches f s live, gtsLoRead_wide_answers f s live⟩,
    cfgHostRo_only_logs,
    fun v s live => ⟨⟨_, registerWrite_logLost v s live, rfl⟩, ⟨_, registerWrite_dbgBaseHi v s live, rfl⟩⟩,
    activeViewWrite_lands, shadowViewWrite_lands, viewWrites_without_field, debugHaltSet_stops_issue, debugHaltClear_resumes⟩

end Sys2Proof.Proofs
end

section
/-! PROOFS. What completing a started command changes: its entry reaches the completion ring of its pair, and nothing else moves but the events
on their way (R54, R301, R309, R310). -/

namespace Sys2Proof.Proofs

open Sys2Proof Sys2Proof.Machine Sys2Proof.Claims

/-! ## Serving -/

theorem serve_of_serves {s : State} {c : Serve} {op : Nat} {f : Started} (h : Serves s c op f) (k : Started → State → State) :
    s.serve c op k = k f s :=
  State.serve_some k h.2 h.1

theorem safePending_of_serves {s : State} {c : Serve} {op : Nat} {f : Started} (h : Serves s c op f) : s.host.safePending = false := by
  have serving := h.1
  simp only [State.serving, Bool.and_eq_true, Bool.not_eq_true'] at serving
  exact serving.2

/-! ## States that agree beside the host's side -/

theorem quiet_refl (s : State) : Quiet s s := ⟨rfl, fun _ => rfl⟩

theorem quiet_trans {s t u : State} (first : Quiet s t) (second : Quiet t u) : Quiet s u := by
  obtain ⟨rest, ctxs⟩ := first
  obtain ⟨rest', ctxs'⟩ := second
  refine ⟨?_, fun d => ?_⟩
  · exact (congrArg (fun x : State => { x with host := s.host, ctxs := s.ctxs, merger := s.merger }) rest').trans rest
  · exact (congrArg (fun k : Context => { k with ccq := (s.ctx d).ccq }) (ctxs' d)).trans (ctxs d)

theorem quiet_dropStarted (s : State) (f : Started) : Quiet s (s.dropStarted f) := ⟨rfl, fun _ => rfl⟩

theorem quiet_hostWrite (s : State) (a : Nat) (bs : List Byte) : Quiet s (s.hostWrite a bs) := ⟨rfl, fun _ => rfl⟩

theorem quiet_raise (s : State) (src : Src) (g : Fn) (v : BitVec 11) (b : Byte) : Quiet s (s.raise src g v b) := by
  unfold State.raise
  split
  · exact quiet_refl s
  · exact ⟨rfl, fun _ => rfl⟩

theorem quiet_onRing_complSel (s : State) (r : SubRing) (g : Ring → Ring) : Quiet s (s.onRing (complSel r) g) := by
  cases r with
  | admin => exact ⟨rfl, fun _ => rfl⟩
  | ctx t =>
    refine ⟨rfl, fun d => ?_⟩
    simp only [complSel, State.onRing]
    by_cases same : d = t
    · rw [same, State.ctx_onCtx_self]
    · rw [State.ctx_onCtx_other s _ same]

theorem quiet_ringWrite_complSel (s : State) (r : SubRing) (bs : List Byte) : Quiet s (s.ringWrite (complSel r) bs) := by
  simp only [State.ringWrite]
  split
  · exact quiet_trans (quiet_hostWrite s _ bs) (quiet_onRing_complSel _ r _)
  · exact quiet_refl s

/-! ## The rings and the host's memory under an entry -/

@[simp] theorem dropStarted_ring (s : State) (f : Started) (r : RingSel) : (s.dropStarted f).ring r = s.ring r := by cases r <;> rfl

@[simp] theorem hostWrite_ring (s : State) (a : Nat) (bs : List Byte) (r : RingSel) : (s.hostWrite a bs).ring r = s.ring r := by cases r <;> rfl

@[simp] theorem onRing_started (s : State) (r : RingSel) (g : Ring → Ring) : (s.onRing r g).host.started = s.host.started := by cases r <;> rfl

@[simp] theorem onRing_hostMem (s : State) (r : RingSel) (g : Ring → Ring) : (s.onRing r g).host.mem = s.host.mem := by cases r <;> rfl

@[simp] theorem onRing_safePending (s : State) (r : RingSel) (g : Ring → Ring) : (s.onRing r g).host.safePending = s.host.safePending := by
  cases r <;> rfl

@[simp] theorem ringWrite_started (s : State) (r : RingSel) (bs : List Byte) : (s.ringWrite r bs).host.started = s.host.started := by
  simp only [State.ringWrite]
  split <;> simp [State.hostWrite]

@[simp] theorem ringWrite_safePending (s : State) (r : RingSel) (bs : List Byte) :
    (s.ringWrite r bs).host.safePending = s.host.safePending := by
  simp only [State.ringWrite]
  split <;> simp [State.hostWrite]

theorem ringWrite_with_room {s : State} {r : RingSel} (bs : List Byte) (on : (s.ring r).enable = true)
    (room : (s.ring r).count < (s.ring r).size) :
    ((s.ringWrite r bs).ring r).prod = (s.ring r).prod + 1 ∧
      Memory.read (s.ringWrite r bs).host.mem ((s.ring r).addr (s.ring r).prod bs.length) bs.length = bs := by
  simp only [State.ringWrite, on, room, decide_true, Bool.and_self, if_true, State.ring_onRing_self, hostWrite_ring, onRing_hostMem, true_and]
  exact Memory.read_write _ _ bs

@[simp] theorem leBytes_length (n v : Nat) : (leBytes n v).length = n := by
  induction n generalizing v with
  | zero => rfl
  | succ n ih => rw [leBytes, List.length_cons, ih]

theorem completionEntry_length (st : Status) (kind : Byte) (phase : Bool) (tag : Nat) (gts : DWord) (src : Src) (op : Nat) (cons : Word)
    (v : Nat) : (completionEntry st kind phase tag gts src op cons v).length = 32 := by
  simp [completionEntry]

/-! ## Completing -/

/-- The entry that a completion writes to the ring of a command's pair. -/
def finishEntry (s : State) (f : Started) (st : Status) (v : Nat) : List Byte :=
  completionEntry st 0 (s.ring (complSel f.ring)).phase (f.p 4 4) s.clk.gts stewardSrc f.op f.consAfter v

/-- Everything that completing a command can do: nothing once the safe state begins; else the command goes, alone where its ring is out of use or
an FLR came before, or with its entry, and with the vector of its ring or without. -/
theorem finish_cases (s : State) (f : Started) (st : Status) (v : Nat) :
    (s.host.safePending = true ∧ s.finish f st v = s) ∨
    (s.host.safePending = false ∧ ((s.ring (complSel f.ring)).enable && !f.muted) = false ∧ s.finish f st v = s.dropStarted f) ∨
    (s.host.safePending = false ∧ (s.finish f st v = (s.dropStarted f).ringWrite (complSel f.ring) (finishEntry s f st v) ∨
      s.finish f st v = ((s.dropStarted f).ringWrite (complSel f.ring) (finishEntry s f st v)).raise stewardSrc (ringFn (complSel f.ring))
        (s.ring (complSel f.ring)).vector 0)) := by
  simp only [State.finish]
  by_cases safe : s.host.safePending = true
  · exact .inl ⟨safe, if_pos safe⟩
  · have live : s.host.safePending = false := by simpa using safe
    rw [if_neg safe]
    refine .inr ?_
    split
    · refine .inr ⟨live, ?_⟩
      split
      · exact .inr rfl
      · exact .inl rfl
    · next off => exact .inl ⟨live, by simpa using off, rfl⟩

theorem quiet_finish (s : State) (f : Started) (st : Status) (v : Nat) : Quiet s (s.finish f st v) := by
  have written := quiet_trans (quiet_dropStarted s f) (quiet_ringWrite_complSel _ f.ring (finishEntry s f st v))
  obtain ⟨-, e⟩ | ⟨-, -, e⟩ | ⟨-, e | e⟩ := finish_cases s f st v <;> rw [e]
  · exact quiet_refl s
  · exact quiet_dropStarted s f
  · exact written
  · exact quiet_trans written (quiet_raise _ _ _ _ _)

theorem finish_started {s : State} (f : Started) (st : Status) (v : Nat) (live : s.host.safePending = false) :
    (s.finish f st v).host.started = s.host.started.filter fun g => g.id != f.id := by
  obtain ⟨safe, -⟩ | ⟨-, -, e⟩ | ⟨-, e | e⟩ := finish_cases s f st v
  · exact absurd safe (by simp [live])
  all_goals simp [e, State.dropStarted]

@[simp] theorem finish_safePending (s : State) (f : Started) (st : Status) (v : Nat) :
    (s.finish f st v).host.safePending = s.host.safePending := by
  obtain ⟨-, e⟩ | ⟨-, -, e⟩ | ⟨-, e | e⟩ := finish_cases s f st v <;> simp [e, State.dropStarted]

theorem completed_finish {s : State} (f : Started) (st : Status) (v : Nat) (live : s.host.safePending = false) :
    Completed s f st v (s.finish f st v) := by
  refine ⟨finish_started f st v live, fun on unmuted room => ?_⟩
  have lands := ringWrite_with_room (s := s.dropStarted f) (r := complSel f.ring) (finishEntry s f st v) (by simpa using on) (by simpa using room)
  rw [dropStarted_ring, finishEntry, completionEntry_length] at lands
  obtain ⟨safe, -⟩ | ⟨-, off, -⟩ | ⟨-, e | e⟩ := finish_cases s f st v
  · exact absurd safe (by simp [live])
  · exact absurd off (by simp [on, unmuted])
  · rw [e]
    exact lands
  · rw [e, State.raise_ring, State.raise_host]
    exact lands

theorem finishes_finish {s : State} (f : Started) (st : Status) (v : Nat) (live : s.host.safePending = false) :
    Finishes s f st v (s.finish f st v) :=
  ⟨completed_finish f st v live, quiet_finish s f st v⟩

/-- Completing the command with an id is completing a command, or nothing where there is none. -/
theorem finishId_cases (s : State) (id : Nat) (st : Status) (v : Nat) :
    (s.finishId id st v = s ∧ ∀ g ∈ s.host.started, g.id ≠ id) ∨ ∃ f, f.id = id ∧ s.finishId id st v = s.finish f st v := by
  unfold State.finishId
  split
  · next f found => exact .inr ⟨f, by simpa using List.find?_some found, rfl⟩
  · next none => exact .inl ⟨rfl, by simpa using none⟩

theorem gone_finishId {s : State} (f : Started) (st : Status) (v : Nat) (live : s.host.safePending = false) : Gone f (s.finishId f.id st v) := by
  obtain ⟨e, absent⟩ | ⟨g, same, e⟩ := finishId_cases s f.id st v
  · rw [e]
    exact absent
  · intro x there
    rw [e, finish_started g st v live, same] at there
    simpa using (List.mem_filter.mp there).2

theorem quiet_finishId (s : State) (id : Nat) (st : Status) (v : Nat) : Quiet s (s.finishId id st v) := by
  obtain ⟨e, -⟩ | ⟨f, -, e⟩ := finishId_cases s id st v
  · rw [e]
    exact quiet_refl s
  · rw [e]
    exact quiet_finish s f st v

@[simp] theorem finishId_safePending (s : State) (id : Nat) (st : Status) (v : Nat) :
    (s.finishId id st v).host.safePending = s.host.safePending := by
  obtain ⟨e, -⟩ | ⟨f, -, e⟩ := finishId_cases s id st v <;> simp [e]

end Sys2Proof.Proofs
end

section
/-! PROOFS. The commands on a context: OPEN_CONTEXT, SET_SHARES, SET_BUDGET, SET_PLACEMENT and BEACON_CONFIG (R74, R77, R200, R286, R287, R289,
R314). -/

namespace Sys2Proof.Proofs

open Sys2Proof Sys2Proof.Machine Sys2Proof.Claims

/-- A served command whose handler completes it in a state, the host's side being as it was, completes there. -/
theorem serve_finishes {s u : State} {c : Serve} {op : Nat} {f : Started} {k : Started → State → State} {st : Status} {v : Nat}
    (served : Serves s c op f) (host : u.host = s.host) (ends : k f s = u.finish f st v) : Finishes u f st v (s.serve c op k) := by
  rw [serve_of_serves served, ends]
  exact finishes_finish f st v (host ▸ safePending_of_serves served)

/-! ## Regions (R313, Table HL-11) -/

/-- A store of region bytes after one byte of REGIONS: 0 names no region. -/
def grantByte (m : Map Byte) (r : Nat × Byte) : Map Byte := if r.2 = 0 then m else Map.set 0 m r.1 r.2

theorem get_grantByte_self {m : Map Byte} {d : Nat} {b : Byte} (free : b = 0 → Map.get 0 m d = 0) : Map.get 0 (grantByte m (d, b)) d = b := by
  unfold grantByte
  split
  · next zero => exact (free zero).trans zero.symm
  · exact Map.get_set_self 0 m d b

theorem get_grantByte_other {m : Map Byte} {d e : Nat} (b : Byte) (h : d ≠ e) : Map.get 0 (grantByte m (e, b)) d = Map.get 0 m d := by
  unfold grantByte
  split
  · rfl
  · exact Map.get_set_other 0 m b h

/-- After a byte for each die of a list, the dies of the list have theirs, where those with a byte of 0 had none before. -/
theorem get_foldl_grantByte (g : Nat → Byte) (l : List Nat) (m : Map Byte) (d : Nat) (free : ∀ e ∈ l, g e = 0 → Map.get 0 m e = 0) :
    Map.get 0 ((l.map fun e => (e, g e)).foldl grantByte m) d = if d ∈ l then g d else Map.get 0 m d := by
  induction l generalizing m with
  | nil => rfl
  | cons e l ih =>
    have self := get_grantByte_self (free e (by simp))
    rw [List.map_cons, List.foldl_cons, ih]
    · by_cases here : d = e
      · rw [here, self, if_pos (List.mem_cons_self), ite_self]
      · rw [get_grantByte_other (g e) here]
        simp only [List.mem_cons, here, false_or]
    · intro x there zero
      by_cases here : x = e
      · subst here
        exact self.trans zero
      · rw [get_grantByte_other (g e) here]
        exact free x (List.mem_cons_of_mem e there) zero

theorem grantRegions_eq (s : State) (t : Tenant) (rs : List (Nat × Byte)) :
    s.grantRegions t rs = s.onCtx t fun c => { c with regions := rs.foldl grantByte c.regions } := rfl

theorem get_granted_regions (f : Started) {d : Nat} (h : d < 16) :
    Map.get 0 (f.regions.foldl grantByte []) d = BitVec.ofNat 8 (f.p (20 + d) 1) := by
  rw [Started.regions, get_foldl_grantByte (fun d => BitVec.ofNat 8 (f.p (20 + d) 1)) _ _ _ fun _ _ _ => rfl]
  exact if_pos (List.mem_range.mpr h)

/-! ## OPEN_CONTEXT (R314) -/

/-- A completion tells the same in two states that agree on the commands in progress, the completion ring and the clock. -/
theorem completed_congr {s u t : State} {f : Started} {st : Status} {v : Nat} (started : u.host.started = s.host.started)
    (ring : u.ring (complSel f.ring) = s.ring (complSel f.ring)) (clk : u.clk = s.clk) (h : Completed u f st v t) : Completed s f st v t := by
  unfold Completed at h ⊢
  rwa [started, ring, clk] at h

/-- Changing a context but for its completion ring leaves every completion ring as it was. -/
theorem onCtx_complSel (s : State) (t : Tenant) (g : Context → Context) (keeps : (g (s.ctx t)).ccq = (s.ctx t).ccq) (r : SubRing) :
    (s.onCtx t g).ring (complSel r) = s.ring (complSel r) := by
  cases r with
  | admin => rfl
  | ctx u =>
    simp only [complSel, State.ring]
    by_cases same : u = t
    · rw [same, State.ctx_onCtx_self, keeps]
    · rw [State.ctx_onCtx_other s g same]

section
variable {s : State} {c : Serve} {f : Started}

/-- The state with a context opened and its regions granted. -/
def withOpened (s : State) (f : Started) : State :=
  (s.onCtx f.tenant fun k => k.opened f (stackCount s.pkg.variant)).grantRegions f.tenant f.regions

theorem withOpened_ctx_self (s : State) (f : Started) : (withOpened s f).ctx f.tenant =
    { (s.ctx f.tenant).opened f (stackCount s.pkg.variant) with regions := f.regions.foldl grantByte [] } := by
  rw [withOpened, grantRegions_eq, State.ctx_onCtx_self, State.ctx_onCtx_self]
  rfl

theorem withOpened_ctx_other {d : Tenant} (s : State) (h : d ≠ f.tenant) : (withOpened s f).ctx d = s.ctx d := by
  rw [withOpened, grantRegions_eq, State.ctx_onCtx_other _ _ h, State.ctx_onCtx_other _ _ h]

theorem withOpened_complSel (s : State) (f : Started) (r : SubRing) : (withOpened s f).ring (complSel r) = s.ring (complSel r) := by
  rw [withOpened, grantRegions_eq, onCtx_complSel _ _ _ rfl, onCtx_complSel _ _ _ rfl]

theorem exec_openContext_of_allowed (served : Serves s c 0x03 f) (allowed : s.openRefusal f = none) :
    exec (.openContext c) s = .next ((withOpened s f).done f) := by
  refine congrArg Host.Outcome.next ((serve_of_serves served _).trans ?_)
  rw [State.openContext, allowed]
  rfl

theorem openContext_gives_what_it_names (served : Serves s c 0x03 f) (allowed : s.openRefusal f = none) :
    ∃ t, exec (.openContext c) s = .next t ∧ Completed s f OK 0 t ∧ (t.ctx f.tenant).isOpen = true ∧
      (t.ctx f.tenant).saveVa = BitVec.ofNat 64 (f.p 48 8) ∧ (t.ctx f.tenant).saveBytes = f.p 56 8 ∧
      (t.ctx f.tenant).gen = (s.ctx f.tenant).gen + 1 ∧ (t.ctx f.tenant).hbmQuota = f.p 40 8 ∧ (t.ctx f.tenant).streamQuota = f.p 36 4 ∧
      (t.ctx f.tenant).beacons = [] ∧ (t.ctx f.tenant).pt = [] ∧
      (∀ d, d < 16 → Map.get 0 (t.ctx f.tenant).regions d = BitVec.ofNat 8 (f.p (20 + d) 1)) ∧
      (∀ d, d ≠ f.tenant → { t.ctx d with ccq := (s.ctx d).ccq } = s.ctx d) ∧ t.tiles = s.tiles ∧ t.insts = s.insts := by
  obtain ⟨completed, -, ctxs⟩ := finishes_finish (s := withOpened s f) f OK 0 (safePending_of_serves served)
  have own := (ctxs f.tenant).trans (withOpened_ctx_self s f)
  refine ⟨_, exec_openContext_of_allowed served allowed, completed_congr (u := withOpened s f) rfl (withOpened_complSel s f _) rfl completed,
    congrArg Context.isOpen own, congrArg Context.saveVa own, congrArg Context.saveBytes own, congrArg Context.gen own,
    congrArg Context.hbmQuota own, congrArg Context.streamQuota own, congrArg Context.beacons own, congrArg Context.pt own,
    fun d inside => ?_, fun d other => ?_, State.finish_tiles _ _ _ _, State.finish_insts _ _ _ _⟩
  · rw [← get_granted_regions f inside]
    exact congrArg (Map.get 0 · d) (congrArg Context.regions own)
  · have untouched := ctxs d
    rwa [withOpened_ctx_other s other] at untouched

theorem openContext_refuses {st : Status} (served : Serves s c 0x03 f) (refused : s.openRefusal f = some st) :
    ∃ t, exec (.openContext c) s = .next t ∧ Finishes s f st 0 t := by
  refine ⟨_, rfl, serve_finishes served rfl ?_⟩
  rw [State.openContext, refused]
  rfl

/-! ## SET_SHARES (R74, R77) -/

/-- The shares of a context after a SET_SHARES: what is in force stays so up to the end of the frame. -/
def newShares (s : State) (f : Started) : Shares :=
  { share := ((s.ctx f.tenant).shares.at s.frame).1, borrow := ((s.ctx f.tenant).shares.at s.frame).2, nextShare := f.p 20 1,
    nextBorrow := f.p 21 1 = 1, fromFrame := s.frame + 1 }

theorem newShares_at_now (s : State) (f : Started) : (newShares s f).at s.frame = (s.ctx f.tenant).shares.at s.frame :=
  if_neg (Nat.not_succ_le_self s.frame)

theorem newShares_at_later {n : Nat} (s : State) (f : Started) (h : s.frame < n) :
    (newShares s f).at n = (f.p 20 1, decide (f.p 21 1 = 1)) :=
  if_pos h

theorem setShares_takes_effect_at_the_next_frame (served : Serves s c 0x05 f) (share : f.p 20 1 ≤ 64) (borrow : f.p 21 1 ≤ 1)
    (sum : s.otherShares f.tenant + f.p 20 1 ≤ 62) :
    ∃ t x, exec (.setShares c) s = .next t ∧ Finishes (s.onCtx f.tenant fun k => { k with shares := x }) f OK 0 t ∧
      x.at s.frame = (s.ctx f.tenant).shares.at s.frame ∧ ∀ n, s.frame < n → x.at n = (f.p 20 1, decide (f.p 21 1 = 1)) := by
  refine ⟨_, newShares s f, rfl, serve_finishes served rfl ?_, newShares_at_now s f, fun n => newShares_at_later s f⟩
  simp only [State.setShares, Nat.not_lt.mpr share, Nat.not_lt.mpr borrow, Nat.not_lt.mpr sum]
  rfl

theorem setShares_keeps_the_sum (served : Serves s c 0x05 f) (share : f.p 20 1 ≤ 64) (borrow : f.p 21 1 ≤ 1)
    (sum : 62 < s.otherShares f.tenant + f.p 20 1) : ∃ t, exec (.setShares c) s = .next t ∧ Finishes s f E_SHARES 0 t := by
  refine ⟨_, rfl, serve_finishes served rfl ?_⟩
  simp only [State.setShares, Nat.not_lt.mpr share, Nat.not_lt.mpr borrow, sum]
  rfl

/-! ## SET_BUDGET (R287, R289) -/

theorem setBudget_names_the_budget (served : Serves s c 0x0B f) (some_us : 0 < f.p 20 4) (us : f.p 20 4 ≤ 10000000) (keep : f.p 24 1 = 0) :
    ∃ t, exec (.setBudget c) s = .next t ∧ Finishes (s.onCtx f.tenant fun k => { k with budget := some (f.p 20 4) }) f OK 0 t := by
  refine ⟨_, rfl, serve_finishes served rfl ?_⟩
  simp [State.setBudget, Nat.ne_of_gt some_us, Nat.not_lt.mpr us, keep, State.done]

theorem setBudget_ends_a_quarantine (served : Serves s c 0x0B f) (some_us : 0 < f.p 20 4) (us : f.p 20 4 ≤ 10000000) (clear : f.p 24 1 = 1) :
    ∃ t, exec (.setBudget c) s = .next t ∧
      Finishes (s.onCtx f.tenant fun k => { k with budget := some (f.p 20 4), quarantined := false, overruns := 0 }) f OK 0 t := by
  refine ⟨_, rfl, serve_finishes served rfl ?_⟩
  simp [State.setBudget, Nat.ne_of_gt some_us, Nat.not_lt.mpr us, clear, State.done]

/-! ## SET_PLACEMENT (R286) -/

theorem setPlacement_firstFree (served : Serves s c 0x16 f) (lead : s.isFollow f.tenant = false) (kind : f.p 20 1 = 0) :
    ∃ t, exec (.setPlacement c) s = .next t ∧ Finishes (s.onCtx f.tenant fun k => { k with placement := .firstFree }) f OK 0 t := by
  refine ⟨_, rfl, serve_finishes served rfl ?_⟩
  simp [State.setPlacement, lead, kind, State.done]

theorem setPlacement_affinity (served : Serves s c 0x16 f) (lead : s.isFollow f.tenant = false) (kind : f.p 20 1 = 1) (some_n : 0 < f.p 21 1) :
    ∃ t, exec (.setPlacement c) s = .next t ∧
      Finishes (s.onCtx f.tenant fun k => { k with placement := .affinity (BitVec.ofNat 8 (f.p 21 1)) }) f OK 0 t := by
  refine ⟨_, rfl, serve_finishes served rfl ?_⟩
  simp [State.setPlacement, lead, kind, Nat.ne_of_gt some_n, State.done]

/-! ## BEACON_CONFIG (R200) -/

theorem beaconConfig_sets_what_it_names (served : Serves s c 0x17 f) (index : f.p 20 2 < 4096) (mode : f.p 22 1 ≤ 3)
    (vector : s.vectorOk (.vf f.tenant) (f.p 28 2) = true) :
    ∃ t, exec (.beaconConfig c) s = .next t ∧
      Finishes (s.onBeacon f.tenant (BitVec.ofNat 12 (f.p 20 2)) fun b =>
        { b with mode := BitVec.ofNat 2 (f.p 22 1), thresh := BitVec.ofNat 32 (f.p 24 4), vector := BitVec.ofNat 11 (f.p 28 2) }) f OK 0 t := by
  refine ⟨_, rfl, serve_finishes served rfl ?_⟩
  simp [State.beaconConfig, Nat.not_le.mpr index, Nat.not_lt.mpr mode, vector, State.done]

end

end Sys2Proof.Proofs
end

section
/-! PROOFS. CLOSE_CONTEXT (R203, R315): its operations, one by one, leave what other contexts hold as it was, where no media session is listed
twice. -/

namespace Sys2Proof.Proofs

open Sys2Proof Sys2Proof.Machine Sys2Proof.Claims

/-! ## What the operations of a close spare -/

/-- From one state to another nothing of the contexts but tenant `c`'s has changed, their completion rings and the CRCs of their saved images
aside. -/
def KeepsOthers (c : Tenant) (s u : State) : Prop := ∀ d, d ≠ c → { u.ctx d with ccq := (s.ctx d).ccq, saved := (s.ctx d).saved } = s.ctx d

/-- What an operation of a close may do before the context switch: the other contexts stay, tenant `c` has its generation still, and the safe state
begins no sooner. -/
structure Spares (c : Tenant) (s u : State) : Prop where
  others : KeepsOthers c s u
  gen : (u.ctx c).gen = (s.ctx c).gen
  safePending : u.host.safePending = s.host.safePending

variable {c : Tenant} {s t u : State}

theorem spares_refl (c : Tenant) (s : State) : Spares c s s := ⟨fun _ _ => rfl, rfl, rfl⟩

theorem KeepsOthers.trans (first : KeepsOthers c s t) (second : KeepsOthers c t u) : KeepsOthers c s u := fun d h =>
  (congrArg (fun k : Context => { k with ccq := (s.ctx d).ccq, saved := (s.ctx d).saved }) (second d h)).trans (first d h)

theorem KeepsOthers.fields (kept : KeepsOthers c s u) {d : Tenant} (h : d ≠ c) : (u.ctx d).isOpen = (s.ctx d).isOpen ∧
    (u.ctx d).regions = (s.ctx d).regions ∧ (u.ctx d).beacons = (s.ctx d).beacons ∧ (u.ctx d).pt = (s.ctx d).pt ∧
    (u.ctx d).shares = (s.ctx d).shares :=
  have same := kept d h
  ⟨(congrArg Context.isOpen same :), (congrArg Context.regions same :), (congrArg Context.beacons same :), (congrArg Context.pt same :),
    (congrArg Context.shares same :)⟩

theorem Spares.trans (first : Spares c s t) (second : Spares c t u) : Spares c s u where
  others := first.others.trans second.others
  gen := second.gen.trans first.gen
  safePending := second.safePending.trans first.safePending

/-- Where every operation of a fold spares the others in the state that it carries, so does the fold. -/
theorem spares_foldl_snd {α β : Type} {g : β × State → α → β × State} (each : ∀ a x, Spares c a.2 (g a x).2) (l : List α) (a : β × State) :
    Spares c a.2 (l.foldl g a).2 := by
  induction l generalizing a with
  | nil => exact spares_refl c a.2
  | cons x l ih => exact (each a x).trans (ih (g a x))

theorem spares_foldl {α : Type} {g : State → α → State} (each : ∀ a x, Spares c a (g a x)) (l : List α) (s : State) :
    Spares c s (l.foldl g s) := by
  induction l generalizing s with
  | nil => exact spares_refl c s
  | cons x l ih => exact (each s x).trans (ih (g s x))

theorem spares_of_ctxs (ctxs : u.ctxs = s.ctxs) (host : u.host = s.host) : Spares c s u := by
  have same (d : Tenant) : u.ctx d = s.ctx d := by rw [State.ctx, State.ctx, ctxs]
  exact ⟨fun d _ => by rw [same d], congrArg Context.gen (same c), congrArg HostLink.safePending host⟩

theorem spares_net (s : State) (n : Net) : Spares c s { s with net := n } := spares_of_ctxs rfl rfl

theorem spares_mem (s : State) (m : MemState) : Spares c s { s with mem := m } := spares_of_ctxs rfl rfl

theorem spares_onStream (s : State) (n : Nat) (g : Stream → Stream) : Spares c s (s.onStream n g) := spares_of_ctxs rfl rfl

theorem keepsOthers_of_quiet (quiet : Quiet s u) : KeepsOthers c s u := fun d _ =>
  congrArg (fun k : Context => { k with saved := (s.ctx d).saved }) (quiet.2 d)

theorem spares_of_quiet (quiet : Quiet s u) (safe : u.host.safePending = s.host.safePending) : Spares c s u where
  others := keepsOthers_of_quiet quiet
  gen := (congrArg Context.gen (quiet.2 c) :)
  safePending := safe

theorem spares_onCtx (s : State) (g : Context → Context) (gen : (g (s.ctx c)).gen = (s.ctx c).gen) : Spares c s (s.onCtx c g) where
  others d h := by rw [State.ctx_onCtx_other s g h]
  gen := by rw [State.ctx_onCtx_self, gen]
  safePending := rfl

theorem spares_finishId (s : State) (id : Nat) (st : Status) (v : Nat) : Spares c s (s.finishId id st v) :=
  spares_of_quiet (quiet_finishId s id st v) (finishId_safePending s id st v)

theorem spares_freeStream (s : State) (n : Nat) : Spares c s (s.freeStream n) := by
  simp only [State.freeStream]
  split
  · exact (spares_onStream s n _).trans (spares_finishId _ _ _ _)
  · exact spares_onStream s n _

theorem spares_dropWaits (s : State) (p : Waiter → Bool) : Spares c s (s.dropWaits c p) := by
  simp only [State.dropWaits]
  exact (spares_net s _).trans (spares_onCtx _ _ rfl)

theorem spares_endSession {x : SessRef} (own : (s.sess x).tenant = c) : Spares c s (s.endSession x) := by
  subst own
  have dropped : Spares (s.sess x).tenant s ((s.dropWaits (s.sess x).tenant (Waiter.ofSess x)).onSess x fun n => { gen := n.gen + 1 }) :=
    (spares_dropWaits s _).trans (spares_of_ctxs rfl rfl)
  simp only [State.endSession]
  split
  · exact dropped.trans (spares_finishId _ _ _ _)
  · exact dropped

theorem spares_closeWindows (s : State) : Spares c s (s.closeWindows c) :=
  (spares_mem s (s.closeWindows c).mem).trans (spares_onCtx _ _ rfl)

theorem spares_endBinding (own : s.links.twin.tenant = some c) : Spares c s s.endBinding := by
  have bound : Spares c s (s.onTwin fun _ => {}) := spares_of_ctxs rfl rfl
  simp only [State.endBinding, own]
  split <;> split
  · exact (bound.trans (spares_onCtx _ _ rfl)).trans (spares_finishId _ _ _ _)
  · exact bound.trans (spares_finishId _ _ _ _)
  · exact bound.trans (spares_onCtx _ _ rfl)
  · exact bound

theorem spares_onPin (s : State) (n : Nat) (g : Pin → Pin) : Spares c s (s.onPin n g) := spares_of_ctxs rfl rfl

theorem spares_revokeAll (s : State) (d : Tenant) : Spares c s (s.revokeAll d) :=
  spares_foldl (fun a n => spares_onPin a n _) _ s

theorem spares_ethDisable {p : PortRef} (own : s.ownsPort c p = true) (d : EthDir) : Spares c s (s.ethDisable p d) := by
  have tenant : (s.port p).tenant = c := by
    simp only [State.ownsPort, Bool.and_eq_true, decide_eq_true_eq] at own
    exact own.2
  subst tenant
  exact (spares_dropWaits s _).trans (spares_of_ctxs rfl rfl)

theorem ethDisable_ownsPort (s : State) (p q : PortRef) (d : EthDir) (k : Tenant) : (s.ethDisable p d).ownsPort k q = s.ownsPort k q := rfl

theorem spares_closeRings (s : State) : Spares c s (s.closeRings c) := by
  refine spares_foldl (fun a p => ?_) _ s
  split
  · next own => exact (spares_ethDisable own .rx).trans (spares_ethDisable ((ethDisable_ownsPort a p p .rx c).trans own) .tx)
  · exact spares_refl c a

/-! ## Writes of the recorder's header by virtual address (R353) -/

theorem spares_readBurst (s : State) (b : Nat) (r : Src) (n : Byte) : Spares c s (s.readBurst b r n).2 := by
  unfold State.readBurst
  split <;> exact spares_of_ctxs rfl rfl

theorem spares_hbmRead (s : State) (dpa n : Nat) (r : Src) (k : Byte) : Spares c s (s.hbmRead dpa n r k).2.2 := by
  refine spares_foldl_snd (fun a b => ?_) _ (false, s)
  exact spares_readBurst a.2 b r k

theorem spares_pteRead (s : State) (half : Fin 2) (k : Tenant) (dpa : Nat) : Spares c s (s.pteRead half k dpa).2 := by
  unfold State.pteRead
  split
  · exact spares_hbmRead s _ _ _ _
  · exact spares_refl c s

theorem spares_walkFrom (n : Nat) (s : State) (half : Fin 2) (k : Tenant) (va : Nat) (a : Access) (table level : Nat) :
    Spares c s (State.walkFrom n s half k va a table level).2 := by
  induction n generalizing s table level with
  | zero => exact spares_refl c s
  | succ n ih =>
    cases found : s.walkFind half k level va with
    | some e =>
      simp only [State.walkFrom, found]
      split
      · exact spares_refl c s
      · split
        · exact spares_refl c s
        · split
          · exact spares_refl c s
          · exact ih s _ _
    | none =>
      have read : Spares c s (s.pteRead half k (pteDpa table level va)).2 := spares_pteRead s half k _
      simp only [State.walkFrom, found]
      split
      · exact read
      · split
        · exact read
        · split
          · exact read
          · split
            · exact read
            · exact (read.trans (spares_mem _ _)).trans (ih _ _ _)

theorem spares_translate (s : State) (half : Fin 2) (k : Tenant) (va : Nat) (a : Access) : Spares c s (s.translate half k va a).2 := by
  have walked : Spares c s (s.walk half k va a).2 := by
    unfold State.walk
    split
    · split
      · exact spares_refl c s
      · exact spares_walkFrom _ s _ _ _ _ _ _
    · exact spares_refl c s
  obtain e | e | ⟨x, e⟩ := State.translate_state s half k va a <;> rw [e]
  · exact spares_refl c s
  · exact walked
  · exact walked.trans (spares_of_ctxs rfl rfl)

theorem spares_writeBurst (s : State) (b : Nat) (whole : Bool) (r : Src) (k : Byte) : Spares c s (s.writeBurst b whole r k) := by
  unfold State.writeBurst
  split
  · exact spares_of_ctxs rfl rfl
  · split <;> exact spares_of_ctxs rfl rfl

/-- A context whose saved image, if it has one, holds what a write to a range of HBM has left of it (log entry 31). -/
def breakSaved (dpa n : Nat) (k : Context) : Context :=
  { k with saved := k.saved.map fun v =>
      { v with crcBad := v.crcBad || (n ≠ 0 && v.frames.any fun f => dpa / 65536 ≤ f && f ≤ (dpa + n - 1) / 65536) } }

theorem markSaved_ctx (s : State) (dpa n : Nat) (d : Tenant) : ∃ v, (s.markSaved dpa n).ctx d = { s.ctx d with saved := v } := by
  suffices h : ∀ m : Map Context, ∃ v, Map.get {} (m.map fun (e : Nat × Context) => (e.1, breakSaved dpa n e.2)) d.val =
      { Map.get {} m d.val with saved := v } from h s.ctxs
  intro m
  induction m with
  | nil => exact ⟨none, rfl⟩
  | cons e m ih =>
    obtain ⟨k, x⟩ := e
    by_cases here : d.val = k
    · exact ⟨(breakSaved dpa n x).saved, by simp [Map.get, here, breakSaved]⟩
    · simpa [Map.get, here] using ih

theorem spares_markSaved (s : State) (dpa n : Nat) : Spares c s (s.markSaved dpa n) where
  others d _ := by
    obtain ⟨v, e⟩ := markSaved_ctx s dpa n d
    rw [e]
  gen := by
    obtain ⟨v, e⟩ := markSaved_ctx s dpa n c
    rw [e]
  safePending := rfl

theorem spares_hbmWrite (s : State) (dpa : Nat) (bs : List Byte) (r : Src) (k : Byte) : Spares c s (s.hbmWrite dpa bs r k) := by
  have bursts : Spares c s ((bursts dpa bs.length).foldl
      (fun a b => a.writeBurst b (dpa ≤ b * 64 && b * 64 + 64 ≤ dpa + bs.length) r k) s) :=
    spares_foldl (fun a b => spares_writeBurst a b _ r k) _ s
  simp only [State.hbmWrite]
  refine .trans ?_ (spares_markSaved _ _ _)
  exact bursts.trans (spares_of_ctxs rfl rfl)

theorem spares_onRing_fault (s : State) (g : Ring → Ring) : Spares c s (s.onRing (.fault c) g) :=
  spares_onCtx s (fun k => { k with fault := g k.fault }) rfl

theorem spares_ringWrite_fault (s : State) (bs : List Byte) : Spares c s (s.ringWrite (.fault c) bs) := by
  simp only [State.ringWrite]
  split
  · exact (spares_of_quiet (quiet_hostWrite s _ bs) rfl).trans (spares_onRing_fault _ _)
  · exact spares_refl c s

theorem spares_raise (s : State) (src : Src) (g : Fn) (v : BitVec 11) (b : Byte) : Spares c s (s.raise src g v b) :=
  spares_of_ctxs (s.raise_ctxs src g v b) (s.raise_host src g v b)

theorem spares_memFault (s : State) (i : FaultInfo) (cause level : Nat) : Spares c s (s.memFault c i cause level) := by
  simp only [State.memFault]
  refine .trans ?_ (spares_of_ctxs (State.emitAt_ctxs _ _ _) (State.emitAt_host _ _ _))
  split
  · exact ((spares_onCtx s _ rfl).trans (spares_ringWrite_fault _ _)).trans (spares_raise _ _ _ _ _)
  · exact spares_onCtx s _ rfl

theorem spares_vaWrite (s : State) (half : Fin 2) (va : Nat) (bs : List Byte) (i : FaultInfo) : Spares c s (s.vaWrite c half va bs i).2 := by
  refine spares_foldl_snd (fun a p => ?_) _ (true, s)
  have walked : Spares c a.2 (a.2.translate half c p.1 { write := true }).2 := spares_translate a.2 half c _ _
  split
  · split
    · next e =>
      rw [e] at walked
      exact walked.trans (spares_hbmWrite _ _ _ _ _)
    · next e =>
      rw [e] at walked
      exact walked.trans (spares_memFault _ _ _ _)
  · exact spares_refl c a.2

theorem spares_stopRecorder (s : State) (full : Bool) : Spares c s (s.stopRecorder c full) := by
  refine .trans ?_ (spares_onCtx _ _ rfl)
  unfold State.writeHeader
  split
  · exact spares_vaWrite s 0 _ _ _
  · exact spares_refl c s

/-! ## The end of a tenant's media sessions (R315) -/

/-- No media session is listed twice. -/
def SessionsListedOnce (s : State) : Prop := (Map.keys s.media.sessions).Nodup

theorem get_of_mem_of_nodup {α : Type} (d : α) {m : Map α} {k : Nat} {v : α} (once : (Map.keys m).Nodup) (there : (k, v) ∈ m) :
    Map.get d m k = v := by
  induction m with
  | nil => exact absurd there List.not_mem_nil
  | cons e m ih =>
    obtain ⟨j, w⟩ := e
    obtain ⟨fresh, once⟩ := List.nodup_cons.mp once
    rcases List.mem_cons.mp there with here | there
    · obtain ⟨rfl, rfl⟩ := Prod.mk.injEq _ _ _ _ ▸ here
      exact if_pos rfl
    · have other : k ≠ j := fun same => fresh (List.mem_map.mpr ⟨(k, v), there, same⟩)
      exact (if_neg other).trans (ih once there)

theorem keys_of_wfFrom {α : Type} [DecidableEq α] (d : α) {b : Option Nat} {m : Map α} (h : Map.wfFrom d b m = true) :
    (∀ k ∈ Map.keys m, above b k) ∧ (Map.keys m).Nodup := by
  induction m generalizing b with
  | nil => exact ⟨fun _ there => absurd there List.not_mem_nil, List.nodup_nil⟩
  | cons e m ih =>
    obtain ⟨k, v⟩ := e
    obtain ⟨first, -, rest⟩ := (Map.wfFrom_cons d b k v m).mp h
    obtain ⟨higher, once⟩ := ih rest
    refine ⟨fun j there => ?_, List.nodup_cons.mpr ⟨fun there => Nat.lt_irrefl k (higher k there), once⟩⟩
    rcases List.mem_cons.mp there with rfl | there
    · exact first
    · have later : k < j := higher j there
      cases b with
      | none => trivial
      | some x => exact Nat.lt_trans first later

/-- A store of sessions in canonical form lists no session twice. -/
theorem sessionsListedOnce_of_wf {s : State} (h : Map.wf {} s.media.sessions = true) : SessionsListedOnce s := (keys_of_wfFrom _ h).2

/-- A listed session stands in the store under the key of its index, on its die. -/
theorem mem_dieSessions {md : Nat} (h : md < 4) {e : SessRef × Session} (there : e ∈ s.dieSessions md) :
    (sessKey e.1, e.2) ∈ s.media.sessions ∧ e.1.md.val = md := by
  obtain ⟨⟨k, n⟩, listed, found⟩ := List.mem_filterMap.mp there
  split at found
  · next on =>
    simp only [Bool.and_eq_true, decide_eq_true_eq] at on
    obtain ⟨die, -⟩ := on
    cases found
    have key : md % 4 * 512 + k % 512 % 512 = k := by omega
    exact ⟨by simpa only [sessKey, Fin.ofNat, key] using listed, Nat.mod_eq_of_lt h⟩
  · exact absurd found (by simp)

theorem dieSessions_pairwise (once : SessionsListedOnce s) (md : Nat) : (s.dieSessions md).Pairwise fun a b => a.1 ≠ b.1 := by
  refine List.pairwise_filterMap.mpr ((List.pairwise_map.mp once).imp fun {e e'} apart x found x' found' same => apart ?_)
  split at found
  · next on =>
    split at found'
    · next on' =>
      simp only [Bool.and_eq_true, decide_eq_true_eq] at on on'
      cases found
      cases found'
      simp only [SessRef.mk.injEq, Fin.ofNat, Fin.mk.injEq] at same
      omega
    · exact absurd found' (by simp)
  · exact absurd found (by simp)

theorem sess_of_mem_dieSessions (once : SessionsListedOnce s) {md : Nat} (h : md < 4) {e : SessRef × Session} (there : e ∈ s.dieSessions md) :
    s.sess e.1 = e.2 :=
  get_of_mem_of_nodup ({} : Session) once (mem_dieSessions h there).1

theorem finishId_media (s : State) (id : Nat) (st : Status) (v : Nat) : (s.finishId id st v).media = s.media :=
  (congrArg State.media (quiet_finishId s id st v).1 :)

theorem endSession_sess_other {x y : SessRef} (s : State) (h : y ≠ x) : (s.endSession x).sess y = s.sess y := by
  simp only [State.endSession]
  split
  · rw [State.sess, finishId_media]
    exact State.sess_onSess_other _ _ h
  · exact State.sess_onSess_other _ _ h

theorem spares_foldl_endSession (l : List (SessRef × Session)) (s : State) (own : ∀ e ∈ l, (s.sess e.1).tenant = c)
    (distinct : l.Pairwise fun a b => a.1 ≠ b.1) : Spares c s (l.foldl (fun a e => a.endSession e.1) s) := by
  induction l generalizing s with
  | nil => exact spares_refl c s
  | cons e l ih =>
    obtain ⟨apart, distinct⟩ := List.pairwise_cons.mp distinct
    refine (spares_endSession (own e (by simp))).trans (ih _ (fun x there => ?_) distinct)
    rw [endSession_sess_other s (apart x there).symm]
    exact own x (List.mem_cons_of_mem e there)

theorem spares_endSessions (once : SessionsListedOnce s) : Spares c s (s.endSessions fun _ n => n.tenant = c) := by
  refine spares_foldl_endSession _ s (fun e there => ?_) (List.pairwise_flatMap.mpr ⟨fun md _ => ?_, ?_⟩)
  · obtain ⟨md, inside, there⟩ := List.mem_flatMap.mp there
    obtain ⟨listed, own⟩ := List.mem_filter.mp there
    rw [sess_of_mem_dieSessions once (List.mem_range.mp inside) listed]
    exact of_decide_eq_true own
  · exact (dieSessions_pairwise once md).filter _
  · refine List.pairwise_lt_range.imp_of_mem fun {md md'} inside inside' lower e there e' there' same => ?_
    obtain ⟨-, die⟩ := mem_dieSessions (List.mem_range.mp inside) (List.mem_filter.mp there).1
    obtain ⟨-, die'⟩ := mem_dieSessions (List.mem_range.mp inside') (List.mem_filter.mp there').1
    rw [same, die'] at die
    omega

/-! ## The close (R203, R315) -/

theorem freeStream_media (s : State) (n : Nat) : (s.freeStream n).media = s.media := by
  simp only [State.freeStream]
  split
  · exact finishId_media _ _ _ _
  · rfl

theorem spares_freeStreams (l : List Nat) (s : State) : Spares c s (l.foldl State.freeStream s) := spares_foldl spares_freeStream l s

theorem sessionsListedOnce_freeStreams (l : List Nat) (once : SessionsListedOnce s) : SessionsListedOnce (l.foldl State.freeStream s) := by
  induction l generalizing s with
  | nil => exact once
  | cons n l ih => exact ih (by rwa [SessionsListedOnce, freeStream_media])

/-- The close of a context without layouts and replays spares the others up to the context switch. -/
theorem closeNow_eq (once : SessionsListedOnce s) (noLayout : s.instsOf c = []) (noReplay : (s.ctx c).replay = none) :
    ∃ w, Spares c s w ∧
      s.closeNow c = (w.switchBeacons c).onCtx c fun k => { gen := k.gen, csq := k.csq, ccq := k.ccq, fault := k.fault } := by
  have unchanged : s.endReplay c = s := by rw [State.endReplay, noReplay]
  have sessions (l : List Nat) := (spares_freeStreams l s).trans (spares_endSessions (c := c) (sessionsListedOnce_freeStreams l once))
  have recorder (l : List Nat) := (((sessions l).trans (spares_closeWindows _)).trans (spares_stopRecorder _ false)).trans
    (spares_onCtx _ (fun k => { k with replay := none }) rfl)
  simp only [State.closeNow, noLayout, List.foldl_nil, unchanged]
  refine ⟨_, .trans (.trans ?_ (spares_revokeAll _ _)) (spares_closeRings _), rfl⟩
  split
  · next bound => exact (recorder _).trans (spares_endBinding bound)
  · exact recorder _

theorem switchBeacons_ctx_self (s : State) (c : Tenant) :
    (s.switchBeacons c).ctx c = { s.ctx c with beacons := [], opSeqs := [], gen := (s.ctx c).gen + 1 } :=
  State.ctx_onCtx_self s c fun k => { k with beacons := [], opSeqs := [], gen := k.gen + 1 }

theorem switchBeacons_ctx_other {d : Tenant} (s : State) (h : d ≠ c) : (s.switchBeacons c).ctx d = s.ctx d :=
  State.ctx_onCtx_other s (fun k => { k with beacons := [], opSeqs := [], gen := k.gen + 1 }) h

/-- What a close leaves of its context: its rings, and the generation behind the one it had. -/
theorem closeNow_ctx_self (once : SessionsListedOnce s) (noLayout : s.instsOf c = []) (noReplay : (s.ctx c).replay = none) :
    ∃ k : Context, (s.closeNow c).ctx c = { gen := (s.ctx c).gen + 1, csq := k.csq, ccq := k.ccq, fault := k.fault } := by
  obtain ⟨w, spares, e⟩ := closeNow_eq once noLayout noReplay
  exact ⟨w.ctx c, by rw [e, State.ctx_onCtx_self, switchBeacons_ctx_self, spares.gen]⟩

theorem keepsOthers_closeNow (once : SessionsListedOnce s) (noLayout : s.instsOf c = []) (noReplay : (s.ctx c).replay = none) :
    KeepsOthers c s (s.closeNow c) := by
  obtain ⟨w, spares, e⟩ := closeNow_eq once noLayout noReplay
  intro d h
  rw [e, State.ctx_onCtx_other _ _ h, switchBeacons_ctx_other w h]
  exact spares.others d h

theorem closeNow_safePending (once : SessionsListedOnce s) (noLayout : s.instsOf c = []) (noReplay : (s.ctx c).replay = none) :
    (s.closeNow c).host.safePending = s.host.safePending := by
  obtain ⟨w, spares, e⟩ := closeNow_eq once noLayout noReplay
  rw [e]
  exact spares.safePending

/-! ## CLOSE_CONTEXT -/

/-- The state in which a CLOSE_CONTEXT acts: the command is accepted, and its context closes. -/
def withClosing (s : State) (f : Started) : State := if f.accepted then s else (s.accept f).onCtx f.tenant fun k => { k with closing := true }

theorem spares_withClosing (s : State) (f : Started) : Spares f.tenant s (withClosing s f) := by
  unfold withClosing
  split
  · exact spares_refl _ s
  · exact .trans (t := s.accept f) ⟨fun _ _ => rfl, rfl, rfl⟩ (spares_onCtx _ _ rfl)

theorem withClosing_media (s : State) (f : Started) : (withClosing s f).media = s.media := by
  unfold withClosing
  split <;> rfl

theorem withClosing_noLayout {f : Started} (noLayout : s.instsOf f.tenant = []) : (withClosing s f).instsOf f.tenant = [] := by
  unfold withClosing
  split <;> exact noLayout

theorem withClosing_replay (s : State) (f : Started) : ((withClosing s f).ctx f.tenant).replay = (s.ctx f.tenant).replay := by
  unfold withClosing
  split
  · rfl
  · rw [State.ctx_onCtx_self]
    rfl

theorem withClosing_started {f g : Started} (there : g ∈ (withClosing s f).host.started) :
    ∃ h ∈ s.host.started, onContext f.tenant g = onContext f.tenant h ∧ isClose f.tenant g = isClose f.tenant h := by
  unfold withClosing at there
  split at there
  · exact ⟨g, there, rfl, rfl⟩
  · obtain ⟨h, inside, rfl⟩ := List.mem_map.mp there
    refine ⟨h, inside, ?_⟩
    split <;> exact ⟨rfl, rfl⟩

theorem closeContext_at_once {f : Started} (noLayout : s.instsOf f.tenant = []) (noReplay : (s.ctx f.tenant).replay = none)
    (noOther : ∀ g ∈ s.host.started, onContext f.tenant g = true → isClose f.tenant g = true) :
    s.closeContext f = ((withClosing s f).closeNow f.tenant).finishId f.id OK 0 := by
  have begun : (if f.accepted then s else (s.accept f).beginClose f.tenant) = withClosing s f := by
    unfold withClosing
    split
    · rfl
    · have none : ((s.accept f).onCtx f.tenant fun k => { k with closing := true }).instsOf f.tenant = [] := noLayout
      simp only [State.beginClose, none, List.foldl_nil]
  have replay : ((withClosing s f).ctx f.tenant).replay = none := (withClosing_replay s f).trans noReplay
  have ready : (withClosing s f).closeReady f.tenant = true := by
    simp only [State.closeReady, withClosing_noLayout noLayout, List.all_nil, Bool.or_true, Bool.true_and, List.all_eq_true]
    intro g there
    obtain ⟨h, there, on, close⟩ := withClosing_started there
    rw [on, close]
    cases act : onContext f.tenant h with
    | false => rfl
    | true => exact noOther h there act
  simp only [State.closeContext, begun, replay, Option.isSome_none, Bool.false_and, Bool.false_eq_true, if_false, ready, if_true]

theorem exec_closeContext (x : Serve) (s : State) : exec (.closeContext x) s = .next (s.serve x 0x04 State.closeContext) := rfl

/-- The close of O44 where no media session is listed twice, as in every store in canonical form (`sessionsListedOnce_of_wf`). -/
theorem closeContext_closes {x : Serve} {f : Started} (once : SessionsListedOnce s) (served : Serves s x 0x04 f)
    (noLayout : s.instsOf f.tenant = []) (noReplay : (s.ctx f.tenant).replay = none)
    (noOther : ∀ g ∈ s.host.started, onContext f.tenant g = true → isClose f.tenant g = true) :
    ∃ t, exec (.closeContext x) s = .next t ∧ Gone f t ∧ (t.ctx f.tenant).isOpen = false ∧
      (t.ctx f.tenant).closing = false ∧ (t.ctx f.tenant).gen = (s.ctx f.tenant).gen + 1 ∧
      (t.ctx f.tenant).beacons = [] ∧ (t.ctx f.tenant).regions = [] ∧ (t.ctx f.tenant).imports = [] ∧
      ∀ d, d ≠ f.tenant → (t.ctx d).isOpen = (s.ctx d).isOpen ∧ (t.ctx d).regions = (s.ctx d).regions ∧ (t.ctx d).beacons = (s.ctx d).beacons ∧
        (t.ctx d).pt = (s.ctx d).pt ∧ (t.ctx d).shares = (s.ctx d).shares := by
  have spared := spares_withClosing s f
  have onceStill : SessionsListedOnce (withClosing s f) := by rwa [SessionsListedOnce, withClosing_media]
  have noLayoutStill := withClosing_noLayout noLayout
  have noReplayStill := (withClosing_replay s f).trans noReplay
  obtain ⟨k, self⟩ := closeNow_ctx_self onceStill noLayoutStill noReplayStill
  have safe := (closeNow_safePending onceStill noLayoutStill noReplayStill).trans spared.safePending
  have closed := spared.others.trans (keepsOthers_closeNow onceStill noLayoutStill noReplayStill)
  have run := (exec_closeContext x s).trans (congrArg _ ((serve_of_serves served _).trans (closeContext_at_once noLayout noReplay noOther)))
  generalize (withClosing s f).closeNow f.tenant = w at self safe closed run
  have finished := quiet_finishId w f.id OK 0
  have own := (finished.2 f.tenant).trans self
  refine ⟨_, run, gone_finishId f OK 0 (safe.trans (safePending_of_serves served)), congrArg Context.isOpen own, congrArg Context.closing own,
    (congrArg Context.gen own).trans (congrArg (· + 1) spared.gen), congrArg Context.beacons own, congrArg Context.regions own,
    congrArg Context.imports own, fun _ other => (closed.trans (keepsOthers_of_quiet finished)).fields other⟩

end Sys2Proof.Proofs
end

section
/-! PROOFS. Where a session is listed twice, a close reaches the beacons of another context. -/

namespace Sys2Proof.Proofs

open Sys2Proof Sys2Proof.Machine Sys2Proof.Claims

/-! ## A session that is listed twice -/

/-- CLOSE_CONTEXT of tenant 0, in progress. -/
def closeOfTenant0 : Started := { id := 3, ring := .ctx 0, consAfter := 1, w := 0x04 }

/-- The first session of the first media die. -/
def firstSession : SessRef := { md := 0, idx := 0 }

/-- Tenant 1's beacon 5 holds the job wait of its media session. The store of sessions lists that session's key a second time, for tenant 0, behind
the entry that counts. -/
def sessionListedTwice : State :=
  { State.reset with
    host := { ready := true, started := [closeOfTenant0] }
    ctxs := [(0, { isOpen := true }), (1, { isOpen := true, beacons := [(5, { waiters := [(.job firstSession, 1)] })] })]
    media := { sessions := [(sessKey firstSession, { isOpen := true, tenant := 1 }), (sessKey firstSession, { isOpen := true, tenant := 0 })] } }

theorem sessionListedTwice_serves : Serves sessionListedTwice ⟨3, true⟩ 0x04 closeOfTenant0 := ⟨by decide +kernel, by decide +kernel⟩

/-- The close takes the shadowed entry for a session of its own, ends the session that counts, and drops tenant 1's wait. -/
theorem sessionListedTwice_closes : ((sessionListedTwice.closeContext closeOfTenant0).ctx 1).beacons = [] := by decide +kernel

/-- Refutes O44: its clause of CLOSE_CONTEXT fails in a state that lists a media session twice, as no store in canonical form does. Where none is
listed twice the clause holds (`closeContext_closes`), and the other clauses hold in every state, each a theorem above. -/
theorem not_contextsOpenShareAndClose : ¬ Obligations.ContextsOpenShareAndClose := by
  unfold Obligations.ContextsOpenShareAndClose
  rintro ⟨-, -, close, -⟩
  obtain ⟨t, run, -, -, -, -, -, -, -, others⟩ :=
    close ⟨3, true⟩ closeOfTenant0 sessionListedTwice sessionListedTwice_serves (by decide) (by decide) (by decide +kernel)
  have closed : t = sessionListedTwice.closeContext closeOfTenant0 := by
    rw [exec_closeContext, serve_of_serves sessionListedTwice_serves] at run
    exact (Host.Outcome.next.inj run).symm
  obtain ⟨-, -, kept, -⟩ := others 1 (by decide)
  rw [closed, sessionListedTwice_closes] at kept
  exact absurd kept (by decide)

end Sys2Proof.Proofs
end

section
/-! PROOFS. What an instruction whose checks pass leaves: the frames of its effect, and the sequencer behind it (R131, R171). -/

namespace Sys2Proof.Proofs

open Sys2Proof Sys2Proof.Machine Sys2Proof.Claims

variable {s t u : State} {x y : Site} {i : Issue} {op : Nat} {w : DWord}

/-! ## Frames -/

theorem onlyTile_refl (x : Site) (s : State) : OnlyTile x s s := ⟨rfl, fun _ _ => rfl⟩

theorem onlyTile_trans (first : OnlyTile x s t) (second : OnlyTile x t u) : OnlyTile x s u :=
  ⟨(congrArg (fun z : State => { z with tiles := s.tiles }) second.1).trans first.1,
    fun z h => (second.2 z h).trans (first.2 z h)⟩

theorem onlyTile_foldl {α : Type} {g : State → α → State} (each : ∀ s a, OnlyTile x s (g s a)) (l : List α) (s : State) :
    OnlyTile x s (l.foldl g s) := by
  induction l generalizing s with
  | nil => exact onlyTile_refl x s
  | cons a l ih => exact onlyTile_trans (each s a) (ih _)

theorem onlyPair_trans (first : OnlyPair x y s t) (second : OnlyPair x y t u) : OnlyPair x y s u :=
  ⟨(congrArg (fun z : State => { z with tiles := s.tiles }) second.1).trans first.1,
    fun z hx hy => (second.2 z hx hy).trans (first.2 z hx hy)⟩

theorem onlyPair_left (only : OnlyTile x s t) : OnlyPair x y s t := ⟨only.1, fun z h _ => only.2 z h⟩

theorem onlyPair_right (only : OnlyTile y s t) : OnlyPair x y s t := ⟨only.1, fun z _ h => only.2 z h⟩

theorem onlyTileFlow_trans (first : OnlyTileFlow x s t) (second : OnlyTileFlow x t u) : OnlyTileFlow x s u :=
  ⟨(congrArg (fun z : State => { z with tiles := s.tiles, net := { z.net with flow := s.net.flow } }) second.1).trans first.1,
    fun z h => (second.2 z h).trans (first.2 z h)⟩

theorem net_of_onlyTile (only : OnlyTile x s t) : t.net = s.net := by
  have same := congrArg State.net only.1
  exact same

theorem onlyTileFlow_of_onlyTile (only : OnlyTile x s t) : OnlyTileFlow x s t := by
  refine ⟨?_, only.2⟩
  rw [← net_of_onlyTile only]
  exact only.1

/-- A part of a tile that an update of some tile keeps there is the same at every site. -/
theorem part_onTile {α : Type} (part : Tile → α) {f : Tile → Tile} (keeps : part (f (s.tile x)) = part (s.tile x)) (y : Site) :
    part ((s.onTile x f).tile y) = part (s.tile y) := by
  rw [s.tile_onTile]
  split
  · next same => rw [same, keeps]
  · rfl

/-! ## The issue (R131, R156) -/

theorem onlyTile_counted (s : State) (i : Issue) : OnlyTile i.site s (s.counted i) := onlyTile_onTile s _ _

theorem onlyTile_advance (s : State) (x : Site) (rep : Bool) : OnlyTile x s (s.advance x rep) := onlyTile_onTile s _ _

/-- What the count of the waits leaves as it was. -/
theorem part_counted {α : Type} (part : Tile → α) (keeps : ∀ t n, part { t with issueStalls := n } = part t) (s : State) (i : Issue) (y : Site) :
    part ((s.counted i).tile y) = part (s.tile y) := part_onTile part (keeps _ _) y

/-- What going on behind a word leaves as it was. -/
theorem part_advance {α : Type} (part : Tile → α) (keeps : ∀ t q, part { t with seq := q } = part t) (s : State) (x : Site) (rep : Bool) (y : Site) :
    part ((s.advance x rep).tile y) = part (s.tile y) := part_onTile part (by cases rep <;> exact keeps _ _) y

theorem scalar_counted (s : State) (i : Issue) (y : Site) (k : Nat) : (s.counted i).scalar y k = s.scalar y k := by
  unfold State.scalar
  rw [part_counted Tile.m (fun _ _ => rfl), part_counted Tile.v (fun _ _ => rfl)]

theorem homeOk_counted (s : State) (i : Issue) (y : Site) : (s.counted i).homeOk y = s.homeOk y := by
  unfold State.homeOk
  rw [part_counted Tile.parked (fun _ _ => rfl)]
  rfl

/-- An instruction that issues, is legal and not refused for its class leaves what its effect leaves. -/
theorem issue_of_issues {legal : State → Site → DWord → Nat → Bool} {sealedBad : Bool} {effect : State → Site → DWord → Nat → Eff}
    (issues : Issues s i op w) (ok : legal (s.counted i) i.site w (ipOf s i) = true) (drift : (sealedBad && s.sealedAt i.site) = false) :
    s.issue i op legal sealedBad effect = s.afterEff i.site false (effect (s.counted i) i.site w (ipOf s i)) := by
  obtain ⟨may, pace, parity, word, opcode, free⟩ := issues
  unfold State.counted at ok ⊢
  simp only [State.issue, may, pace, parity, word, opcode, free, ok, drift, ne_eq, not_true_eq_false, if_false, Bool.not_true, Bool.or_false,
    Bool.false_eq_true]
  cases effect _ i.site w (ipOf s i) <;> rfl

theorem issueM_done {legal : State → Site → DWord → Nat → Bool} {sealedBad : Bool} {effect : State → Site → DWord → Nat → Eff}
    (kind : siteKind i.site = .m) (issues : Issues s i op w) (ok : legal (s.counted i) i.site w (ipOf s i) = true)
    (drift : (sealedBad && s.sealedAt i.site) = false) (done : effect (s.counted i) i.site w (ipOf s i) = .done t) :
    s.issueM i op legal sealedBad effect = t.advance i.site false := by
  rw [State.issueM, if_pos kind, issue_of_issues issues ok drift, done]
  rfl

theorem issueV_done {legal : State → Site → DWord → Nat → Bool} {effect : State → Site → DWord → Nat → Eff}
    (kind : siteKind i.site = .v) (issues : Issues s i op w) (ok : legal (s.counted i) i.site w (ipOf s i) = true)
    (noUnit : unitCycles w = 0) (done : effect (s.counted i) i.site w (ipOf s i) = .done t) :
    s.issueV i op legal effect = t.advance i.site false := by
  rw [State.issueV, if_pos kind, issue_of_issues issues ok rfl, done, Eff.inUnit, if_pos noUnit]
  rfl

/-- The home B-tile of an M-tile, and the paired one of a V-tile, stands in another column (R17, R129). -/
theorem homeB_ne (kind : siteKind x = .m ∨ siteKind x = .v) : homeB x ≠ x := by
  have columns : ∀ c : Fin 34, siteKind ⟨0, c, 0⟩ = .m ∨ siteKind ⟨0, c, 0⟩ = .v → (homeB ⟨0, c, 0⟩).col ≠ c := by decide
  have column : (homeB x).col = (homeB ⟨0, x.col, 0⟩).col := by
    have kinds : siteKind ⟨0, x.col, 0⟩ = siteKind x := rfl
    unfold homeB
    rw [kinds]
    cases siteKind x with
    | m => dsimp only; split <;> rfl
    | b | v | p => rfl
  exact fun same => columns x.col kind (column.symm.trans (congrArg Site.col same))

end Sys2Proof.Proofs
end

section
/-! PROOFS. What M-tiles and V-tiles hand on: sends on an open channel, and posts to the home B-tile's engine (R115, R184). -/

namespace Sys2Proof.Proofs

open Sys2Proof Sys2Proof.Machine Sys2Proof.Claims

variable {s t : State} {x : Site} {i : Issue} {op : Nat} {w : DWord}

/-! ## Sends (R184) -/

/-- The flits of a channel packet. -/
def chanFlits : Body → List Flit
  | .chan fs => fs
  | _ => []

/-- A list cut into pieces of one size is the list. -/
theorem flatMap_pieces {α : Type} (l : List α) {size : Nat} (pos : 0 < size) :
    ((List.range ((l.length + size - 1) / size)).flatMap fun k => (l.drop (size * k)).take size) = l := by
  have firsts (n : Nat) : ((List.range n).flatMap fun k => (l.drop (size * k)).take size) = l.take (size * n) := by
    induction n with
    | zero => simp
    | succ n ih => rw [List.range_succ, List.flatMap_append, ih, Nat.mul_succ, List.take_add]; simp
  rw [firsts, List.take_of_length_le]
  have := Nat.lt_mul_div_succ (l.length + size - 1) pos
  rw [Nat.mul_succ] at this
  omega

/-- The state with further packets in flight, behind the others. -/
def withFlow (s : State) (ps : List Packet) : State := { s with net := { s.net with flow := s.net.flow ++ ps } }

/-- Packets that enter a router one after the other stand behind those in flight, and nothing else changes. -/
theorem foldl_inject {α : Type} (head : State → α → Head) (body : α → Body) (l : List α) (s : State) :
    ∃ ps, l.foldl (fun a k => a.inject x (head a k) (body k)) s = withFlow s ps ∧ ps.map Packet.body = l.map body := by
  induction l generalizing s with
  | nil => exact ⟨[], by simp [withFlow]⟩
  | cons k l ih =>
    obtain ⟨ps, run, bodies⟩ := ih (s.inject x (head s k) (body k))
    refine ⟨{ place := .router x 4, head := head s k, body := body k } :: ps, ?_, by simp [bodies]⟩
    rw [List.foldl_cons, run]
    simp [withFlow, State.inject]

/-- Flits that leave in packets of one size are the flits of those packets. -/
theorem foldl_inject_pieces (head : State → Nat → Head) (fs : List Flit) {size : Nat} (pos : 0 < size) (s : State) :
    ∃ ps, (List.range ((fs.length + size - 1) / size)).foldl (fun a k => a.inject x (head a k) (.chan ((fs.drop (size * k)).take size))) s =
      withFlow s ps ∧ (ps.flatMap fun p => chanFlits p.body) = fs := by
  obtain ⟨ps, run, bodies⟩ := foldl_inject (x := x) head (fun k => .chan ((fs.drop (size * k)).take size))
    (List.range ((fs.length + size - 1) / size)) s
  refine ⟨ps, run, ?_⟩
  calc (ps.flatMap fun p => chanFlits p.body) = (ps.map Packet.body).flatMap chanFlits := (List.flatMap_map ..).symm
    _ = (List.range ((fs.length + size - 1) / size)).flatMap fun k => (fs.drop (size * k)).take size := by rw [bodies, List.flatMap_map]; rfl
    _ = fs := flatMap_pieces fs pos

/-- The state in which an endpoint has counted the flits that it sends. -/
def withSent (s : State) (x : Site) (ep n : Nat) : State := s.onOut x ep fun o => { o with flits := o.flits + n }

theorem sendFlits_eq {ep : Nat} (whole : ((s.tile x).outEp ep).cut = false) (fs : List Flit) :
    ∃ ps, s.sendFlits x ep fs = withFlow (withSent s x ep fs.length) ps ∧ (ps.flatMap fun p => chanFlits p.body) = fs := by
  have size : 0 < if s.isScheduled x = true then 1 else 16 := by split <;> decide
  rw [State.sendFlits, whole]
  exact foldl_inject_pieces _ fs size _

/-- The flits leave on an endpoint in their order, in new packets, and the endpoint counts them. -/
def Sends (x : Site) (ep : Nat) (fs : List Flit) (s t : State) : Prop :=
  OnlyTileFlow x s t ∧ ((t.tile x).outEp ep).flits = ((s.tile x).outEp ep).flits + fs.length ∧
    ∃ ps, t.net.flow = s.net.flow ++ ps ∧ (ps.flatMap fun p => chanFlits p.body) = fs

theorem sends_sendFlits {ep : Nat} (whole : ((s.tile x).outEp ep).cut = false) (fs : List Flit) : Sends x ep fs s (s.sendFlits x ep fs) := by
  obtain ⟨ps, run, flits⟩ := sendFlits_eq whole fs
  have counts : OnlyTile x s (withSent s x ep fs.length) := onlyTile_onTile s x _
  rw [run]
  refine ⟨⟨rfl, counts.2⟩, ?_, ps, rfl, flits⟩
  change (((withSent s x ep fs.length).tile x).outEp ep).flits = _
  simp [withSent, State.onOut, Tile.outEp]

/-- A send that issues leaves what the send itself leaves. -/
theorem sends_issued {ep : Nat} {fs : List Flit} (sends : Sends i.site ep fs (s.counted i) t) (rep : Bool) :
    Sends i.site ep fs s (t.advance i.site rep) := by
  obtain ⟨only, count, ps, flow, flits⟩ := sends
  refine ⟨?_, ?_, ps, flow, flits⟩
  · exact onlyTileFlow_trans (onlyTileFlow_trans (onlyTileFlow_of_onlyTile (onlyTile_counted s i)) only)
      (onlyTileFlow_of_onlyTile (onlyTile_advance t i.site rep))
  · rw [part_advance (fun t => (t.outEp ep).flits) (fun _ _ => rfl), count, part_counted (fun t => (t.outEp ep).flits) (fun _ _ => rfl)]

theorem sendInsn_opened {ep : Nat} (ip : Nat) (fs : List Flit) (opened : ((s.tile x).outEp ep).state = .opened) :
    s.sendInsn x ip ep fs = .done (s.sendFlits x ep fs) := by
  rw [State.sendInsn, opened]

theorem sends_counted {ep : Nat} (fs : List Flit) (whole : ((s.tile i.site).outEp ep).cut = false) (rep : Bool) :
    Sends i.site ep fs s (((s.counted i).sendFlits i.site ep fs).advance i.site rep) :=
  sends_issued (sends_sendFlits ((part_counted (fun t => (t.outEp ep).cut) (fun _ _ => rfl) s i _).trans whole) fs) rep

/-! ## Posts (R115) -/

/-- A descriptor of a tile stands last at its B-tile's engine, with the next SEQ. -/
def Posts (x y : Site) (desc : BitVec 256) (s t : State) : Prop :=
  OnlyPair x y s t ∧ (∀ z, (t.tile z).m = (s.tile z).m ∧ (t.tile z).v = (s.tile z).v) ∧ (t.tile y).b.nextSeq = (s.tile y).b.nextSeq + 1 ∧
    ∃ d, (t.tile y).b.dmas = (s.tile y).b.dmas ++ [d] ∧ d.seq = (s.tile y).b.nextSeq ∧ d.poster = siteSrc x ∧ d.desc = desc

theorem posts_dmaPost (s : State) (x y : Site) (desc : BitVec 256) : Posts x y desc s (s.dmaPost y desc (siteSrc x)) := by
  refine ⟨onlyPair_right (onlyTile_onTile s y _), fun z => ⟨part_onTile Tile.m rfl z, part_onTile Tile.v rfl z⟩, ?_, ?_⟩
  · exact congrArg (fun t : Tile => t.b.nextSeq) (s.tile_onTile_self y _)
  · refine ⟨_, congrArg (fun t : Tile => t.b.dmas) (s.tile_onTile_self y _), ?_⟩
    split
    · exact ⟨rfl, rfl, rfl⟩
    · split <;> exact ⟨rfl, rfl, rfl⟩

theorem posts_issued {y : Site} {desc : BitVec 256} (posts : Posts i.site y desc (s.counted i) t) (rep : Bool) :
    Posts i.site y desc s (t.advance i.site rep) := by
  obtain ⟨only, regs, next, d, last, seq, poster, bytes⟩ := posts
  have counted (z : Site) : ((s.counted i).tile z).b = (s.tile z).b := part_counted Tile.b (fun _ _ => rfl) s i z
  have advanced (z : Site) : ((t.advance i.site rep).tile z).b = (t.tile z).b := part_advance Tile.b (fun _ _ => rfl) t _ rep z
  refine ⟨onlyPair_trans (onlyPair_trans (onlyPair_left (onlyTile_counted s i)) only) (onlyPair_left (onlyTile_advance t _ rep)), fun z => ?_, ?_,
    d, ?_, ?_, poster, bytes⟩
  · exact ⟨(part_advance Tile.m (fun _ _ => rfl) t _ rep z).trans ((regs z).1.trans (part_counted Tile.m (fun _ _ => rfl) s i z)),
      (part_advance Tile.v (fun _ _ => rfl) t _ rep z).trans ((regs z).2.trans (part_counted Tile.v (fun _ _ => rfl) s i z))⟩
  · rw [advanced, next, counted]
  · rw [advanced, last, counted]
  · rw [seq, counted]

theorem dmaRoom_counted (s : State) (i : Issue) (y : Site) : (s.counted i).dmaRoom y = s.dmaRoom y := by
  unfold State.dmaRoom
  rw [part_counted Tile.b (fun _ _ => rfl)]

/-! ## M-tiles (R141, R143) -/

theorem tdma_posts (issues : Issues s i 0x08 w) (kind : siteKind i.site = .m) (ok : tdmaLegal s i.site w (ipOf s i) = true)
    (room : s.dmaRoom (homeB i.site) = true) :
    ∃ t, exec (.tdma i) s = .next t ∧
      Posts i.site (homeB i.site) (BitVec.ofNat 256 (leNat ((s.tile i.site).m.row (fld w 57 55) (fld w 54 49) 0 32))) s t := by
  refine ⟨_, congrArg Host.Outcome.next (issueM_done kind issues ?_ rfl ?_), posts_issued (posts_dmaPost (s.counted i) _ _ _) false⟩
  · rwa [tdmaLegal, homeOk_counted]
  · rw [if_pos ((dmaRoom_counted s i _).trans room), part_counted Tile.m (fun _ _ => rfl)]

theorem tsend_sends (issues : Issues s i 0x09 w) (kind : siteKind i.site = .m) (ok : tsendLegal s i.site w (ipOf s i) = true)
    (opened : ((s.tile i.site).outEp (fld w 54 52)).state = .opened) (whole : ((s.tile i.site).outEp (fld w 54 52)).cut = false) :
    ∃ t, exec (.tsend i) s = .next t ∧ Sends i.site (fld w 54 52) ((List.range (fld w 51 46 + 1)).map fun r =>
      flitOf ((s.tile i.site).m.row (fld w 57 55) (fld w 38 33 + r) 0 (rbBytes (fld w 45 43)))) s t := by
  refine ⟨_, congrArg Host.Outcome.next (issueM_done kind issues ok rfl ?_), sends_counted _ whole false⟩
  rw [part_counted Tile.m (fun _ _ => rfl)]
  exact sendInsn_opened _ _ ((part_counted (fun t => (t.outEp (fld w 54 52)).state) (fun _ _ => rfl) s i _).trans opened)

theorem wcinv_empties_the_cache (issues : Issues s i 0x0A w) (kind : siteKind i.site = .m) (ok : onlyBits w 0 = true)
    (drift : s.sealedAt i.site = false) (idle : (s.tile i.site).m.tldw = none) :
    ∃ t, exec (.wcinv i) s = .next t ∧ OnlyTile i.site s t ∧ (t.tile i.site).m = { (s.tile i.site).m with cache := [] } := by
  have counted : ((s.counted i).tile i.site).m = (s.tile i.site).m := part_counted Tile.m (fun _ _ => rfl) s i _
  refine ⟨_, congrArg Host.Outcome.next (issueM_done (t := (s.counted i).onM i.site fun m => { m with cache := [] }) kind issues ok drift ?_), ?_, ?_⟩
  · rw [counted, idle]
    rfl
  · exact onlyTile_trans (onlyTile_trans (onlyTile_counted s i) (onlyTile_onTile _ _ _)) (onlyTile_advance _ _ _)
  · rw [part_advance Tile.m (fun _ _ => rfl), ← counted]
    exact congrArg Tile.m ((s.counted i).tile_onTile_self _ _)

theorem tldwFault_waits {d : TldwRun} {row id : Nat} (there : (s.tile x).m.tldw = some d) (fault : d.fault = some (row, id))
    (alive : s.alive = true) (fresh : d.waiting = false) (answered : d.outstanding = 0) :
    ∃ t, exec (.tldwFault x) s = .next t ∧ OnlyTile x s t ∧ (t.tile x).m.tldw = some { d with waiting := true } ∧
      (t.tile x).m.tldwFault = true ∧ (t.tile x).m.faultIp = d.ip ∧ (t.tile x).m.faultRow = row := by
  have run : s.tldwFaultEnd x = s.onM x fun m =>
      { m with tldwFault := true, faultIp := d.ip, faultRow := row, tldw := some { d with waiting := true } } := by
    simp [State.tldwFaultEnd, there, fault, alive, fresh, answered]
  refine ⟨_, congrArg Host.Outcome.next run, onlyTile_onTile s x _, ?_⟩
  simp [State.onM]

/-- Settles O5, one theorem a clause: TDMA and TSEND by what a post and a send leave. -/
theorem mtilePostsSendsAndWaits : Obligations.MtilePostsSendsAndWaits := by
  refine ⟨fun i s w issues kind ok room => ?_, fun i s w issues kind ok opened whole => ?_,
    fun i s w issues kind ok drift idle => wcinv_empties_the_cache issues kind ok drift idle,
    fun x s d row id there fault alive fresh answered => tldwFault_waits there fault alive fresh answered⟩
  · obtain ⟨t, run, only, regs, next, d, last, seq, poster, bytes⟩ := tdma_posts issues kind ok room
    exact ⟨t, d, run, only, (regs i.site).1, last, seq, poster, bytes, next⟩
  · obtain ⟨t, run, only, count, ps, flow, flits⟩ := tsend_sends issues kind ok opened whole
    rw [List.length_map, List.length_range] at count
    exact ⟨t, ps, run, only, flow, count, flits⟩

end Sys2Proof.Proofs
end

section
/-! PROOFS. Port queues, sends and posts of a V-tile (R115, R165, R167, R168, R184). -/

namespace Sys2Proof.Proofs

open Sys2Proof Sys2Proof.Machine Sys2Proof.Claims

variable {s : State} {x : Site} {i : Issue} {w : DWord}

/-! ## Lane pairs and port queues (R165, R168) -/

/-- The two halves of a word, put together. -/
theorem halves_append (e : DWord) : e.extractLsb' 32 32 ++ e.setWidth 32 = e := by
  ext k hk
  rw [BitVec.getElem_append]
  split
  · rw [BitVec.getElem_setWidth]
    exact BitVec.getLsbD_eq_getElem hk
  · rw [BitVec.getElem_extractLsb', show 32 + (k - 32) = k by omega]
    exact BitVec.getLsbD_eq_getElem hk

theorem pair_putPair_self (v : VState) (r k : Nat) (e : DWord) : (v.putPair r k e).pair r k = e := by
  have low : r * 64 + 2 * k ≠ r * 64 + (2 * k + 1) := by omega
  simp [VState.pair, VState.putPair, VState.putLane, VState.lane, Map.get_set_other _ _ _ low, halves_append]

theorem pair_putPair_other (v : VState) (r : Nat) {j k : Nat} (e : DWord) (h : j ≠ k) : (v.putPair r k e).pair r j = v.pair r j := by
  simp only [VState.pair, VState.putPair, VState.putLane, VState.lane]
  rw [Map.get_set_other _ _ _ (by omega), Map.get_set_other _ _ _ (by omega), Map.get_set_other _ _ _ (by omega),
    Map.get_set_other _ _ _ (by omega)]

/-- The lane pairs of a register that take a list's words, from pair `n` on. -/
def putPairs (v : VState) (r n : Nat) (es : List DWord) : VState := (es.zipIdx n).foldl (fun v p => v.putPair r p.2 p.1) v

theorem putPairs_keeps (v : VState) (r n : Nat) (es : List DWord) :
    (putPairs v r n es).m = v.m ∧ (putPairs v r n es).s = v.s ∧ (putPairs v r n es).queues = v.queues := by
  induction es generalizing v n with
  | nil => exact ⟨rfl, rfl, rfl⟩
  | cons e es ih => exact ih (v.putPair r n e) (n + 1)

theorem pair_putPairs_below (v : VState) (r n : Nat) (es : List DWord) {k : Nat} (h : k < n) : (putPairs v r n es).pair r k = v.pair r k := by
  induction es generalizing v n with
  | nil => rfl
  | cons e es ih => exact (ih (v.putPair r n e) (n + 1) (by omega)).trans (pair_putPair_other v r e (by omega))

theorem pair_putPairs (v : VState) (r n : Nat) (es : List DWord) {k : Nat} (h : k < es.length) :
    (putPairs v r n es).pair r (n + k) = es.getD k 0 := by
  induction es generalizing v n k with
  | nil => exact absurd h (Nat.not_lt_zero k)
  | cons e es ih =>
    cases k with
    | zero => exact (pair_putPairs_below _ r (n + 1) es (by omega)).trans (pair_putPair_self v r n e)
    | succ k =>
      have rest := ih (v.putPair r n e) (n + 1) (k := k) (by simpa using h)
      rwa [Nat.add_assoc, Nat.add_comm 1 k] at rest

/-- The port queue of a VPRD without the entries that it takes. -/
def popped (w : DWord) (v : VState) : VState :=
  { v with queues := Map.set [] v.queues (fld w 52 50) ((Map.get [] v.queues (fld w 52 50)).drop (fld w 49 45 + 1)) }

/-- The word that a VPRD to scalars takes. -/
def firstEntry (w : DWord) (v : VState) : DWord := ((Map.get [] v.queues (fld w 52 50)).take (fld w 49 45 + 1)).headD 0

theorem vprd_to_scalars (v : VState) (h : bitAt w 44 = true) :
    v.vprd w = { popped w v with s := Map.set 0 (Map.set 0 v.s (fld w 43 40) ((firstEntry w v).setWidth 32)) (fld w 43 40 + 1)
                                        ((firstEntry w v).extractLsb' 32 32) } := if_pos h

theorem vprd_to_lanes (v : VState) (h : bitAt w 44 = false) :
    v.vprd w = putPairs (popped w v) (fld w 57 53) 0 ((Map.get [] v.queues (fld w 52 50)).take (fld w 49 45 + 1)) :=
  if_neg (by rw [h]; exact Bool.false_ne_true)

/-- What VPRD takes from its queue, and where the entries go. -/
def TakesEntries (w : DWord) (a b : VState) : Prop :=
  Map.get [] b.queues (fld w 52 50) = (Map.get [] a.queues (fld w 52 50)).drop (fld w 49 45 + 1) ∧
    (∀ q, q ≠ fld w 52 50 → Map.get [] b.queues q = Map.get [] a.queues q) ∧ b.m = a.m ∧
    (if bitAt w 44 then b.v = a.v ∧
       Map.get 0 b.s (fld w 43 40 + 1) ++ Map.get 0 b.s (fld w 43 40) = (Map.get [] a.queues (fld w 52 50)).headD 0
     else b.s = a.s ∧ ∀ k, k < fld w 49 45 + 1 → b.pair (fld w 57 53) k = (Map.get [] a.queues (fld w 52 50)).getD k 0)

theorem takesEntries_vprd (v : VState) (there : fld w 49 45 + 1 ≤ (Map.get [] v.queues (fld w 52 50)).length) : TakesEntries w v (v.vprd w) := by
  have queue : Map.get [] (popped w v).queues (fld w 52 50) = (Map.get [] v.queues (fld w 52 50)).drop (fld w 49 45 + 1) :=
    Map.get_set_self [] v.queues _ _
  have others (q : Nat) (h : q ≠ fld w 52 50) : Map.get [] (popped w v).queues q = Map.get [] v.queues q :=
    Map.get_set_other [] v.queues _ h
  unfold TakesEntries
  cases scalars : bitAt w 44 with
  | true =>
    rw [vprd_to_scalars v scalars]
    refine ⟨queue, others, rfl, ?_⟩
    rw [if_pos rfl]
    refine ⟨rfl, ?_⟩
    dsimp only
    rw [Map.get_set_self, Map.get_set_other _ _ _ (by omega), Map.get_set_self, halves_append]
    unfold firstEntry
    cases Map.get [] v.queues (fld w 52 50) <;> rfl
  | false =>
    obtain ⟨masks, scalars_kept, queues⟩ :=
      putPairs_keeps (popped w v) (fld w 57 53) 0 ((Map.get [] v.queues (fld w 52 50)).take (fld w 49 45 + 1))
    rw [vprd_to_lanes v scalars, queues, if_neg Bool.false_ne_true]
    refine ⟨queue, others, masks, scalars_kept, fun k hk => ?_⟩
    have pair := pair_putPairs (popped w v) (fld w 57 53) 0 ((Map.get [] v.queues (fld w 52 50)).take (fld w 49 45 + 1)) (k := k)
      (by rw [List.length_take]; omega)
    rw [Nat.zero_add] at pair
    rw [pair, List.getD_eq_getElem?_getD, List.getD_eq_getElem?_getD, List.getElem?_take_of_lt hk]

/-! ## The instructions -/

/-- Only the ALU, FMA, SFU and RED units count as holding an instruction (R233). -/
theorem unitCycles_of_moves {op : Nat} (issues : Issues s i op w) (h : op = 0x0A ∨ op = 0x0B ∨ op = 0x0E) : unitCycles w = 0 := by
  obtain ⟨-, -, -, -, opcode, -⟩ := issues
  rw [unitCycles, opcode]
  rcases h with rfl | rfl | rfl <;> rfl

theorem vprd_takes (issues : Issues s i 0x0A w) (kind : siteKind i.site = .v) (ok : vprdLegal s i.site w (ipOf s i) = true)
    (there : fld w 49 45 + 1 ≤ (Map.get [] (s.tile i.site).v.queues (fld w 52 50)).length) :
    ∃ t, exec (.vprd i) s = .next t ∧ VectorStep i s t (TakesEntries w) := by
  have counted : ((s.counted i).tile i.site).v = (s.tile i.site).v := part_counted Tile.v (fun _ _ => rfl) s i _
  refine ⟨_, congrArg Host.Outcome.next (issueV_done (t := (s.counted i).onV i.site (VState.vprd w)) kind issues ok
    (unitCycles_of_moves issues (.inl rfl)) ?_), ?_, ?_⟩
  · rw [counted, if_neg (by omega)]
  · exact onlyTile_trans (onlyTile_trans (onlyTile_counted s i) (onlyTile_onTile _ _ _)) (onlyTile_advance _ _ _)
  · have tile : (((s.counted i).onV i.site (VState.vprd w)).advance i.site false).tile i.site =
        Tile.goOn { s.tile i.site with issueStalls := addSat (s.tile i.site).issueStalls i.stalls, v := (s.tile i.site).v.vprd w }
          (siteKind i.site) ((s.tile i.site).seq.held.drop 1) (nextAddr (ipOf s i) (s.tile i.site).seq.loops).1
          (nextAddr (ipOf s i) (s.tile i.site).seq.loops).2 := by
      simp [State.advance, State.onV, State.counted]
    rw [tile]
    exact ⟨rfl, ⟨rfl, rfl, rfl, rfl, rfl, rfl⟩, takesEntries_vprd _ there⟩

theorem vsend_sends (issues : Issues s i 0x0B w) (kind : siteKind i.site = .v) (ok : fld w 47 0 = 0)
    (opened : ((s.tile i.site).outEp (fld w 52 50)).state = .opened) (whole : ((s.tile i.site).outEp (fld w 52 50)).cut = false) :
    ∃ t, exec (.vsend i) s = .next t ∧
      Sends i.site (fld w 52 50) ((List.range (fld w 49 48 + 1)).map fun f => (s.tile i.site).v.flit (fld w 57 53) f) s t := by
  refine ⟨_, congrArg Host.Outcome.next (issueV_done kind issues (decide_eq_true ok) (unitCycles_of_moves issues (.inr (.inl rfl))) ?_),
    sends_counted _ whole false⟩
  rw [part_counted Tile.v (fun _ _ => rfl)]
  exact sendInsn_opened _ _ ((part_counted (fun t => (t.outEp (fld w 52 50)).state) (fun _ _ => rfl) s i _).trans opened)

theorem dmapost_posts (issues : Issues s i 0x0E w) (kind : siteKind i.site = .v) (ok : fld w 52 0 = 0) (home : s.homeOk i.site = true)
    (room : s.dmaRoom (homeB i.site) = true) :
    ∃ t, exec (.dmapost i) s = .next t ∧ Posts i.site (homeB i.site)
      (BitVec.ofNat 256 (leNat ((List.range 8).flatMap fun l => leBytes 4 ((s.tile i.site).v.lane (fld w 57 53) l).toNat))) s t := by
  refine ⟨_, congrArg Host.Outcome.next (issueV_done kind issues (decide_eq_true ok) (unitCycles_of_moves issues (.inr (.inr rfl))) ?_),
    posts_issued (posts_dmaPost (s.counted i) _ _ _) false⟩
  rw [homeOk_counted, home, if_neg (by decide), if_pos ((dmaRoom_counted s i _).trans room), part_counted Tile.v (fun _ _ => rfl)]

/-- Settles O9, one theorem a clause: VSEND and DMAPOST by what a send and a post leave, as at an M-tile. -/
theorem queuesSendsAndPosts : Obligations.QueuesSendsAndPosts := by
  refine ⟨fun i s w issues kind ok there => vprd_takes issues kind ok there, fun i s w issues kind ok opened whole => ?_,
    fun i s w issues kind ok home room => ?_⟩
  · obtain ⟨t, run, only, count, ps, flow, flits⟩ := vsend_sends issues kind ok opened whole
    rw [List.length_map, List.length_range] at count
    exact ⟨t, ps, run, only, flow, count, flits⟩
  · obtain ⟨t, run, only, regs, -, d, last, seq, poster, bytes⟩ := dmapost_posts issues kind ok home room
    exact ⟨t, d, run, only, (regs i.site).2, last, seq, poster, bytes⟩

end Sys2Proof.Proofs
end

section
/-! PROOFS. Rows that move between an M-tile's registers and its home B-tile (R104, R139). -/

namespace Sys2Proof.Proofs

open Sys2Proof Sys2Proof.Machine Sys2Proof.Claims

variable {s t : State} {x y : Site} {i : Issue} {w : DWord}

/-! ## Several writes to a byte memory -/

theorem read_congr {m k : Memory} (a n : Nat) (same : ∀ c, a ≤ c → c < a + n → m.byte c = k.byte c) : m.read a n = k.read a n := by
  induction n generalizing a with
  | zero => rfl
  | succ n ih =>
    rw [Memory.read, Memory.read, same a (Nat.le_refl a) (by omega), ih (a + 1) fun c low high => same c (by omega) (by omega)]

/-- A memory after the writes of rows 0 to `n - 1`, each to its own address. -/
def writeRows (addr : Nat → Nat) (bytes : Nat → List Byte) (n : Nat) (m : Memory) : Memory :=
  (List.range n).foldl (fun m r => m.write (addr r) (bytes r)) m

section

variable {addr : Nat → Nat} {bytes : Nat → List Byte} {size : Nat} (length : ∀ r, (bytes r).length = size)

theorem writeRows_succ (n : Nat) (m : Memory) : writeRows addr bytes (n + 1) m = (writeRows addr bytes n m).write (addr n) (bytes n) := by
  rw [writeRows, List.range_succ, List.foldl_append]
  rfl

include length

theorem byte_writeRows_outside (n : Nat) (m : Memory) {a : Nat} (outside : ∀ r, r < n → a < addr r ∨ addr r + size ≤ a) :
    (writeRows addr bytes n m).byte a = m.byte a := by
  induction n with
  | zero => rfl
  | succ n ih =>
    rw [writeRows_succ, Memory.byte_write_other _ _ _ _ (by rw [length]; exact outside n (Nat.lt_succ_self n))]
    exact ih fun r h => outside r (by omega)

/-- A row that no later one overlaps reads back. -/
theorem read_writeRows (n : Nat) (m : Memory) {r : Nat} (h : r < n)
    (last : ∀ q, r < q → q < n → addr q + size ≤ addr r ∨ addr r + size ≤ addr q) :
    (writeRows addr bytes n m).read (addr r) size = bytes r := by
  induction n with
  | zero => exact absurd h (Nat.not_lt_zero r)
  | succ n ih =>
    rw [writeRows_succ]
    by_cases this : r = n
    · subst this
      rw [← length r]
      exact Memory.read_write _ _ _
    · rw [← ih (by omega) fun q low high => last q low (by omega)]
      refine read_congr _ _ fun c low high => Memory.byte_write_other _ _ _ _ ?_
      have apart := last n (by omega) (Nat.lt_succ_self n)
      rw [length]
      omega

end

/-! ## Rows of a TLD or TST -/

theorem ldBytes_le (w : DWord) : ldBytes w ≤ 64 := by
  have field : fld w 47 45 < 8 := Nat.mod_lt _ (by decide)
  unfold ldBytes rbBytes
  split <;> omega

theorem ldOff_counted (s : State) (i : Issue) (x : Site) (w : DWord) (r : Nat) : ldOff (s.counted i) x w r = ldOff s x w r := by
  unfold ldOff ldBase
  rw [scalar_counted]

theorem ldLegal_counted (s : State) (i : Issue) (x : Site) (w : DWord) (ip : Nat) : ldLegal (s.counted i) x w ip = ldLegal s x w ip := by
  unfold ldLegal
  simp only [homeOk_counted, ldOff_counted]

theorem onlyTile_presentRows (s : State) (x : Site) (offs : List Nat) : OnlyTile (homeB x) s (s.presentRows x offs) := onlyTile_onTile s _ _

/-- What presenting the accesses of rows leaves as it was. -/
theorem part_presentRows {α : Type} (part : Tile → α) (keeps : ∀ t p, part { t with b := { t.b with ports := p } } = part t)
    (s : State) (x : Site) (offs : List Nat) (y : Site) : part ((s.presentRows x offs).tile y) = part (s.tile y) :=
  part_onTile part (keeps _ _) y

/-! ## TST (R139) -/

/-- The bytes of a row of the register that a TST names. -/
def tstRow (m : MState) (w : DWord) (r : Nat) : List Byte :=
  if fld w 54 54 = 1 then m.scaleRow (fld w 57 55) (fld w 5 0 + r) 0 8 else m.row (fld w 57 55) (fld w 5 0 + r) 0 (ldBytes w)

theorem tstRow_length (m : MState) (w : DWord) (r : Nat) : (tstRow m w r).length = ldBytes w := by
  unfold tstRow
  split
  · next scale => rw [ldBytes, if_pos scale]; exact Memory.read_length ..
  · exact Memory.read_length ..

/-- The state after the writes of rows 0 to `n - 1` to a B-tile. -/
def putRows (y : Site) (addr : Nat → Nat) (bytes : Nat → List Byte) (n : Nat) (s : State) : State :=
  (List.range n).foldl (fun a r => a.btPut y (addr r) (bytes r)) s

section

variable (addr : Nat → Nat) (bytes : Nat → List Byte) (n : Nat)

theorem putRows_succ : putRows y addr bytes (n + 1) s = (putRows y addr bytes n s).btPut y (addr n) (bytes n) := by
  rw [putRows, List.range_succ, List.foldl_append]
  rfl

theorem onlyTile_putRows : OnlyTile y s (putRows y addr bytes n s) := onlyTile_foldl (fun a _ => onlyTile_onTile a _ _) _ _

theorem m_putRows (z : Site) : ((putRows y addr bytes n s).tile z).m = (s.tile z).m := by
  induction n with
  | zero => rfl
  | succ n ih => rw [putRows_succ, ← ih]; exact part_onTile Tile.m rfl z

theorem mem_putRows : ((putRows y addr bytes n s).tile y).b.mem = writeRows addr bytes n (s.tile y).b.mem := by
  induction n with
  | zero => rfl
  | succ n ih => rw [putRows_succ, writeRows_succ, ← ih]; exact congrArg (fun t : Tile => t.b.mem) (State.tile_onTile_self _ y _)

end

/-- A TST's effect: its accesses are presented, and its rows written. -/
def tstState (s : State) (x : Site) (w : DWord) : State :=
  putRows (homeB x) (ldOff s x w) (tstRow (s.tile x).m w) (ldRows w)
    (s.presentRows x ((List.range (ldRows w)).map fun r => ldOff s x w r))

theorem onlyTile_tstState (s : State) (x : Site) (w : DWord) : OnlyTile (homeB x) s (tstState s x w) :=
  onlyTile_trans (onlyTile_presentRows s x _) (onlyTile_putRows _ _ _)

theorem tst_writes_rows (issues : Issues s i 0x02 w) (kind : siteKind i.site = .m) (ok : ldLegal s i.site w (ipOf s i) = true) :
    ∃ t, exec (.tst i) s = .next t ∧ OnlyPair i.site (homeB i.site) s t ∧ (t.tile i.site).m = (s.tile i.site).m ∧
      (t.tile (homeB i.site)).b.mem = writeRows (ldOff s i.site w) (tstRow (s.tile i.site).m w) (ldRows w) (s.tile (homeB i.site)).b.mem := by
  have counted : ((s.counted i).tile i.site).m = (s.tile i.site).m := part_counted Tile.m (fun _ _ => rfl) s i _
  have offsets : ldOff (s.counted i) i.site w = ldOff s i.site w := funext fun r => ldOff_counted s i _ w r
  refine ⟨(tstState (s.counted i) i.site w).advance i.site false,
    congrArg Host.Outcome.next (issueM_done kind issues ((ldLegal_counted s i _ w _).trans ok) rfl rfl), ?_, ?_, ?_⟩
  · exact onlyPair_trans (onlyPair_trans (onlyPair_left (onlyTile_counted s i)) (onlyPair_right (onlyTile_tstState _ _ w)))
      (onlyPair_left (onlyTile_advance _ _ _))
  · rw [part_advance Tile.m (fun _ _ => rfl), tstState, m_putRows, part_presentRows Tile.m (fun _ _ => rfl), counted]
  · rw [part_advance (fun t => t.b.mem) (fun _ _ => rfl), tstState, mem_putRows, part_presentRows (fun t => t.b.mem) (fun _ _ => rfl),
      part_counted (fun t => t.b.mem) (fun _ _ => rfl), counted, offsets]

theorem tstStoresItsRows : TstStoresItsRows := by
  intro i s w issues kind ok
  obtain ⟨t, run, only, regs, mem⟩ := tst_writes_rows issues kind ok
  refine ⟨t, run, only, regs, fun a outside => ?_, fun r h last => ?_⟩
  · rw [mem]
    exact byte_writeRows_outside (tstRow_length _ w) _ _ outside
  · rw [mem]
    exact read_writeRows (tstRow_length _ w) _ _ h last

/-! ## The accesses of a TLD (R104, R139) -/

theorem takeRun_append (o : Nat) (g ps : List Nat) : (takeRun o g ps).1 ++ (takeRun o g ps).2 = g ++ o :: ps := by
  induction ps generalizing o g with
  | nil => simp [takeRun]
  | cons p ps ih =>
    unfold takeRun
    split
    · simp [ih]
    · simp

theorem takeRun_length (o : Nat) (g ps : List Nat) : (takeRun o g ps).2.length ≤ ps.length := by
  induction ps generalizing o g with
  | nil => simp [takeRun]
  | cons p ps ih =>
    unfold takeRun
    split
    · exact Nat.le_trans (ih p _) (Nat.le_succ _)
    · exact Nat.le_refl _

/-- The accesses cover the rows in order. -/
theorem accesses_flatten (k : Nat) (offs : List Nat) (room : offs.length ≤ k) : (accesses k offs).flatten = offs := by
  induction k generalizing offs with
  | zero => simp [List.eq_nil_of_length_eq_zero (Nat.le_zero.mp room), accesses]
  | succ k ih =>
    cases offs with
    | nil => rfl
    | cons o os =>
      have shorter := takeRun_length o [] os
      rw [List.length_cons] at room
      rw [accesses, List.flatten_cons, ih _ (by omega)]
      exact takeRun_append o [] os

theorem numbered_flatten {α : Type} (n : Nat) (gs : List (List α)) :
    (numbered n gs).flatten = (gs.flatten.zipIdx n).map fun p => (p.2, p.1) := by
  induction gs generalizing n with
  | nil => rfl
  | cons g gs ih =>
    rw [numbered, List.flatten_cons, ih, List.flatten_cons, List.zipIdx_append, List.map_append, List.zipIdx_eq_map_add (i := n), List.map_map]
    rfl

/-- The rows of a TLD as its accesses read them: each row once, in order, with its offset. -/
theorem rows_of_accesses (off : Nat → Nat) (n : Nat) :
    (numbered 0 (accesses ((List.range n).map off).length ((List.range n).map off))).flatten = (List.range n).map fun r => (r, off r) := by
  rw [numbered_flatten, accesses_flatten _ _ (Nat.le_refl _)]
  refine List.ext_getElem (by simp) fun k _ _ => ?_
  simp

/-! ## TLD (R139) -/

/-- A row's bytes at an offset of the home B-tile go to their row of the register. -/
def loadRow (w : DWord) (mem : Memory) (m : MState) (p : Nat × Nat) : MState :=
  if fld w 54 54 = 1 then m.putScale (fld w 57 55) (fld w 5 0 + p.1) 0 (mem.read p.2 (ldBytes w))
  else m.putRow (fld w 57 55) (fld w 5 0 + p.1) 0 (mem.read p.2 (ldBytes w))

theorem btRead_clean (off n : Nat) (r : Src) (clean : (s.tile y).b.bad = []) : s.btRead y off n r = ((s.tile y).b.mem.read off n, false, s) := by
  simp [State.btRead, BState.badIn, clean]

theorem readRows_clean (n : Nat) (g : List (Nat × Nat)) (clean : (s.tile (homeB x)).b.bad = []) :
    s.readRows x n g = (g.map fun p => (p.1, (s.tile (homeB x)).b.mem.read p.2 n), false, s) := by
  have from_ (l : List (Nat × List Byte)) : g.foldl (fun a p =>
      (a.1 ++ [(p.1, (a.2.2.btRead (homeB x) p.2 n (siteSrc x)).1)], a.2.1 || (a.2.2.btRead (homeB x) p.2 n (siteSrc x)).2.1,
        (a.2.2.btRead (homeB x) p.2 n (siteSrc x)).2.2)) (l, false, s) =
      (l ++ g.map fun p => (p.1, (s.tile (homeB x)).b.mem.read p.2 n), false, s) := by
    induction g generalizing l with
    | nil => simp
    | cons p g ih => simp [btRead_clean p.2 n (siteSrc x) clean, ih]
  exact from_ []

theorem tldAccess_clean (g : List (Nat × Nat)) (clean : (s.tile (homeB x)).b.bad = []) :
    State.tldAccess x w (false, s) g = (false, s.onM x fun m => g.foldl (loadRow w (s.tile (homeB x)).b.mem) m) := by
  unfold State.tldAccess
  simp only [readRows_clean _ g clean, Bool.false_eq_true, if_false, List.foldl_map]
  rfl

/-- The accesses of a TLD, none of which meets an upset word, load their rows in order and change nothing else. -/
theorem tldAccesses_clean (other : homeB x ≠ x) (gs : List (List (Nat × Nat))) (s : State) (clean : (s.tile (homeB x)).b.bad = []) :
    ∃ t, gs.foldl (State.tldAccess x w) (false, s) = (false, t) ∧ OnlyTile x s t ∧
      (t.tile x).m = gs.flatten.foldl (loadRow w (s.tile (homeB x)).b.mem) (s.tile x).m := by
  induction gs generalizing s with
  | nil => exact ⟨s, rfl, onlyTile_refl x s, rfl⟩
  | cons g gs ih =>
    have first := onlyTile_onTile s x fun t => { t with m := g.foldl (loadRow w (s.tile (homeB x)).b.mem) t.m }
    have home := first.2 _ other
    obtain ⟨t, run, only, regs⟩ := ih _ ((congrArg (fun t : Tile => t.b.bad) home).trans clean)
    refine ⟨t, ?_, onlyTile_trans first only, ?_⟩
    · rw [List.foldl_cons, tldAccess_clean g clean]
      exact run
    · rw [regs, home, State.tile_onTile_self, List.flatten_cons, List.foldl_append]

/-- An M-tile's registers after the rows of a TLD from a B-tile's bytes. -/
def loaded (w : DWord) (mem : Memory) (off : Nat → Nat) (m : MState) : MState :=
  (List.range (ldRows w)).foldl (fun m r => loadRow w mem m (r, off r)) m

/-- The state in which a TLD reads its rows. -/
def tldStart (s : State) (x : Site) (w : DWord) : State :=
  (s.upsetBt (homeB x) []).presentRows x ((List.range (ldRows w)).map fun r => ldOff s x w r)

theorem onlyTile_tldStart (s : State) (x : Site) (w : DWord) : OnlyTile (homeB x) s (tldStart s x w) :=
  onlyTile_trans (onlyTile_onTile s _ _) (onlyTile_presentRows _ x _)

theorem part_tldStart {α : Type} (part : Tile → α) (keeps : ∀ t p, part { t with b := { t.b with ports := p } } = part t)
    (s : State) (x : Site) (w : DWord) (y : Site) : part ((tldStart s x w).tile y) = part (s.tile y) :=
  (part_presentRows part keeps _ x _ y).trans (part_onTile part rfl y)

theorem tldRows_clean (other : homeB x ≠ x) (s : State) (clean : (s.tile (homeB x)).b.bad = []) (off : Nat → Nat) :
    ∃ t, (numbered 0 (accesses ((List.range (ldRows w)).map off).length ((List.range (ldRows w)).map off))).foldl (State.tldAccess x w) (false, s) =
      (false, t) ∧ OnlyTile x s t ∧ (t.tile x).m = loaded w (s.tile (homeB x)).b.mem off (s.tile x).m := by
  obtain ⟨t, run, only, regs⟩ := tldAccesses_clean (w := w) other
    (numbered 0 (accesses ((List.range (ldRows w)).map off).length ((List.range (ldRows w)).map off))) s clean
  rw [rows_of_accesses, List.foldl_map] at regs
  exact ⟨t, run, only, regs⟩

theorem tld_loads_rows (issues : Issues s i 0x01 w) (kind : siteKind i.site = .m) (ok : ldLegal s i.site w (ipOf s i) = true)
    (clean : (s.tile (homeB i.site)).b.bad = []) :
    ∃ t, exec (.tld i []) s = .next t ∧ OnlyPair i.site (homeB i.site) s t ∧
      (t.tile (homeB i.site)).b.mem = (s.tile (homeB i.site)).b.mem ∧
      (t.tile i.site).m = loaded w (s.tile (homeB i.site)).b.mem (ldOff s i.site w) (s.tile i.site).m := by
  have other := homeB_ne (.inl kind)
  have offsets : ldOff (s.counted i) i.site w = ldOff s i.site w := funext fun r => ldOff_counted s i _ w r
  have start {α : Type} (part : Tile → α) (ports : ∀ t p, part { t with b := { t.b with ports := p } } = part t)
      (stalls : ∀ t n, part { t with issueStalls := n } = part t) (y : Site) :
      part ((tldStart (s.counted i) i.site w).tile y) = part (s.tile y) :=
    (part_tldStart part ports _ _ w y).trans (part_counted part stalls s i y)
  have memory := start (fun t => t.b.mem) (fun _ _ => rfl) (fun _ _ => rfl)
  obtain ⟨t, run, only, regs⟩ := tldRows_clean (w := w) other (tldStart (s.counted i) i.site w)
    ((start (fun t => t.b.bad) (fun _ _ => rfl) (fun _ _ => rfl) _).trans clean) (ldOff (s.counted i) i.site w)
  refine ⟨t.advance i.site false, congrArg Host.Outcome.next (issueM_done kind issues ((ldLegal_counted s i _ w _).trans ok) rfl ?_), ?_, ?_, ?_⟩
  · exact congrArg (fun r : Bool × State => if r.1 = true then Eff.ended (r.2.uncorrectable i.site) else .done r.2) run
  · exact onlyPair_trans (onlyPair_trans (onlyPair_left (onlyTile_counted s i)) (onlyPair_right (onlyTile_tldStart _ _ w)))
      (onlyPair_left (onlyTile_trans only (onlyTile_advance _ _ _)))
  · rw [part_advance (fun t => t.b.mem) (fun _ _ => rfl), only.2 _ other, memory]
  · rw [part_advance Tile.m (fun _ _ => rfl), regs, memory, offsets, start Tile.m (fun _ _ => rfl) (fun _ _ => rfl)]

/-! ## What the register of a TLD holds -/

/-- The scale side takes the rows: the data side and the accumulators stay. -/
theorem loaded_scale (mem : Memory) (off : Nat → Nat) (m : MState) (scale : fld w 54 54 = 1) :
    (loaded w mem off m).scale = writeRows (fun r => fld w 57 55 * 512 + (fld w 5 0 + r) * 8 + 0) (fun r => mem.read (off r) (ldBytes w)) (ldRows w)
        m.scale ∧ (loaded w mem off m).t = m.t ∧ (loaded w mem off m).acc = m.acc := by
  unfold loaded writeRows
  induction ldRows w with
  | zero => exact ⟨rfl, rfl, rfl⟩
  | succ n ih =>
    obtain ⟨rows, data, acc⟩ := ih
    rw [List.range_succ, List.foldl_append, List.foldl_append, ← rows, ← data, ← acc]
    simp [loadRow, scale, MState.putScale, MState.fill]

/-- The data side takes the rows: the scale side and the accumulators stay. -/
theorem loaded_data (mem : Memory) (off : Nat → Nat) (m : MState) (data : fld w 54 54 ≠ 1) :
    (loaded w mem off m).t = writeRows (fun r => fld w 57 55 * 4096 + (fld w 5 0 + r) * 64 + 0) (fun r => mem.read (off r) (ldBytes w)) (ldRows w)
        m.t ∧ (loaded w mem off m).scale = m.scale ∧ (loaded w mem off m).acc = m.acc := by
  unfold loaded writeRows
  induction ldRows w with
  | zero => exact ⟨rfl, rfl, rfl⟩
  | succ n ih =>
    obtain ⟨rows, scale, acc⟩ := ih
    rw [List.range_succ, List.foldl_append, List.foldl_append, ← rows, ← scale, ← acc]
    simp [loadRow, data, MState.putRow, MState.fill]

theorem rows_of_ldLegal {ip : Nat} (ok : ldLegal s x w ip = true) : fld w 5 0 + ldRows w ≤ 64 := by
  simp only [ldLegal, Bool.and_eq_true, decide_eq_true_eq] at ok
  obtain ⟨⟨-, fits⟩, -⟩ := ok
  exact fits

/-- What the rows of a TLD leave in an M-tile's registers. -/
theorem loaded_rows (mem : Memory) (off : Nat → Nat) (m : MState) (fits : fld w 5 0 + ldRows w ≤ 64) :
    OtherRegs m (loaded w mem off m) (fld w 57 55) ∧ (loaded w mem off m).acc = m.acc ∧
      ∀ r, r < ldRows w → (if fld w 54 54 = 1 then (loaded w mem off m).scaleRow (fld w 57 55) (fld w 5 0 + r) 0 8
        else (loaded w mem off m).row (fld w 57 55) (fld w 5 0 + r) 0 (ldBytes w)) = mem.read (off r) (ldBytes w) := by
  have length (r : Nat) : (mem.read (off r) (ldBytes w)).length = ldBytes w := Memory.read_length ..
  have size := ldBytes_le w
  by_cases side : fld w 54 54 = 1
  · obtain ⟨scale, data, acc⟩ := loaded_scale mem off m side
    have eight : ldBytes w = 8 := by rw [ldBytes, if_pos side]
    refine ⟨fun k other row col inRow => ⟨fun _ => by rw [data], fun inScale => ?_⟩, acc, fun r h => ?_⟩
    · rw [scale]
      exact byte_writeRows_outside length _ _ fun r h => by omega
    · rw [if_pos side, MState.scaleRow, scale]
      refine (congrArg (Memory.read _ _) eight.symm).trans ?_
      exact read_writeRows length (addr := fun r => fld w 57 55 * 512 + (fld w 5 0 + r) * 8 + 0) _ _ h fun q low _ => by omega
  · obtain ⟨data, scale, acc⟩ := loaded_data mem off m side
    refine ⟨fun k other row col inRow => ⟨fun inData => ?_, fun _ => by rw [scale]⟩, acc, fun r h => ?_⟩
    · rw [data]
      exact byte_writeRows_outside length _ _ fun r h => by omega
    · rw [if_neg side, MState.row, data]
      exact read_writeRows length (addr := fun r => fld w 57 55 * 4096 + (fld w 5 0 + r) * 64 + 0) _ _ h fun q low _ => by omega

theorem tldLoadsItsRows : TldLoadsItsRows := by
  intro i s w issues kind ok clean
  obtain ⟨t, run, only, mem, regs⟩ := tld_loads_rows issues kind ok clean
  obtain ⟨others, acc, rows⟩ := loaded_rows (s.tile (homeB i.site)).b.mem (ldOff s i.site w) (s.tile i.site).m (rows_of_ldLegal ok)
  rw [← regs] at others acc rows
  exact ⟨t, run, only, mem, others, acc, rows⟩

/-- Settles O6: TLD's rows by the accesses that read them in order, TST's by the writes of its rows one after the other. -/
theorem rowsMoveBetweenRegistersAndTheBTile : Obligations.RowsMoveBetweenRegistersAndTheBTile := ⟨tldLoadsItsRows, tstStoresItsRows⟩

end Sys2Proof.Proofs
end

section
/-! PROOFS. TMMA and TCVT: the elements of the accumulators, and the rows of the register that takes the converted ones (R133 to R137, R144 to
R146). -/

namespace Sys2Proof.Proofs

open Sys2Proof Sys2Proof.Machine Sys2Proof.Claims

variable {s : State} {i : Issue} {op : Nat} {w : DWord} {m : MState} {f fa fb : Fmt}

/-! ## An instruction whose effect is an update of its own tile -/

/-- The tile as an instruction's effect finds it: the waits before the issue are counted. -/
def countedTile (s : State) (i : Issue) : Tile := { s.tile i.site with issueStalls := addSat (s.tile i.site).issueStalls i.stalls }

theorem tile_counted (s : State) (i : Issue) : (s.counted i).tile i.site = countedTile s i := s.tile_onTile_self _ _

/-- An effect that updates the tile and keeps its sequencer leaves the updated tile, whose sequencer goes on. -/
theorem issueM_onTile {legal : State → Site → DWord → Nat → Bool} {effect : State → Site → DWord → Nat → Eff} {g : Tile → Tile}
    (kind : siteKind i.site = .m) (issues : Issues s i op w) (ok : legal (s.counted i) i.site w (ipOf s i) = true)
    (done : effect (s.counted i) i.site w (ipOf s i) = .done ((s.counted i).onTile i.site g))
    (seq : ∀ t, (g t).seq = t.seq) (stalls : ∀ t, (g t).issueStalls = t.issueStalls) :
    OnlyTile i.site s (s.issueM i op legal false effect) ∧
      Follows (s.tile i.site) ((s.issueM i op legal false effect).tile i.site) i ∧
      ((s.issueM i op legal false effect).tile i.site).m = (g (countedTile s i)).m ∧
      ((s.issueM i op legal false effect).tile i.site).rng = (g (countedTile s i)).rng := by
  rw [issueM_done kind issues ok rfl done]
  have updated : ((s.counted i).onTile i.site g).tile i.site = g (countedTile s i) := by rw [State.tile_onTile_self, tile_counted]
  refine ⟨onlyTile_trans (onlyTile_trans (onlyTile_counted s i) (onlyTile_onTile _ _ _)) (onlyTile_advance _ _ _), ?_, ?_, ?_⟩
  · rw [State.advance, State.tile_onTile_self, updated]
    simp [Follows, Tile.goOn, seq, stalls, countedTile]
  · rw [part_advance Tile.m (fun _ _ => rfl), updated]
  · rw [part_advance Tile.rng (fun _ _ => rfl), updated]

/-! ## Elements of the accumulators (R128) -/

theorem elem_putElem {a d r c j k : Nat} (v : Word) (hr : r < 16) (hc : c < 32) (hj : j < 16) (hk : k < 32) :
    (m.putElem d j k v).elem a r c = if a = d ∧ r = j ∧ c = k then v else m.elem a r c := by
  have key : a * 512 + r * 32 + c = d * 512 + j * 32 + k ↔ a = d ∧ r = j ∧ c = k := by omega
  simp only [MState.elem, MState.putElem, MState.fill, Map.get_set, key]

/-- An accumulator whose elements are written in order, row by row: the ones written hold their values. -/
theorem elem_foldl_putElem {a d r c : Nat} (v : Nat → Word) (hr : r < 16) (hc : c < 32) {n : Nat} (fits : n ≤ 512) :
    ((List.range n).foldl (fun q k => q.putElem d (k / 32) (k % 32) (v k)) m).elem a r c =
      if a = d ∧ r * 32 + c < n then v (r * 32 + c) else m.elem a r c := by
  induction n with
  | zero => simp
  | succ n ih =>
    rw [List.range_succ, List.foldl_append, List.foldl_cons, List.foldl_nil, elem_putElem _ hr hc (by omega) (by omega), ih (by omega)]
    have place : r = n / 32 ∧ c = n % 32 ↔ r * 32 + c = n := by omega
    simp only [place]
    by_cases last : r * 32 + c = n
    · simp [last]
    · have bound : r * 32 + c < n + 1 ↔ r * 32 + c < n := by omega
      simp [last, bound]

theorem tmmaDone_foldl_putElem (d : Nat) (v : Nat → Word) (l : List Nat) (m : MState) :
    (l.foldl (fun q k => q.putElem d (k / 32) (k % 32) (v k)) m).tmmaDone = m.tmmaDone := by
  induction l generalizing m with
  | nil => rfl
  | cons k l ih => exact ih _

/-- A register or latch whose first rows take bytes on both of their sides. -/
def copyRows (reg n : Nat) (rows : Nat → List Byte × List Byte) (m : MState) : MState :=
  (List.range n).foldl (fun q k => (q.putRow reg k 0 (rows k).1).putScale reg k 0 (rows k).2) m

theorem copyRows_keeps (reg n : Nat) (rows : Nat → List Byte × List Byte) (m : MState) :
    (copyRows reg n rows m).acc = m.acc ∧ (copyRows reg n rows m).tmmaDone = m.tmmaDone := by
  unfold copyRows
  induction List.range n generalizing m with
  | nil => exact ⟨rfl, rfl⟩
  | cons k l ih => exact ih _

/-! ## TMMA (R133 to R135, R144, R145) -/

/-- The element of the destination accumulator behind a TMMA. -/
def mmaResult (m : MState) (w : DWord) (fa fb : Fmt) (r c : Nat) : Word :=
  if r < fld w 39 36 + 1 ∧ c < fld w 35 31 + 1 then
    (if fa.kind = FmtKind.int ∧ !fa.mx then (mmaIntElem (mmaGroups m w fa fb r c) (mmaInit m w r c)).1
     else mmaElem fa.mx (m.aRow w r).2 (m.bRow w c).2 (mmaGroups m w fa fb r c) (mmaInit m w r c))
  else mmaInit m w r c

/-- An M-tile whose latches have taken the operand rows of a TMMA (R144). -/
def mmaLatched (m : MState) (w : DWord) : MState :=
  let m1 := if fld w 44 44 = 1 then copyRows latchA (fld w 39 36 + 1) (m.aRow w) m else m
  if fld w 43 43 = 1 then copyRows latchB (fld w 35 31 + 1) (m.bRow w) m1 else m1

theorem mmaLatched_keeps (m : MState) (w : DWord) : (mmaLatched m w).acc = m.acc ∧ (mmaLatched m w).tmmaDone = m.tmmaDone := by
  unfold mmaLatched
  split <;> split <;> simp [copyRows_keeps]

/-- TMMA writes the 512 elements of its destination over the state with its latches taken. -/
theorem tmma_writes (formats : mmaFormats w = some (fa, fb)) (m : MState) (ip now : Nat) :
    ∃ q, q = (List.range 512).foldl (fun q k => q.putElem (fld w 57 56) (k / 32) (k % 32) (mmaResult m w fa fb (k / 32) (k % 32)))
        (mmaLatched m w) ∧
      (m.tmma w ip now).acc = q.acc ∧ (m.tmma w ip now).tmmaDone = addSat q.tmmaDone 1 := by
  unfold MState.tmma
  rw [formats]
  simp only [List.foldl_map]
  refine ⟨_, ?_, rfl, rfl⟩
  refine congrArg (fun g => List.foldl g (mmaLatched m w) (List.range 512)) (funext fun q => funext fun k => congrArg (q.putElem _ _ _) ?_)
  by_cases row : k / 32 < fld w 39 36 + 1
  · by_cases col : k % 32 < fld w 35 31 + 1
    · simp only [mmaResult, row, col, and_self, if_true, List.getElem?_map, List.getElem?_range, Option.map_some, apply_ite Prod.fst]
      rfl
    · simp [mmaResult, mmaInit, row, col]
  · simp [mmaResult, mmaInit, row]

theorem elem_tmma (formats : mmaFormats w = some (fa, fb)) (m : MState) (ip now : Nat) {a r c : Nat} (hr : r < 16) (hc : c < 32) :
    (m.tmma w ip now).elem a r c = if a = fld w 57 56 then mmaResult m w fa fb r c else m.elem a r c := by
  obtain ⟨q, written, acc, -⟩ := tmma_writes formats m ip now
  have place : (r * 32 + c) / 32 = r ∧ (r * 32 + c) % 32 = c ∧ r * 32 + c < 512 := by omega
  calc (m.tmma w ip now).elem a r c
    _ = q.elem a r c := by rw [MState.elem, acc, MState.elem]
    _ = if a = fld w 57 56 then mmaResult m w fa fb r c else (mmaLatched m w).elem a r c := by
      rw [written, elem_foldl_putElem (fun k => mmaResult m w fa fb (k / 32) (k % 32)) hr hc (Nat.le_refl 512)]
      simp only [place, and_true]
    _ = _ := by simp only [MState.elem, mmaLatched_keeps]

theorem tmmaDone_tmma (formats : mmaFormats w = some (fa, fb)) (m : MState) (ip now : Nat) :
    (m.tmma w ip now).tmmaDone = addSat m.tmmaDone 1 := by
  obtain ⟨q, written, -, count⟩ := tmma_writes formats m ip now
  rw [count, written, tmmaDone_foldl_putElem, (mmaLatched_keeps m w).2]

theorem tmmaAccumulatesItsProducts : TmmaAccumulatesItsProducts := by
  intro i s w fa fb issues kind ok formats
  obtain ⟨only, follows, regs, -⟩ := issueM_onTile (legal := tmmaLegal)
    (effect := fun s x w ip => .done (s.onM x fun m => m.tmma w ip s.clk.fclk)) kind issues ok rfl (fun _ => rfl) (fun _ => rfl)
  refine ⟨_, rfl, only, follows, ?_, fun a r c other hr hc => ?_, fun r c hr hc => ?_⟩
  · rw [regs]
    exact tmmaDone_tmma formats _ _ _
  · rw [regs, elem_tmma formats _ _ _ hr hc, if_neg other]
    rfl
  · rw [regs, elem_tmma formats _ _ _ hr hc, if_pos rfl]
    rfl

/-! ## Reads and writes of a byte memory in two parts -/

theorem write_append (m : Memory) (a : Nat) (bs cs : List Byte) : m.write a (bs ++ cs) = (m.write a bs).write (a + bs.length) cs := by
  induction bs generalizing m a with
  | nil => rfl
  | cons b bs ih => rw [List.cons_append, Memory.write, ih, Memory.write, List.length_cons, Nat.add_assoc, Nat.add_comm 1]

theorem read_append (m : Memory) (a n k : Nat) : m.read a n ++ m.read (a + n) k = m.read a (n + k) := by
  induction n generalizing a with
  | zero => rw [Nat.zero_add]; rfl
  | succ n ih => rw [Nat.succ_add, Memory.read, Memory.read, List.cons_append, ← ih, Nat.add_assoc, Nat.add_comm 1]

/-! ## A converted row (R136, R137) -/

theorem roundRow_length (f : Fmt) (stoch sat : Bool) (vs : List Fp) (g : DWord) : (roundRow f stoch sat vs g).1.length = vs.length := by
  induction vs generalizing g with
  | nil => rfl
  | cons v vs ih => simp [roundRow, ih]

theorem cvtRow_length (f : Fmt) (w : DWord) (acc : List Word) (g : DWord) : (cvtRow f w acc g).1.length = acc.length := by
  unfold cvtRow
  by_cases mx : f.mx = true
  · simp only [mx, if_true, apply_ite List.length, List.length_map, roundRow_length, ite_self]
  · simp [mx, roundRow_length]

/-- A row of 32 elements fills four bytes for each bit of an element. -/
theorem packElems_length {codes : List Nat} (bits : Nat) (all : codes.length = 32) : (packElems bits codes).length = 4 * bits := by
  rw [packElems, leBytes_length, all]
  omega

/-- The widths of the formats: those of 32 bits take two register rows, and are no MX formats. -/
theorem fmtOf_width {code : Nat} (fmt : fmtOf code = some f) :
    (wideFmt code = true ∧ f.bits = 32 ∧ f.mx = false) ∨ (wideFmt code = false ∧ 4 ≤ f.bits) := by
  unfold fmtOf at fmt
  split at fmt <;> cases fmt <;> decide

/-- Where the rows of a legal TCVT fit: within its register, in its column. -/
theorem tcvt_shape {x : Site} {ip : Nat} (fmt : fmtOf (fld w 52 49) = some f) (ok : tcvtLegal s x w ip = true) :
    (wideFmt (fld w 52 49) = true ∧ f.bits = 32 ∧ f.mx = false ∧ fld w 34 29 + 2 * cvtRows w ≤ 64) ∨
      (wideFmt (fld w 52 49) = false ∧ 4 ≤ f.bits ∧ cvtCol w + 4 * f.bits ≤ 64 ∧ fld w 34 29 + cvtRows w ≤ 64) := by
  rw [tcvtLegal, fmt] at ok
  rcases fmtOf_width fmt with ⟨wide, bits, mx⟩ | ⟨narrow, bits⟩
  · simp only [wide, if_true, Bool.and_eq_true, decide_eq_true_eq] at ok
    obtain ⟨-, -, fits⟩ := ok
    exact .inl ⟨wide, bits, mx, fits⟩
  · simp only [narrow, Bool.false_eq_true, if_false, Bool.and_eq_true, decide_eq_true_eq] at ok
    obtain ⟨-, ⟨col, fits⟩, -⟩ := ok
    exact .inr ⟨narrow, bits, col, fits⟩

theorem nextRow_addr (reg row : Nat) : reg * 4096 + (row + 1) * 64 = reg * 4096 + row * 64 + 64 := by omega

/-- The address of a converted row in the data registers. -/
def cvtAddr (w : DWord) (r : Nat) : Nat :=
  if wideFmt (fld w 52 49) then fld w 55 53 * 4096 + (fld w 34 29 + 2 * r) * 64 else fld w 55 53 * 4096 + (fld w 34 29 + r) * 64 + cvtCol w

/-- The address of the scale byte of a converted row. -/
def cvtScaleAddr (f : Fmt) (w : DWord) (r : Nat) : Nat := fld w 55 53 * 512 + (fld w 34 29 + r) * 8 + cvtCol w / (4 * f.bits)

/-- The scale bytes that a converted row leaves: one of an MX format, none of another. -/
def cvtScale (f : Fmt) (scale : Byte) : List Byte := if f.mx then [scale] else []

theorem cvtScale_length (f : Fmt) (scale : Byte) : (cvtScale f scale).length = f.mx.toNat := by
  cases mx : f.mx <;> simp [cvtScale, mx]

/-- Writing a converted row writes its bytes and its scale byte, each at one address. -/
theorem cvtPut_writes {x : Site} {ip : Nat} (fmt : fmtOf (fld w 52 49) = some f) (ok : tcvtLegal s x w ip = true) (m : MState) (r : Nat)
    {codes : List Nat} (all : codes.length = 32) (scale : Byte) :
    (m.cvtPut f w r codes scale).acc = m.acc ∧ (m.cvtPut f w r codes scale).t = m.t.write (cvtAddr w r) (packElems f.bits codes) ∧
      (m.cvtPut f w r codes scale).scale = m.scale.write (cvtScaleAddr f w r) (cvtScale f scale) := by
  unfold MState.cvtPut cvtAddr cvtScale
  rcases tcvt_shape fmt ok with ⟨wide, bits, mx, -⟩ | ⟨narrow, -⟩
  · have half : ((packElems f.bits codes).take 64).length = 64 := by rw [List.length_take, packElems_length _ all, bits]; rfl
    rw [if_pos wide, if_pos wide, mx]
    refine ⟨rfl, ?_, rfl⟩
    conv => rhs; rw [← List.take_append_drop 64 (packElems f.bits codes), write_append, half]
    simp only [MState.putRow, MState.fill, nextRow_addr, Nat.add_zero]
  · have notWide : ¬wideFmt (fld w 52 49) = true := by simp [narrow]
    rw [if_neg notWide, if_neg notWide]
    cases f.mx <;> exact ⟨rfl, rfl, rfl⟩

/-! ## TCVT (R136, R137, R146) -/

/-- A tile after one row of a TCVT. -/
def cvtStep (f : Fmt) (w : DWord) (t : Tile) (r : Nat) : Tile :=
  let c := cvtRow f w (cvtAcc t.m w r) t.rng
  { t with m := t.m.cvtPut f w r c.1 c.2.1, rng := c.2.2 }

theorem tcvt_eq (fmt : fmtOf (fld w 52 49) = some f) (t : Tile) : t.tcvt w = (List.range (cvtRows w)).foldl (cvtStep f w) t := by
  rw [Tile.tcvt, fmt]
  rfl

/-- What TCVT leaves as it was. -/
theorem part_tcvt {α : Type} (part : Tile → α) (keeps : ∀ t m g, part { t with m := m, rng := g } = part t) (t : Tile) :
    part (t.tcvt w) = part t := by
  cases fmt : fmtOf (fld w 52 49) with
  | none => rw [Tile.tcvt, fmt]
  | some f =>
    rw [tcvt_eq fmt]
    induction List.range (cvtRows w) generalizing t with
    | nil => rfl
    | cons r l ih => exact (ih _).trans (keeps t _ _)

/-- What TCVT makes of a row of the accumulator: its codes, its scale byte and the generator after it. -/
def cvtOf (a : Tile) (f : Fmt) (w : DWord) (r : Nat) : List Nat × Byte × DWord := cvtRow f w (cvtAcc a.m w r) (cvtRng a.m f w a.rng r)

theorem cvtOf_length (a : Tile) (f : Fmt) (w : DWord) (r : Nat) : (cvtOf a f w r).1.length = 32 := by
  simp [cvtOf, cvtRow_length, cvtAcc]

/-- The rows of a TCVT one after the other: the accumulators stay, so that each row is that of the state before it. -/
theorem foldl_cvtStep {x : Site} {ip : Nat} (fmt : fmtOf (fld w 52 49) = some f) (ok : tcvtLegal s x w ip = true) (a : Tile) (n : Nat) :
    ∃ b, (List.range n).foldl (cvtStep f w) a = b ∧ b.m.acc = a.m.acc ∧ b.rng = cvtRng a.m f w a.rng n ∧
      b.m.t = writeRows (cvtAddr w) (fun r => packElems f.bits (cvtOf a f w r).1) n a.m.t ∧
      b.m.scale = writeRows (cvtScaleAddr f w) (fun r => cvtScale f (cvtOf a f w r).2.1) n a.m.scale := by
  induction n with
  | zero => exact ⟨a, rfl, rfl, rfl, rfl, rfl⟩
  | succ n ih =>
    obtain ⟨b, run, acc, rng, data, scale⟩ := ih
    have row : cvtRow f w (cvtAcc b.m w n) b.rng = cvtOf a f w n := by simp only [cvtOf, cvtAcc, MState.elem, acc, rng]
    obtain ⟨accs, rows, scales⟩ := cvtPut_writes fmt ok b.m n (cvtOf_length a f w n) (cvtOf a f w n).2.1
    refine ⟨cvtStep f w b n, ?_, ?_, ?_, ?_, ?_⟩
    · rw [List.range_succ, List.foldl_append, run]
      rfl
    · rw [cvtStep, row]
      exact accs.trans acc
    · rw [cvtStep, row]
      rfl
    · rw [cvtStep, row, writeRows_succ, ← data]
      exact rows
    · rw [cvtStep, row, writeRows_succ, ← scale]
      exact scales

/-- The places of the rows of a TCVT: within the register, and one behind the other. -/
theorem cvtAddr_places {x : Site} {ip : Nat} (fmt : fmtOf (fld w 52 49) = some f) (ok : tcvtLegal s x w ip = true) :
    (∀ r, r < cvtRows w → fld w 55 53 * 4096 ≤ cvtAddr w r ∧ cvtAddr w r + 4 * f.bits ≤ (fld w 55 53 + 1) * 4096) ∧
      ∀ r q, r < q → cvtAddr w r + 4 * f.bits ≤ cvtAddr w q := by
  unfold cvtAddr
  rcases tcvt_shape fmt ok with ⟨wide, bits, -, fits⟩ | ⟨narrow, -, col, fits⟩
  · simp only [wide, if_true]
    exact ⟨fun r h => by omega, fun r q h => by omega⟩
  · simp only [narrow, Bool.false_eq_true, if_false]
    exact ⟨fun r h => by omega, fun r q h => by omega⟩

/-- The places of the scale bytes of an MX format. -/
theorem cvtScaleAddr_places {x : Site} {ip : Nat} (fmt : fmtOf (fld w 52 49) = some f) (ok : tcvtLegal s x w ip = true) (mx : f.mx = true) :
    (∀ r, r < cvtRows w → fld w 55 53 * 512 ≤ cvtScaleAddr f w r ∧ cvtScaleAddr f w r < (fld w 55 53 + 1) * 512) ∧
      ∀ r q, r < q → cvtScaleAddr f w r < cvtScaleAddr f w q := by
  unfold cvtScaleAddr
  rcases tcvt_shape fmt ok with ⟨-, -, plain, -⟩ | ⟨-, bits, col, fits⟩
  · rw [mx] at plain
    cases plain
  · have inRow : cvtCol w / (4 * f.bits) < 8 := Nat.div_lt_of_lt_mul (by omega)
    generalize cvtCol w / (4 * f.bits) = off at inRow
    exact ⟨fun r h => by omega, fun r q h => by omega⟩

theorem tcvt_rows {x : Site} {ip : Nat} (fmt : fmtOf (fld w 52 49) = some f) (ok : tcvtLegal s x w ip = true) (a : Tile) :
    (a.tcvt w).m.acc = a.m.acc ∧ OtherRegs a.m (a.tcvt w).m (fld w 55 53) ∧ (a.tcvt w).rng = cvtRng a.m f w a.rng (cvtRows w) ∧
      ∀ r, r < cvtRows w → CvtRow a (a.tcvt w) f w r := by
  obtain ⟨b, run, acc, rng, data, scale⟩ := foldl_cvtStep fmt ok a (cvtRows w)
  have length (r : Nat) : (packElems f.bits (cvtOf a f w r).1).length = 4 * f.bits := packElems_length _ (cvtOf_length a f w r)
  have scaleLength (r : Nat) : (cvtScale f (cvtOf a f w r).2.1).length = f.mx.toNat := cvtScale_length _ _
  obtain ⟨inReg, apart⟩ := cvtAddr_places fmt ok
  rw [tcvt_eq fmt, run]
  refine ⟨acc, fun k other row off inRow => ⟨fun inData => ?_, fun inScale => ?_⟩, rng, fun r h => ⟨?_, fun mx narrow => ?_⟩⟩
  · rw [data]
    refine byte_writeRows_outside length _ _ fun r h => ?_
    have := inReg r h
    omega
  · rw [scale]
    refine byte_writeRows_outside scaleLength _ _ fun r h => ?_
    cases mx : f.mx with
    | false =>
      rw [Bool.toNat_false]
      omega
    | true =>
      have := (cvtScaleAddr_places fmt ok mx).1 r h
      rw [Bool.toNat_true]
      omega
  · have back : b.m.t.read (cvtAddr w r) (4 * f.bits) = packElems f.bits (cvtOf a f w r).1 := by
      rw [data]
      exact read_writeRows length _ _ h fun q later _ => .inr (apart r q later)
    unfold cvtAddr at back
    rcases tcvt_shape fmt ok with ⟨wide, bits, -⟩ | ⟨narrow, -⟩
    · rw [if_pos wide] at back ⊢
      refine Eq.trans ?_ back
      rw [bits, ← read_append _ _ 64 64]
      simp only [MState.row, nextRow_addr, Nat.add_zero]
    · have notWide : ¬wideFmt (fld w 52 49) = true := by simp [narrow]
      rw [if_neg notWide] at back ⊢
      exact back
  · have back : b.m.scale.read (cvtScaleAddr f w r) f.mx.toNat = cvtScale f (cvtOf a f w r).2.1 := by
      rw [scale]
      exact read_writeRows scaleLength _ _ h fun q later _ => .inr (by
        have := (cvtScaleAddr_places fmt ok mx).2 r q later
        rw [mx, Bool.toNat_true]
        omega)
    rw [cvtScale, mx] at back
    exact back

theorem tcvtConvertsItsRows : TcvtConvertsItsRows := by
  intro i s w f issues kind ok fmt
  obtain ⟨only, follows, regs, rng⟩ := issueM_onTile (legal := tcvtLegal) (effect := fun s x w _ => .done (s.onTile x fun t => t.tcvt w))
    kind issues ok rfl (part_tcvt Tile.seq fun _ _ _ => rfl) (part_tcvt Tile.issueStalls fun _ _ _ => rfl)
  obtain ⟨acc, others, draws, rows⟩ := tcvt_rows fmt ok (countedTile s i)
  refine ⟨_, rfl, only, follows, ?_, ?_, ?_, fun r h => ?_⟩
  · rw [regs, acc]
    rfl
  · rw [regs]
    exact others
  · rw [rng, draws]
    rfl
  · unfold CvtRow
    rw [regs]
    exact rows r h

/-- Settles O7: TMMA by the elements that it writes one after the other, TCVT by the rows that it writes one after the other. -/
theorem productsAccumulateAndConvert : Obligations.ProductsAccumulateAndConvert := ⟨tmmaAccumulatesItsProducts, tcvtConvertsItsRows⟩

end Sys2Proof.Proofs
end

section
/-! PROOFS. The common control subset: what NOP, SECEND and IFENCE, jumps, branches and loops leave of the sequencer (R91, R170 to R175). -/

namespace Sys2Proof.Proofs

open Sys2Proof Sys2Proof.Machine Sys2Proof.Claims

variable {s u : State} {x : Site} {i : Issue} {op : Nat} {w : DWord} {legal : State → Site → DWord → Nat → Bool}
  {effect : State → Site → DWord → Nat → Eff}

/-! ## Where an effect sends the sequencer -/

/-- An instruction of the common subset whose checks pass, with the effect that it has. -/
theorem issue_leaves {e : Eff} (issues : Issues s i op w) (ok : legal (s.counted i) i.site w (ipOf s i) = true)
    (does : effect (s.counted i) i.site w (ipOf s i) = e) : s.issue i op legal false effect = s.afterEff i.site false e := by
  rw [issue_of_issues issues ok rfl, does]

/-- Only the sequencer and ISSUE_STALLS of the tile change. -/
def MovesSequencer (s t : State) (x : Site) : Prop := OnlyTile x s t ∧ OnlySeq (s.tile x) (t.tile x)

/-- An instruction without an effect of its own goes on behind its word. -/
theorem advance_follows (s : State) (i : Issue) :
    MovesSequencer s ((s.counted i).advance i.site false) i.site ∧
      Follows (s.tile i.site) (((s.counted i).advance i.site false).tile i.site) i := by
  have tile : ((s.counted i).advance i.site false).tile i.site = (countedTile s i).goOn (siteKind i.site) ((s.tile i.site).seq.held.drop 1)
      (nextAddr (ipOf s i) (s.tile i.site).seq.loops).1 (nextAddr (ipOf s i) (s.tile i.site).seq.loops).2 := by
    rw [State.advance, State.tile_onTile_self, tile_counted]
    rfl
  refine ⟨⟨onlyTile_trans (onlyTile_counted s i) (onlyTile_advance _ _ _), ?_⟩, ?_⟩ <;> rw [tile]
  · rfl
  · exact ⟨rfl, rfl, rfl, rfl, rfl, rfl⟩

/-! ## NOP, SECEND and IFENCE (R91, R170, R175) -/

theorem nop_follows (issues : Issues s i 0x30 w) (ok : onlyBits w 0 = true) :
    ∃ t, exec (.nop i) s = .next t ∧ MovesSequencer s t i.site ∧ Follows (s.tile i.site) (t.tile i.site) i :=
  ⟨_, congrArg Host.Outcome.next (issue_leaves issues ok rfl), advance_follows s i⟩

theorem secend_ends (issues : Issues s i 0x31 w) (ok : onlyBits w 0 = true) :
    ∃ t, exec (.secend i) s = .next t ∧ MovesSequencer s t i.site ∧ (t.tile i.site).seq.secend = true ∧
      (t.tile i.site).seq.ip = (nextAddr (ipOf s i) (s.tile i.site).seq.loops).1 := by
  obtain ⟨⟨only, regs⟩, -, ip, -⟩ := advance_follows s i
  refine ⟨_, congrArg Host.Outcome.next (issue_leaves issues ok rfl), ⟨onlyTile_trans only (onlyTile_onTile _ _ _), ?_⟩, ?_, ?_⟩ <;>
    rw [State.afterEff, State.tile_onTile_self]
  · exact regs
  · exact ip

theorem ifence_fetches (issues : Issues s i 0x3A w) (ok : onlyBits w 0 = true) :
    ∃ t, exec (.ifence i) s = .next t ∧ MovesSequencer s t i.site ∧ Follows (s.tile i.site) (t.tile i.site) i ∧
      (t.tile i.site).seq.held = [((t.tile i.site).seq.ip, (s.tile i.site).insn (siteKind i.site) (t.tile i.site).seq.ip)] := by
  refine ⟨_, congrArg Host.Outcome.next (issue_leaves issues ok rfl), ⟨onlyTile_trans (onlyTile_counted s i) (onlyTile_onTile _ _ _), ?_⟩, ?_, ?_⟩ <;>
    rw [State.afterEff, State.tile_onTile_self, tile_counted]
  · rfl
  · exact ⟨rfl, rfl, rfl, rfl, rfl, rfl⟩
  · rfl

/-- Settles O1, one theorem a clause: the tile that each of the three leaves is the one before with another sequencer. -/
theorem nopSecendIfenceMoveOnlyTheSequencer : Obligations.NopSecendIfenceMoveOnlyTheSequencer := by
  refine ⟨fun i s w issues ok => ?_, fun i s w issues ok => ?_, fun i s w issues ok => ?_⟩
  · obtain ⟨t, run, ⟨only, regs⟩, follows⟩ := nop_follows issues ok
    exact ⟨t, run, only, regs, follows⟩
  · obtain ⟨t, run, ⟨only, regs⟩, ended, ip⟩ := secend_ends issues ok
    exact ⟨t, run, only, regs, ended, ip⟩
  · obtain ⟨t, run, ⟨only, regs⟩, follows, held⟩ := ifence_fetches issues ok
    exact ⟨t, run, only, regs, follows, held⟩

/-! ## Jumps, calls and returns (R172) -/

/-- A tile after a taken branch, before its sequencer moves: the waits are counted, BRANCHES counts the branch on a V-tile, and the call stack
holds what the branch leaves there. -/
def branchedTile (t : Tile) (i : Issue) (stack : List Nat) : Tile :=
  { t with issueStalls := addSat t.issueStalls i.stalls, seq := { t.seq with stack := stack }
           v := { t.v with branches := if siteKind i.site = .v then addSat t.v.branches 1 else t.v.branches } }

theorem branched_refetch (t : Tile) (i : Issue) (stack : List Nat) (ip : Nat) (loops : List HwLoop) :
    Branched t ((branchedTile t i stack).refetch (siteKind i.site) ip loops) i.site i ip loops := by
  unfold Branched branchedTile
  generalize siteKind i.site = kind
  exact ⟨rfl, rfl, rfl, rfl, rfl, rfl, rfl⟩

/-- The state in which an instruction that branches has counted its branch. -/
def branchState (s : State) (i : Issue) : State := (s.counted i).countBranch i.site

theorem onlyTile_countBranch (s : State) (x : Site) : OnlyTile x s (s.countBranch x) := by
  unfold State.countBranch
  split
  · exact onlyTile_onTile s x _
  · exact onlyTile_refl x s

theorem onlyTile_branchState (s : State) (i : Issue) : OnlyTile i.site s (branchState s i) :=
  onlyTile_trans (onlyTile_counted s i) (onlyTile_countBranch _ _)

theorem tile_branchState (s : State) (i : Issue) : (branchState s i).tile i.site = branchedTile (s.tile i.site) i (s.tile i.site).seq.stack := by
  unfold branchState State.countBranch branchedTile
  cases siteKind i.site with
  | v => exact (State.tile_onTile_self _ _ _).trans (by rw [tile_counted]; rfl)
  | b | m | p => exact tile_counted s i

/-- The state in which a call or return has also changed the call stack. -/
def stackState (s : State) (i : Issue) (f : List Nat → List Nat) : State :=
  (branchState s i).onTile i.site fun t => { t with seq := { t.seq with stack := f t.seq.stack } }

theorem onlyTile_stackState (s : State) (i : Issue) (f : List Nat → List Nat) : OnlyTile i.site s (stackState s i f) :=
  onlyTile_trans (onlyTile_branchState s i) (onlyTile_onTile _ _ _)

theorem tile_stackState (s : State) (i : Issue) (f : List Nat → List Nat) :
    (stackState s i f).tile i.site = branchedTile (s.tile i.site) i (f (s.tile i.site).seq.stack) := by
  rw [stackState, State.tile_onTile_self, tile_branchState]
  rfl

/-- Where control goes, what stands on the call stack, and nothing else. -/
def BranchesTo (s t : State) (i : Issue) (stack : List Nat) (ip : Nat) (loops : List HwLoop) : Prop :=
  OnlyTile i.site s t ∧ (t.tile i.site).seq.stack = stack ∧ Branched (s.tile i.site) (t.tile i.site) i.site i ip loops

theorem issue_branches {stack : List Nat} {ip : Nat} {loops : List HwLoop} (issues : Issues s i op w)
    (ok : legal (s.counted i) i.site w (ipOf s i) = true) (jump : effect (s.counted i) i.site w (ipOf s i) = .jump u ip loops)
    (only : OnlyTile i.site s u) (tile : u.tile i.site = branchedTile (s.tile i.site) i stack) :
    BranchesTo s (s.issue i op legal false effect) i stack ip loops := by
  have after : (s.issue i op legal false effect).tile i.site = (branchedTile (s.tile i.site) i stack).refetch (siteKind i.site) ip loops := by
    rw [issue_leaves issues ok jump, State.afterEff, State.tile_onTile_self, tile]
  refine ⟨?_, ?_, ?_⟩
  · rw [issue_leaves issues ok jump]
    exact onlyTile_trans only (onlyTile_onTile _ _ _)
  · rw [after]
    rfl
  · rw [after]
    exact branched_refetch _ _ _ _ _

theorem seq_counted (s : State) (i : Issue) : ((s.counted i).tile i.site).seq = (s.tile i.site).seq :=
  part_counted Tile.seq (fun _ _ => rfl) s i _

theorem jmp_branches (issues : Issues s i 0x34 w) (ok : jmpLegal s i.site w (ipOf s i) = true) :
    ∃ t, exec (.jmp i) s = .next t ∧ BranchesTo s t i (s.tile i.site).seq.stack (targetOf (ipOf s i) (sfld w 45 32))
      (loopsWith (s.tile i.site).seq.loops (targetOf (ipOf s i) (sfld w 45 32))) := by
  refine ⟨_, rfl, issue_branches issues ok ?_ (onlyTile_branchState s i) (tile_branchState s i)⟩
  rw [seq_counted]
  rfl

theorem call_branches (issues : Issues s i 0x35 w) (ok : callLegal s i.site w (ipOf s i) = true) :
    ∃ t, exec (.call i) s = .next t ∧ BranchesTo s t i ((ipOf s i + 8) :: (s.tile i.site).seq.stack) (targetOf (ipOf s i) (sfld w 45 32))
      (s.tile i.site).seq.loops := by
  refine ⟨_, rfl, issue_branches issues ?_ ?_ (onlyTile_stackState s i _) (tile_stackState s i fun q => (ipOf s i + 8) :: q)⟩
  · rw [callLegal, seq_counted]
    exact ok
  · rw [seq_counted]
    rfl

theorem ret_branches {a : Nat} {rest : List Nat} (issues : Issues s i 0x36 w) (ok : onlyBits w 0 = true)
    (stack : (s.tile i.site).seq.stack = a :: rest) :
    ∃ t, exec (.ret i) s = .next t ∧ BranchesTo s t i rest a (s.tile i.site).seq.loops := by
  refine ⟨_, rfl, issue_branches issues ?_ ?_ (onlyTile_stackState s i (List.drop 1)) ((tile_stackState s i _).trans (by rw [stack]; rfl))⟩
  · rw [retLegal, seq_counted, ok, stack]
    rfl
  · dsimp only
    rw [seq_counted, stack]
    rfl

theorem jumpsGoToTheirTargets : JumpsGoToTheirTargets := by
  refine ⟨fun i s w issues ok => ?_, fun i s w issues ok => ?_, fun i s w a rest issues ok stack => ?_⟩
  · obtain ⟨t, run, only, kept, branched⟩ := jmp_branches issues ok
    exact ⟨t, run, only, kept, branched⟩
  · obtain ⟨t, run, only, pushed, branched⟩ := call_branches issues ok
    exact ⟨t, run, only, pushed, branched⟩
  · obtain ⟨t, run, only, popped, branched⟩ := ret_branches issues ok stack
    exact ⟨t, run, only, popped, branched⟩

/-! ## BR and LOOP (R171, R172) -/

theorem brOperand_counted (s : State) (i : Issue) (x : Site) (w : DWord) : brOperand (s.counted i) x w = brOperand s x w := by
  rw [brOperand, scalar_counted, brOperand]

/-- The condition of a BR is that of the state before the issue. -/
theorem br_condition (s : State) (i : Issue) (w : DWord) :
    brTaken (fld w 48 46) ((s.counted i).scalar i.site (fld w 57 54)) (brOperand (s.counted i) i.site w) =
      brTaken (fld w 48 46) (s.scalar i.site (fld w 57 54)) (brOperand s i.site w) := by
  rw [scalar_counted, brOperand_counted]

theorem br_branches (issues : Issues s i 0x33 w) (ok : brLegal s i.site w (ipOf s i) = true)
    (taken : brTaken (fld w 48 46) (s.scalar i.site (fld w 57 54)) (brOperand s i.site w) = true) :
    ∃ t, exec (.br i) s = .next t ∧ BranchesTo s t i (s.tile i.site).seq.stack (targetOf (ipOf s i) (sfld w 45 32))
      (loopsWith (s.tile i.site).seq.loops (targetOf (ipOf s i) (sfld w 45 32))) := by
  refine ⟨_, rfl, issue_branches issues ok ((if_pos ((br_condition s i w).trans taken)).trans ?_) (onlyTile_branchState s i) (tile_branchState s i)⟩
  rw [seq_counted]
  rfl

theorem br_follows (issues : Issues s i 0x33 w) (ok : brLegal s i.site w (ipOf s i) = true)
    (notTaken : brTaken (fld w 48 46) (s.scalar i.site (fld w 57 54)) (brOperand s i.site w) = false) :
    ∃ t, exec (.br i) s = .next t ∧ MovesSequencer s t i.site ∧ Follows (s.tile i.site) (t.tile i.site) i :=
  ⟨_, congrArg Host.Outcome.next (issue_leaves issues ok (if_neg (Bool.eq_false_iff.mp ((br_condition s i w).trans notTaken)))), advance_follows s i⟩

theorem loopCount_counted (s : State) (i : Issue) (x : Site) (w : DWord) : loopCount (s.counted i) x w = loopCount s x w := by
  rw [loopCount, scalar_counted, loopCount]

theorem loopLegal_counted (s : State) (i : Issue) (w : DWord) (ip : Nat) : loopLegal (s.counted i) i.site w ip = loopLegal s i.site w ip := by
  rw [loopLegal, seq_counted, loopLegal]

/-- Where a LOOP goes on, and with which loops. -/
def LoopsTo (s t : State) (i : Issue) (ip : Nat) (loops : List HwLoop) : Prop :=
  MovesSequencer s t i.site ∧ (t.tile i.site).seq.ip = ip ∧ (t.tile i.site).seq.stack = (s.tile i.site).seq.stack ∧
    (t.tile i.site).seq.loops = loops

theorem issue_loops {ip : Nat} {loops : List HwLoop} (issues : Issues s i op w) (ok : legal (s.counted i) i.site w (ipOf s i) = true)
    (goes : effect (s.counted i) i.site w (ipOf s i) = .loop (s.counted i) ip loops) : LoopsTo s (s.issue i op legal false effect) i ip loops := by
  rw [issue_leaves issues ok goes, State.afterEff]
  refine ⟨⟨onlyTile_trans (onlyTile_counted s i) (onlyTile_onTile _ _ _), ?_⟩, ?_⟩ <;> rw [State.tile_onTile_self, tile_counted]
  · rfl
  · exact ⟨rfl, rfl, rfl⟩

theorem loop_opens (issues : Issues s i 0x32 w) (ok : loopLegal s i.site w (ipOf s i) = true) (nonzero : loopCount s i.site w ≠ 0) :
    ∃ t, exec (.loop i) s = .next t ∧ LoopsTo s t i (ipOf s i + 8)
      ({ first := ipOf s i + 8, last := ipOf s i + 8 * loopLen w, count := loopCount s i.site w } :: (s.tile i.site).seq.loops) := by
  refine ⟨_, rfl, issue_loops issues ((loopLegal_counted s i w _).trans ok) ?_⟩
  rw [loopCount_counted, seq_counted]
  exact if_neg nonzero

theorem loop_skips (issues : Issues s i 0x32 w) (ok : loopLegal s i.site w (ipOf s i) = true) (zero : loopCount s i.site w = 0) :
    ∃ t, exec (.loop i) s = .next t ∧ LoopsTo s t i (ipOf s i + 8 * (loopLen w + 1)) (s.tile i.site).seq.loops := by
  refine ⟨_, rfl, issue_loops issues ((loopLegal_counted s i w _).trans ok) ?_⟩
  rw [loopCount_counted, seq_counted]
  exact if_pos zero

theorem branchesAndLoopsFollowTheirOperands : BranchesAndLoopsFollowTheirOperands := by
  refine ⟨fun i s w issues ok taken => ?_, fun i s w issues ok notTaken => ?_, fun i s w issues ok nonzero => ?_, fun i s w issues ok zero => ?_⟩
  · obtain ⟨t, run, only, kept, branched⟩ := br_branches issues ok taken
    exact ⟨t, run, only, kept, branched⟩
  · obtain ⟨t, run, ⟨only, regs⟩, follows⟩ := br_follows issues ok notTaken
    exact ⟨t, run, only, regs, follows⟩
  · obtain ⟨t, run, ⟨only, regs⟩, ip, stack, loops⟩ := loop_opens issues ok nonzero
    exact ⟨t, run, only, regs, ip, stack, loops⟩
  · obtain ⟨t, run, ⟨only, regs⟩, ip, -, loops⟩ := loop_skips issues ok zero
    exact ⟨t, run, only, regs, ip, loops⟩

/-- Settles O4: jumps and taken branches leave one tile, with the call stack that each leaves; LOOP moves the sequencer alone. -/
theorem jumpsBranchesAndLoopsGoToTheirTargets : Obligations.JumpsBranchesAndLoopsGoToTheirTargets :=
  ⟨jumpsGoToTheirTargets, branchesAndLoopsFollowTheirOperands⟩

end Sys2Proof.Proofs
end

section
/-! PROOFS. What the vector instructions write: the elements of a register and the bits of a mask (R153, R157 to R160, R162, R163). -/

namespace Sys2Proof.Proofs

open Sys2Proof Sys2Proof.Machine Sys2Proof.Claims

variable {s u : State} {x : Site} {i : Issue} {op : Nat} {w : DWord}

/-! ## A vector instruction that issues (R169, R233) -/

/-- The unit that an instruction fills is all that counting it changes. -/
theorem inUnit_done (u : State) (w : DWord) (x : Site) :
    ∃ t n, Eff.inUnit w x (.done u) = .done t ∧ OnlyTile x u t ∧ t.tile x = { u.tile x with v := { (u.tile x).v with unitsUntil := n } } := by
  by_cases noUnit : unitCycles w = 0
  · exact ⟨u, (u.tile x).v.unitsUntil, if_pos noUnit, onlyTile_refl x u, rfl⟩
  · exact ⟨_, max (u.tile x).v.unitsUntil (u.clk.fclk + unitCycles w), if_neg noUnit, onlyTile_onTile u x _, u.tile_onTile_self x _⟩

theorem rng_of_onlyVector {a b : Tile} (only : OnlyVector a b) : b.rng = a.rng := by
  have same := congrArg Tile.rng only
  exact same

/-- A V-tile instruction whose effect updates the registers of its tile, and the generator, leaves them updated, and the sequencer goes on. -/
theorem issueV_leaves {legal : State → Site → DWord → Nat → Bool} {effect : State → Site → DWord → Nat → Eff} {r : VState} {g : DWord}
    (kind : siteKind i.site = .v) (issues : Issues s i op w) (ok : legal (s.counted i) i.site w (ipOf s i) = true)
    (done : effect (s.counted i) i.site w (ipOf s i) = .done u) (only : OnlyTile i.site (s.counted i) u)
    (tile : u.tile i.site = { countedTile s i with v := r, rng := g }) :
    OnlyTile i.site s (s.issueV i op legal effect) ∧
      OnlyVector { s.tile i.site with rng := g } ((s.issueV i op legal effect).tile i.site) ∧
      Follows (s.tile i.site) ((s.issueV i op legal effect).tile i.site) i ∧
      ∃ n, ((s.issueV i op legal effect).tile i.site).v = { r with unitsUntil := n } := by
  obtain ⟨t, n, unit, onlyUnit, unitTile⟩ := inUnit_done u w i.site
  have after : s.issueV i op legal effect = t.advance i.site false := by
    rw [State.issueV, if_pos kind, issue_of_issues issues ok rfl, done, unit]
    rfl
  rw [after]
  refine ⟨onlyTile_trans (onlyTile_trans (onlyTile_trans (onlyTile_counted s i) only) onlyUnit) (onlyTile_advance _ _ _), ?_⟩
  rw [State.advance, State.tile_onTile_self, unitTile, tile]
  exact ⟨rfl, ⟨rfl, rfl, rfl, rfl, rfl, rfl⟩, n, rfl⟩

/-- A V-tile instruction on the tile's own registers leaves its effect on them, where that effect does not speak of the unit. -/
theorem issueV_onV {legal : State → Site → DWord → Nat → Bool} {does : State → Site → DWord → Nat → Eff} {f : VState → VState}
    {effect : VState → VState → Prop} (kind : siteKind i.site = .v) (issues : Issues s i op w)
    (ok : legal (s.counted i) i.site w (ipOf s i) = true)
    (done : does (s.counted i) i.site w (ipOf s i) = .done ((s.counted i).onV i.site f)) (leaves : ∀ a, effect a (f a))
    (blind : ∀ a b n, effect a b → effect a { b with unitsUntil := n }) : VectorStep i s (s.issueV i op legal does) effect := by
  have tile : ((s.counted i).onV i.site f).tile i.site =
      { countedTile s i with v := f (s.tile i.site).v, rng := (s.tile i.site).rng } := by
    rw [State.onV, State.tile_onTile_self, tile_counted]
    rfl
  obtain ⟨only, vector, follows, n, regs⟩ := issueV_leaves kind issues ok done (onlyTile_onTile _ _ _) tile
  refine ⟨only, vector, follows, ?_⟩
  rw [regs]
  exact blind _ _ n (leaves _)

theorem issueVec_leaves {legal : DWord → Bool} {f : DWord → VState → VState} {effect : VState → VState → Prop} (kind : siteKind i.site = .v)
    (issues : Issues s i op w) (ok : legal w = true) (leaves : ∀ a, effect a (f w a))
    (blind : ∀ a b n, effect a b → effect a { b with unitsUntil := n }) : VectorStep i s (s.issueVec i op legal f) effect :=
  issueV_onV (legal := fun _ _ w _ => legal w) kind issues ok rfl leaves blind

/-! ## Lanes and elements of a register (R153) -/

/-- A register whose first `n` lanes take values. -/
theorem lane_foldl_putLane (v : VState) (r : Nat) (f : Nat → Word) {q l n : Nat} (hl : l < 64) (fits : n ≤ 64) :
    ((List.range n).foldl (fun v l => v.putLane r l (f l)) v).lane q l = if q = r ∧ l < n then f l else v.lane q l := by
  induction n with
  | zero => simp
  | succ n ih =>
    have key : q * 64 + l = r * 64 + n ↔ q = r ∧ l = n := by omega
    rw [List.range_succ, List.foldl_append, List.foldl_cons, List.foldl_nil, VState.lane, VState.putLane, Map.get_set]
    simp only [key]
    by_cases last : l = n
    · by_cases reg : q = r
      · simp [last, reg]
      · rw [if_neg (fun h => reg h.1), if_neg (fun h => reg h.1)]
        exact (ih (by omega)).trans (if_neg fun h => reg h.1)
    · have bound : l < n + 1 ↔ l < n := by omega
      simp only [if_neg (fun h : q = r ∧ l = n => last h.2), bound]
      exact ih (by omega)

theorem lane_putLanes (v : VState) (r : Nat) (f : Nat → Word) {q l : Nat} (hl : l < 64) :
    (v.putLanes r f).lane q l = if q = r then f l else v.lane q l := by
  rw [VState.putLanes, lane_foldl_putLane v r f hl (Nat.le_refl 64)]
  simp only [hl, and_true]

theorem putLanes_keeps (v : VState) (r : Nat) (f : Nat → Word) :
    (v.putLanes r f).m = v.m ∧ (v.putLanes r f).s = v.s ∧ (v.putLanes r f).queues = v.queues := by
  unfold VState.putLanes
  induction List.range 64 generalizing v with
  | nil => exact ⟨rfl, rfl, rfl⟩
  | cons l ls ih => exact ih (v.putLane r l (f l))

/-- The two BF16 halves of a lane. -/
theorem extract_halves (hi lo : BitVec 16) (e : Nat) : (hi ++ lo : Word).extractLsb' (16 * (e % 2)) 16 = if e % 2 = 1 then hi else lo := by
  rcases Nat.mod_two_eq_zero_or_one e with even | odd
  · rw [even, if_neg (by decide)]
    exact BitVec.extractLsb'_append_eq_right
  · rw [odd, if_pos rfl]
    exact BitVec.extractLsb'_append_eq_left

/-- What a register of a type holds in an element that is given a value: of a BF16 element the lower half. -/
def stored (ty : Nat) (y : Word) : Word := if ty = 1 then (y.setWidth 16).setWidth 32 else y

/-- A lane that takes the elements of a type. -/
def laneOf (ty : Nat) (g : Nat → Word) (l : Nat) : Word := if ty = 1 then (g (2 * l + 1)).setWidth 16 ++ (g (2 * l)).setWidth 16 else g l

theorem elem_putLanes (v : VState) (ty r : Nat) (g : Nat → Word) {e : Nat} (he : e < tyCount ty) :
    (v.putLanes r (laneOf ty g)).elem ty r e = stored ty (g e) := by
  unfold tyCount at he
  unfold VState.elem stored
  split
  · next bf16 =>
    rw [if_pos bf16] at he
    have place : 2 * (e / 2) + e % 2 = e := by omega
    rw [VState.half, lane_putLanes _ _ _ (by omega), if_pos rfl, laneOf, if_pos bf16, extract_halves]
    rcases Nat.mod_two_eq_zero_or_one e with even | odd
    · rw [if_neg (by omega), show 2 * (e / 2) = e by omega]
    · rw [if_pos odd, show 2 * (e / 2) + 1 = e by omega]
  · next lanes =>
    rw [if_neg lanes] at he
    rw [lane_putLanes _ _ _ he, if_pos rfl, laneOf, if_neg lanes]

theorem stored_elem (v : VState) (ty r e : Nat) : stored ty (v.elem ty r e) = v.elem ty r e := by
  unfold stored VState.elem
  split
  · simp
  · rfl

theorem stored_zero (ty : Nat) : stored ty 0 = 0 := by
  unfold stored
  split <;> rfl

/-- The elements that a vector result gives its register: those of the active elements, the old ones or zeros elsewhere. -/
def maskedElem (v : VState) (w : DWord) (ty : Nat) (f : Nat → Word) (e : Nat) : Word :=
  if v.active w e then f e else if vMz w then 0 else v.elem ty (vD w) e

theorem putElems_eq (v : VState) (w : DWord) (ty : Nat) (f : Nat → Word) :
    v.putElems w ty f = v.putLanes (vD w) (laneOf ty (maskedElem v w ty f)) := rfl

/-- A vector result stands under its mask in its register, and nowhere else (R157). -/
theorem putsElems_putElems (v : VState) (w : DWord) (ty : Nat) (f : Nat → Word) : PutsElems v (v.putElems w ty f) w ty f := by
  rw [putElems_eq]
  refine ⟨fun e he => ?_, fun r l other hl => ?_, putLanes_keeps v _ _⟩
  · rw [elem_putLanes v ty _ _ he, maskedElem]
    split
    · rfl
    · split
      · exact stored_zero ty
      · exact stored_elem v ty _ e
  · rw [lane_putLanes v _ _ hl, if_neg other]

/-- The unit that an instruction fills is no element. -/
theorem putsElems_inUnit {a b : VState} {ty : Nat} {f : Nat → Word} (n : Nat) (puts : PutsElems a b w ty f) :
    PutsElems a { b with unitsUntil := n } w ty f := puts

/-- A vector instruction whose result goes to the elements of a register. -/
theorem issueVec_putsElems {legal : DWord → Bool} {f : DWord → VState → VState} {ty : Nat} {g : VState → Nat → Word}
    (kind : siteKind i.site = .v) (issues : Issues s i op w) (ok : legal w = true) (writes : ∀ a, f w a = a.putElems w ty (g a)) :
    VectorStep i s (s.issueVec i op legal f) fun a b => PutsElems a b w ty (g a) := by
  refine issueVec_leaves kind issues ok (fun a => ?_) fun _ _ n => putsElems_inUnit n
  rw [writes]
  exact putsElems_putElems a w ty _

/-- Each of VOP, VFMA and VSF is a vector result (R157, R158, R160). -/
theorem vectorArithmeticWritesItsElements : VectorArithmeticWritesItsElements :=
  ⟨fun _ _ _ issues kind ok => ⟨_, rfl, issueVec_putsElems kind issues ok fun _ => rfl⟩,
    fun _ _ _ issues kind ok => ⟨_, rfl, issueVec_putsElems kind issues ok fun _ => rfl⟩,
    fun _ _ _ issues kind ok => ⟨_, rfl, issueVec_putsElems kind issues ok fun _ => rfl⟩⟩

/-! ## Bits of a mask (R153, R157) -/

/-- The bits that a test sets, from the lowest one on. -/
theorem getLsbD_foldl_bits (g : Nat → Bool) {e : Nat} (he : e < 128) (n : Nat) :
    ((List.range n).foldl (fun (b : BitVec 128) e => if g e then b ||| ((1 : BitVec 128) <<< e) else b) 0).getLsbD e = (decide (e < n) && g e) := by
  induction n with
  | zero => simp
  | succ n ih =>
    have bit : ((1 : BitVec 128) <<< n).getLsbD e = decide (e = n) := by
      rw [BitVec.getLsbD_shiftLeft, show (1 : BitVec 128) = 1#128 from rfl, BitVec.getLsbD_one]
      by_cases below : e < n <;> simp [he, below] <;> omega
    rw [List.range_succ, List.foldl_append, List.foldl_cons, List.foldl_nil]
    by_cases last : e = n
    · subst last
      split
      · next set => rw [BitVec.getLsbD_or, ih, bit]; simp [set]
      · next clear => rw [ih]; simp [clear]
    · have bound : decide (e < n + 1) = decide (e < n) := decide_eq_decide.mpr (by omega)
      split
      · rw [BitVec.getLsbD_or, ih, bit, bound, decide_eq_false last, Bool.or_false]
      · rw [ih, bound]

theorem mask_putMask (v : VState) (d k : Nat) (b : BitVec 128) : (v.putMask d b).mask k = if k = d then b else v.mask k := Map.get_set 0 v.m d k b

/-- A mask result stands under its mask in its mask register, and nowhere else (R157). -/
theorem putsBits_putBits (v : VState) (w : DWord) (ty : Nat) (f : Nat → Bool) : PutsBits v (v.putBits w ty f) w ty f := by
  refine ⟨fun e he => ?_, fun k other => ?_, rfl, rfl, rfl⟩
  · rw [VState.putBits, mask_putMask, if_pos rfl, getLsbD_foldl_bits _ he]
  · rw [VState.putBits, mask_putMask, if_neg other]

theorem vcmp_puts (issues : Issues s i 0x03 w) (kind : siteKind i.site = .v)
    (ok : (vecLegal w false false false false && vFn w < 7) = true) :
    ∃ t, exec (.vcmp i) s = .next t ∧ VectorStep i s t fun a b => PutsBits a b w (vTy w) fun e =>
      if vTy w = 2 then cmpInt (vFn w) (a.elem 2 (vA w) e) (a.elemB w e)
      else cmpFp (vFn w) (tyVal (vTy w) (a.elem (vTy w) (vA w) e)) (tyVal (vTy w) (a.elemB w e)) := by
  refine ⟨_, rfl, issueVec_leaves kind issues ok (fun a => ?_) fun _ _ _ puts => puts⟩
  have compares : a.vcmp w = a.putBits w (vTy w) fun e =>
      if vTy w = 2 then cmpInt (vFn w) (a.elem 2 (vA w) e) (a.elemB w e)
      else cmpFp (vFn w) (tyVal (vTy w) (a.elem (vTy w) (vA w) e)) (tyVal (vTy w) (a.elemB w e)) := by
    refine congrArg (a.putBits w (vTy w)) (funext fun e => ?_)
    split
    · next int => rw [int]
    · rfl
  rw [compares]
  exact putsBits_putBits a w _ _

/-! ## Conversions (R163) -/

/-- Without RND a VCVT draws nothing, and is a vector result. -/
theorem vcvt_plain (issues : Issues s i 0x07 w) (kind : siteKind i.site = .v) (ok : vcvtLegal s i.site w (ipOf s i) = true) (plain : vRnd w = false) :
    ∃ t, exec (.vcvt i) s = .next t ∧ VectorStep i s t fun a b => PutsElems a b w 0 (vcvtLane a w) :=
  ⟨_, rfl, issueV_onV kind issues ok (if_neg (Bool.eq_false_iff.mp plain)) (fun a => putsElems_putElems a w 0 (vcvtLane a w))
    fun _ _ n => putsElems_inUnit n⟩

/-- RND stands with the pack only. -/
theorem pack_of_rnd {ip : Nat} (ok : vcvtLegal s x w ip = true) (rnd : vRnd w = true) : vFn w = 2 := by
  simp only [vcvtLegal, vecLegal, rnd, Bool.not_true, Bool.or_false, Bool.and_eq_true, decide_eq_true_eq] at ok
  obtain ⟨⟨⟨⟨⟨⟨⟨-, pack⟩, -⟩, -⟩, -⟩, -⟩, -⟩, -⟩ := ok
  exact pack

/-- A stochastic pack's lanes, from its draws. -/
def packLane (a : VState) (w : DWord) (draws : List Nat) (l : Nat) : Word :=
  packBf16 (some (draws.getD (2 * l + 1) 0)) (a.elemB w l) ++ packBf16 (some (draws.getD (2 * l) 0)) (a.lane (vA w) l)

theorem vcvt_pack (pack : vFn w = 2) (draws : List Nat) (a : VState) : a.vcvt w (some draws) = a.putElems w 0 (packLane a w draws) := by
  unfold VState.vcvt
  simp only [pack]
  rfl

/-- The state that a stochastic pack leaves: its registers, and the generator behind its draws. -/
def packState (s : State) (x : Site) (w : DWord) (draws : List Nat × DWord) : State :=
  (s.onV x (VState.vcvt w (some draws.1))).onTile x fun t => { t with rng := draws.2 }

theorem onlyTile_packState (s : State) (x : Site) (w : DWord) (draws : List Nat × DWord) : OnlyTile x s (packState s x w draws) :=
  onlyTile_trans (onlyTile_onTile s x _) (onlyTile_onTile _ x _)

theorem tile_packState (s : State) (x : Site) (w : DWord) (draws : List Nat × DWord) :
    (packState s x w draws).tile x = { s.tile x with v := (s.tile x).v.vcvt w (some draws.1), rng := draws.2 } := by
  rw [packState, State.tile_onTile_self, State.onV, State.tile_onTile_self]

theorem vcvt_rounds (issues : Issues s i 0x07 w) (kind : siteKind i.site = .v) (ok : vcvtLegal s i.site w (ipOf s i) = true) (rnd : vRnd w = true) :
    ∃ t, exec (.vcvt i) s = .next t ∧ OnlyTile i.site s t ∧ (t.tile i.site).rng = (drawList 128 (s.tile i.site).rng).2 ∧
      Follows (s.tile i.site) (t.tile i.site) i ∧
      PutsElems (s.tile i.site).v (t.tile i.site).v w 0 (packLane (s.tile i.site).v w (drawList 128 (s.tile i.site).rng).1) := by
  have draws : drawList 128 ((s.counted i).tile i.site).rng = drawList 128 (s.tile i.site).rng :=
    congrArg (drawList 128) (part_counted Tile.rng (fun _ _ => rfl) s i _)
  generalize drawList 128 (s.tile i.site).rng = d at draws
  have tile := tile_packState (s.counted i) i.site w d
  rw [tile_counted] at tile
  obtain ⟨effect, run, does⟩ : ∃ effect, exec (.vcvt i) s = .next (s.issueV i 0x07 vcvtLegal effect) ∧
      effect (s.counted i) i.site w (ipOf s i) = .done (packState (s.counted i) i.site w d) :=
    ⟨_, rfl, (if_pos rnd).trans (congrArg (fun d => Eff.done (packState (s.counted i) i.site w d)) draws)⟩
  obtain ⟨only, vector, follows, n, regs⟩ := issueV_leaves (legal := vcvtLegal) kind issues ok does (onlyTile_packState _ _ w _) tile
  refine ⟨_, run, only, rng_of_onlyVector vector, follows, ?_⟩
  rw [regs, vcvt_pack (pack_of_rnd ok rnd)]
  exact putsElems_inUnit n (putsElems_putElems _ w 0 _)

theorem comparesMovesAndConversions : ComparesMovesAndConversions :=
  ⟨fun _ _ _ issues kind ok => vcmp_puts issues kind ok,
    fun _ _ _ issues kind ok => ⟨_, rfl, issueVec_putsElems kind issues ok fun _ => rfl⟩,
    fun _ _ _ issues kind ok plain => vcvt_plain issues kind ok plain,
    fun _ _ _ issues kind ok rnd => vcvt_rounds issues kind ok rnd⟩

/-- Settles O10: every one but VCMP, which is a mask result, is a vector result of its elements. -/
theorem vectorInstructionsWriteTheirElements : Obligations.VectorInstructionsWriteTheirElements :=
  ⟨vectorArithmeticWritesItsElements, comparesMovesAndConversions⟩

end Sys2Proof.Proofs
end

section
/-! PROOFS. Reductions, scalar moves and mask operations (R161, R164). -/

namespace Sys2Proof.Proofs

open Sys2Proof Sys2Proof.Machine Sys2Proof.Claims

variable {i : Issue} {s : State} {w : DWord}

/-! ## VRED (R161) -/

/-- Where a reduction leaves its value: in a scalar, or in lane 0 with zeros above. -/
def PutsReduced (w : DWord) (a b : VState) : Prop :=
  (if vRs w then Map.get 0 b.s (vD w % 16) = a.reduce w ∧ b.v = a.v ∧ ∀ k, k ≠ vD w % 16 → Map.get 0 b.s k = Map.get 0 a.s k
   else b.lane (vD w) 0 = a.reduce w ∧ (∀ l, 0 < l → l < 64 → b.lane (vD w) l = 0) ∧ b.s = a.s ∧
     ∀ r l, r ≠ vD w → l < 64 → b.lane r l = a.lane r l) ∧ b.m = a.m ∧ b.queues = a.queues

theorem putsReduced_inUnit {a b : VState} (n : Nat) (puts : PutsReduced w a b) : PutsReduced w a { b with unitsUntil := n } := puts

theorem vred_to_scalar (a : VState) (h : vRs w = true) : a.vred w = { a with s := Map.set 0 a.s (vD w % 16) (a.reduce w) } := if_pos h

theorem vred_to_lane (a : VState) (h : vRs w = false) : a.vred w = a.putLanes (vD w) fun l => if l = 0 then a.reduce w else 0 :=
  if_neg (Bool.eq_false_iff.mp h)

theorem putsReduced_vred (w : DWord) (a : VState) : PutsReduced w a (a.vred w) := by
  unfold PutsReduced
  cases scalar : vRs w with
  | true =>
    rw [vred_to_scalar a scalar, if_pos rfl]
    generalize a.reduce w = reduced
    exact ⟨⟨Map.get_set_self 0 _ _ _, rfl, fun k other => Map.get_set_other 0 _ _ other⟩, rfl, rfl⟩
  | false =>
    obtain ⟨masks, scalars, queues⟩ := putLanes_keeps a (vD w) fun l => if l = 0 then a.reduce w else 0
    rw [vred_to_lane a scalar, if_neg Bool.false_ne_true]
    refine ⟨⟨?_, fun l above hl => ?_, scalars, fun r l other hl => ?_⟩, masks, queues⟩
    · rw [lane_putLanes a _ _ (by decide), if_pos rfl, if_pos rfl]
    · rw [lane_putLanes a _ _ hl, if_pos rfl, if_neg (by omega)]
    · rw [lane_putLanes a _ _ hl, if_neg other]

/-! ## VMOVS (R164) -/

/-- What VMOVS moves: a lane to a scalar, a scalar to a lane, or a scalar to the active lanes. -/
def MovesScalar (w : DWord) (a b : VState) : Prop :=
  (vFn w = 0 → Map.get 0 b.s (vD w % 16) = a.lane (vA w) (vAux w) ∧ b.v = a.v ∧ b.m = a.m) ∧
    (vFn w = 1 → PutsElems a b w 0 fun l => if l = vAux w then Map.get 0 a.s (vB w % 16) else a.lane (vD w) l) ∧
    (vFn w = 2 → PutsElems a b w 0 fun _ => Map.get 0 a.s (vB w % 16))

theorem movesScalar_inUnit {a b : VState} (n : Nat) (moves : MovesScalar w a b) : MovesScalar w a { b with unitsUntil := n } := moves

theorem movesScalar_vmovs (w : DWord) (a : VState) : MovesScalar w a (a.vmovs w) := by
  unfold MovesScalar VState.vmovs
  refine ⟨fun ext => ?_, fun ins => ?_, fun bcast => ?_⟩
  · rw [ext]
    exact ⟨Map.get_set_self 0 _ _ _, rfl, rfl⟩
  · rw [ins]
    exact putsElems_putElems a w 0 _
  · rw [bcast]
    exact putsElems_putElems a w 0 _

/-! ## MOP (R164) -/

/-- The mask that a MOP with a mask result writes, for its FN. -/
def mopMask (fn : Nat) (w : DWord) (a : VState) : BitVec 128 :=
  let x := a.mask (vA w % 8)
  let y := a.mask (vB w % 8)
  match fn with
  | 0 => x &&& y
  | 1 => x ||| y
  | 2 => x ^^^ y
  | 3 => x &&& ~~~y
  | 4 => ~~~x
  | 5 => ~~~0
  | 6 => 0
  | _ => (a.mask (vD w % 8) &&& ~~~((0xFFFFFFFF : BitVec 128) <<< (32 * (vAux w % 4)))) |||
      ((Map.get 0 a.s (vB w % 16)).setWidth 128 <<< (32 * (vAux w % 4)))

/-- The scalar that a MOP with a scalar result writes. -/
def mopScalar (w : DWord) (a : VState) : Word :=
  if vFn w = 8 then (a.mask (vA w % 8)).extractLsb' (32 * (vAux w % 4)) 32 else BitVec.ofNat 32 (popCount (a.mask (vA w % 8)))

theorem mop_to_mask (a : VState) (h : vFn w < 8) : a.mop w = a.putMask (vD w % 8) (mopMask (vFn w) w a) := by
  unfold VState.mop
  generalize vFn w = fn at h
  match fn, h with
  | 0, _ | 1, _ | 2, _ | 3, _ | 4, _ | 5, _ | 6, _ | 7, _ => rfl

theorem mop_to_scalar (a : VState) (h : vFn w = 8 ∨ vFn w = 9) : a.mop w = { a with s := Map.set 0 a.s (vD w % 16) (mopScalar w a) } := by
  unfold VState.mop mopScalar
  rcases h with h | h <;> rw [h] <;> rfl

/-- A word inserted into a mask: its bits where it stands, the old ones elsewhere. -/
theorem getLsbD_insertWord (b : BitVec 128) (y : Word) {k e : Nat} (he : e < 128) :
    ((b &&& ~~~((0xFFFFFFFF : BitVec 128) <<< (32 * k))) ||| (y.setWidth 128 <<< (32 * k))).getLsbD e =
      if e / 32 = k then y.getLsbD (e % 32) else b.getLsbD e := by
  have ones (j : Nat) : (0xFFFFFFFF : BitVec 128).getLsbD j = decide (j < 32) := by
    rw [show (0xFFFFFFFF : BitVec 128) = (BitVec.allOnes 32).setWidth 128 from rfl, BitVec.getLsbD_setWidth, BitVec.getLsbD_allOnes]
    by_cases low : j < 32 <;> simp [low]
    omega
  rw [BitVec.getLsbD_or, BitVec.getLsbD_and, BitVec.getLsbD_not, BitVec.getLsbD_shiftLeft, BitVec.getLsbD_shiftLeft, ones, BitVec.getLsbD_setWidth]
  by_cases here : e / 32 = k
  · have place : e - 32 * k = e % 32 := by omega
    rw [if_pos here, place]
    simp [he, show ¬e < 32 * k by omega, show e % 32 < 32 by omega, show e % 32 < 128 by omega]
  · rw [if_neg here]
    by_cases below : e < 32 * k
    · simp [he, below]
    · have beyond : 32 ≤ e - 32 * k := by omega
      simp [he, show ¬e - 32 * k < 32 by omega, BitVec.getLsbD_of_ge y _ beyond]

/-- What a MOP leaves in its mask or scalar. -/
def MasksCombine (w : DWord) (a b : VState) : Prop :=
  let x := a.mask (vA w % 8)
  let y := a.mask (vB w % 8)
  let d := b.mask (vD w % 8)
  b.v = a.v ∧ b.queues = a.queues ∧ (vFn w < 8 → b.s = a.s) ∧ (8 ≤ vFn w → b.m = a.m) ∧
    (vFn w = 0 → d = x &&& y) ∧ (vFn w = 1 → d = x ||| y) ∧ (vFn w = 2 → d = x ^^^ y) ∧ (vFn w = 3 → d = x &&& ~~~y) ∧
    (vFn w = 4 → d = ~~~x) ∧ (vFn w = 5 → ∀ e, e < 128 → d.getLsbD e = true) ∧ (vFn w = 6 → d = 0) ∧
    (vFn w = 7 → ∀ e, e < 128 → d.getLsbD e = if e / 32 = vAux w % 4 then (Map.get 0 a.s (vB w % 16)).getLsbD (e % 32)
      else (a.mask (vD w % 8)).getLsbD e) ∧
    (vFn w = 8 → Map.get 0 b.s (vD w % 16) = x.extractLsb' (32 * (vAux w % 4)) 32) ∧
    (vFn w = 9 → Map.get 0 b.s (vD w % 16) = BitVec.ofNat 32 (popCount x))

theorem masksCombine_inUnit {a b : VState} (n : Nat) (combines : MasksCombine w a b) : MasksCombine w a { b with unitsUntil := n } := combines

theorem masksCombine_mop (a : VState) (h : vFn w < 10) : MasksCombine w a (a.mop w) := by
  unfold MasksCombine
  dsimp only
  by_cases toMask : vFn w < 8
  · have result : (a.mop w).mask (vD w % 8) = mopMask (vFn w) w a := by rw [mop_to_mask a toMask, mask_putMask, if_pos rfl]
    rw [result, mop_to_mask a toMask]
    have here {fn : Nat} (h : vFn w = fn) : mopMask (vFn w) w a = mopMask fn w a := by rw [h]
    refine ⟨rfl, rfl, fun _ => rfl, fun scalar => absurd toMask (by omega), here, here, here, here, here, fun ones e he => ?_, here,
      fun insert e he => ?_, fun word => absurd toMask (by omega), fun count => absurd toMask (by omega)⟩
    · exact (congrArg (fun m => BitVec.getLsbD m e) (here ones)).trans (BitVec.getLsbD_not.trans (by simp [he]))
    · exact (congrArg (fun m => BitVec.getLsbD m e) (here insert)).trans (getLsbD_insertWord _ _ he)
  · have which : vFn w = 8 ∨ vFn w = 9 := by omega
    rw [mop_to_scalar a which]
    have written : Map.get 0 (Map.set 0 a.s (vD w % 16) (mopScalar w a)) (vD w % 16) = mopScalar w a := Map.get_set_self 0 _ _ _
    have otherFn {fn : Nat} {p : Prop} (h : vFn w = fn) (mask : fn < 8) : p := absurd (h ▸ mask) toMask
    refine ⟨rfl, rfl, fun mask => absurd mask toMask, fun _ => rfl, fun fn => otherFn fn (by decide), fun fn => otherFn fn (by decide),
      fun fn => otherFn fn (by decide), fun fn => otherFn fn (by decide), fun fn => otherFn fn (by decide), fun fn => otherFn fn (by decide),
      fun fn => otherFn fn (by decide), fun fn => otherFn fn (by decide), fun word => ?_, fun count => ?_⟩
    · rw [written, mopScalar, if_pos word]
    · rw [written, mopScalar, if_neg (by omega)]

theorem reductionsAndScalarMoves : ReductionsAndScalarMoves := by
  refine ⟨fun i s w issues kind ok => ⟨_, rfl, ?_⟩, fun i s w issues kind ok => ⟨_, rfl, ?_⟩, fun i s w issues kind ok => ⟨_, rfl, ?_⟩⟩
  · exact issueVec_leaves (effect := PutsReduced w) kind issues ok (putsReduced_vred w) fun _ _ n => putsReduced_inUnit n
  · exact issueVec_leaves (effect := MovesScalar w) kind issues ok (movesScalar_vmovs w) fun _ _ n => movesScalar_inUnit n
  · have fn : vFn w < 10 := by
      simp only [Bool.and_eq_true, decide_eq_true_eq] at ok
      obtain ⟨⟨-, fn⟩, -⟩ := ok
      exact fn
    exact issueVec_leaves (effect := MasksCombine w) kind issues ok (fun a => masksCombine_mop a fn) fun _ _ n => masksCombine_inUnit n

end Sys2Proof.Proofs
end

section
/-! PROOFS. VLD and VST: the narrow view of the paired B-tile (R166, R167). -/

namespace Sys2Proof.Proofs

open Sys2Proof Sys2Proof.Machine Sys2Proof.Claims

variable {s t : State} {x y : Site} {i : Issue} {w : DWord}

/-! ## Bytes of a number (R5) -/

theorem leNat_lt (bs : List Byte) : leNat bs < 256 ^ bs.length := by
  induction bs with
  | nil => decide
  | cons b bs ih =>
    have low := b.isLt
    rw [leNat, List.length_cons, Nat.pow_succ]
    omega

theorem leBytes_leNat (bs : List Byte) : leBytes bs.length (leNat bs) = bs := by
  induction bs with
  | nil => rfl
  | cons b bs ih =>
    have low := b.isLt
    have rest : (b.toNat + 256 * leNat bs) / 256 = leNat bs := by omega
    have first : BitVec.ofNat 8 (b.toNat + 256 * leNat bs) = b := BitVec.eq_of_toNat_eq (by simp; omega)
    rw [leNat, List.length_cons, leBytes, rest, ih, first]

/-- Eight bytes taken as a word give the bytes back. -/
theorem leBytes_word (bs : List Byte) (eight : bs.length = 8) : leBytes 8 (BitVec.ofNat 64 (leNat bs)).toNat = bs := by
  have bound := leNat_lt bs
  rw [eight] at bound
  rw [BitVec.toNat_ofNat, Nat.mod_eq_of_lt (by omega), ← eight]
  exact leBytes_leNat bs

/-! ## The words of an access -/

theorem scalar_congr (same : (t.tile x).v.s = (s.tile x).v.s) (kind : siteKind x = .v) (k : Nat) : t.scalar x k = s.scalar x k := by
  rw [State.scalar, State.scalar, kind, same]

theorem vlOff_congr (same : (t.tile x).v.s = (s.tile x).v.s) (kind : siteKind x = .v) : vlOff t x w = vlOff s x w := by
  funext k
  rw [vlOff, scalar_congr same kind, vlOff]

theorem vlOff_counted (s : State) (i : Issue) (x : Site) (w : DWord) : vlOff (s.counted i) x w = vlOff s x w := by
  funext k
  rw [vlOff, scalar_counted, vlOff]

theorem vlBad_counted (s : State) (i : Issue) (x : Site) (w : DWord) : (s.counted i).vlBad x w = s.vlBad x w := by
  rw [State.vlBad, homeOk_counted, vlOff_counted, State.vlBad]

/-- Within the view every word is aligned. -/
theorem vlOff_aligned (within : s.vlBad x w = none) {k : Nat} (h : k < vlWords w) : vlOff s x w k % 8 = 0 := by
  unfold State.vlBad at within
  split at within
  · have fine := List.find?_eq_none.mp within (vlOff s x w k) (List.mem_map_of_mem (List.mem_range.mpr h))
    simp only [decide_not, Bool.or_eq_true, Bool.not_eq_true', decide_eq_false_iff_not, decide_eq_true_eq, not_or, Decidable.not_not] at fine
    exact fine.1
  · cases within

theorem onlyTile_presentNarrow (s : State) (x : Site) (w : DWord) : OnlyTile (homeB x) s (s.presentNarrow x w) :=
  onlyTile_foldl (fun a _ => onlyTile_onTile a _ _) _ s

/-- What presenting accesses leaves as it was. -/
theorem part_foldl_present {α : Type} (part : Tile → α) (keeps : ∀ t p, part { t with b := { t.b with ports := p } } = part t)
    (port : PortSel) (off : Nat → Nat) (n : Nat) (l : List Nat) (s : State) (x y : Site) :
    part ((l.foldl (fun a k => a.present x port (off k) n) s).tile y) = part (s.tile y) := by
  induction l generalizing s with
  | nil => rfl
  | cons k l ih => exact (ih _).trans (part_onTile part (keeps _ _) y)

theorem part_presentNarrow {α : Type} (part : Tile → α) (keeps : ∀ t p, part { t with b := { t.b with ports := p } } = part t)
    (s : State) (x : Site) (w : DWord) (y : Site) : part ((s.presentNarrow x w).tile y) = part (s.tile y) :=
  part_foldl_present part keeps .nv (vlOff s x w) 8 _ s _ y

/-- VLD and VST count for no unit (R233). -/
theorem unitCycles_of_narrow {op : Nat} (issues : Issues s i op w) (h : op = 0x08 ∨ op = 0x09) : unitCycles w = 0 := by
  obtain ⟨-, -, -, -, opcode, -⟩ := issues
  rw [unitCycles, opcode]
  rcases h with rfl | rfl <;> rfl

/-! ## VLD (R166, R167) -/

/-- The words of a VLD, as its B-tile holds them. -/
def vldList (mem : Memory) (off : Nat → Nat) (n : Nat) : List DWord := (List.range n).map fun k => BitVec.ofNat 64 (leNat (mem.read (off k) 8))

theorem vldList_length (mem : Memory) (off : Nat → Nat) (n : Nat) : (vldList mem off n).length = n := by simp [vldList]

theorem vldList_getD (mem : Memory) (off : Nat → Nat) {k n : Nat} (h : k < n) :
    (vldList mem off n).getD k 0 = BitVec.ofNat 64 (leNat (mem.read (off k) 8)) := by
  simp [vldList, h]

theorem vldList_succ (mem : Memory) (off : Nat → Nat) (n : Nat) :
    vldList mem off (n + 1) = vldList mem off n ++ [BitVec.ofNat 64 (leNat (mem.read (off n) 8))] := by
  simp [vldList, List.range_succ]

theorem putPairs_append (v : VState) (r n : Nat) (es : List DWord) (e : DWord) :
    putPairs v r n (es ++ [e]) = (putPairs v r n es).putPair r (n + es.length) e := by
  rw [putPairs, List.zipIdx_append, List.foldl_append]
  rfl

theorem lane_putPair_other (v : VState) {r q l k : Nat} (e : DWord) (hl : l < 64) (other : q ≠ r ∨ 2 * k + 2 ≤ l) (fits : 2 * k + 1 < 64) :
    (v.putPair r k e).lane q l = v.lane q l := by
  simp only [VState.putPair, VState.putLane, VState.lane]
  rw [Map.get_set_other _ _ _ (by omega), Map.get_set_other _ _ _ (by omega)]

/-- The lanes that no pair covers. -/
theorem lane_putPairs_other (v : VState) {r q l n : Nat} (es : List DWord) (hl : l < 64) (other : q ≠ r ∨ 2 * (n + es.length) ≤ l)
    (fits : n + es.length ≤ 32) : (putPairs v r n es).lane q l = v.lane q l := by
  induction es generalizing v n with
  | nil => rfl
  | cons e es ih =>
    rw [List.length_cons] at other fits
    have rest := ih (v.putPair r n e) (n := n + 1) (by omega) (by omega)
    exact rest.trans (lane_putPair_other v e hl (by omega) (by omega))

/-- The state in which one more word of a VLD stands in its lane pair. -/
def loadWord (t : State) (x : Site) (w : DWord) (k : Nat) (e : DWord) : State := t.onV x fun v => v.putPair (fld w 57 53) k e

theorem vldWords_next (clean : (t.tile (homeB x)).b.bad = []) (k : Nat) :
    State.vldWords x w (false, t) k =
      (false, loadWord t x w k (BitVec.ofNat 64 (leNat ((t.tile (homeB x)).b.mem.read (vlOff t x w k) 8)))) := by
  unfold State.vldWords
  simp only [btRead_clean _ _ _ clean, Bool.false_eq_true, if_false]
  rfl

/-- The words of a VLD, none of which meets an upset word, go to their lane pairs in order, and nothing else changes. -/
theorem vldWords_clean (kind : siteKind x = .v) (clean : (s.tile (homeB x)).b.bad = []) (n : Nat) :
    ∃ t, (List.range n).foldl (State.vldWords x w) (false, s) = (false, t) ∧ OnlyTile x s t ∧
      (t.tile x).v = putPairs (s.tile x).v (fld w 57 53) 0 (vldList (s.tile (homeB x)).b.mem (vlOff s x w) n) := by
  induction n with
  | zero => exact ⟨s, rfl, onlyTile_refl x s, rfl⟩
  | succ n ih =>
    obtain ⟨t, run, only, regs⟩ := ih
    have home : t.tile (homeB x) = s.tile (homeB x) := only.2 _ (homeB_ne (.inr kind))
    have offsets : vlOff t x w = vlOff s x w := vlOff_congr (by rw [regs, (putPairs_keeps _ _ _ _).2.1]) kind
    refine ⟨loadWord t x w n (BitVec.ofNat 64 (leNat ((s.tile (homeB x)).b.mem.read (vlOff s x w n) 8))), ?_,
      onlyTile_trans only (onlyTile_onTile t x _), ?_⟩
    · rw [List.range_succ, List.foldl_append, run, List.foldl_cons, List.foldl_nil,
        vldWords_next ((congrArg (fun t : Tile => t.b.bad) home).trans clean), home, offsets]
    · rw [loadWord, State.onV, State.tile_onTile_self, regs, vldList_succ, putPairs_append, vldList_length, Nat.zero_add]

/-- The state in which a VLD reads its words. -/
def vldStart (s : State) (x : Site) (w : DWord) : State := (s.upsetBt (homeB x) []).presentNarrow x w

theorem onlyTile_vldStart (s : State) (x : Site) (w : DWord) : OnlyTile (homeB x) s (vldStart s x w) :=
  onlyTile_trans (onlyTile_onTile s _ _) (onlyTile_presentNarrow _ x w)

theorem part_vldStart {α : Type} (part : Tile → α) (keeps : ∀ t p, part { t with b := { t.b with ports := p } } = part t)
    (s : State) (x : Site) (w : DWord) (y : Site) : part ((vldStart s x w).tile y) = part (s.tile y) :=
  (part_presentNarrow part keeps _ x w y).trans (part_onTile part rfl y)

theorem vld_loads_words (issues : Issues s i 0x08 w) (kind : siteKind i.site = .v) (ok : fld w 11 0 = 0) (within : s.vlBad i.site w = none)
    (clean : (s.tile (homeB i.site)).b.bad = []) :
    ∃ t, exec (.vld i []) s = .next t ∧ OnlyPair i.site (homeB i.site) s t ∧
      (t.tile (homeB i.site)).b.mem = (s.tile (homeB i.site)).b.mem ∧ (t.tile i.site).v = putPairs (s.tile i.site).v (fld w 57 53) 0
        (vldList (s.tile (homeB i.site)).b.mem (vlOff s i.site w) (vlWords w)) := by
  have start {α : Type} (part : Tile → α) (ports : ∀ t p, part { t with b := { t.b with ports := p } } = part t)
      (stalls : ∀ t n, part { t with issueStalls := n } = part t) (y : Site) :
      part ((vldStart (s.counted i) i.site w).tile y) = part (s.tile y) :=
    (part_vldStart part ports _ _ w y).trans (part_counted part stalls s i y)
  have memory := start (fun t => t.b.mem) (fun _ _ => rfl) (fun _ _ => rfl)
  have vector := start Tile.v (fun _ _ => rfl) (fun _ _ => rfl)
  obtain ⟨t, run, only, regs⟩ := vldWords_clean (w := w) kind
    ((start (fun t => t.b.bad) (fun _ _ => rfl) (fun _ _ => rfl) _).trans clean) (vlWords w)
  obtain ⟨effect, ran, does⟩ : ∃ effect, exec (.vld i []) s = .next (s.issueV i 0x08 vlLegal effect) ∧
      effect (s.counted i) i.site w (ipOf s i) = .done t := by
    refine ⟨_, rfl, ?_⟩
    rw [vlBad_counted, within]
    exact congrArg (fun r : Bool × State => if r.1 = true then Eff.ended (r.2.uncorrectable i.site) else .done r.2) run
  refine ⟨t.advance i.site false, ran.trans (congrArg Host.Outcome.next
    (issueV_done kind issues (decide_eq_true ok) (unitCycles_of_narrow issues (.inl rfl)) does)), ?_, ?_, ?_⟩
  · exact onlyPair_trans (onlyPair_trans (onlyPair_left (onlyTile_counted s i)) (onlyPair_right (onlyTile_vldStart _ _ w)))
      (onlyPair_left (onlyTile_trans only (onlyTile_advance _ _ _)))
  · rw [part_advance (fun t => t.b.mem) (fun _ _ => rfl), only.2 _ (homeB_ne (.inr kind)), memory]
  · rw [part_advance Tile.v (fun _ _ => rfl), regs, memory, vector, vlOff_congr (congrArg VState.s (vector i.site)) kind]

/-! ## VST (R166, R167) -/

/-- The bytes of a word that a VST writes. -/
def vstBytes (v : VState) (w : DWord) (k : Nat) : List Byte := leBytes 8 (v.pair (fld w 57 53) k).toNat

theorem vstBytes_length (v : VState) (w : DWord) (k : Nat) : (vstBytes v w k).length = 8 := leBytes_length _ _

/-- A VST's effect: its accesses are presented, and its words written. -/
def vstState (s : State) (x : Site) (w : DWord) : State :=
  putRows (homeB x) (vlOff s x w) (vstBytes (s.tile x).v w) (vlWords w) (s.presentNarrow x w)

theorem onlyTile_vstState (s : State) (x : Site) (w : DWord) : OnlyTile (homeB x) s (vstState s x w) :=
  onlyTile_trans (onlyTile_presentNarrow s x w) (onlyTile_putRows _ _ _)

theorem vst_writes_words (issues : Issues s i 0x09 w) (kind : siteKind i.site = .v) (ok : fld w 11 0 = 0) (within : s.vlBad i.site w = none) :
    ∃ t, exec (.vst i) s = .next t ∧ OnlyPair i.site (homeB i.site) s t ∧ (t.tile i.site).v = (s.tile i.site).v ∧
      (t.tile (homeB i.site)).b.mem =
        writeRows (vlOff s i.site w) (vstBytes (s.tile i.site).v w) (vlWords w) (s.tile (homeB i.site)).b.mem := by
  have counted : ((s.counted i).tile i.site).v = (s.tile i.site).v := part_counted Tile.v (fun _ _ => rfl) s i _
  obtain ⟨effect, run, does⟩ : ∃ effect, exec (.vst i) s = .next (s.issueV i 0x09 vlLegal effect) ∧
      effect (s.counted i) i.site w (ipOf s i) = .done (vstState (s.counted i) i.site w) := by
    refine ⟨_, rfl, ?_⟩
    rw [vlBad_counted, within]
    rfl
  have only := onlyTile_vstState (s.counted i) i.site w
  refine ⟨(vstState (s.counted i) i.site w).advance i.site false, run.trans (congrArg Host.Outcome.next
    (issueV_done kind issues (decide_eq_true ok) (unitCycles_of_narrow issues (.inr rfl)) does)), ?_, ?_, ?_⟩
  · exact onlyPair_trans (onlyPair_trans (onlyPair_left (onlyTile_counted s i)) (onlyPair_right only)) (onlyPair_left (onlyTile_advance _ _ _))
  · rw [part_advance Tile.v (fun _ _ => rfl), only.2 _ (homeB_ne (.inr kind)).symm, counted]
  · rw [part_advance (fun t => t.b.mem) (fun _ _ => rfl), vstState, mem_putRows, part_presentNarrow (fun t => t.b.mem) (fun _ _ => rfl),
      part_counted (fun t => t.b.mem) (fun _ _ => rfl), counted, vlOff_counted]

theorem narrowLoadsAndStores : NarrowLoadsAndStores := by
  refine ⟨fun i s w issues kind ok within clean => ?_, fun i s w issues kind ok within => ?_⟩
  · obtain ⟨t, run, only, mem, regs⟩ := vld_loads_words issues kind ok within clean
    obtain ⟨-, scalars, -⟩ := putPairs_keeps (s.tile i.site).v (fld w 57 53) 0
      (vldList (s.tile (homeB i.site)).b.mem (vlOff s i.site w) (vlWords w))
    have few : vlWords w ≤ 32 := Nat.mod_lt _ (by decide)
    refine ⟨t, run, only, mem, regs ▸ scalars, fun k h => ?_, fun r l hl other => ?_⟩
    · have pair := pair_putPairs (s.tile i.site).v (fld w 57 53) 0 (vldList (s.tile (homeB i.site)).b.mem (vlOff s i.site w) (vlWords w)) (k := k)
        (by rwa [vldList_length])
      rw [Nat.zero_add, vldList_getD _ _ h] at pair
      rw [regs, pair]
      exact leBytes_word _ (Memory.read_length ..)
    · rw [regs]
      exact lane_putPairs_other _ _ hl (by rwa [vldList_length, Nat.zero_add]) (by rwa [vldList_length, Nat.zero_add])
  · obtain ⟨t, run, only, regs, mem⟩ := vst_writes_words issues kind ok within
    refine ⟨t, run, only, regs, fun a outside => ?_, fun k h last => ?_⟩
    · rw [mem]
      exact byte_writeRows_outside (vstBytes_length _ w) _ _ outside
    · rw [mem]
      refine read_writeRows (vstBytes_length _ w) _ _ h fun j later hj => ?_
      have apart := last j later hj
      have aligned := vlOff_aligned within h
      have alignedLater := vlOff_aligned within hj
      omega

/-- Settles O11: reductions and moves by what each leaves of the registers, VLD by the lane pairs that it fills in order, VST by the words that it
writes one after the other. -/
theorem reductionsLoadsAndStores : Obligations.ReductionsLoadsAndStores := ⟨reductionsAndScalarMoves, narrowLoadsAndStores⟩

end Sys2Proof.Proofs
end

section
/-! PROOFS. What the tiles send: OPEN and CLOSE of an outbound endpoint, signals and waits of a beacon, and the read of the die's GTS (R177, R182,
R185, R197, R199). -/

namespace Sys2Proof.Proofs

open Sys2Proof Sys2Proof.Machine Sys2Proof.Claims

variable {s t : State} {x : Site} {i : Issue} {w : DWord} {u : Tenant}

/-! ## OPEN and CLOSE (R182, R185) -/

/-- A packet enters a tile's router, its endpoint stands as given, and nothing else changes but the tile. -/
def SendsOn (x : Site) (ep : Nat) (h : Head) (b : Body) (o : OutEp) (s t : State) : Prop :=
  OnlyTileFlow x s t ∧ (t.tile x).outEp ep = o ∧ t.net.flow = s.net.flow ++ [{ place := .router x 4, head := h, body := b }]

theorem sendsOn_inject_onOut (s : State) (x : Site) (ep : Nat) (h : Head) (b : Body) (f : OutEp → OutEp) :
    SendsOn x ep h b (f ((s.tile x).outEp ep)) s ((s.inject x h b).onOut x ep f) := by
  refine ⟨⟨rfl, (onlyTile_onTile (s.inject x h b) x _).2⟩, ?_, rfl⟩
  rw [State.onOut, State.tile_onTile_self]
  exact Map.get_upd_self ..

theorem outEp_counted (s : State) (i : Issue) (ep : Nat) : ((s.counted i).tile i.site).outEp ep = (s.tile i.site).outEp ep :=
  part_counted (fun t => t.outEp ep) (fun _ _ => rfl) s i _

theorem chanHead_counted (s : State) (i : Issue) (x : Site) (target : Word) (tag : Nat) :
    (s.counted i).chanHead x target tag = s.chanHead x target tag := rfl

/-- An instruction that issues and sends leaves what the sending leaves. -/
theorem sendsOn_issued {ep : Nat} {h : Head} {b : Body} {o : OutEp} (sends : SendsOn i.site ep h b o (s.counted i) t) :
    SendsOn i.site ep h b o s (t.advance i.site false) := by
  obtain ⟨only, endpoint, flow⟩ := sends
  refine ⟨?_, (part_advance (fun t => t.outEp ep) (fun _ _ => rfl) t _ _ _).trans endpoint, flow⟩
  exact onlyTileFlow_trans (onlyTileFlow_trans (onlyTileFlow_of_onlyTile (onlyTile_counted s i)) only)
    (onlyTileFlow_of_onlyTile (onlyTile_advance t i.site false))

/-- The endpoint that an OPEN leaves. -/
def openedEp (s : State) (x : Site) (w : DWord) : OutEp :=
  { state := .pending, target := s.scalar x (fld w 54 51), sd := fld w 49 46, flits := 0, cut := false }

theorem openInsn_closed (closed : ((s.tile x).outEp (fld w 57 55)).state = .closed) :
    ∃ b, s.openInsn x w = (s.inject x (s.chanHead x (s.scalar x (fld w 54 51)) (chanTag 1 (fld w 57 55) 0)) b).onOut x (fld w 57 55)
      fun _ => openedEp s x w := by
  refine ⟨_, if_neg ?_⟩
  rw [closed]
  decide

theorem open_sends (issues : Issues s i 0x3B w) (ok : openLegal s i.site w (ipOf s i) = true)
    (closed : ((s.tile i.site).outEp (fld w 57 55)).state = .closed) :
    ∃ t b, exec (.openCh i) s = .next t ∧
      SendsOn i.site (fld w 57 55) (s.chanHead i.site (s.scalar i.site (fld w 54 51)) (chanTag 1 (fld w 57 55) 0)) b (openedEp s i.site w) s t := by
  obtain ⟨b, run⟩ := openInsn_closed ((congrArg OutEp.state (outEp_counted s i _)).trans closed)
  have sends := sendsOn_issued (sendsOn_inject_onOut (s.counted i) i.site (fld w 57 55)
    (s.chanHead i.site (s.scalar i.site (fld w 54 51)) (chanTag 1 (fld w 57 55) 0)) b fun _ => openedEp s i.site w)
  rw [chanHead_counted, scalar_counted, openedEp, scalar_counted] at run
  exact ⟨_, b, congrArg Host.Outcome.next (issue_leaves issues ok (congrArg Eff.done run)), sends⟩

theorem closeOut_opened {ep : Nat} (opened : ((s.tile x).outEp ep).state = .opened) :
    s.closeOut x ep = (s.inject x (s.chanHead x ((s.tile x).outEp ep).target (chanTag 2 ep 0)) .close).onOut x ep
      fun o => { o with state := .closed } := if_pos opened

theorem close_sends (issues : Issues s i 0x3C w) (ok : closeLegal s i.site w (ipOf s i) = true)
    (opened : ((s.tile i.site).outEp (fld w 57 55)).state = .opened) :
    ∃ t h, exec (.closeCh i) s = .next t ∧
      SendsOn i.site (fld w 57 55) h .close { (s.tile i.site).outEp (fld w 57 55) with state := .closed } s t := by
  have still : (((s.counted i).tile i.site).outEp (fld w 57 55)).state = .opened := (congrArg OutEp.state (outEp_counted s i _)).trans opened
  have answered : ¬ (((s.counted i).tile i.site).outEp (fld w 57 55)).state = .pending := by rw [still]; decide
  have sends := sendsOn_issued (sendsOn_inject_onOut (s.counted i) i.site (fld w 57 55)
    ((s.counted i).chanHead i.site (((s.counted i).tile i.site).outEp (fld w 57 55)).target (chanTag 2 (fld w 57 55) 0)) .close
    fun o => { o with state := .closed })
  rw [← closeOut_opened still, outEp_counted] at sends
  exact ⟨_, _, congrArg Host.Outcome.next (issue_leaves issues ok (if_neg answered)), sends⟩

/-! ## BSIG and BWAIT (R197, R199) -/

theorem sealedAt_counted (s : State) (i : Issue) (x : Site) : (s.counted i).sealedAt x = s.sealedAt x := by
  have sect : ((s.counted i).tile x).active = (s.tile x).active := part_counted Tile.active (fun _ _ => rfl) s i x
  rw [State.sealedAt, State.sectionAt, sect]
  rfl

/-- An instruction that a sealed section refuses, issued outside one, leaves what its effect leaves. -/
theorem issue_unsealed {op : Nat} {legal : State → Site → DWord → Nat → Bool} {sealedBad : Bool} {effect : State → Site → DWord → Nat → Eff}
    {e : Eff} (issues : Issues s i op w) (drift : s.sealedAt i.site = false) (ok : legal (s.counted i) i.site w (ipOf s i) = true)
    (does : effect (s.counted i) i.site w (ipOf s i) = e) : s.issue i op legal sealedBad effect = s.afterEff i.site false e := by
  rw [issue_of_issues issues ok (by rw [drift, Bool.and_false]), does]

theorem beaconIndex_counted (s : State) (i : Issue) (x : Site) (w : DWord) : beaconIndex (s.counted i) x w = beaconIndex s x w := by
  rw [beaconIndex, scalar_counted, beaconIndex]

/-- The beacon operation that a tile sends: a signal, or with a waiter a wait. -/
def tileOp (s : State) (x : Site) (u : Tenant) (beacon : BitVec 12) (count : Nat) (wait : Option Waiter) : BeaconOp :=
  { tenant := u, gen := (s.ctx u).gen, beacon := beacon, count := BitVec.ofNat 16 count, src := siteSrc x, wait := wait,
    stamp := (s.arises (siteSrc x)).2 }

/-- An item of the signature changes the loaded layouts alone. -/
theorem signItem_eq (s : State) (x : Site) (kind addr index : Nat) (payload : List Byte) :
    ∃ loaded, s.signItem x kind addr index payload = { s with insts := loaded } := by
  unfold State.signItem
  split
  · unfold State.onInst
    split
    · exact ⟨_, rfl⟩
    · exact ⟨s.insts, rfl⟩
  · exact ⟨s.insts, rfl⟩

theorem tileSignal_eq (drift : s.sealedAt x = false) (owner : s.ownerOf x = some u) (beacon : BitVec 12) (count : Nat) :
    ∃ loaded, s.tileSignal x beacon count =
      { s with net := { s.net with ops := s.net.ops ++ [tileOp s x u beacon count none] }, insts := loaded } := by
  obtain ⟨loaded, run⟩ := signItem_eq (s.sendSignal u beacon count (siteSrc x)) x 5 0 beacon.toNat (leBytes 2 count)
  refine ⟨loaded, ?_⟩
  rw [State.tileSignal, drift, owner]
  exact run

theorem bsig_sends (issues : Issues s i 0x3D w) (ok : beaconLegal s i.site w (ipOf s i) = true) (drift : s.sealedAt i.site = false)
    (owner : s.ownerOf i.site = some u) :
    ∃ t, exec (.bsig i) s = .next t ∧ t.net.ops = s.net.ops ++ [tileOp s i.site u (beaconIndex s i.site w) (fld w 15 0) none] ∧
      OnlyTileOps i.site s { t with insts := s.insts } := by
  obtain ⟨loaded, run⟩ := tileSignal_eq ((sealedAt_counted s i i.site).trans drift) owner (beaconIndex s i.site w) (fld w 15 0)
  rw [← beaconIndex_counted s i] at run
  refine ⟨_, congrArg Host.Outcome.next (issue_leaves issues ok (congrArg Eff.done run)), ?_, rfl, fun y other => ?_⟩
  · rw [← beaconIndex_counted s i]
    rfl
  · exact ((onlyTile_advance _ i.site false).2 y other).trans ((onlyTile_counted s i).2 y other)

/-- A tile has sent its wait, and its sequencer waits for the grant. -/
def waitSent (s : State) (x : Site) (u : Tenant) (beacon : BitVec 12) (count : Nat) : State :=
  (s.sendWait u beacon count (siteSrc x) (.tile x)).onTile x fun t => { t with seq := { t.seq with waiting := true } }

theorem waitSent_ops (s : State) (x : Site) (u : Tenant) (beacon : BitVec 12) (count : Nat) :
    (waitSent s x u beacon count).net.ops = s.net.ops ++ [tileOp s x u beacon count (some (.tile x))] := rfl

theorem onlyTileOps_waitSent (s : State) (x : Site) (u : Tenant) (beacon : BitVec 12) (count : Nat) :
    OnlyTileOps x s (waitSent s x u beacon count) := ⟨rfl, fun _ other => State.tile_onTile_other _ _ other⟩

/-- The frame of a beacon operation that is sent once the issue is counted. -/
theorem onlyTileOps_issued (only : OnlyTileOps i.site (s.counted i) t) : OnlyTileOps i.site s t :=
  ⟨congrArg (fun z : State => { z with tiles := s.tiles }) only.1, fun y other => (only.2 y other).trans ((onlyTile_counted s i).2 y other)⟩

theorem tileOp_counted (s : State) (i : Issue) (x : Site) (u : Tenant) (beacon : BitVec 12) (count : Nat) (wait : Option Waiter) :
    tileOp (s.counted i) x u beacon count wait = tileOp s x u beacon count wait := rfl

theorem bwait_sends (issues : Issues s i 0x3E w) (ok : beaconLegal s i.site w (ipOf s i) = true) (drift : s.sealedAt i.site = false)
    (owner : s.ownerOf i.site = some u) :
    ∃ t, exec (.bwait i) s = .next t ∧ (t.tile i.site).seq = { (s.tile i.site).seq with waiting := true } ∧
      t.net.ops = s.net.ops ++ [tileOp s i.site u (beaconIndex s i.site w) (fld w 15 0) (some (.tile i.site))] ∧
      OnlyTileOps i.site s t := by
  have owned : ((s.counted i).ownerOf i.site).getD 0 = u := congrArg (fun o : Option Tenant => o.getD 0) owner
  refine ⟨waitSent (s.counted i) i.site u (beaconIndex s i.site w) (fld w 15 0), congrArg Host.Outcome.next
    (issue_unsealed (e := .ended (waitSent (s.counted i) i.site u (beaconIndex s i.site w) (fld w 15 0))) issues drift ok ?_), ?_,
    (waitSent_ops ..).trans (congrArg (fun o => s.net.ops ++ [o]) (tileOp_counted ..)),
    onlyTileOps_issued (onlyTileOps_waitSent ..)⟩
  · rw [owned, beaconIndex_counted]
    rfl
  · rw [waitSent, State.tile_onTile_self]
    exact congrArg (fun q : Seq => { q with waiting := true }) (seq_counted s i)

/-! ## GTSR (R177) -/

theorem scalar_setScalar (s : State) (x : Site) (k j : Nat) (v : Word) : (s.setScalar x k v).scalar x j = if j = k then v else s.scalar x j := by
  unfold State.scalar State.setScalar Tile.setScalar
  rw [State.tile_onTile_self]
  cases siteKind x <;> exact Map.get_set 0 _ k j v

/-- What the count of the reads leaves as it was. -/
theorem scalar_countsGtsr (s : State) (x : Site) (k : Nat) :
    (s.onTile x fun t => { t with gtsrs := t.gtsrs + 1 }).scalar x k = s.scalar x k := by
  unfold State.scalar
  rw [State.tile_onTile_self]

/-- An event for the scrivener goes to the merger alone. -/
theorem scriv_eq (s : State) (u : Tenant) (kind : Byte) (layout : BitVec 8) (step : Nat) (src : Src) (payload : List Byte) (origin : Nat × DWord) :
    ∃ m, s.scriv u kind layout step src payload origin = { s with merger := m } := by
  unfold State.scriv
  split
  · exact ⟨_, rfl⟩
  · exact ⟨s.merger, rfl⟩

/-- Outside a replay a GTSR takes the die's copy, and hands it over to the scrivener or not. -/
theorem gtsr_live (owner : s.ownerOf x = some u) (live : (s.ctx u).replay = none) (sd : Nat) :
    ∃ m, s.gtsr x sd = .done (({ s with merger := m } : State).setGts x sd (s.localGts x.die.val)) := by
  simp only [State.gtsr, owner, Option.getD_some, live]
  split
  · next layout _ =>
    obtain ⟨m, run⟩ := scriv_eq s u 4 layout.id (s.stepAt layout x) (siteSrc x)
      (leBytes 8 (s.localGts x.die.val).toNat ++ leBytes 4 (s.tile x).gtsrs ++ leBytes 4 0) (s.arises (siteSrc x))
    exact ⟨m, by rw [run]⟩
  · exact ⟨s.merger, rfl⟩

theorem onlyTile_setGts (s : State) (x : Site) (sd : Nat) (v : DWord) : OnlyTile x s (s.setGts x sd v) :=
  onlyTile_trans (onlyTile_trans (onlyTile_onTile s x _) (onlyTile_onTile _ x _)) (onlyTile_onTile _ x _)

theorem setGts_pair (s : State) (x : Site) (sd : Nat) (v : DWord) :
    (s.setGts x sd v).scalar x (sd + 1) ++ (s.setGts x sd v).scalar x sd = v := by
  have high : (s.setGts x sd v).scalar x (sd + 1) = v.extractLsb' 32 32 := by
    rw [State.setGts, scalar_countsGtsr, scalar_setScalar, if_pos rfl]
  have low : (s.setGts x sd v).scalar x sd = v.setWidth 32 := by
    rw [State.setGts, scalar_countsGtsr, scalar_setScalar, if_neg (by omega), scalar_setScalar, if_pos rfl]
  rw [high, low]
  refine BitVec.eq_of_getLsbD_eq fun b bound => ?_
  simp only [BitVec.getLsbD_append, BitVec.getLsbD_setWidth, BitVec.getLsbD_extractLsb']
  by_cases lower : b < 32
  · simp [lower]
  · simp [lower, show 32 + (b - 32) = b by omega, show b - 32 < 32 by omega]

theorem setGts_counts (s : State) (x : Site) (sd : Nat) (v : DWord) : ((s.setGts x sd v).tile x).gtsrs = (s.tile x).gtsrs + 1 := by
  have kept (a : State) (k : Nat) (b : Word) : ((a.setScalar x k b).tile x).gtsrs = (a.tile x).gtsrs := by
    refine part_onTile Tile.gtsrs ?_ x
    unfold Tile.setScalar
    cases siteKind x <;> rfl
  rw [State.setGts, State.tile_onTile_self, kept, kept]

theorem scalar_advance (s : State) (x : Site) (rep : Bool) (y : Site) (k : Nat) : (s.advance x rep).scalar y k = s.scalar y k := by
  unfold State.scalar
  rw [part_advance Tile.m (fun _ _ => rfl), part_advance Tile.v (fun _ _ => rfl)]

theorem gtsr_reads (issues : Issues s i 0x3F w) (ok : gtsrLegal s i.site w (ipOf s i) = true) (drift : s.sealedAt i.site = false)
    (owner : s.ownerOf i.site = some u) (live : (s.ctx u).replay = none) :
    ∃ t, exec (.gtsr i) s = .next t ∧
      t.scalar i.site (fld w 57 54 + 1) ++ t.scalar i.site (fld w 57 54) = s.localGts i.site.die.val ∧
      (t.tile i.site).gtsrs = (s.tile i.site).gtsrs + 1 ∧ (∀ y, y ≠ i.site → t.tile y = s.tile y) ∧ t.mem = s.mem ∧ t.net = s.net := by
  obtain ⟨m, run⟩ := gtsr_live (s := s.counted i) owner live (fld w 57 54)
  refine ⟨_, congrArg Host.Outcome.next (issue_unsealed issues drift ok run), ?_⟩
  rw [State.afterEff, scalar_advance, scalar_advance, setGts_pair]
  refine ⟨rfl, ?_, fun y other => ?_, rfl, rfl⟩
  · rw [part_advance Tile.gtsrs (fun _ _ => rfl), setGts_counts]
    exact congrArg (· + 1) (part_counted Tile.gtsrs (fun _ _ => rfl) s i i.site)
  · rw [(onlyTile_advance _ i.site false).2 y other, (onlyTile_setGts _ i.site _ _).2 y other]
    exact (onlyTile_counted s i).2 y other

/-- Settles O3, one theorem a clause: a packet on an endpoint, a beacon operation, or the pair of scalars that takes the GTS. -/
theorem tilesSendTheirMessages : Obligations.TilesSendTheirMessages := by
  refine ⟨fun i s w issues ok closed => ?_, fun i s w issues ok opened => ?_, fun i s w u issues ok drift owner => bsig_sends issues ok drift owner,
    fun i s w u issues ok drift owner => ?_, fun i s w u issues ok drift owner live => gtsr_reads issues ok drift owner live⟩
  · obtain ⟨t, b, run, only, endpoint, flow⟩ := open_sends issues ok closed
    exact ⟨t, run, endpoint, ⟨_, flow, rfl, rfl⟩, only⟩
  · obtain ⟨t, h, run, only, endpoint, flow⟩ := close_sends issues ok opened
    exact ⟨t, run, by rw [endpoint], ⟨_, flow, rfl, rfl⟩, only⟩
  · obtain ⟨t, run, seq, ops, only⟩ := bwait_sends issues ok drift owner
    exact ⟨t, run, by rw [seq], by rw [seq], ops, only⟩

end Sys2Proof.Proofs
end

section
/-! PROOFS. TALLY_EMIT: the reads of a round's contributions, and the writes of its result and of EMITTED (R190, R193, R194). -/

namespace Sys2Proof.Proofs

open Sys2Proof Sys2Proof.Machine Sys2Proof.Claims

variable {s t : State} {x : Site} {l : TallyLatch}

/-! ## Pieces of one size, written one behind the other -/

theorem length_pieces {bytes : Nat → List Byte} {size : Nat} (length : ∀ k, (bytes k).length = size) (n : Nat) :
    ((List.range n).flatMap bytes).length = size * n := by
  induction n with
  | zero => rfl
  | succ n ih => rw [List.range_succ, List.flatMap_append, List.length_append, ih, List.flatMap_singleton, length, Nat.mul_succ]

/-- Writing pieces of one size that are joined is writing each to its own place. -/
theorem write_pieces {bytes : Nat → List Byte} {size : Nat} (length : ∀ k, (bytes k).length = size) (m : Memory) (a n : Nat) :
    m.write a ((List.range n).flatMap bytes) = writeRows (fun k => a + size * k) bytes n m := by
  induction n with
  | zero => rfl
  | succ n ih => rw [List.range_succ, List.flatMap_append, write_append, ih, length_pieces length, List.flatMap_singleton, writeRows_succ]

theorem read_write_pieces {bytes : Nat → List Byte} {size : Nat} (length : ∀ k, (bytes k).length = size) (m : Memory) (a : Nat) {k n : Nat}
    (h : k < n) : (m.write a ((List.range n).flatMap bytes)).read (a + size * k) size = bytes k := by
  rw [write_pieces length]
  refine read_writeRows length n m h fun q later _ => .inr ?_
  have := Nat.mul_le_mul_left size later
  rw [Nat.mul_succ] at this
  omega

/-! ## What the tally engine leaves of its B-tile -/

/-- Of the tiles one changes, and its bytes and inbound endpoints become those given. -/
def Leaves (x : Site) (mem : Memory) (ins : Map InEp) (s t : State) : Prop :=
  (∀ y, y ≠ x → t.tile y = s.tile y) ∧ (t.tile x).b.mem = mem ∧ (t.tile x).ins = ins

section

variable {mem m : Memory} {ins j : Map InEp}

theorem leaves_refl (s : State) (x : Site) : Leaves x (s.tile x).b.mem (s.tile x).ins s s := ⟨fun _ _ => rfl, rfl, rfl⟩

theorem Leaves.trans {u : State} (first : Leaves x mem ins s t) (second : Leaves x m j t u) : Leaves x m j s u :=
  ⟨fun y other => (second.1 y other).trans (first.1 y other), second.2⟩

theorem Leaves.onTile (left : Leaves x mem ins s t) {f : Tile → Tile} (bytes : (f (t.tile x)).b.mem = m) (endpoints : (f (t.tile x)).ins = j) :
    Leaves x m j s (t.onTile x f) := by
  obtain ⟨others, -, -⟩ := left
  exact ⟨fun y other => (t.tile_onTile_other f other).trans (others y other), by rw [t.tile_onTile_self, bytes], by rw [t.tile_onTile_self, endpoints]⟩

theorem Leaves.presentTally (left : Leaves x mem ins s t) (off n : Nat) : Leaves x mem ins s (t.presentTally x off n) :=
  left.onTile left.2.1 left.2.2

theorem Leaves.onIn (left : Leaves x mem ins s t) (e : Nat) (f : InEp → InEp) : Leaves x mem (Map.upd {} ins e f) s (t.onIn x e f) :=
  left.onTile left.2.1 (congrArg (fun ins => Map.upd {} ins e f) left.2.2)

/-- A write below the descriptors changes no endpoint. -/
theorem Leaves.btPut_below (left : Leaves x mem ins s t) {off : Nat} {bs : List Byte} (below : off + bs.length ≤ 786176) :
    Leaves x (mem.write off bs) ins s (t.btPut x off bs) :=
  left.onTile (congrArg (fun m => Memory.write m off bs) left.2.1) ((if_neg (Nat.not_lt.mpr below)).trans left.2.2)

/-- A write of a descriptor's WR or EMITTED latches no RD or TAKEN. -/
theorem relatch_count (mem : Memory) (e k : Nat) (i : InEp) : i.relatch mem (epDesc e + 16) 8 k = i := by
  refine if_neg fun meets => ?_
  obtain ⟨before, behind⟩ := Bool.and_eq_true_iff.mp meets
  have before := of_decide_eq_true before
  have behind := of_decide_eq_true behind
  unfold epDesc at before behind
  omega

theorem map_of_same {α : Type} {f : α → α} {l : List α} (same : ∀ a ∈ l, f a = a) : l.map f = l :=
  (List.map_congr_left same).trans (List.map_id' l)

theorem Leaves.btPut_count (left : Leaves x mem ins s t) (e : Nat) {bs : List Byte} (eight : bs.length = 8) :
    Leaves x (mem.write (epDesc e + 16) bs) ins s (t.btPut x (epDesc e + 16) bs) := by
  refine left.onTile (congrArg (fun m => Memory.write m (epDesc e + 16) bs) left.2.1) ?_
  have same : ∀ p ∈ (t.tile x).ins, (p.1, p.2.relatch ((t.tile x).b.put (epDesc e + 16) bs).mem (epDesc e + 16) bs.length p.1) = p := by
    intro p _
    rw [eight, relatch_count]
  exact ((if_pos (by unfold epDesc; omega)).trans (map_of_same same)).trans left.2.2

theorem Leaves.epSignal (left : Leaves x mem ins s t) (sig : Bool) (beacon : BitVec 12) : Leaves x mem ins s (t.epSignal x sig beacon) := by
  rw [State.epSignal]
  split
  · cases drift : t.sealedAt x with
    | true =>
      rw [State.tileSignal, drift]
      exact left.onTile (f := fun t => { t with sealedSignals := _ }) left.2.1 left.2.2
    | false =>
      cases owner : t.ownerOf x with
      | none =>
        rw [State.tileSignal, drift, owner]
        exact left
      | some u =>
        obtain ⟨loaded, run⟩ := tileSignal_eq drift owner beacon 1
        rw [run]
        exact left
  · exact left

end

/-! ## The reads of a round (R194) -/

/-- Where a contribution of the round that is emitted next stands. -/
def contributionOff (l : TallyLatch) (k : Nat) : Nat := l.base + (l.emitted.toNat % 2 * l.nc + k) * l.vbytes

/-- The read of one contribution: its bytes join those before, and its accesses are presented. -/
def readContribution (x : Site) (l : TallyLatch) (a : List (List Byte) × Bool × State) (k : Nat) : List (List Byte) × Bool × State :=
  (a.1 ++ [(a.2.2.btRead x (contributionOff l k) l.vbytes (siteSrc x)).1],
    a.2.1 || (a.2.2.btRead x (contributionOff l k) l.vbytes (siteSrc x)).2.1,
    (a.2.2.btRead x (contributionOff l k) l.vbytes (siteSrc x)).2.2.presentTally x (contributionOff l k) l.vbytes)

/-- With no upset word the reads give the contributions in slot order, and change no byte. -/
theorem readContributions_clean (l : TallyLatch) (clean : (s.tile x).b.bad = []) (n : Nat) :
    ∃ t, (List.range n).foldl (readContribution x l) ([], false, s) = ((List.range n).map (contribution s x l), false, t) ∧
      (t.tile x).b.bad = [] ∧ Leaves x (s.tile x).b.mem (s.tile x).ins s t := by
  induction n with
  | zero => exact ⟨s, rfl, clean, leaves_refl s x⟩
  | succ n ih =>
    obtain ⟨t, run, still, left⟩ := ih
    refine ⟨t.presentTally x (contributionOff l n) l.vbytes, ?_, (part_onTile (fun t => t.b.bad) rfl x).trans still, left.presentTally _ _⟩
    rw [List.range_succ, List.foldl_append, run, List.map_append, List.foldl_cons, List.foldl_nil, readContribution,
      btRead_clean _ _ _ still, left.2.1]
    rfl

/-! ## The emission (R194) -/

/-- The bytes of a round's result. -/
def resultBytes (l : TallyLatch) (cs : List (List Byte)) : List Byte :=
  (List.range (l.vbytes / 4)).flatMap fun j => leBytes 4 (tallySum l.ty.toNat cs j).toNat

theorem resultBytes_length (l : TallyLatch) (cs : List (List Byte)) : (resultBytes l cs).length = 4 * (l.vbytes / 4) :=
  length_pieces (fun _ => leBytes_length 4 _) _

/-- Where the result of the round that is emitted next goes. -/
def resultOff (l : TallyLatch) (out : List Byte) : Nat := l.result + l.emitted.toNat % 2 * out.length

/-- An endpoint whose EMITTED has counted one more round. -/
def countEmitted (i : InEp) : InEp := { i with tally := i.tally.map fun l => { l with emitted := l.emitted + 1 } }

/-- The state after a round's result, EMITTED and the signal. -/
def afterResult (s : State) (x : Site) (e : Nat) (l : TallyLatch) (out : List Byte) : State :=
  (((((s.btPut x (resultOff l out) out).presentTally x (resultOff l out) out.length).onIn x e countEmitted).btPut x (epDesc e + 16)
    (leBytes 8 ((l.emitted.toNat + 1) % 2 ^ 32))).presentTally x (epDesc e + 16) 8).epSignal x l.sig l.beacon

theorem Leaves.afterResult {mem : Memory} {ins : Map InEp} (left : Leaves x mem ins s t) (e : Nat) {out : List Byte}
    (below : resultOff l out + out.length ≤ 786176) :
    Leaves x ((mem.write (resultOff l out) out).write (epDesc e + 16) (leBytes 8 ((l.emitted.toNat + 1) % 2 ^ 32)))
      (Map.upd {} ins e countEmitted) s (afterResult t x e l out) :=
  (((((left.btPut_below below).presentTally _ _).onIn e countEmitted).btPut_count e (leBytes_length ..)).presentTally _ _).epSignal _ _

theorem tallyEmit_eq {e : Nat} {cs : List (List Byte)} (latch : ((s.tile x).inEp e).tally = some l) (runs : s.btRuns x = true)
    (ready : l.ready = true) (words : l.ty ≠ 2)
    (reads : (List.range l.nc).foldl (readContribution x l) ([], false, s.upsetBt x []) = (cs, false, t)) :
    s.tallyEmit x e [] = afterResult t x e l (resultBytes l cs) := by
  have whole : ¬ l.ty.toNat = 2 := fun same => words (BitVec.eq_of_toNat_eq same)
  unfold readContribution contributionOff at reads
  simp only [State.tallyEmit, latch, runs, ready, Bool.not_true, Bool.or_self, Bool.false_eq_true, if_false, reads, if_neg whole]
  rfl

/-- The result of a round stands below the descriptors. -/
theorem result_below (l : TallyLatch) {out : List Byte} (length : out.length = l.vbytes) (below : l.result + 2 * l.vbytes ≤ 786176) :
    resultOff l out + out.length ≤ 786176 := by
  rw [resultOff, length]
  rcases Nat.mod_two_eq_zero_or_one l.emitted.toNat with even | odd
  · rw [even]; omega
  · rw [odd]; omega

/-- An element of the result, once EMITTED is written behind it. -/
theorem read_result (mem : Memory) (e : Nat) (l : TallyLatch) (cs : List (List Byte)) (count : List Byte) {j : Nat} (h : j < l.vbytes / 4)
    (below : resultOff l (resultBytes l cs) + (resultBytes l cs).length ≤ 786176) :
    ((mem.write (resultOff l (resultBytes l cs)) (resultBytes l cs)).write (epDesc e + 16) count).read (resultOff l (resultBytes l cs) + 4 * j) 4 =
      leBytes 4 (tallySum l.ty.toNat cs j).toNat := by
  rw [resultBytes_length] at below
  have apart : resultOff l (resultBytes l cs) + 4 * j + 4 ≤ epDesc e := by
    unfold epDesc
    omega
  rw [read_congr _ _ fun c _ high => Memory.byte_write_other _ _ _ c (.inl (by omega))]
  exact read_write_pieces (fun k => leBytes_length 4 _) mem _ h

/-- Settles O14: the reads give the contributions, and the result stands below the descriptors, where the count of EMITTED reaches no byte. -/
theorem tallyEmitsTheSumOfItsRound : Obligations.TallyEmitsTheSumOfItsRound := by
  intro x ep s l latch runs ready clean words below aligned
  have start : Leaves x (s.tile x).b.mem (s.tile x).ins s (s.upsetBt x []) := (leaves_refl s x).onTile rfl rfl
  have upset : ((s.upsetBt x []).tile x).b.bad = [] := (congrArg (fun t : Tile => t.b.bad) (s.tile_onTile_self x _)).trans clean
  obtain ⟨t, reads, -, left⟩ := readContributions_clean l upset l.nc
  have contributions : (List.range l.nc).map (contribution (s.upsetBt x []) x l) = (List.range l.nc).map (contribution s x l) :=
    List.map_congr_left fun k _ => by rw [contribution, start.2.1, contribution]
  rw [start.2.1, start.2.2] at left
  rw [contributions] at reads
  have length : (resultBytes l ((List.range l.nc).map (contribution s x l))).length = l.vbytes := by rw [resultBytes_length]; omega
  have fits := result_below l length below
  obtain ⟨others, mem, ins⟩ := (start.trans left).afterResult ep.val fits
  refine ⟨_, { l with emitted := l.emitted + 1 }, congrArg Host.Outcome.next (tallyEmit_eq latch runs ready words reads), ?_, rfl, others,
    fun j h => ?_⟩
  · rw [Tile.inEp, ins, Map.get_upd_self]
    exact congrArg (Option.map _) latch
  · have element := read_result (s.tile x).b.mem ep.val l ((List.range l.nc).map (contribution s x l))
      (leBytes 8 ((l.emitted.toNat + 1) % 2 ^ 32)) h fits
    rw [← mem, resultOff, length] at element
    exact element

end Sys2Proof.Proofs
end

section
/-! PROOFS. Beacons: the operations of the store, the grants that reach their tiles, the doorbells of a context and its pending notifications (R197
to R203, R310). -/

namespace Sys2Proof.Proofs

open Sys2Proof Sys2Proof.Machine Sys2Proof.Claims

variable {s t u : State} {c : Tenant} {i : BitVec 12} {x : Site} {bs : BitVec 12 → Beacon}

/-! ## What the store changes -/

/-- Beacons of which one becomes the given one. -/
def setBeacon (bs : BitVec 12 → Beacon) (i : BitVec 12) (b : Beacon) : BitVec 12 → Beacon := fun j => if j = i then b else bs j

@[simp] theorem setBeacon_self (bs : BitVec 12 → Beacon) (i : BitVec 12) (b : Beacon) : setBeacon bs i b i = b := if_pos rfl

theorem setBeacon_other (bs : BitVec 12 → Beacon) {i j : BitVec 12} (b : Beacon) (h : j ≠ i) : setBeacon bs i b j = bs j := if_neg h

@[simp] theorem setBeacon_idem (bs : BitVec 12 → Beacon) (i : BitVec 12) (b d : Beacon) : setBeacon (setBeacon bs i b) i d = setBeacon bs i d := by
  funext j
  unfold setBeacon
  split <;> rfl

/-- The beacons of a context become those given, its generation and its replay stay, and nothing changes but the contexts, the host's side and
the events on their way. -/
structure Stores (c : Tenant) (bs : BitVec 12 → Beacon) (s u : State) : Prop where
  rest : { u with host := s.host, ctxs := s.ctxs, merger := s.merger } = s
  gen : (u.ctx c).gen = (s.ctx c).gen
  replay : (u.ctx c).replay = (s.ctx c).replay
  beacons : u.beacon c = bs

theorem stores_refl (c : Tenant) (s : State) : Stores c (s.beacon c) s s := ⟨rfl, rfl, rfl, rfl⟩

theorem beacon_congr (same : (u.ctx c).beacons = (t.ctx c).beacons) : u.beacon c = t.beacon c :=
  funext fun i => by rw [State.beacon, same, State.beacon]

namespace Stores

theorem net (stored : Stores c bs s u) : u.net = s.net := by
  have same := congrArg State.net stored.rest
  exact same

theorem tiles (stored : Stores c bs s u) : u.tiles = s.tiles := by
  have same := congrArg State.tiles stored.rest
  exact same

theorem trans {ds : BitVec 12 → Beacon} (first : Stores c bs s t) (second : Stores c ds t u) : Stores c ds s u where
  rest := (congrArg (fun z : State => { z with host := s.host, ctxs := s.ctxs, merger := s.merger }) second.rest).trans first.rest
  gen := second.gen.trans first.gen
  replay := second.replay.trans first.replay
  beacons := second.beacons

theorem quiet (stored : Stores c bs s t) (same : Quiet t u) : Stores c bs s u := by
  obtain ⟨rest, ctxs⟩ := same
  have gen := congrArg Context.gen (ctxs c)
  have replay := congrArg Context.replay (ctxs c)
  have listed := congrArg Context.beacons (ctxs c)
  exact stored.trans ⟨rest, gen, replay, (beacon_congr listed).trans stored.beacons⟩

/-- A change of the context that keeps its generation, its replay and its beacons. -/
theorem onCtx (stored : Stores c bs s t) {f : Context → Context} (gen : (f (t.ctx c)).gen = (t.ctx c).gen)
    (replay : (f (t.ctx c)).replay = (t.ctx c).replay) (beacons : (f (t.ctx c)).beacons = (t.ctx c).beacons) : Stores c bs s (t.onCtx c f) := by
  exact stored.trans ⟨rfl, by rw [t.ctx_onCtx_self, gen], by rw [t.ctx_onCtx_self, replay],
    (beacon_congr (by rw [t.ctx_onCtx_self, beacons])).trans stored.beacons⟩

theorem onBeacon (stored : Stores c bs s t) (i : BitVec 12) (f : Beacon → Beacon) :
    Stores c (setBeacon bs i (f (bs i))) s (t.onBeacon c i f) := by
  refine stored.trans ⟨rfl, by rw [State.onBeacon, t.ctx_onCtx_self], by rw [State.onBeacon, t.ctx_onCtx_self], ?_⟩
  rw [← stored.beacons]
  funext j
  rw [State.beacon, State.onBeacon, t.ctx_onCtx_self]
  by_cases same : j = i
  · rw [same, setBeacon_self]
    exact Map.get_upd_self ..
  · rw [setBeacon_other _ _ same]
    exact Map.get_upd_other _ _ _ fun e => same (BitVec.eq_of_toNat_eq e)

theorem logEv (stored : Stores c bs s t) (src : Src) (code : BitVec 16) (tenant : Byte) (p : List Byte) :
    Stores c bs s (t.logEv src code tenant p) := stored.quiet ⟨rfl, fun _ => rfl⟩

/-- Recording an operation counts it and hands over an event (R355). -/
theorem recordOp (stored : Stores c bs s t) (i : BitVec 12) (op count : Nat) (src : Src) (origin : Nat × DWord) :
    Stores c bs s (t.recordOp c i op count src origin) := by
  have scriv (kind : Byte) (layout : BitVec 8) (step : Nat) (payload : List Byte) :
      Stores c bs s (t.scriv c kind layout step src payload origin) := by
    obtain ⟨m, run⟩ := scriv_eq t c kind layout step src payload origin
    rw [run]
    exact stored.quiet ⟨rfl, fun _ => rfl⟩
  have scrivCtx (kind : Byte) (payload : List Byte) : Stores c bs s (t.scrivCtx c kind src payload origin) := by
    unfold State.scrivCtx
    split <;> exact scriv ..
  unfold State.recordOp
  split
  · exact (scrivCtx ..).onCtx rfl rfl rfl
  · exact stored.onCtx rfl rfl rfl

/-- A notification takes an entry of the completion ring or waits (R310). -/
theorem notifyRing (stored : Stores c bs s t) (n : Note) : Stores c bs s (t.notifyRing c n) := by
  unfold State.notifyRing
  split
  · exact stored
  · split
    · exact stored.quiet (quiet_ringWrite_complSel t (.ctx c) _)
    · refine stored.onCtx ?_ ?_ ?_ <;> split <;> rfl

theorem notify (stored : Stores c bs s t) (i : BitVec 12) : Stores c bs s (t.notify c i) := by
  have raised : Stores c bs s (if (t.beacon c i).mode = 1 || (t.beacon c i).mode = 3 then
      t.raise stewardSrc (.vf c) (t.beacon c i).vector 1 else t) := by
    split
    · exact stored.quiet (quiet_raise ..)
    · exact stored
  unfold State.notify
  dsimp only
  split
  · exact raised.notifyRing _
  · exact raised

end Stores

/-! ## Signals (R197) -/

/-- A beacon whose VALUE has taken a COUNT. -/
def plusCount (b : Beacon) (count : Nat) : Beacon := { b with value := addSat b.value count }

/-- A signal that VALUE does not hold is logged (R197). -/
def satLogged (s : State) (c : Tenant) (i : BitVec 12) (count : Nat) (src : Src) : State :=
  if 0xFFFFFFFF < (s.beacon c i).value.toNat + count then s.logSat c i src count else s

theorem stores_satLogged (s : State) (c : Tenant) (i : BitVec 12) (count : Nat) (src : Src) :
    Stores c (s.beacon c) s (satLogged s c i count src) := by
  unfold satLogged
  split
  · exact (stores_refl c s).logEv ..
  · exact stores_refl c s

/-- A signal that has been added, before its notification. -/
def added (s : State) (c : Tenant) (i : BitVec 12) (count : Nat) (src : Src) : State :=
  (satLogged s c i count src).onBeacon c i fun b => plusCount b count

theorem addSignal_eq (s : State) (c : Tenant) (i : BitVec 12) (count : Nat) (src : Src) :
    s.addSignal c i count src =
      if (s.beacon c i).value.toNat < (s.beacon c i).thresh.toNat &&
          (s.beacon c i).thresh.toNat ≤ ((added s c i count src).beacon c i).value.toNat then
        (added s c i count src).notify c i
      else added s c i count src := rfl

theorem stores_addSignal (s : State) (c : Tenant) (i : BitVec 12) (count : Nat) (src : Src) :
    Stores c (setBeacon (s.beacon c) i (plusCount (s.beacon c i) count)) s (s.addSignal c i count src) := by
  have stored := (stores_satLogged s c i count src).onBeacon i fun b => plusCount b count
  rw [addSignal_eq]
  split
  · exact stored.notify i
  · exact stored

/-- A signal that has been added and recorded, before any grant. -/
def signalled (s : State) (c : Tenant) (i : BitVec 12) (count : Nat) (src : Src) (origin : Nat × DWord) : State :=
  (s.addSignal c i count src).recordOp c i opSignal count src origin

theorem stores_signalled (s : State) (c : Tenant) (i : BitVec 12) (count : Nat) (src : Src) (origin : Nat × DWord) :
    Stores c (setBeacon (s.beacon c) i (plusCount (s.beacon c i) count)) s (signalled s c i count src origin) :=
  (stores_addSignal s c i count src).recordOp ..

theorem signalled_beacon (s : State) (c : Tenant) (i : BitVec 12) (count : Nat) (src : Src) (origin : Nat × DWord) :
    (signalled s c i count src origin).beacon c i = plusCount (s.beacon c i) count := by
  rw [(stores_signalled ..).beacons, setBeacon_self]

theorem applySignal_eq (s : State) (c : Tenant) (i : BitVec 12) (count : Nat) (src : Src) (origin : Nat × DWord) :
    s.applySignal c i count src origin = State.grantHeads ((signalled s c i count src origin).beacon c i).waiters.length
      (signalled s c i count src origin) c i := rfl

theorem applySignal_no_waiter (idle : (s.beacon c i).waiters = []) (count : Nat) (src : Src) (origin : Nat × DWord) :
    s.applySignal c i count src origin = signalled s c i count src origin := by
  rw [applySignal_eq, signalled_beacon, plusCount, idle]
  rfl

/-! ## Grants (R197, R199) -/

/-- A beacon whose head waiter has been granted. -/
def granted (b : Beacon) (n : BitVec 16) : Beacon := { b with value := b.value - n.setWidth 32, waiters := [] }

/-- A grant leaves for its tile. -/
def withGrant (s : State) (g : Grant) : State := { s with net := { s.net with grants := s.net.grants ++ [g] } }

/-- The grant of a waiter in the context's present generation. -/
def grantOf (s : State) (c : Tenant) (i : BitVec 12) (x : Site) (n : BitVec 16) : Grant :=
  { tenant := c, gen := (s.ctx c).gen, site := x, beacon := i, count := n }

/-- The one waiter, a tile, is granted when VALUE suffices. -/
theorem grantHeads_tile {n : BitVec 16} (waits : (s.beacon c i).waiters = [(.tile x, n)]) (enough : n.toNat ≤ (s.beacon c i).value.toNat) :
    ∃ u, Stores c (setBeacon (s.beacon c) i (granted (s.beacon c i) n)) s u ∧
      State.grantHeads 1 s c i = withGrant u (grantOf s c i x n) := by
  have taken := ((stores_refl c s).onBeacon i fun b => { b with value := b.value - n.setWidth 32, waiters := [] }).recordOp i opGrant n.toNat
    (siteSrc x) ((s.onBeacon c i fun b => { b with value := b.value - n.setWidth 32, waiters := [] }).arises (siteSrc x))
  refine ⟨_, taken, ?_⟩
  rw [grantOf, ← taken.gen]
  simp only [State.grantHeads, waits, if_pos enough]
  rfl

theorem grantHeads_short {w : Waiter} {n : BitVec 16} {ws : List (Waiter × BitVec 16)} (waits : (s.beacon c i).waiters = (w, n) :: ws)
    (short : (s.beacon c i).value.toNat < n.toNat) (k : Nat) : State.grantHeads k s c i = s := by
  cases k with
  | zero => rfl
  | succ k => simp only [State.grantHeads, waits, if_neg (Nat.not_le.mpr short)]

theorem applySignal_grants {n : BitVec 16} (waits : (s.beacon c i).waiters = [(.tile x, n)]) {count : Nat}
    (enough : n.toNat ≤ (addSat (s.beacon c i).value count).toNat) (src : Src) (origin : Nat × DWord) :
    ∃ u, Stores c (setBeacon (s.beacon c) i (granted (plusCount (s.beacon c i) count) n)) s u ∧
      s.applySignal c i count src origin = withGrant u (grantOf s c i x n) := by
  have stored := stores_signalled s c i count src origin
  have beacon := signalled_beacon s c i count src origin
  obtain ⟨u, taken, run⟩ := grantHeads_tile (s := signalled s c i count src origin) (c := c) (i := i) (x := x) (n := n)
    (by rw [beacon]; exact waits) (by rw [beacon]; exact enough)
  rw [stored.beacons, setBeacon_idem, setBeacon_self] at taken
  refine ⟨u, stored.trans taken, ?_⟩
  rw [applySignal_eq, beacon, plusCount, waits, List.length_singleton, run, grantOf, stored.gen, grantOf]

/-! ## Waits (R197) -/

/-- A beacon with one more waiter, behind the others. -/
def plusWaiter (b : Beacon) (w : Waiter) (n : BitVec 16) : Beacon := { b with waiters := b.waiters ++ [(w, n)] }

/-- A wait that has been recorded and stands in the order, before any grant. -/
def queued (s : State) (c : Tenant) (i : BitVec 12) (n : BitVec 16) (w : Waiter) (origin : Nat × DWord) : State :=
  (s.recordOp c i opWait n.toNat (s.waiterSrc w) origin).onBeacon c i fun b => plusWaiter b w n

theorem stores_queued (s : State) (c : Tenant) (i : BitVec 12) (n : BitVec 16) (w : Waiter) (origin : Nat × DWord) :
    Stores c (setBeacon (s.beacon c) i (plusWaiter (s.beacon c i) w n)) s (queued s c i n w origin) :=
  ((stores_refl c s).recordOp i opWait n.toNat (s.waiterSrc w) origin).onBeacon i fun b => plusWaiter b w n

theorem queued_beacon (s : State) (c : Tenant) (i : BitVec 12) (n : BitVec 16) (w : Waiter) (origin : Nat × DWord) :
    (queued s c i n w origin).beacon c i = plusWaiter (s.beacon c i) w n := by
  rw [(stores_queued ..).beacons, setBeacon_self]

theorem applyWait_eq (s : State) (c : Tenant) (i : BitVec 12) (n : BitVec 16) (w : Waiter) (origin : Nat × DWord) :
    s.applyWait c i n w origin =
      if (s.beacon c i).waiters.isEmpty then State.grantHeads 1 (queued s c i n w origin) c i else queued s c i n w origin := rfl

theorem applyWait_takes {n : BitVec 16} (first : (s.beacon c i).waiters = []) (enough : n.toNat ≤ (s.beacon c i).value.toNat)
    (x : Site) (origin : Nat × DWord) :
    ∃ u, Stores c (setBeacon (s.beacon c) i (granted (s.beacon c i) n)) s u ∧
      s.applyWait c i n (.tile x) origin = withGrant u (grantOf s c i x n) := by
  have stored := stores_queued s c i n (.tile x) origin
  have beacon := queued_beacon s c i n (.tile x) origin
  obtain ⟨u, taken, run⟩ := grantHeads_tile (s := queued s c i n (.tile x) origin) (c := c) (i := i) (x := x) (n := n)
    (by rw [beacon, plusWaiter, first]; rfl) (by rw [beacon]; exact enough)
  rw [stored.beacons, setBeacon_idem, setBeacon_self] at taken
  refine ⟨u, stored.trans taken, ?_⟩
  rw [applyWait_eq, first, List.isEmpty_nil, if_pos rfl, run, grantOf, stored.gen, grantOf]

theorem applyWait_waits {n : BitVec 16} {w : Waiter} (late : (s.beacon c i).waiters ≠ [] ∨ (s.beacon c i).value.toNat < n.toNat)
    (origin : Nat × DWord) : s.applyWait c i n w origin = queued s c i n w origin := by
  rw [applyWait_eq]
  split
  · next empty =>
    have first : (s.beacon c i).waiters = [] := List.isEmpty_iff.mp empty
    have beacon := queued_beacon s c i n w origin
    exact grantHeads_short (w := w) (n := n) (ws := []) (by rw [beacon, plusWaiter, first]; rfl)
      (by rw [beacon]; exact late.resolve_left fun waits => waits first) 1
  · rfl

/-! ## Operations as they reach the store (R197, R198) -/

section

variable {k : Nat} {o : BeaconOp}

theorem replayRun_none (live : (s.ctx c).replay = none) : s.replayRun c = s := by
  rw [State.replayRun, live]

theorem replaying_none (live : (s.ctx c).replay = none) : s.replaying c = false := by
  rw [State.replaying, live]

theorem live_of_opAt (here : OpAt s k o) : ((s.dropOp k).ctx o.tenant).replay = none := by
  obtain ⟨-, -, -, -, -, live⟩ := here
  exact live

theorem grants_of_dropOp (stored : Stores c bs (s.dropOp k) t) : t.net.grants = s.net.grants := by
  have same := congrArg Net.grants stored.net
  exact same

theorem beaconSignal_applies (here : OpAt s k o) (signal : o.wait = none) :
    s.beaconSignal k = ((s.dropOp k).applySignal o.tenant o.beacon o.count.toNat o.src (srcDie o.src, o.stamp)).replayRun o.tenant := by
  obtain ⟨there, alive, first, isOpen, gen, live⟩ := here
  simp [State.beaconSignal, State.storeOp, State.withheldSrc, State.gate, there, alive, first, isOpen, gen, live, signal,
    replaying_none live]

theorem beaconWait_applies {w : Waiter} (here : OpAt s k o) (wait : o.wait = some w) :
    s.beaconWait k = ((s.dropOp k).applyWait o.tenant o.beacon o.count w (srcDie o.src, o.stamp)).replayRun o.tenant := by
  obtain ⟨there, alive, first, isOpen, gen, live⟩ := here
  simp [State.beaconWait, State.storeOp, State.withheldSrc, State.gate, there, alive, first, isOpen, gen, live, wait,
    replaying_none live]

theorem signal_is_counted (here : OpAt s k o) (signal : o.wait = none) (idle : (s.beacon o.tenant o.beacon).waiters = []) :
    ∃ t, exec (.beaconSignal k) s = .next t ∧ Stores o.tenant
      (setBeacon (s.beacon o.tenant) o.beacon (plusCount (s.beacon o.tenant o.beacon) o.count.toNat)) (s.dropOp k) t := by
  have stored := stores_signalled (s.dropOp k) o.tenant o.beacon o.count.toNat o.src (srcDie o.src, o.stamp)
  refine ⟨_, congrArg Host.Outcome.next ?_, stored⟩
  rw [beaconSignal_applies here signal, applySignal_no_waiter (s := s.dropOp k) idle, replayRun_none (stored.replay.trans (live_of_opAt here))]

theorem signal_grants {n : BitVec 16} (here : OpAt s k o) (signal : o.wait = none)
    (waits : (s.beacon o.tenant o.beacon).waiters = [(.tile x, n)])
    (enough : n.toNat ≤ (addSat (s.beacon o.tenant o.beacon).value o.count.toNat).toNat) :
    ∃ t, exec (.beaconSignal k) s = .next (withGrant t (grantOf s o.tenant o.beacon x n)) ∧ Stores o.tenant (setBeacon (s.beacon o.tenant)
      o.beacon (granted (plusCount (s.beacon o.tenant o.beacon) o.count.toNat) n)) (s.dropOp k) t := by
  obtain ⟨t, stored, run⟩ := applySignal_grants (s := s.dropOp k) waits enough o.src (srcDie o.src, o.stamp)
  refine ⟨t, congrArg Host.Outcome.next ?_, stored⟩
  rw [beaconSignal_applies here signal, run]
  exact replayRun_none (stored.replay.trans (live_of_opAt here))

theorem wait_takes (here : OpAt s k o) (wait : o.wait = some (.tile x)) (first : (s.beacon o.tenant o.beacon).waiters = [])
    (enough : o.count.toNat ≤ (s.beacon o.tenant o.beacon).value.toNat) :
    ∃ t, exec (.beaconWait k) s = .next (withGrant t (grantOf s o.tenant o.beacon x o.count)) ∧ Stores o.tenant
      (setBeacon (s.beacon o.tenant) o.beacon (granted (s.beacon o.tenant o.beacon) o.count)) (s.dropOp k) t := by
  obtain ⟨t, stored, run⟩ := applyWait_takes (s := s.dropOp k) first enough x (srcDie o.src, o.stamp)
  refine ⟨t, congrArg Host.Outcome.next ?_, stored⟩
  rw [beaconWait_applies here wait, run]
  exact replayRun_none (stored.replay.trans (live_of_opAt here))

theorem wait_queues {w : Waiter} (here : OpAt s k o) (wait : o.wait = some w)
    (late : (s.beacon o.tenant o.beacon).waiters ≠ [] ∨ (s.beacon o.tenant o.beacon).value.toNat < o.count.toNat) :
    ∃ t, exec (.beaconWait k) s = .next t ∧ Stores o.tenant
      (setBeacon (s.beacon o.tenant) o.beacon (plusWaiter (s.beacon o.tenant o.beacon) w o.count)) (s.dropOp k) t := by
  have stored := stores_queued (s.dropOp k) o.tenant o.beacon o.count w (srcDie o.src, o.stamp)
  refine ⟨_, congrArg Host.Outcome.next ?_, stored⟩
  rw [beaconWait_applies here wait, applyWait_waits (s := s.dropOp k) late, replayRun_none (stored.replay.trans (live_of_opAt here))]

end

/-! ## Grants at their tiles (R199, R202, R203) -/

section

variable {k : Nat} {g : Grant}

/-- The state without a grant that has arrived. -/
def withoutGrant (s : State) (k : Nat) : State := { s with net := { s.net with grants := s.net.grants.eraseIdx k } }

/-- A waiting tile has its grant, and its sequencer goes on. -/
def resumed (s : State) (x : Site) : State := (s.onTile x fun t => { t with seq := { t.seq with waiting := false } }).advance x false

theorem tile_resumed (s : State) (x : Site) : ((resumed s x).tile x).seq.waiting = false ∧
    ((resumed s x).tile x).seq.ip = (nextAddr (s.tile x).seq.ip (s.tile x).seq.loops).1 := by
  rw [resumed, State.advance, State.tile_onTile_self, State.tile_onTile_self]
  exact ⟨rfl, rfl⟩

theorem grant_resumes (there : s.net.grants[k]? = some g) (alive : s.alive = true) (current : (s.ctx g.tenant).gen = g.gen) :
    s.beaconGrant k = if (s.tile g.site).seq.waiting then resumed (withoutGrant s k) g.site else withoutGrant s k := by
  simp only [State.beaconGrant, there, alive, current, if_true, ne_eq, not_true_eq_false, if_false]
  rfl

theorem grant_completes (there : s.net.grants[k]? = some g) (alive : s.alive = true) (current : (s.ctx g.tenant).gen = g.gen) :
    ∃ t, exec (.beaconGrant k) s = .next t ∧ t.net.grants = s.net.grants.eraseIdx k ∧ (t.tile g.site).seq.waiting = false ∧
      ((s.tile g.site).seq.waiting = true → (t.tile g.site).seq.ip = (nextAddr (s.tile g.site).seq.ip (s.tile g.site).seq.loops).1) ∧
      (∀ y, y ≠ g.site → t.tile y = s.tile y) := by
  have run := grant_resumes there alive current
  cases waiting : (s.tile g.site).seq.waiting with
  | true =>
    obtain ⟨ready, ip⟩ := tile_resumed (withoutGrant s k) g.site
    refine ⟨_, congrArg Host.Outcome.next (run.trans (if_pos waiting)), rfl, ready, fun _ => ip, fun y other => ?_⟩
    exact (State.tile_onTile_other _ _ other).trans (State.tile_onTile_other _ _ other)
  | false =>
    exact ⟨_, congrArg Host.Outcome.next (run.trans (if_neg (by rw [waiting]; decide))), rfl, waiting, fun yes => absurd yes (by decide),
      fun _ _ => rfl⟩

theorem stale_grant_is_reported (there : s.net.grants[k]? = some g) (alive : s.alive = true) (ended : (s.ctx g.tenant).gen ≠ g.gen) :
    exec (.beaconGrant k) s = .next ((withoutGrant s k).logStale g.tenant g.beacon (siteSrc g.site) g.count.toNat g.gen) := by
  refine congrArg Host.Outcome.next ?_
  simp only [State.beaconGrant, there, alive, if_true, if_pos ended]
  rfl

end

theorem beaconsCountWaitAndGrant : BeaconsCountWaitAndGrant := by
  refine ⟨fun k s o here signal idle => ?_, fun k s o x n here signal waits enough => ?_, fun k s o x here wait first enough => ?_,
    fun k s o w here wait late => ?_, fun k s g there alive current => grant_completes there alive current,
    fun k s g there alive ended => stale_grant_is_reported there alive ended⟩
  · obtain ⟨t, run, stored⟩ := signal_is_counted here signal idle
    refine ⟨t, run, congrArg Net.ops stored.net, ?_, fun i other => ?_, stored.tiles⟩
    · rw [stored.beacons, setBeacon_self, plusCount]
    · rw [stored.beacons, setBeacon_other _ _ other]
  · obtain ⟨t, run, stored⟩ := signal_grants here signal waits enough
    have beacon : t.beacon o.tenant o.beacon = granted (plusCount (s.beacon o.tenant o.beacon) o.count.toNat) n := by
      rw [stored.beacons, setBeacon_self]
    refine ⟨_, run, congrArg Beacon.waiters beacon, congrArg Beacon.value beacon, ?_⟩
    exact congrArg (· ++ [grantOf s o.tenant o.beacon x n]) (grants_of_dropOp stored)
  · obtain ⟨t, run, stored⟩ := wait_takes here wait first enough
    have beacon : t.beacon o.tenant o.beacon = granted (s.beacon o.tenant o.beacon) o.count := by rw [stored.beacons, setBeacon_self]
    refine ⟨_, run, congrArg Net.ops stored.net, congrArg Beacon.waiters beacon, congrArg Beacon.value beacon, ?_⟩
    exact congrArg (· ++ [grantOf s o.tenant o.beacon x o.count]) (grants_of_dropOp stored)
  · obtain ⟨t, run, stored⟩ := wait_queues here wait late
    have beacon : t.beacon o.tenant o.beacon = plusWaiter (s.beacon o.tenant o.beacon) w o.count := by
      rw [stored.beacons, setBeacon_self]
    exact ⟨t, run, by rw [beacon, plusWaiter], by rw [beacon, plusWaiter], grants_of_dropOp stored⟩

/-! ## Doorbells (R201) -/

/-- The state in which the doorbell's event has arisen. -/
def rung (s : State) (c : Tenant) : State := s.doorbellEvent (s.fnPort (.vf c))

theorem stores_rung (s : State) (c : Tenant) : Stores c (s.beacon c) s (rung s c) := (stores_refl c s).quiet ⟨rfl, fun _ => rfl⟩

/-- Where and when a doorbell's operation arises. -/
def rungAt (s : State) (c : Tenant) : Nat × DWord := (portDie (s.fnPort (.vf c)), (rung s c).localGts (portDie (s.fnPort (.vf c))))

theorem doorbell_applies {v : DWord} {op : Nat} (ok : DoorbellOk s c v op) (known : op ≤ 1) :
    s.beaconDoorbell (.vf c) c 8 v op =
      if op = opSignal then (rung s c).applySignal c (dbBeacon v) (bitsOf v 0 16) hostSrc (rungAt s c)
      else (rung s c).applyTake c (dbBeacon v) (bitsOf v 0 16) hostSrc (rungAt s c) := by
  obtain ⟨fn, isOpen, closing, live, high, operation, count⟩ := ok
  have quiet : (rung s c).replaying c = false := replaying_none live
  have still : (rung s c).ctx c = s.ctx c := rfl
  unfold rung at quiet still
  simp [State.beaconDoorbell, ownPage, fn, high, operation, known, Nat.not_lt.mpr known, count, still, isOpen, closing, quiet, rung, rungAt, dbBeacon]

theorem doorbell_signals {v : DWord} (ok : DoorbellOk s c v 0) (idle : (s.beacon c (dbBeacon v)).waiters = []) :
    ∃ u, exec (.doorbellSignal (.vf c) c 8 v) s = .next u ∧ Stores c
      (setBeacon (s.beacon c) (dbBeacon v) (plusCount (s.beacon c (dbBeacon v)) (bitsOf v 0 16))) s u := by
  have stored := stores_signalled (rung s c) c (dbBeacon v) (bitsOf v 0 16) hostSrc (rungAt s c)
  refine ⟨_, congrArg Host.Outcome.next ?_, (stores_rung s c).trans stored⟩
  rw [doorbell_applies ok (by decide), if_pos (show 0 = opSignal from rfl), applySignal_no_waiter (s := rung s c) idle]

/-- A beacon from whose VALUE a TAKE has taken its COUNT. -/
def minusCount (b : Beacon) (count : Nat) : Beacon := { b with value := b.value - BitVec.ofNat 32 count }

theorem doorbell_takes {v : DWord} (ok : DoorbellOk s c v 1) (idle : (s.beacon c (dbBeacon v)).waiters = [])
    (enough : bitsOf v 0 16 ≤ (s.beacon c (dbBeacon v)).value.toNat) :
    ∃ u, exec (.doorbellTake (.vf c) c 8 v) s = .next u ∧ Stores c
      (setBeacon (s.beacon c) (dbBeacon v) (minusCount (s.beacon c (dbBeacon v)) (bitsOf v 0 16))) s u := by
  have stored := ((stores_rung s c).onBeacon (dbBeacon v) fun b => minusCount b (bitsOf v 0 16)).recordOp (dbBeacon v) opTake (bitsOf v 0 16)
    hostSrc (rungAt s c)
  have now : (((rung s c).beacon c (dbBeacon v)).waiters.isEmpty &&
      decide (bitsOf v 0 16 ≤ ((rung s c).beacon c (dbBeacon v)).value.toNat)) = true := by
    rw [(stores_rung s c).beacons, idle, decide_eq_true enough]
    rfl
  refine ⟨_, congrArg Host.Outcome.next ?_, stored⟩
  rw [doorbell_applies ok (by decide), if_neg (by decide)]
  exact if_pos now

theorem doorbell_misses {v : DWord} (ok : DoorbellOk s c v 1) (short : (s.beacon c (dbBeacon v)).value.toNat < bitsOf v 0 16) :
    ∃ u, exec (.doorbellTake (.vf c) c 8 v) s = .next u ∧ u.ctxs = s.ctxs := by
  have misses : ¬ (((rung s c).beacon c (dbBeacon v)).waiters.isEmpty &&
      decide (bitsOf v 0 16 ≤ ((rung s c).beacon c (dbBeacon v)).value.toNat)) = true := by
    rw [(stores_rung s c).beacons, decide_eq_false (Nat.not_le.mpr short), Bool.and_false]
    decide
  exact ⟨_, congrArg Host.Outcome.next ((doorbell_applies ok (by decide)).trans ((if_neg (by decide)).trans (if_neg misses))), rfl⟩

/-! ## Pending notifications (R310) -/

/-- A context that has handed over its first pending notification. -/
def noteTaken (s : State) (c : Tenant) (ns : List Note) : State := s.onCtx c fun k => { k with notes := ns }

theorem noteTaken_ctx (s : State) (c : Tenant) (ns : List Note) : (noteTaken s c ns).ctx c = { s.ctx c with notes := ns } :=
  s.ctx_onCtx_self c _

theorem room_of_freeEntries (free : 0 < s.freeEntries (.ctx c)) : (s.ctx c).ccq.enable = true ∧ (s.ctx c).ccq.count < (s.ctx c).ccq.size := by
  unfold State.freeEntries at free
  have room : 0 < if (s.ctx c).ccq.enable = true then (s.ctx c).ccq.size - (s.ctx c).ccq.count - s.reserved (.ctx c) else 0 := free
  split at room
  · next on => exact ⟨on, by omega⟩
  · omega

theorem notification_takes_an_entry {n : Note} {ns : List Note} (notes : (s.ctx c).notes = n :: ns) (alive : s.alive = true)
    (free : 0 < s.freeEntries (.ctx c)) (safe : s.host.safePending = false) :
    ∃ u, exec (.pendingNotification c) s = .next u ∧ (u.ctx c).notes = ns ∧ (u.ctx c).ccq.prod = (s.ctx c).ccq.prod + 1 ∧
      Memory.read u.host.mem ((s.ctx c).ccq.addr (s.ctx c).ccq.prod 32) 32 =
        completionEntry 0 1 (s.ctx c).ccq.phase n.beacon.toNat n.gts stewardSrc 0 0 n.value.toNat := by
  obtain ⟨on, room⟩ := room_of_freeEntries free
  have ring : (noteTaken s c ns).ring (.ccq c) = (s.ctx c).ccq := by rw [State.ring, noteTaken_ctx]
  have run : s.pendingNotification c = (noteTaken s c ns).noteEntry c n := by
    simp only [State.pendingNotification, notes, alive, free, safe, decide_true, Bool.not_false, Bool.and_self, if_true]
    rfl
  have entry : (noteTaken s c ns).noteEntry c n = (noteTaken s c ns).ringWrite (complSel (.ctx c))
      (completionEntry 0 1 (s.ctx c).ccq.phase n.beacon.toNat n.gts stewardSrc 0 0 n.value.toNat) := by
    rw [State.noteEntry, ring]
    rfl
  obtain ⟨prod, bytes⟩ := ringWrite_with_room (s := noteTaken s c ns) (r := .ccq c)
    (completionEntry 0 1 (s.ctx c).ccq.phase n.beacon.toNat n.gts stewardSrc 0 0 n.value.toNat) (by rw [ring, on]) (by rw [ring]; exact room)
  obtain ⟨-, kept⟩ := quiet_ringWrite_complSel (noteTaken s c ns) (.ctx c)
    (completionEntry 0 1 (s.ctx c).ccq.phase n.beacon.toNat n.gts stewardSrc 0 0 n.value.toNat)
  have taken : ((noteTaken s c ns).ctx c).notes = ns := by rw [noteTaken_ctx]
  rw [ring] at prod bytes
  rw [completionEntry_length] at bytes
  exact ⟨_, congrArg Host.Outcome.next (run.trans entry), (congrArg Context.notes (kept c)).trans taken, prod, bytes⟩

theorem doorbellsSignalAndTake : DoorbellsSignalAndTake := by
  refine ⟨fun c s v ok idle => ?_, fun c s v ok idle enough => ?_, fun c s v ok short => doorbell_misses ok short,
    fun c s n ns notes alive free safe => notification_takes_an_entry notes alive free safe⟩
  · obtain ⟨u, run, stored⟩ := doorbell_signals ok idle
    refine ⟨u, run, ?_, fun i other => ?_⟩
    · rw [stored.beacons, setBeacon_self, plusCount]
    · rw [stored.beacons, setBeacon_other _ _ other]
  · obtain ⟨u, run, stored⟩ := doorbell_takes ok idle enough
    refine ⟨u, run, ?_, fun i other => ?_⟩
    · rw [stored.beacons, setBeacon_self, minusCount]
    · rw [stored.beacons, setBeacon_other _ _ other]

/-- Settles O17: each operation by what it makes of the beacons of its context, with the grant that leaves for a tile. -/
theorem beaconsAndTheirDoorbells : Obligations.BeaconsAndTheirDoorbells := ⟨beaconsCountWaitAndGrant, doorbellsSignalAndTake⟩

end Sys2Proof.Proofs
end

section
/-! PROOFS. Pacer ticks: the weight that a tick records, within its bounds, and what it leaves unchanged (R233, R234, R238 to R241). -/

namespace Sys2Proof.Proofs

open Sys2Proof Sys2Proof.Machine Sys2Proof.Claims

variable {s z : State} {d : FieldDie} {r : Fin 3} {t : Tenant} {b : Byte}

/-! ## The weight of a tick (R238, R241) -/

section

variable (p : PaceRegion) {a c want : Nat}

theorem lo_le_weigh : (p.bounds a c).1 ≤ p.weigh a c want := by
  unfold PaceRegion.weigh
  dsimp only
  split
  · exact Nat.le_refl _
  · exact Nat.le_max_left _ _

theorem weigh_le_hi (ordered : (p.bounds a c).1 ≤ (p.bounds a c).2) : p.weigh a c want ≤ (p.bounds a c).2 := by
  unfold PaceRegion.weigh
  dsimp only
  split
  · exact ordered
  · exact Nat.max_le.mpr ⟨ordered, Nat.min_le_right _ _⟩

theorem weigh_within (low : (p.bounds a c).1 ≤ want) (high : want ≤ (p.bounds a c).2) : p.weigh a c want = want := by
  unfold PaceRegion.weigh
  dsimp only
  split
  · next tight => exact Nat.le_antisymm low (Nat.le_trans high tight)
  · rw [Nat.min_eq_left high, Nat.max_eq_right low]

/-- Under a ceiling of zero a tick weighs lo. -/
theorem weigh_without_ceiling : p.weigh a 0 want = (p.bounds a 0).1 := by
  have ceiling : (p.bounds a 0).2 ≤ (p.bounds a 0).1 := Nat.le_trans (Nat.min_le_left _ _) (Nat.zero_le _)
  rw [PaceRegion.weigh]
  exact if_pos ceiling

end

/-! ## The records of the regions -/

theorem pace_onPace_self (s : State) (d : Nat) (r : Fin 3) (f : PaceRegion → PaceRegion) : (s.onPace d r f).pace d r = f (s.pace d r) :=
  Map.get_upd_self _ _ _ _

theorem pace_onPace_other (s : State) {d e : Nat} {r q : Fin 3} (f : PaceRegion → PaceRegion) (other : e ≠ d ∨ q ≠ r) :
    (s.onPace d r f).pace e q = s.pace e q :=
  Map.get_upd_other _ _ _ fun same => by
    have die : e = d := by omega
    have region : q = r := Fin.ext (by omega)
    exact other.elim (fun h => h die) fun h => h region

/-- Two states have the same records and the same tiles. -/
def SamePace (s z : State) : Prop := z.power.pace = s.power.pace ∧ z.tiles = s.tiles

theorem SamePace.pace (same : SamePace s z) (e : Nat) (q : Fin 3) : z.pace e q = s.pace e q := by
  rw [State.pace, same.1, State.pace]

namespace SamePace

theorem refl (s : State) : SamePace s s := ⟨rfl, rfl⟩

theorem ite {c : Prop} [Decidable c] {x y : State} (yes : SamePace s x) (no : SamePace s y) : SamePace s (if c then x else y) := by
  split
  · exact yes
  · exact no

theorem countBallast (same : SamePace s z) (d : Nat) : SamePace s (z.countBallast d) := same

theorem countHold (same : SamePace s z) (m : Map Word) : SamePace s { z with power := { z.power with hold := m } } := same

theorem logPacerSeal (same : SamePace s z) (t : Tenant) (d n : Nat) : SamePace s (z.logPacerSeal t d n) := same

theorem pacerSeal (same : SamePace s z) (t : Tenant) (d : Nat) : SamePace s (z.pacerSeal t d) := by
  unfold State.pacerSeal State.assertSealInst
  split
  · exact ite same ⟨by rw [State.onInst_power, same.1], by rw [State.onInst_tiles, same.2]⟩
  · exact same

end SamePace

/-! ## A tick of a held region (R238 to R241) -/

/-- The ceiling of the layout that runs in a tenant's region of a die; zero where none runs. -/
def regionCeiling (s : State) (t : Tenant) (d : Nat) : Nat := match s.instOn t d with | some i => s.ceiling i d | none => 0

/-- Whether the tick holds its region at hi. -/
def tickHolds (s : State) (d : Nat) (r : Fin 3) (t : Tenant) : Bool :=
  decide ((paceBounds s d r t).2 < s.paceWant d r) || decide ((paceBounds s d r t).2 < (paceBounds s d r t).1)

/-- What a tick of a held region makes of its record. -/
def heldRecord (s : State) (d : Nat) (r : Fin 3) (t : Tenant) (p : PaceRegion) : PaceRegion :=
  { p.push (p.weigh (s.allowance d r) (regionCeiling s t d) (s.paceWant d r)) (s.allowance d r) s.clk.fclk with
    holding := tickHolds s d r t, holdAll := decide (regionCeiling s t d < (paceBounds s d r t).1),
    heldTicks := if tickHolds s d r t then p.heldTicks + 1 else 0 }

/-- The counts of ballast and of holds, the seal stall and its log entry come before the record and leave the records and the tiles as they are. -/
theorem paceRegionTick_records (s : State) (d : Nat) (r : Fin 3) (t : Tenant) :
    ∃ z, SamePace s z ∧ s.paceRegionTick d r t = z.onPace d r (heldRecord s d r t) := by
  refine ⟨_, .ite (.pacerSeal ?counted _ _) (.ite (.logPacerSeal ?counted _ _ _) ?counted), rfl⟩
  refine .ite (.countHold ?ballast _) ?ballast
  exact .ite (SamePace.refl s |>.countBallast d) (.refl s)

/-- A tick of a free region weighs under a ceiling of zero, with the allowance that the region had (R228, R239). -/
theorem paceFreeTick_records (s : State) (d : Nat) (r : Fin 3) :
    ∃ z, SamePace s z ∧ s.paceFreeTick d r = z.onPace d r fun p =>
      { p.push ((s.pace d r).weigh (s.pace d r).allow 0 (s.paceWant d r)) p.allow s.clk.fclk with
        holding := false, holdAll := false, heldTicks := 0 } :=
  ⟨_, .ite (SamePace.refl s |>.countBallast d) (.refl s), rfl⟩

/-! ## Which tick a row does -/

/-- The tick of a region, where the row names it. -/
def tickIf (d : Nat) (r : Fin 3) (named : Bool) (s : State) : State := if named then s.pacerTick d r else s

/-- A row does its ticks one after the other. -/
theorem exec_pacerTick (d : FieldDie) (first second base : Bool) (s : State) :
    exec (.pacerTick d first second base) s = .next (tickIf d 2 base (tickIf d 1 second (tickIf d 0 first s))) := by
  cases first <;> cases second <;> cases base <;> rfl

theorem exec_tickRow (d : FieldDie) (r : Fin 3) (s : State) : exec (tickRow d r) s = .next (s.pacerTick d.val r) := by
  rw [tickRow, exec_pacerTick]
  match r with
  | 0 => rfl
  | 1 => rfl
  | 2 => rfl

theorem pacerTick_early (early : s.tickDue d r = false) : s.pacerTick d r = s := by
  simp [State.pacerTick, early]

theorem pacerTick_held (alive : s.alive = true) (due : s.tickDue d r = true) (held : s.regionOf d r = some (t, b)) :
    s.pacerTick d r = s.paceRegionTick d r t := by
  have numbered : r ≠ 2 := by
    rintro rfl
    cases held
  simp [State.pacerTick, alive, due, held, numbered]

theorem pacerTick_free (alive : s.alive = true) (due : s.tickDue d r = true) (numbered : r ≠ 2) (free : s.regionOf d r = none) :
    s.pacerTick d r = s.paceFreeTick d r := by
  simp [State.pacerTick, alive, due, free, numbered]

theorem pacerTick_base (alive : s.alive = true) (due : s.tickDue d 2 = true) : s.pacerTick d 2 = s.paceBaseTick d := by
  simp [State.pacerTick, alive, due]

/-! ## The bounds of each tick -/

theorem held_tick_keeps_its_bounds (alive : s.alive = true) (due : s.tickDue d r = true) (held : s.regionOf d r = some (t, b)) :
    ∃ u w, exec (tickRow d r) s = .next u ∧ (u.pace d r).weights = (w :: (s.pace d r).weights).take 31 ∧ (u.pace d r).since = s.clk.fclk ∧
      (paceBounds s d r t).1 ≤ w ∧ ((paceBounds s d r t).1 ≤ (paceBounds s d r t).2 → w ≤ (paceBounds s d r t).2) ∧
      ((paceBounds s d r t).1 ≤ s.paceWant d r → s.paceWant d r ≤ (paceBounds s d r t).2 →
        w = s.paceWant d r ∧ (u.pace d r).holding = false) ∧
      ((paceBounds s d r t).2 < s.paceWant d r → (u.pace d r).holding = true) ∧
      (∀ e q, e ≠ d.val ∨ q ≠ r → u.pace e q = s.pace e q) ∧ u.tiles = s.tiles := by
  obtain ⟨z, same, tick⟩ := paceRegionTick_records s d r t
  have record : (z.onPace d r (heldRecord s d r t)).pace d r = heldRecord s d r t (s.pace d r) := by
    rw [pace_onPace_self, same.pace]
  refine ⟨z.onPace d r (heldRecord s d r t), _, ?_, by rw [record]; rfl, by rw [record]; rfl, lo_le_weigh _, weigh_le_hi _,
    fun low high => ⟨weigh_within _ low high, ?_⟩, fun above => ?_, fun e q other => ?_, same.2⟩
  · rw [exec_tickRow, pacerTick_held alive due held, tick]
  · rw [record]
    simp [heldRecord, tickHolds, high, Nat.le_trans low high]
  · rw [record]
    simp [heldRecord, tickHolds, above]
  · rw [pace_onPace_other z _ other, same.pace]

theorem base_tick_keeps_its_bounds (alive : s.alive = true) (due : s.tickDue d 2 = true) :
    ∃ u w, exec (tickRow d 2) s = .next u ∧ (u.pace d 2).weights = (w :: (s.pace d 2).weights).take 31 ∧
      (let b := (s.pace d 2).bounds 160 960
       b.1 ≤ w ∧ (b.1 ≤ b.2 → w ≤ b.2) ∧ (b.1 ≤ s.baseWeight d → s.baseWeight d ≤ b.2 → w = s.baseWeight d)) ∧ u.tiles = s.tiles := by
  refine ⟨s.paceBaseTick d, (s.pace d 2).weigh 160 960 (s.baseWeight d), ?_, ?_, ⟨lo_le_weigh _, weigh_le_hi _, weigh_within _⟩, rfl⟩
  · rw [exec_tickRow, pacerTick_base alive due]
  · rw [State.paceBaseTick, pace_onPace_self]
    rfl

theorem free_tick_decays (alive : s.alive = true) (due : s.tickDue d r = true) (numbered : r ≠ 2) (free : s.regionOf d r = none) :
    ∃ u, exec (tickRow d r) s = .next u ∧ (u.pace d r).holding = false ∧
      (u.pace d r).weights = (((s.pace d r).bounds (s.pace d r).allow 0).1 :: (s.pace d r).weights).take 31 := by
  obtain ⟨z, same, tick⟩ := paceFreeTick_records s d r
  refine ⟨s.paceFreeTick d r, ?_, ?_, ?_⟩
  · rw [exec_tickRow, pacerTick_free alive due numbered free]
  · rw [tick, pace_onPace_self]
  · rw [tick, pace_onPace_self, same.pace, weigh_without_ceiling]
    rfl

theorem ticks_follow_each_other (d : FieldDie) (a b c : Bool) (s : State) :
    ∃ u v, exec (.pacerTick d a false false) s = .next u ∧ exec (.pacerTick d false b false) u = .next v ∧
      exec (.pacerTick d a b c) s = exec (.pacerTick d false false c) v :=
  ⟨tickIf d 0 a s, tickIf d 1 b (tickIf d 0 a s), exec_pacerTick .., exec_pacerTick ..,
    (exec_pacerTick d a b c s).trans (exec_pacerTick d false false c _).symm⟩

/-- Settles O24: each tick by the record it writes, whose weight keeps the bounds of its region. -/
theorem pacerTicksKeepTheirBounds : Obligations.PacerTicksKeepTheirBounds :=
  ⟨fun _ _ _ _ _ alive due held => held_tick_keeps_its_bounds alive due held, fun _ _ alive due => base_tick_keeps_its_bounds alive due,
    fun _ _ _ alive due numbered free _ => free_tick_decays alive due numbered free,
    fun d r s early => by rw [exec_tickRow, pacerTick_early early], ticks_follow_each_other⟩

end Sys2Proof.Proofs
end

section
/-! PROOFS. Dies: the power step that each takes, the packets that the end of a drain returns, and what goes with a die's power (R242, R246, R248,
R249). -/

namespace Sys2Proof.Proofs

open Sys2Proof Sys2Proof.Machine Sys2Proof.Claims

variable {s : State}

/-! ## Power steps (R242) -/

theorem onlyDie_onDie (s : State) (d : Nat) (f : DiePower → DiePower) : OnlyDie d s (s.onDie d f) :=
  ⟨rfl, fun _ other => s.die_onDie_other f other⟩

/-- In the descent no die takes a step before the tile weight of every field die is zero. -/
def DescentMay (s : State) : Prop := s.power.descent = true → ∀ e, e < 16 → s.tilesQuiet e = true

theorem descentMay_of_no_descent (none : s.power.descent = false) : DescentMay s := fun descent => by
  rw [none] at descent
  cases descent

/-- A die that may take a step takes the one it has to take, and stays as it is where there is none. -/
theorem powerStep_cases {d : Nat} (may : StepMay s d) (descent : DescentMay s) :
    s.nextPower d (s.die d) = s.die d ∧ s.powerStep d = s ∨
      s.nextPower d (s.die d) ≠ s.die d ∧
        s.powerStep d = s.onDie d fun _ => { s.nextPower d (s.die d) with lastStep := some s.clk.gts } := by
  obtain ⟨alive, due, quiet⟩ := may
  have passes : ¬ ((!s.alive || !s.stepDue d || !s.tilesQuiet d ||
      (s.power.descent && !(List.range 16).all fun e => s.tilesQuiet e)) = true) := by
    simpa [alive, due, quiet, DescentMay] using descent
  unfold State.powerStep
  rw [if_neg passes]
  dsimp only
  split
  · next stays => exact .inl ⟨stays, rfl⟩
  · next moves => exact .inr ⟨moves, rfl⟩

/-- A die with a step to take takes it, now. -/
theorem powerStep_moves {d : Die} {p : DiePower} (may : StepMay s d.val) (descent : DescentMay s) (next : s.nextPower d.val (s.die d.val) = p)
    (moves : p ≠ s.die d.val) :
    ∃ t, exec (.powerStep d) s = .next t ∧ OnlyDie d.val s t ∧ t.die d.val = { p with lastStep := some s.clk.gts } := by
  subst next
  obtain ⟨stays, -⟩ | ⟨-, run⟩ := powerStep_cases may descent
  · exact absurd stays moves
  · exact ⟨_, congrArg Host.Outcome.next run, onlyDie_onDie _ _ _, s.die_onDie_self _ _⟩

theorem ne_of_steps {p q : DiePower} (differ : p.steps ≠ q.steps) : p ≠ q := fun same => differ (congrArg DiePower.steps same)

theorem gate_last {p : DiePower} {now : DWord} (last : p.steps = 1) :
    p.gate now = { p with steps := 0, state := .gated, gatedSince := some now } := by
  simp [DiePower.gate, last]

theorem gate_steps {p : DiePower} {now : DWord} (left : 0 < p.steps) : (p.gate now).steps = p.steps - 1 := by
  obtain more | last : 1 < p.steps ∨ p.steps = 1 := by omega
  · rw [DiePower.gate, if_pos more]
  · rw [gate_last last, last]

theorem gate_stages (p : DiePower) (now : DWord) : (p.gate now).stages = p.stages := by
  unfold DiePower.gate
  split
  · rfl
  · split <;> rfl

theorem idle_die_gates {d : Die} (may : StepMay s d.val) (normal : s.power.descent = false) (on : (s.die d.val).state = .on) (field : d.val < 16)
    (idle : s.stepsOn d.val = false) (left : 0 < (s.die d.val).steps) :
    ∃ t, exec (.powerStep d) s = .next t ∧ OnlyDie d.val s t ∧ (t.die d.val).steps = (s.die d.val).steps - 1 ∧
      (t.die d.val).stages = (s.die d.val).stages ∧ (t.die d.val).lastStep = some s.clk.gts ∧
      ((s.die d.val).steps = 1 → (t.die d.val).state = .gated ∧ (t.die d.val).gatedSince = some s.clk.gts) := by
  have next : s.nextPower d.val (s.die d.val) = (s.die d.val).gate s.clk.gts := by
    simp [State.nextPower, normal, on, field, idle]
  obtain ⟨t, run, only, die⟩ := powerStep_moves may (descentMay_of_no_descent normal) next
    (ne_of_steps (by rw [gate_steps left]; exact Nat.ne_of_lt (Nat.sub_one_lt_of_lt left)))
  refine ⟨t, run, only, ?_, ?_, by rw [die], fun last => ?_⟩
  · rw [die]
    exact gate_steps left
  · rw [die]
    exact gate_stages _ _
  · rw [die, gate_last last]
    exact ⟨rfl, rfl⟩

theorem used_die_ungates {d : Die} (may : StepMay s d.val) (normal : s.power.descent = false) (gated : (s.die d.val).state = .gated)
    (used : s.stepsOn d.val = true) (closed : (s.die d.val).stages = 2) (below : (s.die d.val).steps < 8) :
    ∃ t, exec (.powerStep d) s = .next t ∧ OnlyDie d.val s t ∧ (t.die d.val).steps = (s.die d.val).steps + 1 ∧
      (t.die d.val).state = (if (s.die d.val).steps = 7 then .on else .gated) := by
  have next : s.nextPower d.val (s.die d.val) =
      { s.die d.val with steps := (s.die d.val).steps + 1, state := if (s.die d.val).steps = 7 then .on else .gated, gatedSince := none } := by
    simp [State.nextPower, DiePower.ungate, normal, gated, used, closed, below]
  obtain ⟨t, run, only, die⟩ := powerStep_moves may (descentMay_of_no_descent normal) next (ne_of_steps (Nat.succ_ne_self _))
  exact ⟨t, run, only, by rw [die], by rw [die]⟩

theorem steps_add_stages_opened (p : DiePower) : p.opened.steps + p.opened.stages = p.steps + p.stages - 1 := by
  unfold DiePower.opened
  split <;> dsimp only <;> omega

theorem opened_stages {p : DiePower} (left : 0 < p.steps) : p.opened.stages = p.stages := by
  rw [DiePower.opened, if_pos left]

theorem die_opens {d : Die} (may : StepMay s d.val)
    (opens : s.power.descent = true ∧ (∀ e, e < 16 → s.tilesQuiet e = true) ∨
      s.power.descent = false ∧ (s.die d.val).state = .closing ∧ (s.die d.val).drained = true) :
    ∃ t, exec (.powerStep d) s = .next t ∧ OnlyDie d.val s t ∧
      (t.die d.val).steps + (t.die d.val).stages = (s.die d.val).steps + (s.die d.val).stages - 1 ∧
      (0 < (s.die d.val).steps → (t.die d.val).stages = (s.die d.val).stages) := by
  have ⟨descent, next⟩ : DescentMay s ∧ s.nextPower d.val (s.die d.val) = (s.die d.val).opened := by
    obtain ⟨descent, quiet⟩ | ⟨normal, closing, drained⟩ := opens
    · exact ⟨fun _ => quiet, by simp [State.nextPower, descent]⟩
    · exact ⟨descentMay_of_no_descent normal, by simp [State.nextPower, normal, closing, drained]⟩
  have total := steps_add_stages_opened (s.die d.val)
  have stages (left : 0 < (s.die d.val).steps) := opened_stages left
  obtain ⟨stays, run⟩ | ⟨moves, -⟩ := powerStep_cases may descent
  · rw [← next, stays] at total
    exact ⟨s, congrArg Host.Outcome.next run, ⟨rfl, fun _ _ => rfl⟩, total, fun _ => rfl⟩
  · rw [next] at moves
    obtain ⟨t, run, only, die⟩ := powerStep_moves may descent next moves
    exact ⟨t, run, only, by rw [die]; exact total, by rw [die]; exact stages⟩

theorem powerStepsMoveOneDie : PowerStepsMoveOneDie :=
  ⟨fun _ _ may normal on field idle left => idle_die_gates may normal on field idle left,
    fun _ _ may normal gated used closed below => used_die_ungates may normal gated used closed below,
    fun _ _ may opens => die_opens may opens⟩

/-! ## The end of a drain (R248, R249) -/

/-- What becomes of a packet at the end of a die's drain: an untaken one returns as a NAK, a response does not; every other stays. -/
def afterDrain (s : State) (d : Nat) (p : Packet) : List Packet :=
  if placeDie p.place = some d && p.head.destDie.toNat = d then
    if p.head.kind = 4 then [] else [nakOf p (srcOf d p.head.destUnit.toNat) (s.answerPlace p.place) E_DOMAIN_CLOSED]
  else [p]

theorem afterDrain_request {d : Nat} {p : Packet} (here : placeDie p.place = some d) (dest : p.head.destDie.toNat = d) (request : p.head.kind ≠ 4) :
    afterDrain s d p = [nakOf p (srcOf d p.head.destUnit.toNat) (s.answerPlace p.place) E_DOMAIN_CLOSED] := by
  rw [afterDrain, if_pos (by simp [here, dest]), if_neg request]

theorem afterDrain_other {d : Nat} {p : Packet} (other : ¬ (placeDie p.place = some d ∧ p.head.destDie.toNat = d)) : afterDrain s d p = [p] := by
  simp [afterDrain, other]

theorem returnPacket_packets (s : State) (d : Nat) (a : List Packet × State) (p : Packet) : (s.returnPacket d a p).1 = a.1 ++ afterDrain s d p := by
  unfold State.returnPacket afterDrain
  split
  · split
    · exact (List.append_nil _).symm
    · rfl
  · rfl

theorem returnPacket_die (s : State) (d : Nat) (a : List Packet × State) (p : Packet) (e : Nat) : (s.returnPacket d a p).2.die e = a.2.die e := by
  unfold State.returnPacket
  split
  · split <;> rfl
  · rfl

theorem foldl_returnPacket_packets (s : State) (d : Nat) (l : List Packet) (a : List Packet × State) :
    (l.foldl (s.returnPacket d) a).1 = a.1 ++ l.flatMap (afterDrain s d) := by
  induction l generalizing a with
  | nil => exact (List.append_nil _).symm
  | cons p l ih => rw [List.foldl_cons, ih, returnPacket_packets, List.append_assoc, List.flatMap_cons]

theorem foldl_returnPacket_die (s : State) (d : Nat) (l : List Packet) (a : List Packet × State) (e : Nat) :
    (l.foldl (s.returnPacket d) a).2.die e = a.2.die e :=
  List.foldlRecOn (motive := fun b => b.2.die e = a.2.die e) l (s.returnPacket d) rfl fun b same p _ => (returnPacket_die s d b p e).trans same

theorem drainEnd_of_field {d : Nat} (field : d < 16) (alive : s.alive = true) (closing : (s.die d).state = .closing)
    (undrained : (s.die d).drained = false) (late : (s.die d).closingAt.toNat + 2000 ≤ s.clk.gts.toNat) :
    (s.drainEnd d).die d = { s.die d with drained := true } ∧ (s.drainEnd d).net.flow = s.net.flow.flatMap (afterDrain s d) := by
  have run : s.drainEnd d =
      ({ (s.net.flow.foldl (s.returnPacket d) ([], s)).2 with
          net := { (s.net.flow.foldl (s.returnPacket d) ([], s)).2.net with
            flow := (s.net.flow.foldl (s.returnPacket d) ([], s)).1 } } : State).onDie d fun p => { p with drained := true } := by
    simp [State.drainEnd, alive, closing, undrained, Nat.not_lt.mpr late, Nat.not_le.mpr field]
  rw [run, State.die_onDie_self]
  exact ⟨congrArg (fun p : DiePower => { p with drained := true }) (foldl_returnPacket_die s d _ _ d), foldl_returnPacket_packets s d _ _⟩

theorem drain_ends {d : Die} (field : d.val < 16) (alive : s.alive = true) (closing : (s.die d.val).state = .closing)
    (undrained : (s.die d.val).drained = false) (late : (s.die d.val).closingAt.toNat + 2000 ≤ s.clk.gts.toNat) :
    ∃ t, exec (.drainEnd d) s = .next t ∧ (t.die d.val).drained = true ∧ (t.die d.val).state = .closing ∧
      (∀ p ∈ s.net.flow, ¬ (placeDie p.place = some d.val ∧ p.head.destDie.toNat = d.val) → p ∈ t.net.flow) ∧
      (∀ p ∈ s.net.flow, placeDie p.place = some d.val → p.head.destDie.toNat = d.val → p.head.kind ≠ 4 →
        ∃ q ∈ t.net.flow, ∃ n, q.body = .nak n ∧ n.code = E_DOMAIN_CLOSED ∧ q.head.destDie = BitVec.ofNat 6 (p.head.src.toNat / 1024) ∧
          q.head.destUnit = BitVec.ofNat 10 (p.head.src.toNat % 1024) ∧ q.head.tag = p.head.tag) := by
  obtain ⟨die, flow⟩ := drainEnd_of_field field alive closing undrained late
  refine ⟨s.drainEnd d.val, rfl, by rw [die], by rw [die, closing], fun p there taken => ?_, fun p there here dest request => ?_⟩
  · rw [flow]
    exact List.mem_flatMap.mpr ⟨p, there, by rw [afterDrain_other taken]; exact List.mem_singleton_self p⟩
  · rw [flow]
    refine ⟨nakOf p (srcOf d.val p.head.destUnit.toNat) (s.answerPlace p.place) E_DOMAIN_CLOSED, List.mem_flatMap.mpr ⟨p, there, ?_⟩,
      _, rfl, rfl, rfl, rfl, rfl⟩
    rw [afterDrain_request here dest request]
    exact List.mem_singleton_self _

/-! ## The tiles of a die -/

/-- A part of the state that every step of a fold keeps is the same after it. -/
theorem part_foldl {α β : Type} {part : State → β} {g : State → α → State} (each : ∀ a x, part (g a x) = part a) (l : List α) (s : State) :
    part (l.foldl g s) = part s :=
  List.foldlRecOn (motive := fun a => part a = part s) l g rfl fun a same x _ => (each a x).trans same

theorem siteOfKey_siteKey (x : Site) : siteOfKey (siteKey x) = x := by
  obtain ⟨d, c, r⟩ := x
  simp only [siteOfKey, siteKey, siteUnit, Site.mk.injEq, Fin.ext_iff, Fin.val_ofNat]
  omega

theorem mem_sitesOf {d : Nat} {x : Site} : x ∈ sitesOf d ↔ x.die.val = d := by
  unfold sitesOf
  split
  · next field =>
    simp only [dieSites, List.mem_map, List.mem_range]
    constructor
    · rintro ⟨u, inside, rfl⟩
      simp only [siteOfKey, Fin.val_ofNat]
      omega
    · rintro rfl
      exact ⟨siteUnit x, by unfold siteUnit; omega, siteOfKey_siteKey x⟩
  · next beyond =>
    simp only [List.not_mem_nil, false_iff]
    omega

theorem swapPins_keeps {β : Type} {part : State → β} (pins : ∀ a n f, part (State.onPin a n f) = part a) (s : State) (x : Site)
    (old new : List Word) : part (s.swapPins x old new) = part s := by
  unfold State.swapPins
  split
  · rfl
  · refine (part_foldl (fun a w => pins ..) _ _).trans (part_foldl (fun a w => ?_) _ _)
    split
    · rfl
    · exact pins ..

/-- A tile of a site as it is parked outside any section. -/
def parkedTile (s : State) (x : Site) (t : Tile) : Tile := { t.park (siteKind x) (s.cycleAt x) with shadow := {}, active := {} }

/-- Parking a site changes its tile, and nothing else but pins. -/
theorem parkSite_keeps {β : Type} {part : State → β} (pins : ∀ a n f, part (State.onPin a n f) = part a) (s : State) (x : Site) :
    part (s.parkSite x) = part (s.onTile x (parkedTile s x)) := by
  have run : s.parkSite x =
      if siteKind x = .p then (s.onTile x (parkedTile s x)).swapPins x (s.tile x).active.pins [] else s.onTile x (parkedTile s x) := rfl
  rw [run]
  split
  · exact swapPins_keeps pins ..
  · rfl

theorem parkSite_power (s : State) (x : Site) : (s.parkSite x).power = s.power :=
  (parkSite_keeps (part := State.power) (fun a n f => a.onPin_power n f) s x).trans (s.onTile_power x _)

theorem parkSite_tile (s : State) (x y : Site) : (s.parkSite x).tile y = if y = x then parkedTile s x (s.tile x) else s.tile y :=
  (parkSite_keeps (part := fun a => a.tile y) (fun a n f => a.onPin_tile n f y) s x).trans (s.tile_onTile x y _)

/-- A site without power loses what it holds, but for the count that the steward keeps (R371). -/
def clearSite (s : State) (x : Site) : State := (s.parkSite x).onTile x fun t => { ueCount := t.ueCount }

theorem clearSite_power (s : State) (x : Site) : (clearSite s x).power = s.power :=
  (State.onTile_power _ x _).trans (parkSite_power s x)

theorem clearSite_tile (s : State) (x y : Site) : (clearSite s x).tile y = if y = x then { ueCount := (s.tile x).ueCount } else s.tile y := by
  rw [clearSite, State.tile_onTile, parkSite_tile, parkSite_tile, if_pos rfl]
  split <;> rfl

theorem clearSites_tile (l : List Site) (s : State) (y : Site) :
    (l.foldl clearSite s).tile y = if y ∈ l then { ueCount := (s.tile y).ueCount } else s.tile y := by
  induction l generalizing s with
  | nil => rfl
  | cons x l ih =>
    rw [List.foldl_cons, ih, clearSite_tile]
    by_cases first : y = x
    · rw [if_pos first, first, if_pos List.mem_cons_self]
      exact ite_self _
    · simp only [first, if_false, List.mem_cons, false_or]

/-! ## Off (R248) -/

/-- With a die's power go its ports, its temperatures and what the network holds at its sites; then each of these is cleared. -/
theorem loseDie_clears (s : State) (d : Nat) : ∃ l p n, p.dies = s.power.dies ∧
    s.loseDie d = (sitesOf d).foldl clearSite { s with links := l, power := p, net := n } :=
  ⟨_, { s.power with temps := s.power.temps.filter fun (e : Nat × Int) => e.1 ≠ d }, _, rfl, rfl⟩

theorem loseDie_tile (s : State) (d : Nat) (y : Site) :
    (s.loseDie d).tile y = if y.die.val = d then { ueCount := (s.tile y).ueCount } else s.tile y := by
  obtain ⟨l, p, n, -, run⟩ := loseDie_clears s d
  rw [run, clearSites_tile]
  simp only [mem_sitesOf]
  rfl

theorem loseDie_die (s : State) (d e : Nat) : (s.loseDie d).die e = s.die e := by
  obtain ⟨l, p, n, dies, run⟩ := loseDie_clears s d
  rw [run, State.die, part_foldl clearSite_power, dies, State.die]

theorem finishId_tile (s : State) (id : Nat) (st : Status) (v : Nat) (y : Site) : (s.finishId id st v).tile y = s.tile y := by
  obtain ⟨e, -⟩ | ⟨f, -, e⟩ := finishId_cases s id st v <;> simp [e]

theorem finishId_die (s : State) (id : Nat) (st : Status) (v e : Nat) : (s.finishId id st v).die e = s.die e := by
  obtain ⟨h, -⟩ | ⟨f, -, h⟩ := finishId_cases s id st v <;> simp [h]

theorem checkP2_keeps {β : Type} {part : State → β} (finishes : ∀ a id st v, part (State.finishId a id st v) = part a)
    (refresh : ∀ a m, part { a with mem := m } = part a) (s : State) : part s.checkP2 = part s := by
  unfold State.checkP2
  split
  · exact (part_foldl (fun a id => finishes ..) _ _).trans (refresh ..)
  · rfl

/-- The command of a die that went off completes, and the package may have reached P2. -/
def offReported (s : State) (cmd : Option Nat) : State := (match cmd with | some id => s.finishId id OK 0 | none => s).checkP2

theorem offReported_keeps {β : Type} {part : State → β} (finishes : ∀ a id st v, part (State.finishId a id st v) = part a)
    (refresh : ∀ a m, part { a with mem := m } = part a) (s : State) (cmd : Option Nat) : part (offReported s cmd) = part s := by
  refine (checkP2_keeps finishes refresh _).trans ?_
  split
  · exact finishes ..
  · rfl

theorem domain_goes_off {d : Die} (alive : s.alive = true) (closing : (s.die d.val).state = .closing) (drained : (s.die d.val).drained = true)
    (steps : (s.die d.val).steps = 0) (stages : (s.die d.val).stages = 0) (empty : s.dieEmpty d.val = true) :
    ∃ t, exec (.domainOff d) s = .next t ∧ t.die d.val = {} ∧ (∀ e, e ≠ d.val → t.die e = s.die e) ∧
      (∀ x : Site, x.die.val = d.val → t.tile x = { ueCount := (s.tile x).ueCount }) ∧
      (∀ x : Site, x.die.val ≠ d.val → t.tile x = s.tile x) := by
  have run : s.domainOff d.val = offReported ((((s.logDomain DOMAIN_OFF d.val (s.die d.val).force).onFeeder d.val fun f =>
      { f with live := !f.queue.isEmpty }).loseDie d.val).onDie d.val fun _ => {}) (s.die d.val).cmd := by
    simp only [State.domainOff, alive, closing, drained, steps, stages, empty]
    rfl
  have tile (y : Site) : (s.domainOff d.val).tile y = if y.die.val = d.val then { ueCount := (s.tile y).ueCount } else s.tile y := by
    rw [run]
    exact (offReported_keeps (part := fun a => a.tile y) (fun a id st v => finishId_tile a id st v y) (fun _ _ => rfl) _ _).trans
      (loseDie_tile _ d.val y)
  have die (e : Nat) : (s.domainOff d.val).die e = if e = d.val then {} else s.die e := by
    rw [run]
    refine (offReported_keeps (part := fun a => a.die e) (fun a id st v => finishId_die a id st v e) (fun _ _ => rfl) _ _).trans ?_
    split
    · next same => rw [same, State.die_onDie_self]
    · next other => exact (State.die_onDie_other _ _ other).trans (loseDie_die _ _ e)
  exact ⟨s.domainOff d.val, rfl, by rw [die, if_pos rfl], fun e other => by rw [die, if_neg other], fun x here => by rw [tile, if_pos here],
    fun x away => by rw [tile, if_neg away]⟩

theorem diesDrainAndGoOff : DiesDrainAndGoOff :=
  ⟨fun _ _ field alive closing undrained late => drain_ends field alive closing undrained late,
    fun _ _ alive closing drained steps stages empty => domain_goes_off alive closing drained steps stages empty⟩

/-- Settles O26: each power step by the step that the die has to take, the drain by what becomes of each packet, and the loss of power by what becomes
of each site. -/
theorem diesStepDrainAndGoOff : Obligations.DiesStepDrainAndGoOff := ⟨powerStepsMoveOneDie, diesDrainAndGoOff⟩

end Sys2Proof.Proofs
end

section
/-! PROOFS. Accesses to device memory, and the operations of the beacon store: what they leave as it was (R198, R207, R208, R214, R253, R355). -/

namespace Sys2Proof.Proofs

open Sys2Proof Sys2Proof.Machine Sys2Proof.Claims

variable {s t u : State}

/-! ## What an access changes -/

/-- From one state to another nothing has changed but device memory, the contexts, the host's side, what is on its way to the merger and to the
beacon store, and the count of free values; the safe state begins no sooner. -/
structure AccessOnly (s u : State) : Prop where
  rest : { u with mem := s.mem, ctxs := s.ctxs, host := s.host, merger := s.merger, net := s.net, freeCount := s.freeCount } = s
  safePending : u.host.safePending = s.host.safePending

namespace AccessOnly

theorem refl (s : State) : AccessOnly s s := ⟨rfl, rfl⟩

theorem trans (first : AccessOnly s t) (second : AccessOnly t u) : AccessOnly s u where
  rest := (congrArg (fun z : State =>
    { z with mem := s.mem, ctxs := s.ctxs, host := s.host, merger := s.merger, net := s.net, freeCount := s.freeCount }) second.rest).trans first.rest
  safePending := second.safePending.trans first.safePending

theorem pkg (only : AccessOnly s u) : u.pkg = s.pkg := (congrArg State.pkg only.rest :)

theorem clk (only : AccessOnly s u) : u.clk = s.clk := (congrArg State.clk only.rest :)

theorem insts (only : AccessOnly s u) : u.insts = s.insts := (congrArg State.insts only.rest :)

theorem media (only : AccessOnly s u) : u.media = s.media := (congrArg State.media only.rest :)

theorem sess (only : AccessOnly s u) (x : SessRef) : u.sess x = s.sess x := by rw [State.sess, only.media, State.sess]

theorem of_quiet (quiet : Quiet s u) (safe : u.host.safePending = s.host.safePending) : AccessOnly s u where
  rest := (congrArg (fun z : State => { z with mem := s.mem, net := s.net, freeCount := s.freeCount }) quiet.1 :)
  safePending := safe

theorem onCtx (only : AccessOnly s t) (c : Tenant) (f : Context → Context) : AccessOnly s (t.onCtx c f) := only.trans ⟨rfl, rfl⟩

theorem emitAt (only : AccessOnly s t) (d : Nat) (e : Event) : AccessOnly s (t.emitAt d e) := only.trans ⟨rfl, rfl⟩

theorem logEv (only : AccessOnly s t) (src : Src) (code : BitVec 16) (tenant : Byte) (p : List Byte) : AccessOnly s (t.logEv src code tenant p) :=
  only.emitAt _ _

theorem raise (only : AccessOnly s t) (src : Src) (g : Fn) (v : BitVec 11) (b : Byte) : AccessOnly s (t.raise src g v b) :=
  only.trans (of_quiet (quiet_raise t src g v b) (by rw [State.raise_host]))

theorem ringWrite (only : AccessOnly s t) (r : RingSel) (bs : List Byte) (hosted : ∃ c, r = .ccq c ∨ r = .fault c) :
    AccessOnly s (t.ringWrite r bs) := by
  obtain ⟨c, rfl | rfl⟩ := hosted <;> simp only [State.ringWrite] <;> split
  · exact only.trans ⟨rfl, rfl⟩
  · exact only
  · exact only.trans ⟨rfl, rfl⟩
  · exact only

theorem sendSignal (only : AccessOnly s t) (c : Tenant) (i : BitVec 12) (n : Nat) (src : Src) : AccessOnly s (t.sendSignal c i n src) :=
  only.trans ⟨rfl, rfl⟩

theorem sendWait (only : AccessOnly s t) (c : Tenant) (i : BitVec 12) (n : Nat) (src : Src) (w : Waiter) :
    AccessOnly s (t.sendWait c i n src w) :=
  only.trans ⟨rfl, rfl⟩

theorem scrivCtx (only : AccessOnly s t) (c : Tenant) (kind : Byte) (src : Src) (p : List Byte) (origin : Nat × DWord) :
    AccessOnly s (t.scrivCtx c kind src p origin) := by
  unfold State.scrivCtx State.scriv
  split <;> split
  · exact only.emitAt _ _
  · exact only
  · exact only.emitAt _ _
  · exact only

/-- Where every operation of a fold is an access, so is the fold. -/
theorem foldl {α : Type} {g : State → α → State} (each : ∀ a x, AccessOnly a (g a x)) (l : List α) (s : State) : AccessOnly s (l.foldl g s) :=
  List.foldlRecOn (motive := AccessOnly s) l g (refl s) fun _ only x _ => only.trans (each _ x)

theorem foldl_snd {α β : Type} {g : β × State → α → β × State} (each : ∀ a x, AccessOnly a.2 (g a x).2) (l : List α) (a : β × State) :
    AccessOnly a.2 (l.foldl g a).2 :=
  List.foldlRecOn (motive := fun b => AccessOnly a.2 b.2) l g (refl a.2) fun _ only x _ => only.trans (each _ x)

end AccessOnly

/-! ## Reads and writes of HBM (R207, R208) -/

theorem accessOnly_readBurst (s : State) (b : Nat) (r : Src) (k : Byte) : AccessOnly s (s.readBurst b r k).2 := by
  unfold State.readBurst
  split <;> exact ⟨rfl, rfl⟩

theorem accessOnly_hbmRead (s : State) (dpa n : Nat) (r : Src) (k : Byte) : AccessOnly s (s.hbmRead dpa n r k).2.2 := by
  refine AccessOnly.foldl_snd (fun a b => ?_) _ (false, s)
  exact accessOnly_readBurst a.2 b r k

theorem accessOnly_writeBurst (s : State) (b : Nat) (whole : Bool) (r : Src) (k : Byte) : AccessOnly s (s.writeBurst b whole r k) := by
  unfold State.writeBurst
  split
  · exact ⟨rfl, rfl⟩
  · split <;> exact ⟨rfl, rfl⟩

theorem accessOnly_hbmWrite (s : State) (dpa : Nat) (bs : List Byte) (r : Src) (k : Byte) : AccessOnly s (s.hbmWrite dpa bs r k) :=
  (AccessOnly.foldl (fun a b => accessOnly_writeBurst a b (dpa ≤ b * 64 && b * 64 + 64 ≤ dpa + bs.length) r k) (bursts dpa bs.length) s).trans
    ⟨rfl, rfl⟩

/-! ## Translations (R214, R215) -/

theorem accessOnly_pteRead (s : State) (half : Fin 2) (k : Tenant) (dpa : Nat) : AccessOnly s (s.pteRead half k dpa).2 := by
  unfold State.pteRead
  split
  · exact accessOnly_hbmRead s _ _ _ _
  · exact .refl s

theorem accessOnly_walkFill (s : State) (e : WalkEntry) : AccessOnly s (s.walkFill e) := ⟨rfl, rfl⟩

theorem accessOnly_walkFrom (n : Nat) (s : State) (half : Fin 2) (k : Tenant) (va : Nat) (a : Access) (table level : Nat) :
    AccessOnly s (State.walkFrom n s half k va a table level).2 := by
  induction n generalizing s table level with
  | zero => exact .refl s
  | succ n ih =>
    cases found : s.walkFind half k level va with
    | some e =>
      simp only [State.walkFrom, found, Option.isSome_some, if_true]
      repeat' split
      · exact .refl s
      · exact .refl s
      · exact .refl s
      · exact ih s _ _
    | none =>
      have read : AccessOnly s (s.pteRead half k (pteDpa table level va)).2 := accessOnly_pteRead s half k _
      simp only [State.walkFrom, found, Option.isSome_none, Bool.false_eq_true, if_false]
      repeat' split
      · exact read
      · exact read
      · exact read
      · exact read
      · exact (read.trans (accessOnly_walkFill _ _)).trans (ih _ _ _)

theorem accessOnly_translate (s : State) (half : Fin 2) (k : Tenant) (va : Nat) (a : Access) : AccessOnly s (s.translate half k va a).2 := by
  have walked : AccessOnly s (s.walk half k va a).2 := by
    unfold State.walk
    repeat' split
    · exact .refl s
    · exact accessOnly_walkFrom _ s _ _ _ _ _ _
    · exact .refl s
  obtain e | e | ⟨x, e⟩ := State.translate_state s half k va a <;> rw [e]
  · exact .refl s
  · exact walked
  · exact walked.trans ⟨rfl, rfl⟩

theorem accessOnly_memFault (s : State) (c : Tenant) (i : FaultInfo) (cause level : Nat) : AccessOnly s (s.memFault c i cause level) := by
  simp only [State.memFault]
  split
  · exact ((((AccessOnly.refl s).onCtx c _).ringWrite _ _ ⟨c, .inr rfl⟩).raise _ _ _ _).emitAt _ _
  · exact ((AccessOnly.refl s).onCtx c _).emitAt _ _

/-! ## Accesses by virtual address -/

theorem accessOnly_vaRead (s : State) (c : Tenant) (half : Fin 2) (va n : Nat) (i : FaultInfo) : AccessOnly s (s.vaRead c half va n i).2 := by
  refine AccessOnly.foldl_snd (fun a p => ?_) _ (some ([], false), s)
  have walked := accessOnly_translate a.2 half c p.1 { write := false }
  split
  · exact .refl a.2
  · split
    · next e =>
      rw [e] at walked
      exact walked.trans (accessOnly_hbmRead _ _ _ _ _)
    · next e =>
      rw [e] at walked
      exact walked.trans (accessOnly_memFault _ _ _ _ _)

theorem accessOnly_of_vaRead {c : Tenant} {half : Fin 2} {va n : Nat} {i : FaultInfo} {r : Option (List Byte × Bool)}
    (read : s.vaRead c half va n i = (r, u)) : AccessOnly s u := by
  have only := accessOnly_vaRead s c half va n i
  rwa [read] at only

theorem accessOnly_vaWrite (s : State) (c : Tenant) (half : Fin 2) (va : Nat) (bs : List Byte) (i : FaultInfo) :
    AccessOnly s (s.vaWrite c half va bs i).2 := by
  refine AccessOnly.foldl_snd (fun a p => ?_) _ (true, s)
  have walked := accessOnly_translate a.2 half c p.1 { write := true }
  split
  · split
    · next e =>
      rw [e] at walked
      exact walked.trans (accessOnly_hbmWrite _ _ _ _ _)
    · next e =>
      rw [e] at walked
      exact walked.trans (accessOnly_memFault _ _ _ _ _)
  · exact .refl a.2

/-- The engine's work area takes free values, and nothing else changes (R253). -/
theorem accessOnly_fillWork (s : State) (x : SessRef) : AccessOnly s (s.fillWork x) := by
  refine AccessOnly.foldl (fun a p => ?_) _ s
  split
  · exact ⟨rfl, rfl⟩
  · exact .refl a

end Sys2Proof.Proofs
end

section
/-! PROOFS. Codec jobs: the checks pass, the codec takes its job, and what it makes becomes due or is written (R256, R257, R259, R262, R270, R271). -/

namespace Sys2Proof.Proofs

open Sys2Proof Sys2Proof.Machine Sys2Proof.Claims

variable {s t u v : State} {x : SessRef} {n m : Session} {j : Flit} {bs : List Byte}

/-! ## The bytes of a flit -/

theorem leNat_leBytes (k v : Nat) : leNat (leBytes k v) = v % 2 ^ (8 * k) := by
  induction k generalizing v with
  | zero => rw [leBytes, leNat, Nat.mul_zero, Nat.pow_zero, Nat.mod_one]
  | succ k ih =>
    have low : (BitVec.ofNat 8 v).toNat = v % 2 ^ 8 := BitVec.toNat_ofNat v 8
    rw [leBytes, leNat, ih, low, Nat.mul_succ, Nat.pow_add, Nat.mul_comm (2 ^ _), Nat.mod_mul]

theorem leNat_leBytes_toNat {k : Nat} (w : BitVec (8 * k)) : leNat (leBytes k w.toNat) = w.toNat :=
  (leNat_leBytes k w.toNat).trans w.toNat_mod_cancel

@[simp] theorem flitOf_flitBytes (w : Flit) : flitOf (flitBytes w) = w := by
  have whole : (flitBytes w).take 64 = flitBytes w := List.take_of_length_le (by rw [flitBytes, leBytes_length])
  rw [flitOf, whole, flitBytes, leNat_leBytes_toNat (k := 64), BitVec.ofNat_toNat, BitVec.setWidth_eq]

/-! ## What a session's codec holds -/

/-- A session with what the dispatcher keeps of it as in another: the engine, the job in progress, the count of its records and its grants. -/
def dispatchedAs (n d : Session) : Session :=
  { n with recs := d.recs, covers := d.covers, engine := d.engine, jobGranted := d.jobGranted, slotGranted := d.slotGranted }

/-- A session is the given one, but for what the dispatcher keeps of it, and the other sessions are as they were. -/
structure CodecHolds (x : SessRef) (n : Session) (s u : State) : Prop where
  own : ∃ d, u.sess x = dispatchedAs n d
  others : ∀ y, y ≠ x → u.sess y = s.sess y

namespace CodecHolds

theorem onSess (held : CodecHolds x n s u) (f : Session → Session) (m : Session) (gives : ∀ d, ∃ d', f (dispatchedAs n d) = dispatchedAs m d') :
    CodecHolds x m s (u.onSess x f) where
  own := by
    obtain ⟨d, own⟩ := held.own
    rw [State.sess_onSess_self, own]
    exact gives d
  others y other := by rw [State.sess_onSess_other _ _ other, held.others y other]

theorem access (held : CodecHolds x n s u) (only : AccessOnly u v) : CodecHolds x n s v where
  own := by rw [only.sess]; exact held.own
  others y other := by rw [only.sess, held.others y other]

theorem countRecord (held : CodecHolds x n s u) : CodecHolds x n s (u.onSess x fun k => { k with recs := k.recs + 1 }) :=
  held.onSess _ n fun d => ⟨{ d with recs := d.recs + 1 }, rfl⟩

theorem inputs (held : CodecHolds x n s u) (l : List MediaInput) : CodecHolds x n s { u with media := { u.media with inputs := l } } :=
  ⟨held.own, held.others⟩

theorem part {β : Type} (held : CodecHolds x n s u) (part : Session → β) (codec : ∀ m d, part (dispatchedAs m d) = part m) :
    part (u.sess x) = part n := by
  obtain ⟨d, own⟩ := held.own
  rw [own, codec]

theorem tookJob (held : CodecHolds x n s u) {k : MediaTake} (jobs : n.jobs = (s.sess x).jobs + 1)
    (history : n.history = (s.sess x).history ++ [k]) : TookJob s u x k :=
  ⟨(held.part Session.jobs fun _ _ => rfl).trans jobs, (held.part Session.history fun _ _ => rfl).trans history, held.others⟩

theorem due (held : CodecHolds x n s u) : (u.sess x).due = n.due := held.part Session.due fun _ _ => rfl

theorem mediaRecord (held : CodecHolds x n s u) (r : MediaRec) : CodecHolds x n s (u.mediaRecord x r) := by
  have recorded (va : Nat) (bs : List Byte) (src : Src) (origin : Nat × DWord) : CodecHolds x n s
      (((u.vaWrite (u.sess x).tenant (u.mdHalf x) va bs (u.sessAccess x)).2.onSess x fun k => { k with recs := k.recs + 1 }).scrivCtx
        (u.sess x).tenant 5 src bs origin) :=
    (held.access (accessOnly_vaWrite ..)).countRecord.access ((AccessOnly.refl _).scrivCtx ..)
  simp only [State.mediaRecord]
  split
  · exact held.access ((AccessOnly.refl u).sendSignal ..)
  · refine access ?_ ((AccessOnly.refl _).sendSignal ..)
    split
    · exact recorded ..
    · exact (recorded ..).inputs _

theorem awaitJob (held : CodecHolds x n s u) : CodecHolds x n s (u.awaitJob x) :=
  (held.onSess (fun k => { k with jobGranted := false }) n fun d => ⟨{ d with jobGranted := false }, rfl⟩).access
    ((AccessOnly.refl _).sendWait _ _ _ _ _)

theorem awaitSlot (held : CodecHolds x n s u) : CodecHolds x n s (u.awaitSlot x) :=
  (held.onSess (fun k => { k with slotGranted := false }) n fun d => ⟨{ d with slotGranted := false }, rfl⟩).access
    ((AccessOnly.refl _).sendWait _ _ _ _ _)

theorem jobOver (held : CodecHolds x n s u) : CodecHolds x n s (u.jobOver x) := by
  have idle := held.onSess (fun k => { k with covers := [] }) n fun d => ⟨{ d with covers := [] }, rfl⟩
  simp only [State.jobOver]
  split
  · exact idle
  · exact idle.awaitJob

theorem jobFails (held : CodecHolds x n s u) (j : Flit) (st : Status) : CodecHolds x n s (u.jobFails x j st) := (held.mediaRecord _).jobOver

end CodecHolds

/-! ## Outputs that become due (R262) -/

/-- Outputs numbered from a count on, the last one marked. -/
def numbered (outs : Nat) (os : List MediaOut) : List MediaOut :=
  os.zipIdx.map fun p => { p.1 with number := outs + p.2, last := p.2 + 1 = os.length }

theorem map_numbered {β : Type} {g : MediaOut → β} (same : ∀ o k b, g { o with number := k, last := b } = g o) (outs : Nat) (os : List MediaOut) :
    (numbered outs os).map g = os.map g := by
  calc (numbered outs os).map g = os.zipIdx.map (g ∘ Prod.fst) := by
        rw [numbered, List.map_map]
        exact List.map_congr_left fun p _ => same p.1 _ _
    _ = os.map g := by rw [← List.map_map, List.zipIdx_map_fst]

/-- A session whose next outputs are due. -/
def withOutputs (n : Session) (os : List MediaOut) : Session := { n with due := numbered n.outs os, outs := n.outs + os.length }

theorem withOutputs_nil (none : n.due = []) : withOutputs n [] = n := by
  cases n
  subst none
  rfl

theorem CodecHolds.jobOutputs (held : CodecHolds x n s u) (none : n.due = []) (j : Flit) (os : List MediaOut) :
    CodecHolds x (withOutputs n os) s (u.jobOutputs x j os) := by
  unfold State.jobOutputs
  split
  · next empty =>
    rw [List.isEmpty_iff.mp empty, withOutputs_nil none]
    exact held.jobFails j OK
  · exact (held.onSess _ _ fun d => ⟨d, rfl⟩).awaitSlot

/-! ## Decoders (R256) -/

/-- A session that has given its codec one more input. -/
def fed (n : Session) (k : MediaTake) : Session := { n with history := n.history ++ [k] }

theorem CodecHolds.feed (held : CodecHolds x n s u) (k : MediaTake) :
    CodecHolds x (fed n k) s (u.onSess x fun m => { m with history := m.history ++ [k] }) :=
  held.onSess _ _ fun d => ⟨d, rfl⟩

/-- A session whose first frames that await display are due. -/
def displayed (n : Session) (j : Flit) (count : Nat) : Session :=
  withOutputs { n with awaiting := n.awaiting.drop count } ((n.awaiting.take count).map (frameOut n j))

theorem displayed_frames (n : Session) (j : Flit) (count : Nat) : (displayed n j count).due.map (fun o => o.frame) = n.awaiting.take count := by
  refine (map_numbered (fun _ _ _ => rfl) _ _).trans ?_
  rw [List.map_map]
  exact List.map_id _

theorem CodecHolds.display (held : CodecHolds x n s u) (none : n.due = []) (j : Flit) (count : Nat) :
    CodecHolds x (displayed n j count) s (u.display x j count) := by
  obtain ⟨d, own⟩ := held.own
  have rest := held.onSess (fun m => { m with awaiting := m.awaiting.drop count }) { n with awaiting := n.awaiting.drop count } fun d => ⟨d, rfl⟩
  simp only [State.display, own]
  exact rest.jobOutputs none j _

theorem CodecHolds.runDecode_fault {k : MediaTake} (held : CodecHolds x n s u) (fault : n.decodeFault (decoded n k) ≠ 0) (j : Flit) :
    CodecHolds x { fed n k with refsLost := n.refsLost || decide (n.decodeFault (decoded n k) ≠ 2) } s (u.runDecode x j k) := by
  obtain ⟨d, own⟩ := (held.feed k).own
  simp only [State.runDecode, own]
  split
  · exact ((held.feed k).onSess _ _ fun d => ⟨d, rfl⟩).jobFails ..
  · next fine => exact absurd fault fine

theorem CodecHolds.runDecode {k : MediaTake} (held : CodecHolds x n s u) (none : n.due = []) (fine : n.decodeFault (decoded n k) = 0) (j : Flit) :
    CodecHolds x (displayed ((fed n k).decode (decoded n k)) j (decoded n k).ready) s (u.runDecode x j k) := by
  obtain ⟨d, own⟩ := (held.feed k).own
  simp only [State.runDecode, own]
  split
  · next fault => exact absurd fine fault
  · exact CodecHolds.display ((held.feed k).onSess _ ((fed n k).decode (decoded n k)) fun d => ⟨d, rfl⟩) none ..

theorem CodecHolds.flushDecode (held : CodecHolds x n s u) (none : n.due = []) (j : Flit) (k : MediaTake) :
    CodecHolds x (displayed (fed n k) j n.awaiting.length) s (u.flushDecode x j k) := by
  obtain ⟨d, own⟩ := (held.feed k).own
  simp only [State.flushDecode, own]
  exact (held.feed k).display none ..

/-! ## Encoders (R257) -/

/-- What the frame at the head of a plan adds to those coded before it. -/
def codeNext (forced : Nat → Bool) (uncoded : List Nat) (a : List Nat) (q : Nat) : List Nat :=
  if a.contains q || !uncoded.contains q then a
  else if forced q then a ++ (uncoded.filter fun e => e < q && !a.contains e) ++ [q]
  else a ++ [q]

theorem codeOrder_eq (forced : Nat → Bool) (uncoded plan : List Nat) :
    codeOrder forced uncoded plan = plan.foldl (codeNext forced uncoded) [] := rfl

theorem subset_codeNext (forced : Nat → Bool) (uncoded a : List Nat) (q : Nat) : a ⊆ codeNext forced uncoded a q := by
  unfold codeNext
  split
  · exact List.Subset.refl a
  · split
    · rw [List.append_assoc]
      exact List.subset_append_left ..
    · exact List.subset_append_left ..

theorem mem_codeNext {forced : Nat → Bool} {uncoded : List Nat} {q : Nat} (waits : q ∈ uncoded) (a : List Nat) : q ∈ codeNext forced uncoded a q := by
  unfold codeNext
  split
  · next coded => simpa [waits] using coded
  · split <;> simp

/-- Every frame of a plan that awaits coding is coded. -/
theorem mem_codeOrder {forced : Nat → Bool} {uncoded plan : List Nat} {q : Nat} (planned : q ∈ plan) (waits : q ∈ uncoded) :
    q ∈ codeOrder forced uncoded plan := by
  have stays (l a : List Nat) : a ⊆ l.foldl (codeNext forced uncoded) a :=
    List.foldlRecOn (motive := (a ⊆ ·)) l _ (List.Subset.refl a) fun b kept e _ => List.Subset.trans kept (subset_codeNext forced uncoded b e)
  obtain ⟨before, after, rfl⟩ := List.append_of_mem planned
  rw [codeOrder_eq, List.foldl_append, List.foldl_cons]
  exact stays _ _ (mem_codeNext waits _)

theorem code_uncoded {plan : List Nat} (all : ∀ e ∈ n.uncoded, e.1 ∈ plan) : (n.code plan).uncoded = [] := by
  refine List.filter_eq_nil_iff.mpr fun e there => ?_
  have coded := mem_codeOrder (forced := fun q => (n.sources.getD q default).forceKey) (all e there) (List.mem_map_of_mem there)
  simpa using coded

theorem encodedRest_uncoded (n : Session) (k : MediaTake) : (encodedRest n k).uncoded = [] :=
  code_uncoded fun _ there => List.mem_append_right _ (List.mem_map_of_mem there)

theorem CodecHolds.writeCoded (us : List CodedUnit) (held : CodecHolds x n s u) (j : Flit) (va : Nat) :
    CodecHolds x n s (u.writeCoded x j va us) := by
  induction us generalizing u va with
  | nil => exact held
  | cons c us ih =>
    simp only [State.writeCoded]
    split
    · exact ih ((held.access (accessOnly_vaWrite ..)).mediaRecord _) _
    · exact (held.access (accessOnly_vaWrite ..)).mediaRecord _

theorem CodecHolds.putCoded (held : CodecHolds x n s u) (j : Flit) :
    CodecHolds x { n with coded := unitsLeft j n.coded } s (u.putCoded x j) := by
  obtain ⟨d, own⟩ := held.own
  simp only [State.putCoded, own, unitsLeft]
  change CodecHolds x _ s (if jobF j 32 4 < (n.coded.map fun u => u.bytes.length).sum then _ else if n.coded.isEmpty then _ else _)
  split
  · exact held.jobFails ..
  · split
    · next empty =>
      have same : ({ n with coded := [] } : Session) = n := by rw [← List.isEmpty_iff.mp empty]
      rw [same]
      exact held.jobFails ..
    · exact ((held.onSess _ _ fun d => ⟨d, rfl⟩).writeCoded ..).jobOver

theorem CodecHolds.runEncode (held : CodecHolds x n s u) (j : Flit) (k : MediaTake) :
    CodecHolds x { encoded n k with coded := unitsLeft j (encoded n k).coded } s (u.runEncode x j k) :=
  (held.onSess _ (encoded n k) fun d => ⟨d, rfl⟩).putCoded j

theorem sources_fed {k : MediaTake} (other : k.op ≠ 3) (n : Session) : (fed n k).sources = n.sources := by
  simp [Session.sources, fed, other]

theorem CodecHolds.flushEncode {k : MediaTake} (held : CodecHolds x n s u) (other : k.op ≠ 3) (j : Flit) :
    CodecHolds x { encodedRest n k with coded := unitsLeft j (encodedRest n k).coded } s (u.flushEncode x j k) := by
  have rest : encodedRest n k = (fed n k).code
      (Config.encodePlan n.params (codecInputs (fed n k).sources ++ [{ k with pts := 0 }]) ++ n.uncoded.map fun e => e.1) := by
    rw [sources_fed other]
    rfl
  rw [rest]
  exact (held.onSess _ _ fun d => ⟨d, rfl⟩).putCoded j

/-! ## Audio decoders (R270) -/

/-- The block that a packet makes, of a fault or of none. -/
def blockOf (n : Session) (k : MediaTake) : List Byte := pcmBytes n.format (heard n k)

/-- A packet makes no output: its stream is bad, it is outside the limits of its codec, or there is no block. -/
def Silent (n : Session) (k : MediaTake) : Prop := (heard n k).fault = 1 ∨ audioInRange n.codec (heard n k) = false ∨ blockOf n k = []

/-- The output of a packet's block. -/
def blockOut (n : Session) (j : Flit) (k : MediaTake) : MediaOut :=
  { block := blockOf n k, op := 5, tag := BitVec.ofNat 32 (jobF j 4 4), pts := BitVec.ofNat 64 (jobF j 40 8),
    size := BitVec.ofNat 32 (sampleFrames (heard n k) % 65536 + 65536 * (heard n k).channels) }

/-- An audio job, by the status it ends with or the output it makes. -/
theorem runAudio_eq {d : Session} {k : MediaTake} (own : u.sess x = dispatchedAs n d) (j : Flit) :
    u.runAudio x j k =
      (let v := u.onSess x fun m => { m with history := m.history ++ [k] }
       if (heard n k).fault = 1 then v.jobFails x j E_MEDIA_BITSTREAM
       else if !audioInRange n.codec (heard n k) then v.jobFails x j E_MEDIA_UNSUPPORTED
       else if k.op = 6 || (blockOf n k).isEmpty then v.jobFails x j OK
       else v.jobOutputs x j [blockOut n j k]) := by
  simp only [State.runAudio, State.sess_onSess_self, own]
  rfl

theorem CodecHolds.runAudio_silent {k : MediaTake} (held : CodecHolds x n s u) (silent : k.op = 6 ∨ Silent n k) (j : Flit) :
    CodecHolds x (fed n k) s (u.runAudio x j k) := by
  obtain ⟨d, own⟩ := held.own
  rw [runAudio_eq own]
  dsimp only
  split
  · exact (held.feed k).jobFails ..
  · next sound =>
    split
    · exact (held.feed k).jobFails ..
    · next within =>
      have inside : audioInRange n.codec (heard n k) = true := by simpa using within
      rw [if_pos (by simpa [Silent, sound, inside] using silent)]
      exact (held.feed k).jobFails ..

theorem CodecHolds.runAudio {k : MediaTake} (held : CodecHolds x n s u) (none : n.due = []) (packet : k.op ≠ 6) (sounds : ¬ Silent n k) (j : Flit) :
    CodecHolds x (withOutputs (fed n k) [blockOut n j k]) s (u.runAudio x j k) := by
  obtain ⟨d, own⟩ := held.own
  simp only [Silent, not_or, Bool.not_eq_false] at sounds
  obtain ⟨sound, inside, block⟩ := sounds
  have rest : (k.op = 6 || (blockOf n k).isEmpty) = false := by simp [packet, block]
  rw [runAudio_eq own]
  simp only [sound, inside, rest, if_false, Bool.not_true, Bool.false_eq_true]
  exact (held.feed k).jobOutputs none j _

/-! ## A job that passes its checks (R254, R259, R261) -/

/-- A session that has taken one more job. -/
def jobsPlusOne (n : Session) : Session := { n with jobs := n.jobs + 1 }

section

variable {s2 : State} {count busy row : Nat}

theorem op_of_jobOk (ok : JobOk s x count busy row j bs s2) : jobF j 0 1 = row := by
  obtain ⟨-, -, -, op, -⟩ := ok
  exact op

theorem due_of_jobOk (ok : JobOk s x count busy row j bs s2) : (s.sess x).due = [] := by
  obtain ⟨-, -, ⟨-, -, -, ready, -⟩, -⟩ := ok
  simp only [Session.ready, Bool.and_eq_true, List.isEmpty_iff] at ready
  exact ready.1.2

theorem descriptor_of_jobRead {e : Nat} {s1 : State} (read : JobRead s x count busy e row j s1) : AccessOnly (engineAt s x e) s1 := by
  obtain ⟨-, -, -, -, -, descriptor, -⟩ := read
  exact accessOnly_of_vaRead descriptor

/-- The engine that takes the job holds what the session held, with the job counted. -/
theorem holds_of_jobRead {e : Nat} {s1 : State} (read : JobRead s x count busy e row j s1) :
    CodecHolds x (jobsPlusOne (s.sess x)) s (jobTaken s1 x (s.sess x) j) := by
  have begun : CodecHolds x (s.sess x) s (engineAt s x e) :=
    ⟨⟨{ s.sess x with engine := e }, State.sess_onSess_self ..⟩, fun y other => State.sess_onSess_other _ _ other⟩
  have after := begun.access (descriptor_of_jobRead read)
  have taken := after.onSess (fun n => { n with jobs := n.jobs + 1, jobGranted := false }) (jobsPlusOne (s.sess x))
    fun d => ⟨{ d with jobGranted := false }, rfl⟩
  have listed : CodecHolds x (jobsPlusOne (s.sess x)) s (s1.takeJob x) := ⟨taken.own, taken.others⟩
  exact listed.onSess _ _ fun d => ⟨{ d with covers := (jobBuffers (s.sess x) j).map fun b => (b.1, b.2.1) }, rfl⟩

theorem holds_of_jobOk (ok : JobOk s x count busy row j bs s2) : CodecHolds x (jobsPlusOne (s.sess x)) s s2 := by
  obtain ⟨e, s1, read, -, -, -, -, -, -, input⟩ := ok
  have taken := holds_of_jobRead read
  cases source : jobInput (s.sess x) j with
  | none =>
    simp only [source] at input
    obtain ⟨-, rfl⟩ := input
    exact taken.access (accessOnly_fillWork ..)
  | some b =>
    simp only [source] at input
    obtain ⟨s3, got, rfl⟩ := input
    exact (taken.access (accessOnly_of_vaRead got)).access (accessOnly_fillWork ..)

/-- The dispatcher takes a job that it has read, and starts it. -/
theorem mediaJob_takes {e : Nat} {s1 : State} (read : JobRead s x count busy e row j s1) :
    s.mediaJob row x count busy = (s1.takeJob x).startJob x j := by
  obtain ⟨runs, up, next, -, engine, descriptor, rows⟩ := read
  have got : (s.onSess x fun n => { n with engine := e }).vaRead (s.sess x).tenant ((s.onSess x fun n => { n with engine := e }).mdHalf x)
      ((s.sess x).f 16 8 + ((s.sess x).jobs % (s.sess x).entries) * 64) 64 ((s.onSess x fun n => { n with engine := e }).sessAccess x) =
      (some (flitBytes j, false), s1) := descriptor
  simp only [State.mediaJob, runs, up, next, engine, got, flitOf_flitBytes, rows, Bool.not_true, ne_eq, not_true_eq_false, decide_false, Bool.or_self,
    Bool.false_eq_true, if_false]

end

/-- In a state, the descriptor of a session's job and the buffers it covers pass the checks (R261, R271). -/
structure JobPasses (v : State) (x : SessRef) (j : Flit) : Prop where
  kind : opKind (jobF j 0 1) = some (v.sess x).kind
  reserved : jobReservedOk j = true
  fields : jobFieldsOk (v.sess x) j = true
  source : sourceOk (v.sess x) j = true
  allowed : ∀ b ∈ jobBuffers (v.sess x) j, (v.ctx (v.sess x).tenant).rangeFault b.1 b.2.1 b.2.2 = none

/-- The state in which a job's input is read. -/
def covering (v : State) (x : SessRef) (j : Flit) : State :=
  v.onSess x fun n => { n with covers := (jobBuffers (v.sess x) j).map fun b => (b.1, b.2.1) }

/-- A job that passes the checks starts with the read of its input, if it has one. -/
theorem startJob_of_passes (passes : JobPasses v x j) :
    (jobInput (v.sess x) j = none → v.startJob x j = ((covering v x j).fillWork x).runJob x j []) ∧
    ∀ b bs w, jobInput (v.sess x) j = some b →
      (covering v x j).vaRead (v.sess x).tenant (v.mdHalf x) b.1 b.2 (v.sessAccess x) = (some (bs, false), w) →
      v.startJob x j = (w.fillWork x).runJob x j bs := by
  obtain ⟨kind, reserved, fields, source, allowed⟩ := passes
  have free : ((jobBuffers (v.sess x) j).findSome? fun b =>
      ((v.ctx (v.sess x).tenant).rangeFault b.1 b.2.1 b.2.2).map fun q => (q, b.2.2)) = none := by
    rw [List.findSome?_eq_none_iff]
    intro b covered
    rw [allowed b covered, Option.map_none]
  refine ⟨fun input => ?_, fun b bs w input read => ?_⟩
  · simp only [State.startJob, kind, reserved, fields, source, free, input, Option.isNone_some, ne_eq, not_true_eq_false, decide_false, Bool.not_true,
      Bool.or_self, Bool.false_eq_true, if_false]
    rfl
  · have got : (v.onSess x fun n => { n with covers := (jobBuffers (v.sess x) j).map fun b => (b.1, b.2.1) }).vaRead (v.sess x).tenant
        (v.mdHalf x) b.1 b.2 (v.sessAccess x) = (some (bs, false), w) := read
    simp only [State.startJob, kind, reserved, fields, source, free, input, got, Option.isNone_some, ne_eq, not_true_eq_false, decide_false,
      Bool.not_true, Bool.or_self, Bool.false_eq_true, if_false]

theorem takeJob_sess (s : State) (x : SessRef) : (s.takeJob x).sess x = { s.sess x with jobs := (s.sess x).jobs + 1, jobGranted := false } :=
  State.sess_onSess_self s x fun n => { n with jobs := n.jobs + 1, jobGranted := false }

/-- A job whose checks pass runs on its input. -/
theorem mediaJob_runs {s2 : State} {count busy row : Nat} (ok : JobOk s x count busy row j bs s2) :
    s.mediaJob row x count busy = s2.runJob x j bs := by
  obtain ⟨e, s1, read, op, kind, reserved, fields, source, allowed, input⟩ := ok
  have only := descriptor_of_jobRead read
  have own : (s1.takeJob x).sess x = { s.sess x with engine := e, jobs := (s.sess x).jobs + 1, jobGranted := false } := by
    rw [takeJob_sess, only.sess, engineAt, State.sess_onSess_self]
  have passes : JobPasses (s1.takeJob x) x j := by
    refine ⟨?_, reserved, ?_, ?_, ?_⟩ <;> rw [own]
    · rw [op]; exact kind
    · exact fields
    · exact source
    · exact allowed
  obtain ⟨runs, reads⟩ := startJob_of_passes passes
  have covers : covering (s1.takeJob x) x j = jobTaken s1 x (s.sess x) j := by
    rw [covering, own]
    rfl
  rw [mediaJob_takes read]
  cases named : jobInput (s.sess x) j with
  | none =>
    simp only [named] at input
    obtain ⟨rfl, rfl⟩ := input
    rw [runs (by rw [own]; exact named), covers]
  | some b =>
    simp only [named] at input
    obtain ⟨s3, got, rfl⟩ := input
    refine reads b bs s3 (by rw [own]; exact named) ?_
    have half : (s1.takeJob x).mdHalf x = s.mdHalf x := congrArg (fun p : Package => halfOf p.variant (20 + x.md.val)) only.pkg
    have access : (s1.takeJob x).sessAccess x = (engineAt s x e).sessAccess x := by
      rw [State.sessAccess, State.sessSrc, own, State.sessAccess, State.sessSrc, engineAt, State.sess_onSess_self]
      rfl
    rw [covers, half, access, own]
    exact got

/-! ## The rows of the jobs -/

section

variable {k : MediaTake} (held : CodecHolds x (jobsPlusOne (s.sess x)) s u) (none : (s.sess x).due = [])

include held

theorem runEncode_writes (j : Flit) : TookJob s (u.runEncode x j k) x k ∧
    ((u.runEncode x j k).sess x).coded = unitsLeft j (encoded (s.sess x) k).coded ∧
    ((u.runEncode x j k).sess x).uncoded = (encoded (s.sess x) k).uncoded := by
  have coded := held.runEncode j k
  exact ⟨coded.tookJob rfl rfl, coded.part Session.coded fun _ _ => rfl, coded.part Session.uncoded fun _ _ => rfl⟩

theorem flushEncode_writes (other : k.op ≠ 3) (j : Flit) : TookJob s (u.flushEncode x j k) x k ∧
    ((u.flushEncode x j k).sess x).coded = unitsLeft j (encodedRest (s.sess x) k).coded ∧ ((u.flushEncode x j k).sess x).uncoded = [] := by
  have coded := held.flushEncode other j
  exact ⟨coded.tookJob rfl rfl, coded.part Session.coded fun _ _ => rfl,
    (coded.part Session.uncoded fun _ _ => rfl).trans (encodedRest_uncoded _ k)⟩

include none

theorem runDecode_makes_due (j : Flit) : TookJob s (u.runDecode x j k) x k ∧
    (if (s.sess x).decodeFault (decoded (s.sess x) k) ≠ 0 then
      ((u.runDecode x j k).sess x).due = [] ∧ ((u.runDecode x j k).sess x).awaiting = (s.sess x).awaiting
    else
      ((u.runDecode x j k).sess x).due.map (fun o => o.frame) =
          ((s.sess x).decode (decoded (s.sess x) k)).awaiting.take (decoded (s.sess x) k).ready ∧
        ((u.runDecode x j k).sess x).awaiting = ((s.sess x).decode (decoded (s.sess x) k)).awaiting.drop (decoded (s.sess x) k).ready) := by
  split
  · next fault =>
    have failed := held.runDecode_fault (k := k) fault j
    exact ⟨failed.tookJob rfl rfl, failed.due.trans none, failed.part Session.awaiting fun _ _ => rfl⟩
  · next fine =>
    have shown := held.runDecode (k := k) none (Decidable.not_not.mp fine) j
    refine ⟨shown.tookJob rfl rfl, ?_, shown.part Session.awaiting fun _ _ => rfl⟩
    rw [shown.due]
    exact displayed_frames ..

theorem flushDecode_makes_due (j : Flit) : TookJob s (u.flushDecode x j k) x k ∧
    ((u.flushDecode x j k).sess x).due.map (fun o => o.frame) = (s.sess x).awaiting ∧ ((u.flushDecode x j k).sess x).awaiting = [] := by
  have shown := held.flushDecode none j k
  refine ⟨shown.tookJob rfl rfl, ?_, (shown.part Session.awaiting fun _ _ => rfl).trans (List.drop_length ..)⟩
  rw [shown.due]
  exact (displayed_frames ..).trans (List.take_length ..)

/-- A packet of a configured session. -/
theorem runAudio_makes_due (packet : k.op ≠ 6) (j : Flit) : TookJob s (u.runAudio x j k) x k ∧
    ((u.runAudio x j k).sess x).due.map (fun o => o.block) =
      (if (heard (s.sess x) k).fault = 1 ∨ audioInRange (s.sess x).codec (heard (s.sess x) k) = false ∨ blockOf (s.sess x) k = [] then []
       else [blockOf (s.sess x) k]) := by
  split
  · next silent =>
    have failed := held.runAudio_silent (k := k) (.inr silent) j
    refine ⟨failed.tookJob rfl rfl, ?_⟩
    rw [failed.due]
    exact congrArg _ none
  · next sounds =>
    have made := held.runAudio (k := k) none packet sounds j
    refine ⟨made.tookJob rfl rfl, ?_⟩
    rw [made.due]
    exact map_numbered (fun _ _ _ => rfl) _ _

/-- The first configuration of a session: it makes no output. -/
theorem runConfig_configures (config : k.op = 6) (j : Flit) :
    let t := (u.onSess x fun n => { n with configured := true }).runAudio x j k
    (t.sess x).configured = true ∧ (t.sess x).due = [] ∧ TookJob s t x k := by
  have configured := held.onSess (fun n => { n with configured := true }) { jobsPlusOne (s.sess x) with configured := true } fun d => ⟨d, rfl⟩
  have done := configured.runAudio_silent (k := k) (.inl config) j
  exact ⟨done.part Session.configured fun _ _ => rfl, done.due.trans none, done.tookJob rfl rfl⟩

end

theorem decodeJobsMakeTheirFramesDue : DecodeJobsMakeTheirFramesDue := by
  refine ⟨fun x busy s s2 j bs ok => ?_, fun x busy s s2 j ok => ?_⟩ <;>
    refine ⟨_, congrArg Host.Outcome.next (mediaJob_runs ok), ?_⟩ <;> simp only [State.runJob, op_of_jobOk ok]
  · exact runDecode_makes_due (holds_of_jobOk ok) (due_of_jobOk ok) j
  · exact flushDecode_makes_due (holds_of_jobOk ok) (due_of_jobOk ok) j

theorem encodeJobsWriteTheirUnits : EncodeJobsWriteTheirUnits := by
  refine ⟨fun x busy s s2 j bs ok => ?_, fun x busy s s2 j ok => ?_⟩ <;>
    refine ⟨_, congrArg Host.Outcome.next (mediaJob_runs ok), ?_⟩ <;> simp only [State.runJob, op_of_jobOk ok]
  · have held := holds_of_jobOk ok
    obtain ⟨d, own⟩ := held.own
    rw [own]
    exact runEncode_writes held j
  · exact flushEncode_writes (holds_of_jobOk ok) (by simp) j

theorem audioJobsConfigureAndMakeBlocks : AudioJobsConfigureAndMakeBlocks := by
  refine ⟨fun x busy s s2 j bs ok first => ?_, fun x busy s s2 j bs ok configured => ?_, fun x busy s s2 j bs ok bare => ?_⟩ <;>
    refine ⟨_, congrArg Host.Outcome.next (mediaJob_runs ok), ?_⟩ <;> simp only [State.runJob, op_of_jobOk ok] <;>
    have held := holds_of_jobOk ok
  · have jobs : (s2.sess x).jobs = 1 := (held.part Session.jobs fun _ _ => rfl).trans (congrArg (· + 1) first)
    rw [if_pos jobs]
    exact runConfig_configures held (due_of_jobOk ok) rfl j
  · have ready : (s2.sess x).configured = true := (held.part Session.configured fun _ _ => rfl).trans configured
    rw [if_pos ready]
    exact runAudio_makes_due held (due_of_jobOk ok) (by simp) j
  · have unready : ¬ (s2.sess x).configured = true := by
      rw [held.part Session.configured fun _ _ => rfl]
      exact ne_true_of_eq_false bare
    have failed := held.jobFails j E_MEDIA_PARAM
    rw [if_neg unready]
    exact ⟨failed.due.trans (due_of_jobOk ok), failed.part Session.history fun _ _ => rfl, failed.part Session.jobs fun _ _ => rfl⟩

/-- Settles O28: a job that passes its checks runs on what its session held, the job counted, and each row by what its codec then holds. -/
theorem codecJobsMakeTheirOutputs : Obligations.CodecJobsMakeTheirOutputs :=
  ⟨decodeJobsMakeTheirFramesDue, encodeJobsWriteTheirUnits, audioJobsConfigureAndMakeBlocks⟩

end Sys2Proof.Proofs
end

section
/-! PROOFS. What signals and their grants leave of the media sessions (R197, R262). -/

namespace Sys2Proof.Proofs

open Sys2Proof Sys2Proof.Machine Sys2Proof.Claims

variable {s t u : State}

/-! ## The operations of the store -/

namespace AccessOnly

theorem notifyRing (only : AccessOnly s t) (d : Tenant) (note : Note) : AccessOnly s (t.notifyRing d note) := by
  unfold State.notifyRing
  split
  · exact only
  · split
    · exact only.ringWrite _ _ ⟨d, .inl rfl⟩
    · exact only.onCtx d _

theorem notify (only : AccessOnly s t) (d : Tenant) (i : BitVec 12) : AccessOnly s (t.notify d i) := by
  have raised : AccessOnly s (if (t.beacon d i).mode = 1 || (t.beacon d i).mode = 3 then
      t.raise stewardSrc (.vf d) (t.beacon d i).vector 1 else t) := by
    split
    · exact only.raise ..
    · exact only
  unfold State.notify
  dsimp only
  split
  · exact raised.notifyRing ..
  · exact raised

theorem recordOp (only : AccessOnly s t) (d : Tenant) (i : BitVec 12) (op count : Nat) (src : Src) (origin : Nat × DWord) :
    AccessOnly s (t.recordOp d i op count src origin) := by
  unfold State.recordOp
  split
  · exact (only.scrivCtx ..).onCtx d _
  · exact only.onCtx d _

theorem addSignal (only : AccessOnly s t) (d : Tenant) (i : BitVec 12) (count : Nat) (src : Src) : AccessOnly s (t.addSignal d i count src) := by
  have logged : AccessOnly s (satLogged t d i count src) := by
    unfold satLogged
    split
    · exact only.logEv ..
    · exact only
  have sum : AccessOnly s (added t d i count src) := logged.trans ⟨rfl, rfl⟩
  rw [addSignal_eq]
  split
  · exact sum.notify ..
  · exact sum

end AccessOnly

/-! ## Grants -/

/-- Every session is as it was but for its grants, and the safe state begins no sooner. -/
structure GrantsOnly (s u : State) : Prop where
  sess : ∀ x, ∃ d : Session,
    u.sess x = { s.sess x with jobGranted := d.jobGranted, slotGranted := d.slotGranted, tapGranted := d.tapGranted }
  safePending : u.host.safePending = s.host.safePending

namespace GrantsOnly

theorem trans (first : GrantsOnly s t) (second : GrantsOnly t u) : GrantsOnly s u where
  sess x := by
    obtain ⟨d, own⟩ := first.sess x
    obtain ⟨d', own'⟩ := second.sess x
    exact ⟨d', by rw [own', own]⟩
  safePending := second.safePending.trans first.safePending

theorem of_sess (sess : ∀ x, u.sess x = s.sess x) (safe : u.host.safePending = s.host.safePending) : GrantsOnly s u :=
  ⟨fun x => ⟨s.sess x, sess x⟩, safe⟩

theorem of_access (only : AccessOnly s u) : GrantsOnly s u := of_sess only.sess only.safePending

theorem onSess (s : State) (x : SessRef) (g : Session → Session)
    (grants : ∃ d : Session, g (s.sess x) = { s.sess x with jobGranted := d.jobGranted, slotGranted := d.slotGranted, tapGranted := d.tapGranted }) :
    GrantsOnly s (s.onSess x g) where
  sess y := by
    by_cases same : y = x
    · rw [same, State.sess_onSess_self]
      exact grants
    · exact ⟨s.sess y, State.sess_onSess_other s g same⟩
  safePending := rfl

theorem deliverGrant (s : State) (d : Tenant) (i : BitVec 12) (k : BitVec 16) (w : Waiter) : GrantsOnly s (s.deliverGrant d i k w) := by
  cases w with
  | tile y => exact of_sess (fun _ => rfl) rfl
  | ledger l => exact of_sess (fun _ => rfl) rfl
  | eth p dir => cases dir <;> exact of_sess (fun _ => rfl) rfl
  | job y => exact onSess s y (fun k => { k with jobGranted := true }) ⟨{ s.sess y with jobGranted := true }, rfl⟩
  | slot y => exact onSess s y (fun k => { k with slotGranted := true }) ⟨{ s.sess y with slotGranted := true }, rfl⟩
  | tap y => exact onSess s y (fun k => { k with tapGranted := true }) ⟨{ s.sess y with tapGranted := true }, rfl⟩

theorem grantHeads (k : Nat) (s : State) (d : Tenant) (i : BitVec 12) : GrantsOnly s (State.grantHeads k s d i) := by
  induction k generalizing s with
  | zero => exact of_access (.refl s)
  | succ k ih =>
    unfold State.grantHeads
    dsimp only
    split
    · exact of_access (.refl s)
    · split
      · refine .trans (.trans (of_access ?_) (deliverGrant ..)) (ih _)
        exact ((AccessOnly.refl s).onCtx d _).recordOp ..
      · exact of_access (.refl s)

theorem applySignal (s : State) (d : Tenant) (i : BitVec 12) (count : Nat) (src : Src) (origin : Nat × DWord) :
    GrantsOnly s (s.applySignal d i count src origin) :=
  (of_access (((AccessOnly.refl s).addSignal d i count src).recordOp ..)).trans (grantHeads ..)

theorem awaitJob (s : State) (x : SessRef) : GrantsOnly s (s.awaitJob x) :=
  (onSess s x (fun k => { k with jobGranted := false }) ⟨{ s.sess x with jobGranted := false }, rfl⟩).trans
    (of_access ((AccessOnly.refl _).sendWait ..))

theorem foldl {α : Type} {g : State → α → State} (each : ∀ a e, GrantsOnly a (g a e)) (l : List α) (s : State) : GrantsOnly s (l.foldl g s) :=
  List.foldlRecOn (motive := GrantsOnly s) l g (of_access (.refl s)) fun _ only e _ => only.trans (each _ e)

end GrantsOnly

end Sys2Proof.Proofs
end

section
/-! PROOFS. The commands on streams, and LEDGER_BIND (R274 to R278, R285). -/

namespace Sys2Proof.Proofs

open Sys2Proof Sys2Proof.Machine Sys2Proof.Claims

variable {s t u s1 : State} {c : Serve} {f : Started} {n : Nat}

/-! ## Serving and completing -/

/-- A parameter is within its bytes. -/
theorem p_lt (f : Started) (off size : Nat) : f.p off size < 2 ^ (8 * size) := Nat.mod_lt _ (Nat.two_pow_pos _)

theorem toNat_p (f : Started) (off size : Nat) : (BitVec.ofNat (8 * size) (f.p off size)).toNat = f.p off size := by
  rw [BitVec.toNat_ofNat, Nat.mod_eq_of_lt (p_lt f off size)]

/-- A served command whose handler completes it in a state, the safe state having begun no sooner, completes there. -/
theorem serve_finishes_in {op : Nat} {k : Started → State → State} {st : Status} {v : Nat} (served : Serves s c op f)
    (safe : u.host.safePending = s.host.safePending) (ends : k f s = u.finish f st v) : Finishes u f st v (s.serve c op k) := by
  rw [serve_of_serves served, ends]
  exact finishes_finish f st v (safe.trans (safePending_of_serves served))

theorem gone_finish (f : Started) (st : Status) (v : Nat) (live : s.host.safePending = false) : Gone f (s.finish f st v) := by
  intro g there
  rw [finish_started f st v live] at there
  simpa using (List.mem_filter.mp there).2

/-- A completion tells the same in a state that has only its streams and its layouts changed. -/
theorem completed_of_host {st : Status} {v : Nat} (host : u.host = s.host) (ctxs : u.ctxs = s.ctxs) (clk : u.clk = s.clk)
    (h : Completed u f st v t) : Completed s f st v t := by
  refine completed_congr (congrArg HostLink.started host) ?_ clk h
  cases f.ring with
  | admin => exact congrArg HostLink.acq host
  | ctx d => simp only [complSel, State.ring, State.ctx, ctxs]

/-! ## OPEN_STREAM (R274, R277) -/

theorem freeRecord_free (lowest : s.freeRecord = some n) : (s.stream n).state = 0 ∧ ∀ m, m < n → (s.stream m).state ≠ 0 := by
  obtain ⟨free, -, lower⟩ := List.find?_range_eq_some.mp lowest
  refine ⟨of_decide_eq_true free, fun m below taken => ?_⟩
  have other := lower m below
  rw [decide_eq_true (show (s.stream m).state = stFree from taken)] at other
  exact absurd other (by decide)

/-- The record that an OPEN_STREAM fills in. -/
def openedStream (s : State) (f : Started) (n : Nat) : Stream :=
  { state := stIdle, tenant := tenantByte f.tenant, gen := (s.stream n).gen, readyAtOpen := f.p 21 1 = 1, model := BitVec.ofNat 8 (f.p 20 1),
    stepLimit := BitVec.ofNat 32 (f.p 24 4), user := BitVec.ofNat 32 (f.p 28 4), deadline := BitVec.ofNat 64 (f.p 32 8), openGts := s.clk.gts }

section

variable (quota : s.openStreams f.tenant < (s.ctx f.tenant).streamQuota) (lowest : s.freeRecord = some n)

include quota lowest

theorem openStream_idle (idle : f.p 21 1 = 0) :
    State.openStream f s = (s.onStream n fun _ => openedStream s f n).finish f OK (streamHandle n (openedStream s f n)) := by
  simp [State.openStream, idle, Nat.not_le.mpr quota, lowest, openedStream]

theorem openStream_ready (ready : f.p 21 1 = 1) :
    State.openStream f s =
      ((s.onStream n fun _ => openedStream s f n).makeReady n (s.clk.gts, hostSrc)).finish f OK (streamHandle n (openedStream s f n)) := by
  simp [State.openStream, ready, Nat.not_le.mpr quota, lowest, openedStream]

end

theorem makeReady_stream_self (s : State) (n : Nat) (key : DWord × Src) :
    (s.makeReady n key).stream n = { s.stream n with state := stReady, readyGts := key.1, readySource := key.2 } :=
  State.stream_onStream_self s n fun x => { x with state := stReady, readyGts := key.1, readySource := key.2 }

theorem makeReady_stream_other {m : Nat} (s : State) (key : DWord × Src) (other : m ≠ n) : (s.makeReady n key).stream m = s.stream m :=
  State.stream_onStream_other s (fun x => { x with state := stReady, readyGts := key.1, readySource := key.2 }) other

theorem makeReady_host (s : State) (n : Nat) (key : DWord × Src) : (s.makeReady n key).host = s.host := by
  simp only [State.makeReady, State.rearm, State.onStream_host]

theorem makeReady_ctxs (s : State) (n : Nat) (key : DWord × Src) : (s.makeReady n key).ctxs = s.ctxs := by
  simp only [State.makeReady, State.rearm, State.onStream_ctxs]

theorem makeReady_clk (s : State) (n : Nat) (key : DWord × Src) : (s.makeReady n key).clk = s.clk := by
  simp only [State.makeReady, State.rearm, State.onStream_clk]

theorem finish_stream (s : State) (f : Started) (st : Status) (v m : Nat) : (s.finish f st v).stream m = s.stream m := by
  rw [State.stream, State.finish_streams, State.stream]

theorem openStream_opens (served : Serves s c 0x11 f) (idle : f.p 21 1 = 0) (quota : s.openStreams f.tenant < (s.ctx f.tenant).streamQuota)
    (lowest : s.freeRecord = some n) :
    ∃ t x, exec (.openStream c) s = .next t ∧ Finishes (s.onStream n fun _ => x) f OK (n + (s.stream n).gen.toNat * 2 ^ 24) t ∧
      (s.stream n).state = 0 ∧ (∀ m, m < n → (s.stream m).state ≠ 0) ∧
      x.state = 1 ∧ x.tenant = tenantByte f.tenant ∧ x.gen = (s.stream n).gen ∧ x.model.toNat = f.p 20 1 ∧ x.stepLimit.toNat = f.p 24 4 ∧
      x.user.toNat = f.p 28 4 ∧ x.deadline.toNat = f.p 32 8 ∧ x.inputs = [] ∧ x.openGts = s.clk.gts := by
  obtain ⟨free, lower⟩ := freeRecord_free lowest
  exact ⟨_, openedStream s f n, rfl, serve_finishes served (State.onStream_host ..) (openStream_idle quota lowest idle), free, lower, rfl, rfl, rfl,
    toNat_p f 20 1, toNat_p f 24 4, toNat_p f 28 4,
    toNat_p f 32 8, rfl, rfl⟩

theorem openStream_opens_ready (served : Serves s c 0x11 f) (ready : f.p 21 1 = 1)
    (quota : s.openStreams f.tenant < (s.ctx f.tenant).streamQuota) (lowest : s.freeRecord = some n) :
    ∃ t, exec (.openStream c) s = .next t ∧ Completed s f OK (n + (s.stream n).gen.toNat * 2 ^ 24) t ∧ (t.stream n).state = 2 ∧
      (t.stream n).readyGts = s.clk.gts ∧ (t.stream n).readySource = hostSrc ∧ (t.stream n).model.toNat = f.p 20 1 := by
  have run := (serve_of_serves served State.openStream).trans (openStream_ready quota lowest ready)
  obtain ⟨completed, -⟩ := serve_finishes (u := (s.onStream n fun _ => openedStream s f n).makeReady n (s.clk.gts, hostSrc)) served
    ((makeReady_host ..).trans (State.onStream_host ..))
    (openStream_ready quota lowest ready)
  refine ⟨_, rfl, completed_of_host ((makeReady_host ..).trans (State.onStream_host ..))
    ((makeReady_ctxs ..).trans (State.onStream_ctxs ..)) ((makeReady_clk ..).trans (State.onStream_clk ..)) completed, ?_⟩
  rw [run, finish_stream, makeReady_stream_self, State.stream_onStream_self]
  exact ⟨rfl, rfl, rfl, toNat_p f 20 1⟩

/-! ## CLOSE_STREAM (R285) -/

section

variable (served : Serves s c 0x12 f) (names : s.streamOf f.tenant (f.p 20 4) = some n) (unclosed : (s.stream n).closeCmd = none)

include served names unclosed

theorem closeStream_run : exec (.closeStream c) s = .next (State.closeStream f s) := by
  refine congrArg Host.Outcome.next ((serve_of_serves served _).trans ?_)
  simp [names, unclosed]

theorem closeStream_frees (unbatched : (s.stream n).state ≠ 3) :
    ∃ t, exec (.closeStream c) s = .next t ∧ Finishes (s.onStream n fun x => { gen := x.gen + 1 }) f OK 0 t := by
  refine ⟨_, closeStream_run served names unclosed, ?_⟩
  have freed : s.freeStream n = s.onStream n fun x => { gen := x.gen + 1 } := by rw [State.freeStream, unclosed]
  simp only [State.closeStream, names, stBatched, unbatched, if_false, freed]
  exact finishes_finish f OK 0 (safePending_of_serves served)

theorem closeStream_marks (batched : (s.stream n).state = 3) :
    ∃ t, exec (.closeStream c) s = .next t ∧ t = s.onStream n fun x => { x with closePending := true, closeCmd := some f.id } := by
  refine ⟨_, closeStream_run served names unclosed, ?_⟩
  simp only [State.closeStream, names, stBatched, batched, if_true]

end

/-! ## STREAM_INPUT (R275 to R277) -/

/-- A STREAM_INPUT of a stream that takes inputs and a descriptor without reserved bits puts it at the tail, where there is room. -/
theorem streamInput_eq (names : s.streamOf f.tenant (f.p 20 4) = some n) (lead : s.isFollow f.tenant = false)
    (reserved : bitsOf (BitVec.ofNat 128 (f.p 32 16)) 48 16 = 0) (undone : (s.stream n).state ≠ 4) (unfailed : (s.stream n).state ≠ 5)
    (stays : (s.stream n).closePending = false) :
    State.streamInput f s = if 8 ≤ (s.stream n).inputs.length then s.fail f E_STREAM_INPUT_FULL
      else (s.pushInput n (BitVec.ofNat 128 (f.p 32 16)) (s.clk.gts, hostSrc)).done f := by
  have live : (decide ((s.stream n).state = stDone) || decide ((s.stream n).state = stFailed) || (s.stream n).closePending) = false := by
    rw [decide_eq_false (show ¬ (s.stream n).state = stDone from undone), decide_eq_false (show ¬ (s.stream n).state = stFailed from unfailed), stays]
    rfl
  simp [State.streamInput, names, lead, reserved, live]

theorem pushInput_stream_self (s : State) (n : Nat) (d : BitVec 128) (key : DWord × Src) :
    ((s.pushInput n d key).stream n).inputs = (s.stream n).inputs ++ [d] ∧
      ((s.pushInput n d key).stream n).state = if (s.stream n).state = stIdle then stReady else (s.stream n).state := by
  simp only [State.pushInput]
  split
  · rw [makeReady_stream_self, State.stream_onStream_self]
    exact ⟨rfl, rfl⟩
  · rw [State.stream_onStream_self]
    exact ⟨rfl, rfl⟩

theorem pushInput_stream_other {m : Nat} (s : State) (d : BitVec 128) (key : DWord × Src) (other : m ≠ n) :
    (s.pushInput n d key).stream m = s.stream m := by
  simp only [State.pushInput]
  split
  · rw [makeReady_stream_other _ _ other, State.stream_onStream_other _ _ other]
  · exact State.stream_onStream_other _ _ other

theorem pushInput_host (s : State) (n : Nat) (d : BitVec 128) (key : DWord × Src) : (s.pushInput n d key).host = s.host := by
  simp only [State.pushInput]
  split <;> simp only [makeReady_host, State.onStream_host]

theorem pushInput_ctxs (s : State) (n : Nat) (d : BitVec 128) (key : DWord × Src) : (s.pushInput n d key).ctxs = s.ctxs := by
  simp only [State.pushInput]
  split <;> simp only [makeReady_ctxs, State.onStream_ctxs]

theorem pushInput_clk (s : State) (n : Nat) (d : BitVec 128) (key : DWord × Src) : (s.pushInput n d key).clk = s.clk := by
  simp only [State.pushInput]
  split <;> simp only [makeReady_clk, State.onStream_clk]

theorem streamInput_appends (served : Serves s c 0x13 f) (names : s.streamOf f.tenant (f.p 20 4) = some n) (lead : s.isFollow f.tenant = false)
    (reserved : bitsOf (BitVec.ofNat 128 (f.p 32 16)) 48 16 = 0) (undone : (s.stream n).state ≠ 4) (unfailed : (s.stream n).state ≠ 5)
    (stays : (s.stream n).closePending = false) :
    ((s.stream n).inputs.length < 8 → ∃ t, exec (.streamInput c) s = .next t ∧ Completed s f OK 0 t ∧
      (t.stream n).inputs = (s.stream n).inputs ++ [BitVec.ofNat 128 (f.p 32 16)] ∧
      (t.stream n).state = (if (s.stream n).state = 1 then 2 else (s.stream n).state) ∧ ∀ m, m ≠ n → t.stream m = s.stream m) ∧
    (8 ≤ (s.stream n).inputs.length → ∃ t, exec (.streamInput c) s = .next t ∧ Finishes s f E_STREAM_INPUT_FULL 0 t) := by
  have run := streamInput_eq names lead reserved undone unfailed stays
  refine ⟨fun room => ?_, fun full => ?_⟩
  · rw [if_neg (Nat.not_le.mpr room)] at run
    obtain ⟨completed, -⟩ := serve_finishes served (pushInput_host ..) run
    refine ⟨_, rfl, completed_of_host (pushInput_host ..) (pushInput_ctxs ..) (pushInput_clk ..) completed, ?_⟩
    rw [serve_of_serves served, run]
    simp only [State.done, finish_stream]
    obtain ⟨inputs, state⟩ := pushInput_stream_self s n (BitVec.ofNat 128 (f.p 32 16)) (s.clk.gts, hostSrc)
    exact ⟨inputs, state, fun m other => pushInput_stream_other s _ _ other⟩
  · rw [if_pos full] at run
    exact ⟨_, rfl, serve_finishes served rfl run⟩

/-! ## STREAM_QUERY (R274) -/

theorem streamRecord_length (x : Stream) : (streamRecord x).length = 256 := by
  simp [streamRecord, padTo]

theorem streamRecord_head (x : Stream) : (streamRecord x).take 3 = [x.state, x.tenant, x.gen] ∧
    ((streamRecord x).drop 8).take 4 = leBytes 4 x.position.toNat := by
  have head : ∃ rest, streamRecord x =
      ([x.state, x.tenant, x.gen, (if x.closePending then 1 else 0) ||| (if x.readyAtOpen then 2 else 0), x.model, x.lastLayout] ++
        leBytes 2 x.lastSlot.toNat) ++ (leBytes 4 x.position.toNat ++ rest) :=
    ⟨_, by simp only [streamRecord, padTo, List.append_assoc]; rfl⟩
  obtain ⟨rest, head⟩ := head
  rw [head, List.drop_left' (by simp), List.take_left' (leBytes_length 4 _)]
  exact ⟨rfl, rfl⟩

theorem hostWrite_safePending (s : State) (a : Nat) (bs : List Byte) : (s.hostWrite a bs).host.safePending = s.host.safePending := rfl

theorem streamQuery_writes_the_record (served : Serves s c 0x14 f) (names : s.streamOf f.tenant (f.p 20 4) = some n) (ok : c.resultOk = true)
    (room : 256 ≤ f.p 16 4) :
    ∃ t bs, exec (.streamQuery c) s = .next t ∧ Finishes (s.hostWrite (f.p 8 8) bs) f OK 0 t ∧ bs.length = 256 ∧
      bs.take 3 = [(s.stream n).state, (s.stream n).tenant, (s.stream n).gen] ∧ (bs.drop 8).take 4 = leBytes 4 (s.stream n).position.toNat := by
  have whole : (streamRecord (s.stream n)).take (f.p 16 4) = streamRecord (s.stream n) :=
    List.take_of_length_le (by rw [streamRecord_length]; exact room)
  have some_bytes : f.p 16 4 ≠ 0 := by omega
  have written : s.finishResult f c.resultOk OK 0 (streamRecord (s.stream n)) =
      (s.hostWrite (f.p 8 8) (streamRecord (s.stream n))).finish f OK 0 := by
    rw [State.finishResult, if_neg some_bytes, if_pos ok, whole]
  refine ⟨_, streamRecord (s.stream n), rfl, ?_, streamRecord_length _, streamRecord_head _⟩
  refine serve_finishes_in served (hostWrite_safePending ..) ?_
  simp only [names]
  exact written

/-! ## LEDGER_BIND (R278) -/

theorem onInst_congr {l : BitVec 8} {i : Instance} {g h : Instance → Instance} (there : s.inst? l = some i) (same : g i = h i) :
    s.onInst l g = s.onInst l h := by
  simp only [State.onInst, there, same]

/-- A layout that does not run is bound at once. -/
theorem firstBind_idle {i : Instance} (idle : i.run.running = false) (there : s.inst? i.id = some i) (b : Binding) :
    s.firstBind i b = s.onInst i.id fun k =>
      { k with binding := some b, cutoff := if i.stepCmd.isSome then some (s.clk.gts, stewardSrc) else i.cutoff } := by
  simp only [State.firstBind, idle, Bool.not_false, if_true]
  exact onInst_congr there (by simp [idle])

theorem ledgerBind_binds {i : Instance} {bs : List Byte} {bad : Bool} (found : s.inst? (BitVec.ofNat 8 (f.p 20 1)) = some i)
    (own : i.tenant = f.tenant) (loaded : i.loaded = true) (unbound : i.binding = none)
    (read : s.vaRead f.tenant 0 (f.p 24 8) 128 (stewardAccess ledgerSrc) = (some (bs, bad), s1)) (ok : BlockOk s i f bs) :
    State.ledgerBind f s = (s1.firstBind i (parseBinding bs).1).done f := by
  obtain ⟨layout, reserved, batch, batchMax, copies, copiesMax, entries, entriesMax, pow2, buffers⟩ := ok
  have fits : ((parseBinding bs).1.buffers.all fun q => q.1 % 64 = 0 && q.1 % 2 ^ 20 + q.2 ≤ btBytes) = true := by
    refine List.all_eq_true.mpr fun q there => ?_
    obtain ⟨aligned, inside, -⟩ := buffers q there
    simp only [aligned, inside, decide_true, Bool.and_self]
  have placed : ((parseBinding bs).1.buffers.all fun q => q.1 / 2 ^ 40 = 1 && q.1 / 2 ^ 36 % 16 = 0 && q.1 / 2 ^ 27 % 32 = 0 &&
      s.inRegion f.tenant (btSite (q.1 / 2 ^ 32 % 16) (q.1 / 2 ^ 20 % 128)) && bitAt i.dieMask (q.1 / 2 ^ 32 % 16) &&
      !s.isFused (btSite (q.1 / 2 ^ 32 % 16) (q.1 / 2 ^ 20 % 128))) = true := by
    refine List.all_eq_true.mpr fun q there => ?_
    obtain ⟨-, -, space, zero, zero', region, die, whole⟩ := buffers q there
    simp only [space, zero, zero', region, die, whole, decide_true, Bool.not_false, Bool.and_self]
  have some_batch : (parseBinding bs).1.batchMax ≠ 0 := by omega
  have some_copies : (parseBinding bs).2.2.1 ≠ 0 := by omega
  simp only [State.ledgerBind, found, own, loaded, read, unbound, fits, placed, layout, reserved, pow2, some_batch, some_copies,
    Nat.not_lt.mpr batchMax, Nat.not_lt.mpr copiesMax, Nat.not_lt.mpr entries, Nat.not_lt.mpr entriesMax, ne_eq, not_true_eq_false, decide_false,
    Bool.not_true, Bool.or_self, Bool.false_eq_true, if_false]

theorem ledgerBind_takes_effect {i : Instance} {bs : List Byte} {bad : Bool} (served : Serves s c 0x15 f)
    (found : s.inst? (BitVec.ofNat 8 (f.p 20 1)) = some i) (there : s.inst? i.id = some i) (own : i.tenant = f.tenant) (loaded : i.loaded = true)
    (unbound : i.binding = none) (idle : i.run.running = false)
    (read : s.vaRead f.tenant 0 (f.p 24 8) 128 (stewardAccess ledgerSrc) = (some (bs, bad), s1)) (ok : BlockOk s i f bs) :
    (i.stepCmd = none → ∃ t, exec (.ledgerBind c) s = .next t ∧
      Finishes (s1.onInst i.id fun i => { i with binding := some (parseBinding bs).1 }) f OK 0 t) ∧
    (i.stepCmd ≠ none → ∃ t, exec (.ledgerBind c) s = .next t ∧
      Finishes (s1.onInst i.id fun i => { i with binding := some (parseBinding bs).1, cutoff := some (s.clk.gts, stewardSrc) }) f OK 0 t) := by
  have only : AccessOnly s s1 := accessOnly_of_vaRead read
  have still : s1.inst? i.id = some i := by rw [State.inst?, only.insts]; exact there
  have bind := (ledgerBind_binds found own loaded unbound read ok).trans (congrArg (State.done · f) (firstBind_idle idle still _))
  have safe (g : Instance → Instance) : (s1.onInst i.id g).host.safePending = s.host.safePending := by rw [State.onInst_host, only.safePending]
  refine ⟨fun unstepped => ⟨_, rfl, serve_finishes_in served (safe _) ?_⟩, fun stepped => ⟨_, rfl, serve_finishes_in served (safe _) ?_⟩⟩
  · exact bind.trans (congrArg (State.done · f) (onInst_congr still (by simp [unstepped])))
  · exact bind.trans (congrArg (State.done · f) (onInst_congr still (by simp [Option.isSome_iff_ne_none.mpr stepped, only.clk])))

end Sys2Proof.Proofs
end

section
/-! PROOFS. The commands on media sessions and on recordings (R258, R272, R353). -/

namespace Sys2Proof.Proofs

open Sys2Proof Sys2Proof.Machine Sys2Proof.Claims

variable {s t s2 : State} {c : Serve} {f : Started} {x : SessRef}

/-! ## MEDIA_SESSION_OPEN (R258) -/

theorem accessOnly_readTaps (s : State) (d : Tenant) (k : Session) : AccessOnly s (s.readTaps d k).2 := by
  refine AccessOnly.foldl_snd (fun a e => ?_) _ (some [], s)
  split
  · exact .refl a.2
  · split <;> next read => exact accessOnly_of_vaRead read

/-- The session that a MEDIA_SESSION_OPEN enters in the table. -/
def openedSession (s : State) (x : SessRef) (k : Session) (ps : List (BitVec 1024)) : Session := { k with gen := (s.sess x).gen, tapProfiles := ps }

/-- An opened session's slots and those of its taps are signalled free, and its dispatcher waits for a job. -/
def seeded (s : State) (d : Tenant) (x : SessRef) (k : Session) (ps : List (BitVec 1024)) : State :=
  let s1 := if k.kind = 1 || k.kind = 3 then s.applySignal d k.freeBeacon (k.f 10 2) stewardSrc else s
  (ps.foldl (fun a p => a.applySignal d (BitVec.ofNat 12 (prof p 6 2)) (prof p 5 1) stewardSrc) s1).awaitJob x

theorem grantsOnly_seeded (s : State) (d : Tenant) (x : SessRef) (k : Session) (ps : List (BitVec 1024)) : GrantsOnly s (seeded s d x k ps) := by
  refine .trans (.trans ?_ (GrantsOnly.foldl (fun a p => GrantsOnly.applySignal ..) ps _)) (GrantsOnly.awaitJob ..)
  split
  · exact GrantsOnly.applySignal ..
  · exact .of_access (.refl s)

theorem sessionOpen_enters {md : Nat} {k : Session} {i : Fin 512} (passes : SessionPasses s f md k i s2) :
    AccessOnly s s2 ∧ k.isOpen = true ∧ k.tenant = f.tenant ∧
      ∃ ps v, State.sessionOpen f s = (seeded (s2.onSess { md := Fin.ofNat 4 md, idx := i } fun _ =>
        openedSession s2 { md := Fin.ofNat 4 md, idx := i } k ps) f.tenant { md := Fin.ofNat 4 md, idx := i } k ps).finish f OK v := by
  obtain ⟨names, power, chosen, bs, bad, s1, ps, block, made, fields, taps, profiles, supported, work, free, stream⟩ := passes
  have readTaps := accessOnly_readTaps s1 f.tenant k
  rw [taps] at readTaps
  refine ⟨(accessOnly_of_vaRead block).trans readTaps, by rw [made], by rw [made], ps, ?_⟩
  have die : ((decide (f.p 20 1 < 20) || decide (23 < f.p 20 1)) && decide (f.p 20 1 ≠ 0xFF)) = false := by
    simp only [Bool.and_eq_false_iff, Bool.or_eq_false_iff, decide_eq_false_iff_not]
    omega
  have fine : (ps.all fun p => profOk p k.maxW k.maxH true) = true := List.all_eq_true.mpr profiles
  have entry : openedSession s2 { md := Fin.ofNat 4 md, idx := i } k ps =
      { isOpen := true, gen := (s2.sess { md := Fin.ofNat 4 md, idx := i }).gen, tenant := f.tenant, params := BitVec.ofNat 1024 (leNat bs),
        tapProfiles := ps } := by
    rw [openedSession, made]
  refine ⟨sessHandle { md := Fin.ofNat 4 md, idx := i } (openedSession s2 { md := Fin.ofNat 4 md, idx := i } k ps), ?_⟩
  simp only [State.sessionOpen, die, power, chosen, block, ← made, fields, taps, fine, supported, Nat.not_lt.mpr work, free, stream, ne_eq,
    not_true_eq_false, decide_false, Bool.not_true, Bool.false_and, Bool.false_eq_true, if_false]
  rw [entry]
  rfl

theorem sessionOpen_opens {md : Nat} {k : Session} {i : Fin 512} (served : Serves s c 0x18 f) (passes : SessionPasses s f md k i s2) :
    ∃ t, exec (.mediaSessionOpen c) s = .next t ∧ Gone f t ∧ (t.sess { md := Fin.ofNat 4 md, idx := i }).isOpen = true ∧
      (t.sess { md := Fin.ofNat 4 md, idx := i }).tenant = f.tenant ∧ (t.sess { md := Fin.ofNat 4 md, idx := i }).params = k.params ∧
      (t.sess { md := Fin.ofNat 4 md, idx := i }).gen = (s2.sess { md := Fin.ofNat 4 md, idx := i }).gen := by
  obtain ⟨only, isOpen, tenant, ps, v, enters⟩ := sessionOpen_enters passes
  generalize ({ md := Fin.ofNat 4 md, idx := i } : SessRef) = x at *
  have signals := grantsOnly_seeded (s2.onSess x fun _ => openedSession s2 x k ps) f.tenant x k ps
  obtain ⟨d, own⟩ := signals.sess x
  have live := signals.safePending.trans (only.safePending.trans (safePending_of_serves served))
  refine ⟨_, congrArg Host.Outcome.next ((serve_of_serves served _).trans enters), gone_finish f OK v live, ?_⟩
  rw [State.sess, State.finish_media, ← State.sess, own, State.sess_onSess_self]
  exact ⟨isOpen, tenant, rfl, rfl⟩

/-! ## MEDIA_SESSION_CLOSE (R272) -/

/-- A session that a command closes ends with the next generation, and the command completes. -/
theorem endSession_closing {id : Nat} (closing : (s.sess x).closingCmd = some id) :
    s.endSession x = ((s.dropWaits (s.sess x).tenant (Waiter.ofSess x)).onSess x fun n => { gen := n.gen + 1 }).finishId id OK 0 := by
  simp only [State.endSession, closing]

theorem dropWaits_sess (s : State) (d : Tenant) (p : Waiter → Bool) (x : SessRef) : (s.dropWaits d p).sess x = s.sess x := rfl

theorem goesOn_accept {op : Nat} (served : Serves s c op f) : GoesOn f (s.accept f) :=
  ⟨{ f with accepted := true }, List.mem_map.mpr ⟨f, List.mem_of_find?_eq_some served.2, if_pos rfl⟩, rfl, rfl⟩

/-- The state in which the session's dispatcher knows that it closes. -/
def sessClosing (s : State) (f : Started) (x : SessRef) : State := (s.accept f).onSess x fun n => { n with closingCmd := some f.id }

theorem sessClosing_sess (s : State) (f : Started) (x : SessRef) : (sessClosing s f x).sess x = { s.sess x with closingCmd := some f.id } :=
  State.sess_onSess_self (s.accept f) x _

theorem sessClosing_quiet (s : State) (f : Started) (x : SessRef) : (sessClosing s f x).sessQuiet x = s.sessQuiet x := by
  rw [State.sessQuiet, sessClosing_sess]
  rfl

theorem sessionClose_eq (fresh : f.accepted = false) (names : s.sessOf f.tenant (f.p 20 4) = some x) :
    State.sessionClose f s = if (s.sess x).due.isEmpty && s.sessQuiet x then (sessClosing s f x).endSession x else sessClosing s f x := by
  have closing : (s.accept f).onSess x (fun n => { n with closingCmd := some f.id }) = sessClosing s f x := rfl
  simp only [State.sessionClose, names, fresh, Bool.false_eq_true, if_false, closing, sessClosing_quiet, sessClosing_sess, decide_true, Bool.true_and]

theorem sessionClose_closes (served : Serves s c 0x19 f) (fresh : f.accepted = false) (names : s.sessOf f.tenant (f.p 20 4) = some x) :
    ((s.sess x).due = [] → s.sessQuiet x = true → ∃ t, exec (.mediaSessionClose c) s = .next t ∧ t.sess x = { gen := (s.sess x).gen + 1 } ∧
      Gone f t) ∧
    (((s.sess x).due ≠ [] ∨ s.sessQuiet x = false) →
      ∃ t, exec (.mediaSessionClose c) s = .next t ∧ t.sess x = { s.sess x with closingCmd := some f.id } ∧ GoesOn f t) := by
  have run := (serve_of_serves served State.sessionClose).trans (sessionClose_eq fresh names)
  refine ⟨fun written quiet => ?_, fun busy => ?_⟩
  · rw [written, quiet, List.isEmpty_nil, Bool.and_self, if_pos rfl, endSession_closing (congrArg Session.closingCmd (sessClosing_sess s f x) :)] at run
    refine ⟨_, congrArg Host.Outcome.next run, ?_, gone_finishId f OK 0 (safePending_of_serves served :)⟩
    rw [State.sess, finishId_media]
    refine (State.sess_onSess_self _ x _).trans ?_
    rw [dropWaits_sess, sessClosing_sess]
  · have waits : ((s.sess x).due.isEmpty && s.sessQuiet x) = false := by
      rcases busy with due | loud
      · simp [due]
      · simp [loud]
    rw [waits, if_neg Bool.false_ne_true] at run
    exact ⟨_, congrArg Host.Outcome.next run, sessClosing_sess s f x, goesOn_accept served⟩

/-! ## RECORD_START and RECORD_STOP (R353) -/

/-- A recorder of the ring that a RECORD_START names, before the first record. -/
def newRecorder (s : State) (f : Started) : Recorder :=
  { ringVa := BitVec.ofNat 64 (f.p 24 8), ringBytes := f.p 32 8, stopWhenFull := f.p 40 1 = 1, written := 0, oldest := 0, sizes := [], records := 0,
    startGts := s.clk.gts, wrapped := false, armed := [] }

theorem recordStart_records (served : Serves s c 0x1A f) (passes : RecordPasses s f) :
    ∃ t r, exec (.recordStart c) s = .next t ∧ Finishes (s.onCtx f.tenant fun k => { k with recorder := some r }) f OK 0 t ∧
      r.ringVa.toNat = f.p 24 8 ∧ r.ringBytes = f.p 32 8 ∧ r.stopWhenFull = decide (f.p 40 1 = 1) ∧ r.written = 0 ∧ r.records = 0 ∧
      r.startGts = s.clk.gts := by
  obtain ⟨idle, live, lead, mode, pages, least, most, range, allowed⟩ := passes
  have follow : (s.links.twin.bound && s.links.twin.tenant = some f.tenant && s.links.twin.follow) = false := lead
  refine ⟨_, newRecorder s f, rfl, serve_finishes served (State.onCtx_host ..) ?_, toNat_p f 24 8, rfl, rfl, rfl, rfl, rfl⟩
  simp only [State.recordStart, idle, live, follow, pages, allowed, Nat.not_lt.mpr mode, Nat.not_lt.mpr least, Nat.not_lt.mpr most,
    Nat.not_lt.mpr range, Option.isSome_none, ne_eq, not_true_eq_false, decide_false, Bool.not_true, Bool.or_self, Bool.false_eq_true, if_false]
  rfl

theorem recordStop_stops {r : Recorder} (served : Serves s c 0x1B f) (records : (s.ctx f.tenant).recorder = some r) :
    ∃ t, exec (.recordStop c) s = .next t ∧ Finishes (s.stopRecorder f.tenant false) f OK r.records t ∧ (t.ctx f.tenant).recorder = none := by
  have finished : Finishes (s.stopRecorder f.tenant false) f OK r.records (s.serve c 0x1B State.recordStop) :=
    serve_finishes_in served (spares_stopRecorder s false).safePending (by simp only [State.recordStop, records])
  refine ⟨_, rfl, finished, ?_⟩
  obtain ⟨-, -, ctxs⟩ := finished
  have stopped : ((s.stopRecorder f.tenant false).ctx f.tenant).recorder = none := by
    rw [State.stopRecorder, State.ctx_onCtx_self]
  exact (congrArg Context.recorder (ctxs f.tenant) :).trans stopped

/-! ## All of them -/

/-- Settles O47: each command by the lemma that says what it leaves; the reads by virtual address and the signals of an opened session change nothing
that these speak of. -/
theorem streamsSessionsAndRecordings : Obligations.StreamsSessionsAndRecordings :=
  ⟨fun _ _ _ _ served idle quota lowest => openStream_opens served idle quota lowest,
    fun _ _ _ _ served ready quota lowest => openStream_opens_ready served ready quota lowest,
    fun _ _ _ _ served names unclosed => ⟨closeStream_frees served names unclosed, closeStream_marks served names unclosed⟩,
    fun _ _ _ _ served names lead reserved undone unfailed stays => streamInput_appends served names lead reserved undone unfailed stays,
    fun _ _ _ _ served names ok room => streamQuery_writes_the_record served names ok room,
    fun _ _ _ _ _ _ _ served found there own loaded unbound idle read ok =>
      ledgerBind_takes_effect served found there own loaded unbound idle read ok,
    fun _ _ _ _ _ _ _ served passes => sessionOpen_opens served passes,
    fun _ _ _ _ served fresh names => sessionClose_closes served fresh names,
    fun _ _ _ served passes => recordStart_records served passes,
    fun _ _ _ _ served records => recordStop_stops served records⟩

end Sys2Proof.Proofs
end

section
/-! PROOFS. A step runs the command in front, and every command answers a next state (R383, R385). -/

namespace Sys2Proof.Proofs

open Sys2Proof Sys2Proof.Machine Sys2Proof.Claims

/-- Settles O55, from the branch of the step that a command in front takes. -/
theorem aStepRunsTheCommandInFront : Obligations.AStepRunsTheCommandInFront := by
  intro c rest s queue
  simp only [step, queue]

/-- Every arm of the dispatch ends in a next state. -/
theorem exec_next (c : Instr) (s : State) : ∃ t, exec c s = .next t := by
  cases c <;> exact ⟨_, rfl⟩

/-- An empty queue lets a cycle pass; otherwise the command in front runs. -/
theorem step_goes (s : State) : Goes s := by
  unfold Goes step
  split
  · exact ⟨_, rfl⟩
  · exact exec_next _ _

/-- Settles O56, by the arms of the dispatch. -/
theorem everyCommandGoesOn : Obligations.EveryCommandGoesOn :=
  ⟨exec_next, step_goes⟩

end Sys2Proof.Proofs

end

section
/-! PROOFS. The invariant of every step (R20, R378, R381), one lemma per operation of the state: the stores, the log, the interrupt queue and the
steward's commands. -/

namespace Sys2Proof.Machine.State.Sound

open Sys2Proof Sys2Proof.Machine Sys2Proof.Claims

set_option Elab.async false

variable {s : State}

/-! ## Log, interrupt queue and stores -/

/-- An update keeps the invariant where it leaves the package, the bytes of both memories, the buffered entries and the queued ones. -/
theorem same (hs : s.Sound) {clk time merger} {log : Log} {iq : Iq} {host : HostLink} {ctxs insts lastLayout tiles net} {mem : MemState}
    {power ao media streams links pins freeCount pending}
    (e : (host.mem, mem.hbm, log.buffer, iq.queue) = (s.host.mem, s.mem.hbm, s.log.buffer, s.iq.queue) := by with_reducible rfl) :
    State.Sound { pkg := s.pkg, clk, time, merger, log, iq, host, ctxs, insts, lastLayout, tiles, net, mem, power, ao, media, streams, links, pins,
                  freeCount, pending } := by
  obtain ⟨hostMem, hbm, log, iq, pkg⟩ := hs
  simp only [Prod.mk.injEq] at e
  obtain ⟨e1, e2, e3, e4⟩ := e
  exact ⟨e1 ▸ hostMem, e2 ▸ hbm, e3 ▸ log, e4 ▸ iq, pkg⟩

theorem ite {t : State} {p : Prop} {_ : Decidable p} (h : s.Sound) (k : t.Sound) : (if p then s else t).Sound := by
  split
  · exact h
  · exact k

theorem foldl {α : Type} {f : State → α → State} {l : List α} (h : s.Sound) (hf : ∀ a x, a.Sound → (f a x).Sound) : (l.foldl f s).Sound := by
  induction l generalizing s with
  | nil => exact h
  | cons x l ih => exact ih (hf s x h)

theorem of_eq {α : Type} {p : α × State} {a : α} {t : State} (h : p.2.Sound) (e : p = (a, t)) : t.Sound := by
  rw [e] at h
  exact h

theorem foldlSnd {α β : Type} {f : β × State → α → β × State} {l : List α} {p : β × State} (h : p.2.Sound)
    (hf : ∀ p x, p.2.Sound → (f p x).2.Sound) : (l.foldl f p).2.Sound := by
  induction l generalizing p with
  | nil => exact h
  | cons x l ih => exact ih (hf p x h)

theorem iteSnd {α : Type} {a b : α × State} {p : Prop} {_ : Decidable p} (ha : a.2.Sound) (hb : b.2.Sound) : (if p then a else b).2.Sound := by
  split
  · exact ha
  · exact hb

theorem setTile (hs : s.Sound) {x t} : (State.setTile s x t).Sound :=
  hs.same

theorem onTile (hs : s.Sound) {x f} : (State.onTile s x f).Sound :=
  hs.setTile

theorem onCtx (hs : s.Sound) {t f} : (State.onCtx s t f).Sound :=
  hs.same

theorem onInst (hs : s.Sound) {l f} : (State.onInst s l f).Sound := by
  unfold State.onInst
  split; exacts [hs.same, hs]

theorem onDie (hs : s.Sound) {d f} : (State.onDie s d f).Sound :=
  hs.same

theorem onPort (hs : s.Sound) {p f} : (State.onPort s p f).Sound :=
  hs.same

theorem onEth (hs : s.Sound) {p f} : (State.onEth s p f).Sound :=
  hs.same

theorem onSess (hs : s.Sound) {x f} : (State.onSess s x f).Sound :=
  hs.same

theorem onFnRegs (hs : s.Sound) {f g} : (State.onFnRegs s f g).Sound := by
  unfold State.onFnRegs
  split <;> exact hs.same

theorem onPin (hs : s.Sound) {n f} : (State.onPin s n f).Sound :=
  hs.same

theorem onStream (hs : s.Sound) {n f} : (State.onStream s n f).Sound :=
  hs.same

theorem fresh (hs : s.Sound) : (State.fresh s).2.Sound :=
  hs.same

theorem emitAt (hs : s.Sound) {d e} : (State.emitAt s d e).Sound :=
  hs.same

theorem emit (hs : s.Sound) {src b} : (State.emit s src b).Sound :=
  hs.emitAt

theorem doorbellEvent (hs : s.Sound) {port} : (State.doorbellEvent s port).Sound :=
  hs.emitAt

theorem logEv (hs : s.Sound) {src code tenant payload} : (State.logEv s src code tenant payload).Sound :=
  hs.emit

theorem logTile (hs : s.Sound) {x code payload} : (State.logTile s x code payload).Sound :=
  hs.logEv

theorem raise (hs : s.Sound) {src f vector cause} : (State.raise s src f vector cause).Sound :=
  ite hs hs.emit

theorem causeInst (hs : s.Sound) {l status src} : (State.causeInst s l status src).Sound :=
  hs.onInst

theorem causeAt (hs : s.Sound) {x status src} : (State.causeAt s x status src).Sound := by
  unfold State.causeAt
  split; exacts [hs.causeInst, hs]

theorem signItem (hs : s.Sound) {x kind addr index payload} : (State.signItem s x kind addr index payload).Sound := by
  unfold State.signItem
  split; exacts [hs.onInst, hs]

theorem onRing (hs : s.Sound) {r f} : (State.onRing s r f).Sound := by
  unfold State.onRing
  split; exacts [hs.same, hs.same, hs.same, hs.same, hs.onCtx, hs.onCtx, hs.onCtx]

theorem hostWrite (hs : s.Sound) {a bs} : (State.hostWrite s a bs).Sound :=
  ⟨Memory.wf_write _ _ _ hs.hostMem, hs.hbm, hs.log, hs.iq, hs.pkg⟩

theorem ringWrite (hs : s.Sound) {r bs} : (State.ringWrite s r bs).Sound :=
  ite hs.hostWrite.onRing hs

theorem dropStarted (hs : s.Sound) {f} : (State.dropStarted s f).Sound :=
  hs.same

theorem finish (hs : s.Sound) {f status value} : (State.finish s f status value).Sound :=
  ite hs (ite (ite hs.dropStarted.ringWrite.raise hs.dropStarted.ringWrite) hs.dropStarted)

theorem fail (hs : s.Sound) {f status} : (State.fail s f status).Sound :=
  hs.finish

theorem done (hs : s.Sound) {f} : (State.done s f).Sound :=
  hs.finish

theorem finishId (hs : s.Sound) {id status value} : (State.finishId s id status value).Sound := by
  unfold State.finishId
  split; exacts [hs.finish, hs]

theorem finishResult (hs : s.Sound) {f ok status value bs} : (State.finishResult s f ok status value bs).Sound :=
  ite hs.finish (ite hs.hostWrite.finish hs.finish)

/-! ## Commands: fetch, service and completion -/

theorem pcieError (hs : s.Sound) {f kind addr} : (State.pcieError s f kind addr).Sound :=
  logEv hs.same

theorem noTarget (hs : s.Sound) {f offset} : (State.noTarget s f offset).Sound :=
  pcieError hs.same

theorem ringFault (hs : s.Sound) {r number tenant index} : (State.ringFault s r number tenant index).Sound :=
  hs.onRing.logEv

theorem fetchFailed (hs : s.Sound) {r e} : (State.fetchFailed s r e).Sound := by
  unfold State.fetchFailed
  split <;> exact hs.pcieError.ringFault

theorem fetchEntry (hs : s.Sound) {r w} : (State.fetchEntry s r w).Sound := by
  have taken : ({ s with host := { s.host with lastServed := some r } }.onRing (subSel r) fun g => { g with cons := g.cons + 1 }).Sound :=
    onRing hs.same
  unfold State.fetchEntry
  dsimp only
  split
  · exact hs.same
  · split
    · exact fail taken.same
    · exact taken.same

theorem commandFetch (hs : s.Sound) {r a} : (State.commandFetch s r a).Sound := by
  unfold State.commandFetch
  split
  · split
    · exact hs.fetchEntry
    · exact hs.fetchFailed
    · exact hs.fetchFailed
    · exact hs.fetchFailed
  · exact hs

theorem serve (hs : s.Sound) {c op k} (hk : ∀ a1 s, s.Sound → (k a1 s).Sound) : (State.serve s c op k).Sound := by
  unfold State.serve
  split; exacts [ite (hk _ _ hs) hs, hs]

theorem setShares (hs : s.Sound) {f} : (State.setShares f s).Sound :=
  ite hs.fail (ite hs.fail hs.onCtx.done)

end Sys2Proof.Machine.State.Sound

end

section
/-! PROOFS. Device memory, recordings, beacons, streams and events keep the invariant (R20, R378, R381). -/

namespace Sys2Proof.Machine.State.Sound

open Sys2Proof Sys2Proof.Machine Sys2Proof.Claims

set_option Elab.async false

variable {s : State}

/-! ## Device memory and translation -/

theorem logHbmEcc (hs : s.Sound) {code burst requester tenant patrol} : (State.logHbmEcc s code burst requester tenant patrol).Sound :=
  hs.logEv

theorem setBurstErr (hs : s.Sound) {burst k} : (State.setBurstErr s burst k).Sound :=
  ite hs hs.same

theorem clearBurstErr (hs : s.Sound) {burst} : (State.clearBurstErr s burst).Sound :=
  hs.same

theorem readBurst (hs : s.Sound) {burst requester tenant} : (State.readBurst s burst requester tenant).2.Sound := by
  unfold State.readBurst
  split; exacts [hs, hs.clearBurstErr.logHbmEcc, hs.logHbmEcc]

theorem hbmRead (hs : s.Sound) {dpa n requester tenant} : (State.hbmRead s dpa n requester tenant).2.2.Sound :=
  foldlSnd hs fun _ _ k => k.readBurst

theorem writeBurst (hs : s.Sound) {burst whole requester tenant} : (State.writeBurst s burst whole requester tenant).Sound := by
  unfold State.writeBurst
  split
  · exact hs.clearBurstErr
  · split
    · exact hs
    · exact hs.clearBurstErr.logHbmEcc
    · exact hs.logHbmEcc

theorem markSaved (hs : s.Sound) {dpa n} : (State.markSaved s dpa n).Sound :=
  hs.same

theorem hbmFree (hs : s.Sound) {dpa n} : (State.hbmFree s dpa n).Sound :=
  ⟨hs.hostMem, Map.wf_keep 0 s.mem.hbm (fun a => a < dpa || dpa + n ≤ a) hs.hbm, hs.log, hs.iq, hs.pkg⟩

theorem hbmWrite (hs : s.Sound) {dpa bs requester tenant} : (State.hbmWrite s dpa bs requester tenant).Sound := by
  unfold State.hbmWrite
  have k : ((bursts dpa bs.length).foldl
      (fun a b => a.writeBurst b (dpa ≤ b * 64 && b * 64 + 64 ≤ dpa + bs.length) requester tenant) s).Sound := hs.foldl fun _ _ k => k.writeBurst
  refine markSaved ?_
  exact ⟨k.hostMem, Memory.wf_write _ _ _ k.hbm, k.log, k.iq, k.pkg⟩

theorem tlbFill (hs : s.Sound) {e} : (State.tlbFill s e).Sound :=
  hs.same

theorem walkFill (hs : s.Sound) {e} : (State.walkFill s e).Sound :=
  hs.same

theorem pteRead (hs : s.Sound) {half t dpa} : (State.pteRead s half t dpa).2.Sound := by
  unfold State.pteRead
  split
  · exact hs.hbmRead
  · exact hs

theorem walkFrom (hs : s.Sound) {n half t va a table level} : (State.walkFrom n s half t va a table level).2.Sound := by
  induction n generalizing s table level with
  | zero => exact hs
  | succ n ih =>
    unfold State.walkFrom
    have read : (match s.walkFind half t level va with
        | some e => (some e, s)
        | none => s.pteRead half t (pteDpa table level va)).2.Sound := by
      split
      · exact hs
      · exact hs.pteRead
    dsimp only
    split
    · exact read
    · split
      · exact read
      · split
        · exact read
        · split
          · exact read
          · refine ih ?_
            split
            · exact read
            · exact read.walkFill

theorem walk (hs : s.Sound) {half t va a} : (State.walk s half t va a).2.Sound := by
  unfold State.walk
  split
  · split
    · exact hs
    · exact hs.walkFrom
  · exact hs

theorem translate (hs : s.Sound) {half t va a} : (State.translate s half t va a).2.Sound := by
  unfold State.translate
  dsimp only
  split
  · exact hs
  · split
    · exact hs.walk.tlbFill
    · exact hs.walk

theorem tlbDrop (hs : s.Sound) {t p} : (State.tlbDrop s t p).Sound :=
  hs.same

theorem memFault (hs : s.Sound) {t i cause level} : (State.memFault s t i cause level).Sound :=
  emitAt (ite hs.onCtx.ringWrite.raise hs.onCtx)

theorem vaRead (hs : s.Sound) {t half va n i} : (State.vaRead s t half va n i).2.Sound := by
  refine foldlSnd hs fun _ _ k => ?_
  dsimp only
  split
  · exact k
  · split
    · next e => exact hbmRead (of_eq k.translate e)
    · next e => exact memFault (of_eq k.translate e)

theorem vaWrite (hs : s.Sound) {t half va bs i} : (State.vaWrite s t half va bs i).2.Sound := by
  refine foldlSnd hs fun _ _ k => ?_
  split
  · split
    · next e => exact hbmWrite (of_eq k.translate e)
    · next e => exact memFault (of_eq k.translate e)
  · exact k

theorem hbmZero (hs : s.Sound) {dpa n} : (State.hbmZero s dpa n).Sound := by
  refine ⟨hs.hostMem, ?_, hs.log, hs.iq, hs.pkg⟩
  show Memory.wf (if _ then _ else _) = true
  split
  · exact Map.wf_keep _ _ _ hs.hbm
  · exact Memory.wf_write _ _ _ hs.hbm

theorem setTables (hs : s.Sound) {t c} : (State.setTables s t c).Sound := by
  unfold State.setTables
  refine onCtx ?_
  refine foldl ?_ fun _ _ k => ?_
  · refine foldl ?_ fun _ _ k => ?_
    · exact hs
    · exact k.hbmZero
  · split
    · exact k.hbmWrite
    · exact k

theorem mapOver {t' : State} (hs : s.Sound) {t c va n flags big dpas} (e : State.mapOver s t c va n flags big dpas = some t') : t'.Sound := by
  unfold State.mapOver at e
  split at e
  · cases e
    exact hs.setTables.tlbDrop
  · cases e

theorem mapFresh {t' : State} (hs : s.Sound) {t va n flags big d} (e : State.mapFresh s t va n flags big = some (d, t')) : t'.Sound := by
  unfold State.mapFresh at e
  dsimp only at e
  split at e
  · cases e
  · split at e
    · obtain ⟨u, mapped, e⟩ := Option.map_eq_some_iff.mp e
      cases e
      exact hs.mapOver mapped
    · cases e

theorem memMap (hs : s.Sound) {f} : (State.memMap f s).Sound := by
  unfold State.memMap
  refine ite hs.fail (ite hs (ite (ite hs.fail (ite ?_ hs.fail)) ?_))
  · split
    · next e => exact (hs.mapOver e).finish
    · exact hs.fail
  · split
    · next e => exact (hs.mapFresh e).finish
    · exact hs.fail

theorem memUnmap (hs : s.Sound) {f} : (State.memUnmap f s).Sound := by
  unfold State.memUnmap
  dsimp only
  split
  · exact hs.fail
  · split
    · exact hs
    · split
      · exact hs.setTables.tlbDrop.done
      · exact hs.fail

/-! ## Recordings and replays -/

theorem linkSend (hs : s.Sound) {q m} : (State.linkSend s q m).Sound :=
  hs.onPort

theorem sendTwin (hs : s.Sound) {kind step body data} : (State.sendTwin s kind step body data).Sound :=
  hs.same rfl

theorem scriv (hs : s.Sound) {t kind layout step src payload at_} : (State.scriv s t kind layout step src payload at_).Sound :=
  ite hs.emitAt hs

theorem scrivCtx (hs : s.Sound) {t kind src payload at_} : (State.scrivCtx s t kind src payload at_).Sound := by
  unfold State.scrivCtx
  split <;> exact hs.scriv

theorem scrivWrite (hs : s.Sound) {t va bs} : (State.scrivWrite s t va bs).Sound :=
  hs.vaWrite

theorem writeHeader (hs : s.Sound) {t full} : (State.writeHeader s t full).Sound := by
  unfold State.writeHeader
  split; exacts [hs.scrivWrite, hs]

theorem stopRecorder (hs : s.Sound) {t full} : (State.stopRecorder s t full).Sound :=
  hs.writeHeader.onCtx

theorem appendRaw (hs : s.Sound) {t mk len} : (State.appendRaw s t mk len).Sound := by
  unfold State.appendRaw
  split; exacts [hs, ite hs.stopRecorder.logEv hs.scrivWrite.onCtx]

theorem appendRecord (hs : s.Sound) {t late b gts src} : (State.appendRecord s t late b gts src).Sound := by
  unfold State.appendRecord
  split; exacts [hs, appendRaw (ite hs.appendRaw hs)]

theorem commitScriv (hs : s.Sound) {late t b gts src} : (State.commitScriv s late t b gts src).Sound :=
  ite (sendTwin (by split; exacts [ite hs.appendRecord hs, hs])) (by split; exacts [ite hs.appendRecord hs, hs])

theorem recordStart (hs : s.Sound) {f} : (State.recordStart f s).Sound :=
  ite hs.fail (ite hs.fail hs.onCtx.done)

theorem recordStop (hs : s.Sound) {f} : (State.recordStop f s).Sound := by
  unfold State.recordStop
  split; exacts [hs.fail, hs.stopRecorder.finish]

/-! ## Beacons -/

theorem onBeacon (hs : s.Sound) {t i f} : (State.onBeacon s t i f).Sound :=
  hs.onCtx

theorem recordOp (hs : s.Sound) {t i op count src at_} : (State.recordOp s t i op count src at_).Sound := by
  unfold State.recordOp
  exact onCtx (ite hs.scrivCtx hs)

theorem deliverGrant (hs : s.Sound) {t i n w} : (State.deliverGrant s t i n w).Sound := by
  unfold State.deliverGrant
  split; exacts [hs.same, hs.emit, hs.onEth, hs.onEth, hs.onSess, hs.onSess, hs.onSess]

theorem noteEntry (hs : s.Sound) {t n} : (State.noteEntry s t n).Sound :=
  hs.ringWrite

theorem notifyRing (hs : s.Sound) {t n} : (State.notifyRing s t n).Sound :=
  ite hs (ite hs.noteEntry hs.onCtx)

theorem notify (hs : s.Sound) {t i} : (State.notify s t i).Sound :=
  ite (notifyRing (ite hs.raise hs)) (ite hs.raise hs)

theorem grantHeads (hs : s.Sound) {n t i} : (State.grantHeads n s t i).Sound := by
  induction n generalizing s with
  | zero => exact hs
  | succ n ih =>
    unfold State.grantHeads
    dsimp only
    split
    · exact hs
    · split
      · exact ih hs.onBeacon.recordOp.deliverGrant
      · exact hs

theorem logSat (hs : s.Sound) {t i src count} : (State.logSat s t i src count).Sound :=
  hs.logEv

theorem addSignal (hs : s.Sound) {t i count src} : (State.addSignal s t i count src).Sound :=
  ite (notify (onBeacon (ite hs.logSat hs))) (onBeacon (ite hs.logSat hs))

theorem applySignal (hs : s.Sound) {t i count src at_} : (State.applySignal s t i count src at_).Sound :=
  hs.addSignal.recordOp.grantHeads

theorem applyWait (hs : s.Sound) {t i count w at_} : (State.applyWait s t i count w at_).Sound :=
  ite hs.recordOp.onBeacon.grantHeads hs.recordOp.onBeacon

theorem applyTake (hs : s.Sound) {t i count src at_} : (State.applyTake s t i count src at_).Sound :=
  ite hs.onBeacon.recordOp hs.logEv

theorem diverge (hs : s.Sound) {t seq reason} : (State.diverge s t seq reason).Sound := by
  unfold State.diverge
  dsimp only
  split
  · exact hs
  · split
    · exact hs
    · split
      · exact hs.logEv.causeInst.onCtx.finishId
      · exact hs.logEv.causeInst.onCtx

theorem markApplied (hs : s.Sound) {t n} : (State.markApplied s t n).Sound :=
  hs.onCtx

theorem rewriteMedia (hs : s.Sound) {t x} : (State.rewriteMedia s t x).Sound := by
  unfold State.rewriteMedia
  dsimp only
  split
  · exact hs
  · exact same hs.vaWrite

theorem rewriteEth (hs : s.Sound) {t x} : (State.rewriteEth s t x).Sound := by
  unfold State.rewriteEth
  exact hs.vaWrite.vaWrite.onEth

theorem rewriteInputs (hs : s.Sound) {t r upto} : (State.rewriteInputs s t r upto).Sound :=
  hs.foldl fun _ _ k => markApplied (ite k.rewriteMedia k.rewriteEth)

theorem applyRecorded (hs : s.Sound) {t x} : (State.applyRecorded s t x).Sound := by
  unfold State.applyRecorded
  dsimp only
  split
  · exact hs.onBeacon.recordOp
  · split
    · split
      · exact hs.onBeacon.recordOp.deliverGrant
      · exact hs
    · exact ite hs.applyTake (ite hs.addSignal.recordOp hs.recordOp)

theorem replayDrain (hs : s.Sound) {n t} : (State.replayDrain n s t).Sound := by
  induction n generalizing s with
  | zero => exact hs
  | succ n ih =>
    unfold State.replayDrain
    dsimp only
    split
    · exact hs
    · split
      · exact hs
      · split
        · exact hs
        · exact ih hs.rewriteInputs.applyRecorded.markApplied.onCtx

theorem replayRun (hs : s.Sound) {t} : (State.replayRun s t).Sound := by
  unfold State.replayRun
  split; exacts [hs.replayDrain, hs]

theorem suppress (hs : s.Sound) {t src} : (State.suppress s t src).Sound := by
  unfold State.suppress
  split; exacts [ite hs.onCtx.replayRun hs.logEv, hs]

theorem sendSignal (hs : s.Sound) {t i count src} : (State.sendSignal s t i count src).Sound :=
  hs.same

theorem sendWait (hs : s.Sound) {t i count src w} : (State.sendWait s t i count src w).Sound :=
  hs.same

theorem dropOp (hs : s.Sound) {k} : (State.dropOp s k).Sound :=
  hs.same

theorem logStale (hs : s.Sound) {t i src count gen} : (State.logStale s t i src count gen).Sound :=
  hs.logEv

theorem storeOp (hs : s.Sound) {k o} : (State.storeOp s k o).Sound := by
  unfold State.storeOp
  dsimp only
  split
  · exact hs.dropOp.logStale
  · split
    · exact hs.dropOp.suppress
    · split
      · exact hs
      · exact hs.dropOp.diverge
      · refine replayRun ?_
        split
        · split
          · exact hs.dropOp.addSignal.recordOp
          · exact hs.dropOp.recordOp.onBeacon
        · split
          · exact hs.dropOp.applySignal
          · exact hs.dropOp.applyWait

theorem beaconSignal (hs : s.Sound) {k} : (State.beaconSignal s k).Sound := by
  unfold State.beaconSignal
  split; exacts [ite hs.storeOp hs, hs]

theorem beaconWait (hs : s.Sound) {k} : (State.beaconWait s k).Sound := by
  unfold State.beaconWait
  split; exacts [ite hs.storeOp hs, hs]

theorem beaconConfig (hs : s.Sound) {f} : (State.beaconConfig f s).Sound :=
  ite hs.fail hs.onBeacon.done

theorem pendingNotification (hs : s.Sound) {t} : (State.pendingNotification s t).Sound := by
  unfold State.pendingNotification
  split; exacts [ite hs.onCtx.noteEntry hs, hs]

theorem logDoorbellBad (hs : s.Sound) {tenant offset value} : (State.logDoorbellBad s tenant offset value).Sound :=
  hs.logEv

theorem cfgHostRo (hs : s.Sound) {f t offset value} : (State.cfgHostRo s f t offset value).Sound :=
  hs.logEv

theorem beaconDoorbell (hs : s.Sound) {f t size value op} : (State.beaconDoorbell s f t size value op).Sound := by
  unfold State.beaconDoorbell
  extract_lets off
  refine ite hs (ite (ite hs.cfgHostRo hs.noTarget) (ite hs ?_))
  have event (p) : (s.doorbellEvent p).Sound := hs.doorbellEvent
  exact ite (event _).logDoorbellBad (ite (event _).suppress (ite (event _).applySignal (event _).applyTake))

/-! ## Streams and batches -/

theorem btPut (hs : s.Sound) {x off bs} : (State.btPut s x off bs).Sound :=
  hs.onTile

theorem upsetBt (hs : s.Sound) {x us} : (State.upsetBt s x us).Sound :=
  hs.onTile

theorem logBtEcc (hs : s.Sound) {x code off requester} : (State.logBtEcc s x code off requester).Sound :=
  hs.logTile

theorem countUe (hs : s.Sound) {x} : (State.countUe s x).Sound :=
  ite hs.onTile.emitAt hs.onTile

theorem checkWord (hs : s.Sound) {x w requester} : (State.checkWord s x w requester).2.Sound := by
  unfold State.checkWord
  split; exacts [hs, hs.onTile.logBtEcc, hs.onTile.logBtEcc.countUe]

theorem btRead (hs : s.Sound) {x off n requester} : (State.btRead s x off n requester).2.2.Sound :=
  foldlSnd hs fun _ _ k => k.checkWord

theorem btTake (hs : s.Sound) {x off n requester} : (State.btTake s x off n requester).2.Sound := by
  unfold State.btTake
  dsimp only
  split
  · exact same hs.btRead
  · exact hs.btRead

theorem rearm (hs : s.Sound) {n} : (State.rearm s n).Sound :=
  hs.same

theorem makeReady (hs : s.Sound) {n key} : (State.makeReady s n key).Sound :=
  hs.onStream.rearm

theorem freeStream (hs : s.Sound) {n} : (State.freeStream s n).Sound := by
  unfold State.freeStream
  dsimp only
  split
  · exact hs.onStream.finishId
  · exact hs.onStream

theorem pushInput (hs : s.Sound) {n d key} : (State.pushInput s n d key).Sound :=
  ite hs.onStream.makeReady hs.onStream

theorem eventEntry (hs : s.Sound) {l kind status handle step position code} : (State.eventEntry s l kind status handle step position code).Sound := by
  unfold State.eventEntry
  split
  · exact hs
  · split
    · exact hs
    · exact ite hs hs.vaWrite.onInst.applySignal

theorem endStream (hs : s.Sound) {l step n state status code} : (State.endStream s l step n state status code).Sound :=
  ite hs.onStream.eventEntry.freeStream hs.onStream.eventEntry

theorem openStream (hs : s.Sound) {f} : (State.openStream f s).Sound := by
  unfold State.openStream
  dsimp only
  split
  · exact hs.fail
  · split
    · exact hs.fail
    · split
      · exact hs.fail
      · exact finish (ite hs.onStream.makeReady hs.onStream)

theorem closeStream (hs : s.Sound) {f} : (State.closeStream f s).Sound := by
  unfold State.closeStream
  split; exacts [hs.fail, ite hs.onStream hs.freeStream.done]

theorem streamInput (hs : s.Sound) {f} : (State.streamInput f s).Sound := by
  unfold State.streamInput
  split; exacts [hs.fail, ite hs.fail (ite hs.fail (ite hs.fail (ite hs.fail hs.pushInput.done)))]

theorem setPlacement (hs : s.Sound) {f} : (State.setPlacement f s).Sound :=
  ite hs.fail (ite hs.fail hs.onCtx.done)

theorem firstBind (hs : s.Sound) {i b} : (State.firstBind s i b).Sound :=
  ite hs.onInst (ite hs.onInst.applyWait.applyWait hs.onInst.applyWait)

theorem ledgerBind (hs : s.Sound) {f} : (State.ledgerBind f s).Sound := by
  unfold State.ledgerBind
  split
  · exact hs.fail
  · refine ite hs.fail ?_
    split
    · next e => exact (of_eq hs.vaRead e).fail
    · next e =>
      have k := of_eq hs.vaRead e
      refine ite k.fail (ite k.fail (ite k.fail (done ?_)))
      split
      · exact k.firstBind
      · exact k.onInst

theorem leave {a : Composing} {k t} (ht : State.Sound t) : (a.leave k t).st.Sound := ht

theorem apply {l step a e s'} (hs : s'.Sound) {fate} : (Composing.apply l step a e s' fate).st.Sound := by
  cases fate with
  | kept => exact hs
  | idle =>
    refine leave ?_
    split
    · exact hs.onStream.freeStream
    · exact hs.onStream
  | done => exact hs.endStream
  | failed => exact hs.endStream
  | freed => exact hs.freeStream

theorem iteSt {a b : Composing} {p : Prop} {_ : Decidable p} (ha : a.st.Sound) (hb : b.st.Sound) : (if p then a else b).st.Sound := by
  split
  · exact ha
  · exact hb

theorem verdict {l step report e} {a : Composing} (ha : a.st.Sound) : (composeVerdict l step report a e).st.Sound := by
  unfold composeVerdict
  exact iteSt ha (iteSt (leave (onStream (ite ha.logEv ha))) (apply (onStream (ite ha.logEv ha))))

theorem keepSlot {m e} {a : Composing} (ha : a.st.Sound) : (composeKeep m a e).st.Sound := by
  unfold composeKeep
  dsimp only
  split
  · exact ha.onStream
  · exact ha.onStream.rearm

theorem join {l m n} {a : Composing} (ha : a.st.Sound) : (composeJoin l m a n).st.Sound := by
  unfold composeJoin
  dsimp only
  split
  · exact ha
  · exact ha.onStream.onInst

theorem foldlSt {α : Type} {f : Composing → α → Composing} {xs : List α} {a : Composing} (ha : a.st.Sound)
    (hf : ∀ a x, a.st.Sound → (f a x).st.Sound) : (xs.foldl f a).st.Sound := by
  induction xs generalizing a with
  | nil => exact ha
  | cons x xs ih => exact ih (hf a x ha)

theorem oldBatch {l old m step cutoff} {a : Composing} (ha : a.st.Sound) : (composeOld l old m step cutoff a).st.Sound := by
  refine foldlSt (foldlSt (foldlSt ?_ fun _ _ k => verdict k) fun _ _ k => apply k) fun _ _ k => keepSlot k
  exact ha.btTake

theorem writeDesc (hs : s.Sound) {b step bs} : (State.writeDesc s b step bs).Sound :=
  hs.foldl fun _ _ k => k.onTile

theorem countWaits (hs : s.Sound) {t l} : (State.countWaits s t l).Sound :=
  hs.same

theorem composed (hs : s.Sound) {i new a cutoff} : (State.composed s i new a cutoff).Sound :=
  ite (emitAt (ite hs.onInst.writeDesc.applyWait hs.onInst.writeDesc)) (ite hs.onInst.writeDesc.applyWait hs.onInst.writeDesc)

theorem composeWith (hs : s.Sound) {i old cutoff} : (State.composeWith s i old cutoff).Sound := by
  unfold State.composeWith
  have batch (xs : List Nat) : (xs.foldl (composeJoin i.id (i.nextBinding.getD old).batchMax)
      (if i.batch.isEmpty then ({ st := s, batch := i.batch, left := 0, joined := [] } : Composing)
      else composeOld i.id old (i.nextBinding.getD old).batchMax (i.composedFor - 1) cutoff.1
        { st := s, batch := i.batch, left := 0, joined := [] })).st.Sound :=
    foldlSt (iteSt hs (oldBatch hs)) fun _ _ k => join k
  exact ite (batch _).countWaits.onInst.onInst (batch _).countWaits.onInst.composed

theorem compose (hs : s.Sound) {l} : (State.compose s l).Sound := by
  unfold State.compose
  split
  · exact hs
  · split
    · split
      · exact hs.composeWith
      · exact hs
    · exact hs

theorem logMediaInput (hs : s.Sound) {code tenant m} : (State.logMediaInput s code tenant m).Sound :=
  hs.logEv

theorem mediaRecordInput (hs : s.Sound) {k} : (State.mediaRecordInput s k).Sound := by
  unfold State.mediaRecordInput
  split
  · exact hs
  · refine ite ?_ hs
    extract_lets media s1 n x live
    have h1 : s1.Sound := hs.same
    refine ite h1 (ite h1.logMediaInput (ite ?_ h1.pushInput))
    refine ite h1.logMediaInput ?_
    split
    · exact h1.logMediaInput.endStream
    · exact h1.logMediaInput.onStream

/-! ## Events, the log ring and the interrupt ring -/

theorem sendMsix (hs : s.Sound) {f v} : (State.sendMsix s f v).Sound :=
  hs.hostWrite

theorem raiseMsix (hs : s.Sound) {f v} : (State.raiseMsix s f v).Sound :=
  ite hs (ite hs.onFnRegs (ite hs.sendMsix hs))

theorem commitReport (hs : s.Sound) {l stamp src} : (State.commitReport s l stamp src).Sound :=
  hs.onInst

theorem displace_length {es fs : List LogEntry} (e : displace es = some fs) : es.length = fs.length + 1 := by
  induction es generalizing fs with
  | nil => cases e
  | cons x es ih =>
    unfold displace at e
    split at e
    · cases e
      rfl
    · obtain ⟨gs, found, rfl⟩ := Option.map_eq_some_iff.mp e
      simp [ih found]

theorem enter_log_length {l : Log} {mk} (h : l.buffer.length ≤ logBufferSize) : (l.enter mk).buffer.length ≤ logBufferSize := by
  unfold Log.enter
  dsimp only
  split
  · next room => simpa using room
  · split
    · exact h
    · split
      · next b e =>
        have := displace_length e
        simp only [List.length_append, List.length_singleton]
        omega
      · exact h

theorem enter_iq_length {q : Iq} {enabled e} (h : q.queue.length ≤ iqSize) : (q.enter enabled e).queue.length ≤ iqSize := by
  unfold Iq.enter
  dsimp only
  split
  · exact h
  · split
    · next room => simpa using room
    · simp only [List.length_append, List.length_drop, List.length_singleton]
      unfold iqSize at *
      omega

theorem commit (hs : s.Sound) {e late} : (State.commit s e late).Sound := by
  have keyed : (if late then s else { s with merger := { s.merger with lastKey := some (e.stamp, e.src) } }).Sound := ite hs hs.same
  unfold State.commit
  dsimp only
  split
  · exact ⟨keyed.hostMem, keyed.hbm, enter_log_length keyed.log, keyed.iq, keyed.pkg⟩
  · refine raiseMsix ?_
    exact ⟨keyed.hostMem, keyed.hbm, keyed.log, enter_iq_length keyed.iq, keyed.pkg⟩
  · exact keyed.commitScriv
  · exact keyed.commitReport
  · exact keyed
  · exact keyed

theorem commitReady (hs : s.Sound) {n} : (State.commitReady n s).Sound := by
  induction n generalizing s with
  | zero => exact hs
  | succ n ih =>
    unfold State.commitReady
    split
    · exact hs
    · split
      · exact ih (commit hs.same)
      · exact hs

theorem commitAll (hs : s.Sound) : (State.commitAll s).Sound :=
  hs.commitReady

theorem onFeeder (hs : s.Sound) {d f} : (State.onFeeder s d f).Sound :=
  hs.same

theorem eventArrival (hs : s.Sound) {d} : (State.eventArrival s d).Sound := by
  unfold State.eventArrival
  dsimp only
  split
  · exact hs
  · exact ite (ite hs.onFeeder.commit (commitAll (same hs rfl))) hs

theorem watermark (hs : s.Sound) {d} : (State.watermark s d).Sound :=
  ite hs.onFeeder.commitAll hs

theorem feederSilent (hs : s.Sound) {d} : (State.feederSilent s d).Sound :=
  ite hs.onFeeder.emitAt hs

theorem logWrite (hs : s.Sound) : (State.logWrite s).Sound := by
  unfold State.logWrite
  split
  · exact hs
  · next e es buffered =>
    have taken : { s with log := { s.log with buffer := es, lostFlag := false } }.Sound :=
      ⟨hs.hostMem, hs.hbm, by have := hs.log; rw [buffered] at this; exact Nat.le_of_succ_le this, hs.iq, hs.pkg⟩
    dsimp only
    split
    · exact ite taken.ringWrite.raise taken.ringWrite
    · exact hs

theorem iqCopy (hs : s.Sound) : (State.iqCopy s).Sound := by
  unfold State.iqCopy
  split
  · exact hs
  · next e es queued =>
    have taken : { s with iq := { s.iq with queue := es, lostFlag := false } }.Sound :=
      ⟨hs.hostMem, hs.hbm, hs.log, by have := hs.iq; rw [queued] at this; exact Nat.le_of_succ_le this, hs.pkg⟩
    dsimp only
    split
    · exact taken.ringWrite
    · exact hs

end Sys2Proof.Machine.State.Sound

end

section
/-! PROOFS. Tiles, packets, the sequencer and the pacer keep the invariant (R20, R378, R381). -/

namespace Sys2Proof.Machine.State.Sound

open Sys2Proof Sys2Proof.Machine Sys2Proof.Claims

set_option Elab.async false

variable {s : State}

/-! ## B-tiles -/

theorem present (hs : s.Sound) {x w off n} : (State.present s x w off n).Sound :=
  hs.onTile

theorem presentTally (hs : s.Sound) {x off n} : (State.presentTally s x off n).Sound :=
  hs.onTile

theorem eccWriteBack (hs : s.Sound) {x} : (State.eccWriteBack s x).Sound := by
  unfold State.eccWriteBack
  split
  · split
    · exact hs
    · exact hs.onTile
  · exact hs

theorem onDma (hs : s.Sound) {x q f} : (State.onDma s x q f).Sound :=
  hs.onTile

theorem dmaFail (hs : s.Sound) {x q status row} : (State.dmaFail s x q status row).Sound :=
  hs.onDma.onTile

theorem dmaPost (hs : s.Sound) {x desc poster} : (State.dmaPost s x desc poster).Sound := by
  unfold State.dmaPost
  exact hs.onTile

theorem dmaStart (hs : s.Sound) {x d} : (State.dmaStart s x d).2.Sound := by
  unfold State.dmaStart
  exact iteSnd hs (iteSnd hs (iteSnd hs.dmaFail.logTile hs.onDma))

theorem assertSealInst (hs : s.Sound) {l sect cause} : (State.assertSealInst s l sect cause).Sound :=
  hs.onInst

theorem assertSeal (hs : s.Sound) {x cause} : (State.assertSeal s x cause).Sound := by
  unfold State.assertSeal
  split; exacts [hs, hs.onTile.assertSealInst]

theorem copyLocal (hs : s.Sound) {x us} : (State.copyLocal s x us).Sound := by
  unfold State.copyLocal
  dsimp only
  split
  · exact hs
  · split
    · exact hs
    · split
      · exact hs.dmaStart.onDma
      · exact ite (dmaFail (present (btRead (upsetBt hs.dmaStart)))) (onDma (present (btPut (present (btRead (upsetBt hs.dmaStart))))))

theorem dmaFill (hs : s.Sound) {x} : (State.dmaFill s x).Sound := by
  unfold State.dmaFill
  dsimp only
  split
  · exact hs
  · split
    · exact hs
    · split
      · exact hs.dmaStart.onDma
      · exact hs.dmaStart.btPut.present.onDma

theorem inject (hs : s.Sound) {x h b} : (State.inject s x h b).Sound :=
  hs.same

theorem injectSched (hs : s.Sound) {x h b} : (State.injectSched s x h b).Sound :=
  hs.same

theorem gridWrite (hs : s.Sound) {x us} : (State.gridWrite s x us).Sound := by
  unfold State.gridWrite
  dsimp only
  split
  · exact hs
  · next d _ =>
    have start := (hs.dmaStart (x := x) (d := d)).upsetBt (x := x) (us := us)
    split
    · exact hs
    · split
      · exact start.dmaFail
      · split
        · exact start.dmaFail
        · split
          · exact start.btRead.present.dmaFail
          · split
            · exact start.btRead.present.dmaFail
            · refine onDma ?_
              split
              · exact start.btRead.present.injectSched
              · exact start.btRead.present.inject

theorem dmaRequest (hs : s.Sound) {x d write window data} : (State.dmaRequest s x d write window data).Sound :=
  hs.inject.onDma

theorem dmaRead (hs : s.Sound) {x kind} : (State.dmaRead s x kind).Sound := by
  unfold State.dmaRead
  split
  · exact hs
  · split
    · exact hs
    · split
      · next e =>
        have k0 := of_eq hs.dmaStart e
        exact k0
      · next e =>
        have k0 := of_eq hs.dmaStart e
        exact ite k0.dmaFail k0.dmaRequest

theorem dmaWrite (hs : s.Sound) {x kind us} : (State.dmaWrite s x kind us).Sound := by
  unfold State.dmaWrite
  split
  · exact hs
  · split
    · exact hs
    · split
      · next e => exact of_eq hs.dmaStart e
      · next e =>
        have k := of_eq hs.dmaStart e
        dsimp only
        split
        · exact k.dmaFail
        · split
          · exact k.upsetBt.btRead.present.dmaFail
          · exact k.upsetBt.btRead.present.dmaRequest

theorem dmaFlush (hs : s.Sound) {n x q} : (State.dmaFlush n s x q).Sound := by
  induction n generalizing s with
  | zero => exact hs
  | succ n ih =>
    unfold State.dmaFlush
    dsimp only
    split
    · exact hs
    · split
      · exact hs
      · refine ih (onDma ?_)
        split
        · exact hs
        · exact hs.btPut.present

theorem dmaData (hs : s.Sound) {x q u data} : (State.dmaData s x q u data).Sound := by
  unfold State.dmaData
  split; exacts [hs, ite hs hs.onDma.dmaFlush.onDma]

theorem dmaAck (hs : s.Sound) {x q u} : (State.dmaAck s x q u).Sound :=
  hs.onDma

theorem dmaNak (hs : s.Sound) {x q u status} : (State.dmaNak s x q u status).Sound := by
  unfold State.dmaNak
  split; exacts [hs, hs.onDma.dmaFail]

theorem windowRead (hs : s.Sound) {x} : (State.windowRead s x).Sound := by
  unfold State.windowRead
  dsimp only
  split
  · split
    · exact hs
    · split
      · next e =>
        have k0 := of_eq hs.dmaStart e
        exact k0
      · next e =>
        have k0 := of_eq hs.dmaStart e
        split
        · exact k0.diverge
        · exact k0.onDma.markApplied.dmaData
  · exact hs.dmaRead

theorem tileSignal (hs : s.Sound) {x i count} : (State.tileSignal s x i count).Sound := by
  unfold State.tileSignal
  split
  · exact hs.onTile
  · split
    · exact hs.sendSignal.signItem
    · exact hs

theorem dmaComplete (hs : s.Sound) {x d} : (State.dmaComplete s x d).Sound := by
  unfold State.dmaComplete
  extract_lets s0 s1 s2
  have h1 : s1.Sound := ite hs.onTile.btPut.present hs.onTile
  have h2 : s2.Sound := ite h1.logTile h1
  exact ite h2.tileSignal h2

theorem dmaCompletions (hs : s.Sound) {n x} : (State.dmaCompletions n s x).Sound := by
  induction n generalizing s with
  | zero => exact hs
  | succ n ih =>
    unfold State.dmaCompletions
    split
    · exact ite (ih hs.dmaComplete) hs
    · exact hs

/-! ## Packets and routers -/

theorem useStrand (hs : s.Sound) {key t cyc lent} : (State.useStrand s key t cyc lent).Sound :=
  hs.same

theorem logViolation (hs : s.Sound) {src owner h} : (State.logViolation s src owner h).Sound :=
  hs.logEv

theorem dropPacket (hs : s.Sound) {k} : (State.dropPacket s k).Sound :=
  hs.same

theorem addPacket (hs : s.Sound) {p} : (State.addPacket s p).Sound :=
  hs.same

theorem movePacket (hs : s.Sound) {k p dest} : (State.movePacket s k p dest).Sound :=
  hs.dropPacket.addPacket

theorem logDownRsp (hs : s.Sound) {src tenant die tag} : (State.logDownRsp s src tenant die tag).Sound :=
  logEv hs.same

theorem refusePacket (hs : s.Sound) {k p src place owner code} : (State.refusePacket s k p src place owner code).Sound :=
  ite (ite hs.dropPacket.logDownRsp hs.dropPacket.logViolation) (addPacket (ite hs.dropPacket.logViolation hs.dropPacket))

theorem orphan (hs : s.Sound) {x h} : (State.orphan s x h).Sound :=
  hs.logTile.onTile.causeAt

theorem logRouteParity (hs : s.Sound) {x port src} : (State.logRouteParity s x port src).Sound :=
  hs.logTile.causeAt

theorem cutChannel (hs : s.Sound) {h} : (State.cutChannel s h).Sound := by
  unfold State.cutChannel
  split
  · split
    · exact onTile hs.same
    · exact hs.same
  · exact hs

theorem presentFlit (hs : s.Sound) {k p x} : (State.presentFlit s k p x).Sound := by
  unfold State.presentFlit
  split
  · split
    · exact hs.dropPacket.injectSched
    · exact injectSched hs.same
  · exact hs

theorem localHop (hs : s.Sound) {k p x} : (State.localHop s k p x).Sound :=
  ite (ite hs.refusePacket (ite hs.refusePacket hs.movePacket)) (ite hs.refusePacket hs.movePacket)

theorem routerHop (hs : s.Sound) {k p x} : (State.routerHop s k p x).Sound := by
  unfold State.routerHop
  dsimp only
  split
  · exact hs.localHop
  · split
    · exact hs.refusePacket
    · split
      · exact hs.refusePacket
      · exact hs.movePacket

theorem signPacket (hs : s.Sound) {x p} : (State.signPacket s x p).Sound := by
  unfold State.signPacket
  split; exacts [hs.signItem, hs]

theorem psOut (hs : s.Sound) {k p x} : (State.psOut s k p x).Sound :=
  hs.signPacket.movePacket

theorem takeCall (hs : s.Sound) {h c} : (State.takeCall s h c).Sound :=
  hs.same

theorem leaveSpine (hs : s.Sound) {k p half g} : (State.leaveSpine s k p half g).Sound := by
  unfold State.leaveSpine
  dsimp only
  split
  · split
    · exact hs.refusePacket
    · exact hs.movePacket
  · refine ite hs.refusePacket (ite hs.refusePacket ?_)
    split
    · exact hs.dropPacket.takeCall
    · exact hs.movePacket

theorem crossFlit (hs : s.Sound) {k p} : (State.crossFlit s k p).Sound :=
  hs.same

theorem spineHop (hs : s.Sound) {k p half g} : (State.spineHop s k p half g).Sound := by
  unfold State.spineHop
  split
  · exact hs
  · split
    · exact hs.useStrand.crossFlit
    · split
      · exact hs.useStrand.movePacket
      · exact hs.useStrand.leaveSpine

theorem flowHop (hs : s.Sound) {k bad} : (State.flowHop s k bad).Sound := by
  unfold State.flowHop
  split
  · exact hs
  · refine ite hs ?_
    split
    · exact ite hs (ite hs.dropPacket.logRouteParity.cutChannel (ite hs.presentFlit hs.routerHop))
    · exact ite hs.psOut hs
    · exact ite hs.spineHop hs
    · exact hs

theorem slotMiss (hs : s.Sound) {x port slot} : (State.slotMiss s x port slot).Sound :=
  logTile hs.same

theorem schedLocal (hs : s.Sound) {x h b} : (State.schedLocal s x h b).Sound := by
  unfold State.schedLocal
  split
  · exact addPacket (ite hs.assertSeal hs)
  · split
    · split
      · exact hs.addPacket
      · exact hs.orphan
    · exact ite hs.orphan (addPacket (ite hs.assertSeal hs))

theorem schedOut (hs : s.Sound) {x f o} : (State.schedOut x f s o).Sound := by
  unfold State.schedOut
  split
  · exact hs.schedLocal
  · split
    · exact hs
    · exact ite hs.logViolation hs.same

theorem schedHop (hs : s.Sound) {k parity} : (State.schedHop s k parity).Sound := by
  unfold State.schedHop
  dsimp only
  split
  · exact hs
  · split
    · exact hs
    · split
      · exact hs.same
      · split
        · exact ite (cutChannel (logRouteParity hs.same)) (logRouteParity (onTile hs.same))
        · split
          · exact slotMiss hs.same
          · refine foldl ?_ fun _ _ k => ?_
            · exact hs.same
            · exact k.schedOut

/-! ## Operands -/

theorem setScalar (hs : s.Sound) {x k v} : (State.setScalar s x k v).Sound :=
  hs.onTile

theorem onV (hs : s.Sound) {x f} : (State.onV s x f).Sound :=
  hs.onTile

theorem onM (hs : s.Sound) {x f} : (State.onM s x f).Sound :=
  hs.onTile

/-! ## Channels -/

theorem onIn (hs : s.Sound) {x e f} : (State.onIn s x e f).Sound :=
  hs.onTile

theorem onOut (hs : s.Sound) {x e f} : (State.onOut s x e f).Sound :=
  hs.onTile

theorem replyOpen (hs : s.Sound) {x r status} : (State.replyOpen s x r status).Sound :=
  hs.inject

theorem armed (hs : s.Sound) {x e} : (State.armed s x e).2.Sound := by
  unfold State.armed
  split; exacts [hs, hs, hs.btTake]

theorem openTally (hs : s.Sound) {x e l r} : (State.openTally s x e l r).Sound :=
  ite hs.replyOpen (ite (foldl hs.onIn fun _ _ k => k.replyOpen) hs.onIn)

theorem openChecked (hs : s.Sound) {x e r} : (State.openChecked s x e r).Sound := by
  unfold State.openChecked
  dsimp only
  split
  · exact hs.replyOpen
  · split
    · split
      · next e =>
        have k0 := of_eq hs.armed e
        exact ite k0.replyOpen (ite k0.replyOpen k0.replyOpen)
      · next e =>
        have k0 := of_eq hs.armed e
        exact ite k0.replyOpen (ite k0.replyOpen k0.onIn.replyOpen)
      · next e =>
        have k0 := of_eq hs.armed e
        exact ite k0.replyOpen k0.openTally
    · exact ite hs.replyOpen (ite hs.replyOpen hs.onIn.replyOpen)

theorem openAt (hs : s.Sound) {x e r} : (State.openAt s x e r).Sound :=
  ite hs.openChecked (ite (ite hs.replyOpen hs.onIn) hs.replyOpen)

theorem openRequest (hs : s.Sound) {k} : (State.openRequest s k).Sound := by
  unfold State.openRequest
  split
  · split
    · exact hs.dropPacket.openAt
    · exact hs
  · exact hs

theorem openStatus (hs : s.Sound) {x e status} : (State.openStatus s x e status).Sound :=
  ite hs.setScalar.onOut hs

theorem openReply (hs : s.Sound) {k} : (State.openReply s k).Sound := by
  unfold State.openReply
  split
  · split
    · exact hs.dropPacket.openStatus
    · exact hs
  · exact hs

theorem closeMarker (hs : s.Sound) {k} : (State.closeMarker s k).Sound := by
  unfold State.closeMarker
  split
  · split
    · exact hs.dropPacket.onIn
    · exact hs
  · exact hs

theorem dropFlit (hs : s.Sound) {k p rest} : (State.dropFlit s k p rest).Sound :=
  ite hs.dropPacket hs.same

theorem portFlit (hs : s.Sound) {k} : (State.portFlit s k).Sound := by
  unfold State.portFlit
  split
  · split
    · exact ite hs (ite hs.dropFlit.orphan (ite hs.dropFlit.onV hs))
    · exact hs
  · exact hs

theorem inFull (hs : s.Sound) {x} : (State.inFull s x).Sound :=
  ite hs.assertSeal hs

theorem inWrite (hs : s.Sound) {x off bs} : (State.inWrite s x off bs).Sound :=
  hs.btPut.present

theorem epSignal (hs : s.Sound) {x sig beacon} : (State.epSignal s x sig beacon).Sound :=
  ite hs.tileSignal hs

theorem ringWriteFlit (hs : s.Sound) {x e l f last} : (State.ringWriteFlit s x e l f last).Sound :=
  ite hs.inWrite.onIn.inWrite.epSignal hs.inWrite.onIn

theorem ringFlit (hs : s.Sound) {k} : (State.ringFlit s k).Sound := by
  unfold State.ringFlit
  dsimp only
  split
  · split
    · split
      · exact hs
      · split
        · exact hs.dropFlit.orphan
        · split
          · exact hs
          · exact ite hs (ite hs.dropFlit.ringWriteFlit hs.inFull)
    · exact hs
  · exact hs

theorem tallyFlit (hs : s.Sound) {k} : (State.tallyFlit s k).Sound := by
  unfold State.tallyFlit
  dsimp only
  split
  · split
    · split
      · exact hs
      · split
        · exact hs
        · split
          · exact hs.dropFlit.orphan
          · exact ite hs (ite hs.dropFlit.inWrite.onIn hs.inFull)
    · exact hs
  · exact hs

theorem foldlSnd₂ {α β γ : Type} {f : β × γ × State → α → β × γ × State} {l : List α} {b : β} {c : γ} (h : s.Sound)
    (hf : ∀ p x, p.2.2.Sound → (f p x).2.2.Sound) : (l.foldl f (b, c, s)).2.2.Sound := by
  induction l generalizing b c s with
  | nil => exact h
  | cons x l ih => exact ih (hf (b, c, s) x h)

theorem tallyEmit (hs : s.Sound) {x e us} : (State.tallyEmit s x e us).Sound := by
  unfold State.tallyEmit
  split
  · exact hs
  · dsimp only
    split
    · exact hs
    · split
      · exact causeAt (foldlSnd₂ hs.upsetBt fun _ _ k => k.btRead.presentTally)
      · exact epSignal (presentTally (btPut (onIn (presentTally (btPut (foldlSnd₂ hs.upsetBt fun _ _ k => k.btRead.presentTally))))))

theorem gridWriteFlit (hs : s.Sound) {k} : (State.gridWriteFlit s k).Sound := by
  unfold State.gridWriteFlit
  split
  · split
    · exact ite (ite hs.dropPacket.inWrite hs.dropPacket.inWrite.inject) hs.inFull
    · exact hs
  · exact hs

/-! ## Flags -/

theorem illegalInsn (hs : s.Sound) {x w ip} : (State.illegalInsn s x w ip).Sound :=
  hs.onTile.logTile.causeAt

theorem classRefused (hs : s.Sound) {x w ip} : (State.classRefused s x w ip).Sound :=
  hs.onTile.logTile.causeAt

theorem beyondView (hs : s.Sound) {x ip offset} : (State.beyondView s x ip offset).Sound :=
  hs.onTile.logTile.causeAt

theorem sendClosed (hs : s.Sound) {x ip ep down} : (State.sendClosed s x ip ep down).Sound :=
  ite hs.onTile.causeAt hs.onTile.logTile.causeAt

theorem logRegParity (hs : s.Sound) {x h ip sev} : (State.logRegParity s x h ip sev).Sound :=
  hs.emit

theorem regParity (hs : s.Sound) {x h ip} : (State.regParity s x h ip).Sound :=
  hs.onTile.logRegParity.causeAt.countUe

theorem uncorrectable (hs : s.Sound) {x} : (State.uncorrectable s x).Sound :=
  hs.onTile.causeAt

/-! ## The sequencer -/

theorem advance (hs : s.Sound) {x rep} : (State.advance s x rep).Sound :=
  hs.onTile

theorem counted (hs : s.Sound) {i} : (s.counted i).Sound :=
  hs.onTile

/-- The state that an effect hands on, where it hands one on, keeps the invariant. -/
def Effect : Eff → Prop
  | .wait => True
  | .done s | .jump s _ _ | .loop s _ _ | .ended s => s.Sound

theorem afterEff (hs : s.Sound) {x rep} {e : Eff} (he : Effect e) : (s.afterEff x rep e).Sound := by
  unfold State.afterEff
  split
  · exact hs
  · exact advance he
  · exact onTile he
  · exact onTile he
  · exact he

theorem issue (hs : s.Sound) {i op legal b effect} (he : ∀ s x w ip, s.Sound → Effect (effect s x w ip)) : (s.issue i op legal b effect).Sound := by
  obtain e | ⟨-, e⟩ | ⟨h, -, e⟩ | ⟨-, e⟩ | ⟨-, e⟩ | ⟨-, e⟩ := State.issue_cases (s := s) i op legal b effect
  all_goals rw [e]
  · exact hs
  · exact hs.illegalInsn
  · exact hs.counted.regParity
  · exact hs.counted.illegalInsn
  · exact hs.counted.classRefused
  · exact hs.afterEff (he _ _ _ _ hs.counted)

theorem iteEffect {a b : Eff} {p : Prop} {_ : Decidable p} (ha : Effect a) (hb : Effect b) : Effect (if p then a else b) := by
  split
  · exact ha
  · exact hb

theorem countBranch (hs : s.Sound) {x} : (State.countBranch s x).Sound := by
  unfold State.countBranch
  split; exacts [hs.onV, hs]

theorem openInsn (hs : s.Sound) {x w} : (State.openInsn s x w).Sound :=
  ite hs.setScalar hs.inject.onOut

theorem closeOut (hs : s.Sound) {x ep} : (State.closeOut s x ep).Sound :=
  ite hs.inject.onOut hs

theorem sendFlits (hs : s.Sound) {x ep fs} : (State.sendFlits s x ep fs).Sound :=
  ite hs.onOut (foldl hs.onOut fun _ _ k => k.inject)

theorem beaconGrant (hs : s.Sound) {k} : (State.beaconGrant s k).Sound := by
  unfold State.beaconGrant
  split; exacts [ite (ite (logStale hs.same) (ite (advance (onTile hs.same)) hs.same)) hs, hs]

theorem setGts (hs : s.Sound) {x sd v} : (State.setGts s x sd v).Sound :=
  hs.setScalar.setScalar.onTile

/-! ## M-tiles -/

theorem issueM (hs : s.Sound) {i op legal b effect} (he : ∀ s x w ip, s.Sound → Effect (effect s x w ip)) : (s.issueM i op legal b effect).Sound :=
  ite (hs.issue he) hs

theorem presentRows (hs : s.Sound) {x offs} : (State.presentRows s x offs).Sound :=
  hs.onTile

theorem readRows (hs : s.Sound) {x n g} : (State.readRows s x n g).2.2.Sound :=
  foldlSnd₂ hs fun _ _ k => k.btRead

theorem tldAccess {x w g} {a : Bool × State} (ha : a.2.Sound) : (State.tldAccess x w a g).2.Sound := by
  unfold State.tldAccess
  refine iteSnd ha (iteSnd ha.readRows ?_)
  dsimp only
  exact onM ha.readRows

theorem tldwPut (hs : s.Sound) {x d i data} : (State.tldwPut s x d i data).Sound :=
  hs.onM

theorem tldwRequest (hs : s.Sound) {x d i} : (State.tldwRequest s x d i).Sound := by
  unfold State.tldwRequest
  exact hs.inject.onM

theorem tldwPump (hs : s.Sound) {n x} : (State.tldwPump n s x).Sound := by
  induction n generalizing s with
  | zero => exact hs
  | succ n ih =>
    unfold State.tldwPump
    split
    · exact hs
    · split
      · exact hs
      · split
        · exact ite hs.onM hs
        · split
          · exact ih hs.onM.tldwPut
          · exact ite (ih hs.tldwRequest) hs

theorem tldwRun (hs : s.Sound) {x} : (State.tldwRun s x).Sound :=
  hs.tldwPump

theorem tldwData (hs : s.Sound) {x row data status} : (State.tldwData s x row data status).Sound := by
  unfold State.tldwData
  split; exacts [hs, ite hs (ite hs.onM.uncorrectable hs.onM.tldwPut.tldwRun)]

theorem tldwNak (hs : s.Sound) {x row code faultId} : (State.tldwNak s x row code faultId).Sound := by
  unfold State.tldwNak
  split; exacts [hs, ite hs (ite hs.onM hs.onM.onTile.causeAt)]

theorem tldwFaultEnd (hs : s.Sound) {x} : (State.tldwFaultEnd s x).Sound := by
  unfold State.tldwFaultEnd
  split
  · split
    · exact ite hs.onM hs
    · exact hs
  · exact hs

theorem tldwRestart (hs : s.Sound) {x} : (State.tldwRestart s x).Sound :=
  hs.onM.tldwRun

/-! ## V-tiles -/

theorem inUnit {e : Eff} {w x} (he : Effect e) : Effect (e.inUnit w x) := by
  unfold Eff.inUnit
  split
  · exact iteEffect he (onV he)
  · exact he

theorem issueV (hs : s.Sound) {i op legal effect} (he : ∀ s x w ip, s.Sound → Effect (effect s x w ip)) : (s.issueV i op legal effect).Sound :=
  ite (hs.issue fun s x w ip k => inUnit (he s x w ip k)) hs

theorem issueVec (hs : s.Sound) {i op legal f} : (s.issueVec i op legal f).Sound :=
  hs.issueV fun _ _ _ _ k => k.onV

theorem vldWords {x w i} {a : Bool × State} (ha : a.2.Sound) : (State.vldWords x w a i).2.Sound := by
  unfold State.vldWords
  refine iteSnd ha (iteSnd ha.btRead ?_)
  dsimp only
  exact onV ha.btRead

theorem presentNarrow (hs : s.Sound) {x w} : (State.presentNarrow s x w).Sound :=
  hs.foldl fun _ _ k => k.present

/-! ## Answers to engines and tiles -/

theorem translationFault (hs : s.Sound) {half p r cause level} : (State.translationFault s half p r cause level).Sound :=
  hs.memFault.addPacket

theorem translation (hs : s.Sound) {k} : (State.translation s k).Sound := by
  unfold State.translation
  dsimp only
  split
  · split
    · split
      · split
        · exact hs.translate.dropPacket.addPacket
        · exact hs.translate.dropPacket.translationFault
      · exact hs
    · exact hs
  · exact hs

theorem hbmPerform (hs : s.Sound) {r} : (State.hbmPerform s r).Sound := by
  unfold State.hbmPerform
  dsimp only
  split
  · exact hs.hbmWrite.addPacket
  · exact hs.hbmRead.addPacket

theorem upsetBurst (hs : s.Sound) {burst x} : (State.upsetBurst s burst x).Sound := by
  unfold State.upsetBurst
  split; exacts [hs.setBurstErr, hs]

theorem hbmRequest (hs : s.Sound) {k upset} : (State.hbmRequest s k upset).Sound := by
  unfold State.hbmRequest
  split; exacts [ite (hbmPerform (upsetBurst hs.same)) hs, hs]

theorem patrolScrub (hs : s.Sound) {k upset} : (State.patrolScrub s k upset).Sound := by
  unfold State.patrolScrub
  dsimp only
  split
  · exact hs
  · split
    · exact same hs.upsetBurst
    · exact logHbmEcc (clearBurstErr (same hs.upsetBurst))
    · exact logHbmEcc (same hs.upsetBurst)

theorem refresh (hs : s.Sound) {k} : (State.refresh s k).Sound :=
  ite hs hs.same

theorem readResponse (hs : s.Sound) {k} : (State.readResponse s k).Sound := by
  unfold State.readResponse
  split
  · split
    · exact ite hs.dropPacket.tldwData (ite hs.dropPacket.dmaData hs.dropPacket.dmaNak)
    · exact hs
  · exact hs

theorem writeAcked (hs : s.Sound) {k} : (State.writeAcked s k).Sound := by
  unfold State.writeAcked
  split
  · split
    · exact ite hs.dropPacket.dmaAck hs.dropPacket.dmaNak
    · exact hs
  · exact hs

theorem gridAcked (hs : s.Sound) {k} : (State.gridAcked s k).Sound := by
  unfold State.gridAcked
  dsimp only
  split
  · split
    · split
      · exact hs.dropPacket.dmaAck
      · exact hs.dropPacket
    · exact hs
  · exact hs

theorem nakAtTile (hs : s.Sound) {x h n} : (State.nakAtTile s x h n).Sound := by
  unfold State.nakAtTile
  split
  · exact ite hs.logDownRsp hs
  · split
    · exact ite hs.tldwNak hs.dmaNak
    · split
      · split
        · exact hs.dmaNak
        · exact hs
      · exact ite hs.openStatus (ite hs.onOut hs)

theorem nakPacket (hs : s.Sound) {k} : (State.nakPacket s k).Sound := by
  unfold State.nakPacket
  split
  · split
    · split
      · exact hs.dropPacket.nakAtTile
      · exact hs
    · exact ite (ite hs.dropPacket.logDownRsp hs.dropPacket) hs
    · exact hs
  · exact hs

/-! ## The pacer -/

theorem onPace (hs : s.Sound) {d r f} : (State.onPace s d r f).Sound :=
  hs.same

theorem logPacerSeal (hs : s.Sound) {t d ticks} : (State.logPacerSeal s t d ticks).Sound :=
  hs.logEv

theorem pacerSeal (hs : s.Sound) {t d} : (State.pacerSeal s t d).Sound := by
  unfold State.pacerSeal
  split; exacts [ite hs hs.assertSealInst, hs]

theorem countBallast (hs : s.Sound) {d} : (State.countBallast s d).Sound :=
  hs.same

theorem paceRegionTick (hs : s.Sound) {d r t} : (State.paceRegionTick s d r t).Sound := by
  unfold State.paceRegionTick
  extract_lets c a p lo hi want hold s1 power s2 isSealed s3
  have h1 : s1.Sound := ite hs.countBallast hs
  have h2 : s2.Sound := ite h1.same h1
  have h3 : s3.Sound := ite h2.pacerSeal (ite h2.logPacerSeal h2)
  exact h3.onPace

theorem paceFreeTick (hs : s.Sound) {d r} : (State.paceFreeTick s d r).Sound :=
  onPace (ite hs.countBallast hs)

theorem paceBaseTick (hs : s.Sound) {d} : (State.paceBaseTick s d).Sound :=
  hs.onPace

theorem pacerTick (hs : s.Sound) {d r} : (State.pacerTick s d r).Sound := by
  unfold State.pacerTick
  split
  · exact hs
  · split
    · exact hs.paceBaseTick
    · split
      · exact hs.paceRegionTick
      · exact hs.paceFreeTick

theorem powerStep (hs : s.Sound) {d} : (State.powerStep s d).Sound :=
  ite hs (ite hs hs.onDie)

end Sys2Proof.Machine.State.Sound

end

section
/-! PROOFS. Sections, fronts, layouts and steps keep the invariant (R20, R378, R381). -/

namespace Sys2Proof.Machine.State.Sound

open Sys2Proof Sys2Proof.Machine Sys2Proof.Claims

set_option Elab.async false

variable {s : State}

/-! ## Sections and their loads -/

theorem startLoad (hs : s.Sound) {x i n} : (State.startLoad s x i n).Sound := by
  unfold State.startLoad
  split; exacts [hs, hs.onTile]

theorem shadowLoad (hs : s.Sound) {x} : (State.shadowLoad s x).Sound := by
  unfold State.shadowLoad
  split; exacts [ite hs hs.onTile, hs]

theorem preloadWrite (hs : s.Sound) {x} : (State.preloadWrite s x).Sound := by
  unfold State.preloadWrite
  dsimp only
  split
  · exact hs
  · exact ite hs hs.btPut.onTile

theorem checkReload (hs : s.Sound) : (State.checkReload s).Sound :=
  ite hs.same hs

theorem checkLoaded (hs : s.Sound) {i} : (State.checkLoaded s i).Sound := by
  unfold State.checkLoaded
  split
  · split
    · exact hs.onInst.finishId
    · exact hs.onInst
  · exact hs

theorem loadFailed (hs : s.Sound) {x i} : (State.loadFailed s x i).Sound := by
  unfold State.loadFailed
  split
  · exact hs.onTile.logTile.causeInst
  · split
    · exact hs.onTile.logTile.onInst.finishId
    · exact hs.onTile.logTile

theorem shadowLoadEnd (hs : s.Sound) {x good} : (State.shadowLoadEnd s x good).Sound := by
  unfold State.shadowLoadEnd
  split; exacts [hs, ite hs (ite hs.onTile.checkLoaded.checkReload (ite hs.fresh.onTile hs.loadFailed))]

theorem bankClearDone (hs : s.Sound) {x} : (State.bankClearDone s x).Sound :=
  ite hs hs.onTile

theorem sendToken (hs : s.Sound) {x k p} : (State.sendToken x k s p).Sound := by
  unfold State.sendToken
  split
  · exact hs.same
  · split
    · exact hs.same
    · exact hs

theorem acceptFlits (hs : s.Sound) {x} : (State.acceptFlits s x).Sound :=
  hs.same

theorem closeEndpoints (hs : s.Sound) {x} : (State.closeEndpoints s x).Sound := by
  unfold State.closeEndpoints
  exact onTile (acceptFlits (hs.foldl fun _ _ k => k.closeOut))

theorem releaseSignals (hs : s.Sound) {x} : (State.releaseSignals s x).Sound := by
  unfold State.releaseSignals
  split; exacts [hs, onTile (hs.foldl fun _ _ k => k.sendSignal.signItem)]

theorem swapPins (hs : s.Sound) {x old new} : (State.swapPins s x old new).Sound := by
  unfold State.swapPins
  split; exacts [hs, foldl (hs.foldl fun _ _ k => ite k k.onPin) fun _ _ k => k.onPin]

theorem recheckOpens (hs : s.Sound) {x held} : (State.recheckOpens s x held).Sound :=
  foldl hs.onTile fun _ _ k => k.openAt

theorem enterSection (hs : s.Sound) {x c k} : (State.enterSection s x c k).Sound :=
  ite (swapPins (ite (assertSeal (onTile hs.same)) (onTile hs.same))) (ite (assertSeal (onTile hs.same)) (onTile hs.same))

theorem checkSealLen (hs : s.Sound) {x i} : (State.checkSealLen s x i).Sound :=
  ite hs hs.logTile.onTile.onInst

theorem tileSwap (hs : s.Sound) {x} : (State.tileSwap s x).Sound := by
  unfold State.tileSwap
  dsimp only
  split
  · exact hs
  · split
    · exact hs
    · split
      · exact hs
      · split
        · exact hs
        · refine startLoad ?_
          refine recheckOpens ?_
          refine enterSection ?_
          refine closeEndpoints ?_
          refine releaseSignals ?_
          refine foldl ?_ fun _ _ k => ?_
          · exact hs.checkSealLen
          · exact k.sendToken

/-! ## Fronts and seals -/

theorem flushNet (hs : s.Sound) {t xs} : (State.flushNet s t xs).Sound := by
  unfold State.flushNet
  exact onCtx hs.same

theorem parkSite (hs : s.Sound) {x} : (State.parkSite s x).Sound :=
  ite hs.onTile.swapPins hs.onTile

theorem freshSite (hs : s.Sound) {i x} : (State.freshSite s i x).Sound :=
  hs.parkSite.onTile.startLoad

theorem freshRegion (hs : s.Sound) {l} : (State.freshRegion s l).Sound := by
  unfold State.freshRegion
  split; exacts [hs, foldl hs.flushNet fun _ _ k => k.freshSite]

theorem reloadAll (hs : s.Sound) : (State.reloadAll s).Sound :=
  hs.foldl fun _ _ k => k.onInst.freshRegion

theorem emptyRegion (hs : s.Sound) {i} : (State.emptyRegion s i).Sound :=
  foldl hs.flushNet fun _ _ k => k.parkSite.onTile

theorem writeRecordedDesc (hs : s.Sound) {l step} : (State.writeRecordedDesc s l step).Sound := by
  unfold State.writeRecordedDesc
  split
  · exact hs
  · split
    · split
      · exact hs.writeDesc.markApplied.onInst
      · exact hs
    · exact hs

theorem beginStep (hs : s.Sound) {l k} : (State.beginStep s l k).Sound := by
  unfold State.beginStep
  split
  · exact hs
  · extract_lets t s1 s2 s3
    have h3 : s3.Sound := hs.onCtx.scriv.onInst
    refine ite h3.writeRecordedDesc ?_
    split
    · exact ite h3.applyWait h3
    · exact h3

theorem checkStepCmd (hs : s.Sound) {l} : (State.checkStepCmd s l).Sound := by
  unfold State.checkStepCmd
  split
  · exact hs
  · split
    · exact hs
    · exact ite hs.onInst.finishId hs

theorem finishUnload (hs : s.Sound) {l} : (State.finishUnload s l).Sound := by
  unfold State.finishUnload
  split
  · exact hs
  · next i _ =>
    extract_lets s1 s2 withdrawn s2' s3
    have emptied : s2.Sound := by
      refine emptyRegion ?_
      unfold s1
      split
      · exact hs.finishId
      · exact hs
    have followed : s2'.Sound := by
      unfold s2'
      split
      · refine ite ?_ emptied
        split
        · exact emptied.onCtx.finishId
        · exact emptied.onCtx
      · exact emptied
    split
    · exact finishId (checkReload (same followed))
    · exact checkReload (same followed)

theorem reportSum (hs : s.Sound) {i} : (State.reportSum s i).2.Sound := by
  unfold State.reportSum
  split; exacts [hs, hs.btTake]

theorem twinSign (hs : s.Sound) {i sig} : (State.twinSign s i sig).Sound :=
  ite (sendTwin hs.same) hs

theorem clearAborts (hs : s.Sound) {i} : (State.clearAborts s i).Sound :=
  hs.foldl fun _ _ k => k.onStream

theorem endStep (hs : s.Sound) {l} : (State.endStep s l).Sound := by
  unfold State.endStep
  dsimp only
  split
  · exact hs
  · split
    · exact hs.reportSum.diverge
    · split
      · split
        · refine finishUnload ?_
          refine checkStepCmd ?_
          split
          · split
            · split
              · exact hs.reportSum.scriv.twinSign.clearAborts.onCtx.onInst.writeHeader.onCtx.finishId
              · exact hs.reportSum.scriv.twinSign.clearAborts.onCtx.onInst.writeHeader.onCtx
            · exact hs.reportSum.scriv.twinSign.clearAborts.onCtx.onInst.writeHeader
          · exact hs.reportSum.scriv.twinSign.clearAborts.onCtx.onInst.writeHeader
        · refine checkStepCmd ?_
          split
          · split
            · split
              · exact hs.reportSum.scriv.twinSign.clearAborts.onCtx.onInst.writeHeader.onCtx.finishId
              · exact hs.reportSum.scriv.twinSign.clearAborts.onCtx.onInst.writeHeader.onCtx
            · exact hs.reportSum.scriv.twinSign.clearAborts.onCtx.onInst.writeHeader
          · exact hs.reportSum.scriv.twinSign.clearAborts.onCtx.onInst.writeHeader
      · refine checkStepCmd ?_
        split
        · split
          · split
            · exact hs.reportSum.scriv.twinSign.clearAborts.onCtx.onInst.writeHeader.onCtx.finishId
            · exact hs.reportSum.scriv.twinSign.clearAborts.onCtx.onInst.writeHeader.onCtx
          · exact hs.reportSum.scriv.twinSign.clearAborts.onCtx.onInst.writeHeader
        · exact hs.reportSum.scriv.twinSign.clearAborts.onCtx.onInst.writeHeader

theorem sendFront (hs : s.Sound) {i n step} : (State.sendFront s i n step).Sound :=
  onInst hs.same

theorem injectNow (hs : s.Sound) {i n} : (State.injectNow s i n).Sound :=
  ite hs.sendFront (ite hs.sendFront.onInst.beginStep hs.sendFront.onInst.onCtx.beginStep)

theorem frontInject (hs : s.Sound) {l} : (State.frontInject s l).Sound := by
  unfold State.frontInject
  dsimp only
  split
  · exact hs
  · split
    · exact hs
    · split
      · exact hs
      · exact ite (ite hs.endStep hs) (ite hs (ite hs hs.injectNow))

theorem dropToken (hs : s.Sound) {k} : (State.dropToken s k).Sound :=
  hs.same

theorem frontArrival (hs : s.Sound) {k} : (State.frontArrival s k).Sound := by
  unfold State.frontArrival
  dsimp only
  split
  · exact hs
  · split
    · exact hs
    · split
      · exact ite hs (ite hs.dropToken.logTile (ite hs hs.dropToken.onTile))
      · exact hs.dropToken.logTile

theorem logSealBreak (hs : s.Sound) {i sect k} : (State.logSealBreak s i sect k).Sound :=
  ite hs hs.logEv.onInst

theorem frontExit (hs : s.Sound) {k} : (State.frontExit s k).Sound := by
  unfold State.frontExit
  split
  · exact hs
  · split
    · exact hs
    · refine ite hs ?_
      extract_lets seen exits all isOver s1 token own s2 s3
      have h1 : s1.Sound := hs.dropToken.onInst
      have h2 : s2.Sound := by
        unfold s2
        split
        · exact h1.logSealBreak
        · exact h1
      exact ite hs (ite h1 (ite h2.onInst.endStep h2.onInst))

theorem sealOrigin (hs : s.Sound) {l} : (State.sealOrigin s l).Sound := by
  unfold State.sealOrigin
  split
  · exact hs
  · split
    · exact ite hs.onInst hs
    · exact hs

theorem sealCheck (hs : s.Sound) {x} : (State.sealCheck s x).Sound := by
  unfold State.sealCheck
  split; exacts [hs, ite hs (ite (assertSeal (ite hs.assertSeal.onTile hs)) (ite hs.assertSeal.onTile hs))]

theorem sealRelease (hs : s.Sound) {l} : (State.sealRelease s l).Sound := by
  unfold State.sealRelease
  split; exacts [hs, ite hs (onInst (hs.foldl fun _ _ k => k.onTile))]

theorem budgetExpiry (hs : s.Sound) {l} : (State.budgetExpiry s l).Sound := by
  unfold State.budgetExpiry
  split
  · exact hs
  · split
    · exact hs
    · exact ite hs.onInst hs

theorem returnStream (hs : s.Sound) {l step status own e} : (State.returnStream s l step status own e).Sound :=
  ite hs (ite hs.onStream.endStream (ite hs.onStream.freeStream hs.onStream.rearm))

theorem returnBatches (hs : s.Sound) {i status} : (State.returnBatches s i status).Sound :=
  foldl (hs.foldl fun _ _ k => k.returnStream) fun _ _ k => k.returnStream

theorem quarantine (hs : s.Sound) {t l step} : (State.quarantine s t l step).Sound :=
  foldl (logEv (foldl hs.onCtx fun _ _ k => k.eventEntry)) fun _ _ k => k.checkStepCmd

theorem dropLedgerWait (hs : s.Sound) {t l} : (State.dropLedgerWait s t l).Sound :=
  hs.onCtx

theorem finishAbort (hs : s.Sound) {l c} : (State.finishAbort s l c).Sound := by
  unfold State.finishAbort
  split
  · exact hs
  · extract_lets t step s1 s2 s3 s4 s5 s6 s7
    have h5 : s5.Sound := hs.logEv.dropLedgerWait.eventEntry.returnBatches.onInst.freshRegion.onCtx
    have h7 : s7.Sound := writeHeader (checkStepCmd (ite h5.quarantine h5))
    split
    · exact ite h7.finishUnload h7
    · exact h7

theorem beginAbort (hs : s.Sound) {i} : (State.beginAbort s i).Sound :=
  foldl hs.onInst fun _ _ k => k.onTile

theorem stepAbort (hs : s.Sound) {l} : (State.stepAbort s l).Sound := by
  unfold State.stepAbort
  split
  · exact hs
  · split
    · exact hs
    · exact ite hs (ite (finishAbort (ite hs hs.beginAbort)) (ite hs hs.beginAbort))

/-! ## Layouts -/

theorem grantRegions (hs : s.Sound) {t rs} : (State.grantRegions s t rs).Sound :=
  hs.onCtx

theorem accept (hs : s.Sound) {f} : (State.accept s f).Sound :=
  hs.same

theorem foldlOption {α : Type} {f : Option State → α → Option State} {l : List α} {o : Option State} (ho : ∀ u ∈ o, u.Sound)
    (hf : ∀ o x, (∀ u ∈ o, u.Sound) → ∀ u ∈ f o x, u.Sound) : ∀ u ∈ l.foldl f o, u.Sound := by
  induction l generalizing o with
  | nil => exact ho
  | cons x l ih => exact ih (hf o x ho)

theorem mapRange {t' : State} (hs : s.Sound) {t va n} (e : State.mapRange s t va n = some t') : t'.Sound := by
  refine foldlOption (o := some s) ?_ (fun o p ho u hu => ?_) t' e
  · rintro _ ⟨⟩
    exact hs
  · split at hu
    · cases hu
    · next s' =>
      have k := ho s' rfl
      split at hu
      · obtain ⟨⟨d, v⟩, mapped, rfl⟩ := Option.map_eq_some_iff.mp hu
        exact k.mapFresh mapped
      · cases hu
        exact k

theorem placeImages (hs : s.Sound) {t ims} : (State.placeImages s t ims).2.Sound := by
  unfold State.placeImages
  split
  · exact hs
  · next s1 e =>
    have mapped : s1.Sound := by
      refine foldlOption (o := some s) ?_ (fun o p ho u hu => ?_) s1 e
      · rintro _ ⟨⟩
        exact hs
      · split at hu
        · cases hu
        · next q => exact (ho q rfl).mapRange hu
    split
    · exact hs.memFault
    · exact foldl mapped fun _ _ k => k.vaWrite

theorem readContainer (hs : s.Sound) {t va} : (State.readContainer s t va).2.Sound := by
  unfold State.readContainer
  dsimp only
  split
  · next e =>
    have k0 := of_eq hs.vaRead e
    exact k0
  · next e =>
    have k0 := of_eq hs.vaRead e
    split
    · exact k0
    · split
      · next e =>
        have k1 := of_eq k0.vaRead e
        exact k1
      · next e =>
        have k1 := of_eq k0.vaRead e
        exact k1

theorem acceptLayout (hs : s.Sound) {f k} : (State.acceptLayout s f k).Sound :=
  checkLoaded (freshRegion (accept hs.same))

theorem loadLayout (hs : s.Sound) {ok f} : (State.loadLayout ok f s).Sound := by
  unfold State.loadLayout
  dsimp only
  split
  · exact hs
  · split
    · exact hs.fail
    · split
      · exact hs.fail
      · split
        · exact hs.fail
        · split
          · exact hs.fail
          · split
            · exact hs.fail
            · split
              · next e =>
                have k0 := of_eq hs.readContainer e
                exact k0.fail
              · next e =>
                have k0 := of_eq hs.readContainer e
                split
                · exact k0.fail
                · exact k0.finishResult
                · split
                  · exact k0.fail
                  · split
                    · exact k0.fail
                    · split
                      · next e =>
                        have k1 := of_eq k0.grantRegions.placeImages e
                        exact ite k1.onCtx.finishResult k1.onCtx.fail
                      · next e =>
                        have k1 := of_eq k0.grantRegions.placeImages e
                        exact k1.acceptLayout

theorem unloadLayout (hs : s.Sound) {f} : (State.unloadLayout f s).Sound := by
  unfold State.unloadLayout
  split; exacts [hs.fail, ite hs.fail (ite hs (ite hs.accept.onInst hs.accept.onInst.finishUnload))]

/-! ## Steps, yields and aborts -/

theorem stepCommand (hs : s.Sound) {f} : (State.stepCommand f s).Sound := by
  unfold State.stepCommand
  split
  · exact hs
  · split
    · exact hs.fail
    · exact hs.accept.onInst

theorem setBudget (hs : s.Sound) {f} : (State.setBudget f s).Sound :=
  ite hs.fail hs.onCtx.done

theorem switchBeacons (hs : s.Sound) {t} : (State.switchBeacons s t).Sound :=
  hs.onCtx.tlbDrop

theorem evictStart (hs : s.Sound) {t} : (State.evictStart s t).Sound :=
  hs.foldl fun _ _ k => ite k.onTile k

theorem fillSaveArea (hs : s.Sound) {t} : (State.fillSaveArea s t).Sound := by
  unfold State.fillSaveArea
  refine foldl ?_ fun _ _ k => ?_
  · exact hs
  · split
    · exact k.hbmFree
    · exact k

theorem preemptSave (hs : s.Sound) {t f evict} : (State.preemptSave s t f evict).Sound := by
  unfold State.preemptSave
  refine finish (onCtx (switchBeacons (fillSaveArea ?_)))
  refine same (foldl (foldl hs fun _ _ k => ?_) fun _ _ k => k.parkSite.onTile)
  split
  · exact k.onInst.finishId
  · exact k

theorem preempt (hs : s.Sound) {mode f} : (State.preempt mode f s).Sound := by
  unfold State.preempt
  extract_lets t c fault evict s1 s2
  refine ite hs (ite ?_ (ite hs.fail (ite hs.fail (ite hs.fail ?_))))
  · split
    · exact ite hs.preemptSave hs
    · exact hs
  · split
    · exact hs.memFault.fail
    · have h2 : s2.Sound := ite hs.accept.onCtx.evictStart hs.accept.onCtx
      exact ite h2.preemptSave h2

theorem yieldLimit (hs : s.Sound) {t} : (State.yieldLimit s t).Sound := by
  unfold State.yieldLimit
  split; exacts [hs, ite hs.onCtx.evictStart hs]

theorem restoreBeacon (hs : s.Sound) {t e} : (State.restoreBeacon t s e).Sound :=
  hs.onBeacon.addSignal.grantHeads

theorem restoreTiles (hs : s.Sound) {v} : (State.restoreTiles s v).Sound := by
  refine same (foldl hs fun _ _ k => ?_)
  dsimp only
  split
  · exact k
  · exact ite (ite k.onTile.swapPins k.onTile) (startLoad (ite k.onTile.swapPins k.onTile))

theorem resume (hs : s.Sound) {f} : (State.resume f s).Sound := by
  unfold State.resume
  dsimp only
  split
  · exact hs.fail
  · split
    · exact hs.fail
    · split
      · exact hs.fail
      · split
        · refine fail ?_
          refine foldl ?_ fun _ _ k => ?_
          · refine foldl ?_ fun _ _ k => ?_
            · exact hs.onCtx
            · exact k.onInst
          · exact ite k.finishAbort k.freshRegion
        · refine done ?_
          refine foldl ?_ fun _ _ k => ?_
          · refine restoreTiles ?_
            refine foldl ?_ fun _ _ k => ?_
            · exact hs.onCtx
            · exact k.onInst
          · exact k.restoreBeacon

theorem ringRecords (hs : s.Sound) {t va cap stop n b} : (State.ringRecords t va cap stop n b s).2.Sound := by
  induction n generalizing s b with
  | zero => exact hs
  | succ n ih =>
    unfold State.ringRecords
    refine iteSnd hs ?_
    extract_lets start
    split
    · next e => exact of_eq hs.vaRead e
    · next s1 e =>
      have k : s1.Sound := of_eq hs.vaRead e
      extract_lets size got
      have read : got.2.Sound := iteSnd k k.vaRead
      generalize got = p at read ⊢
      refine iteSnd k ?_
      split
      · exact read
      · next s2 =>
        split
        · next e => exact of_eq (ih read) e
        · next e => exact iteSnd (of_eq (ih read) e) (of_eq (ih read) e)

theorem replayStart (hs : s.Sound) {f} : (State.replayStart f s).Sound := by
  unfold State.replayStart
  dsimp only
  split
  · exact hs
  · split
    · exact hs.fail
    · split
      · exact hs.fail
      · split
        · exact hs.fail
        · split
          · next e =>
            have k0 := of_eq hs.vaRead e
            exact k0.fail
          · next e =>
            have k0 := of_eq hs.vaRead e
            split
            · exact k0.fail
            · split
              · next e =>
                have k1 := of_eq k0.ringRecords e
                exact k1.fail
              · next e =>
                have k1 := of_eq k0.ringRecords e
                split
                · exact k1.fail
                · exact k1.accept.onInst.onCtx

end Sys2Proof.Machine.State.Sound

end

section
/-! PROOFS. The safe state, media, windows, links and time keep the invariant (R20, R378, R381). -/

namespace Sys2Proof.Machine.State.Sound

open Sys2Proof Sys2Proof.Machine Sys2Proof.Claims

set_option Elab.async false

variable {s : State}

/-! ## The safe state and resets -/

theorem logSafeEntry (hs : s.Sound) {cause detail} : (State.logSafeEntry s cause detail).Sound :=
  ite hs.logEv hs

theorem enterSafe (hs : s.Sound) {cause detail src} : (State.enterSafe s cause detail src).Sound :=
  ite hs (ite hs.same (logSafeEntry (same hs.same)))

theorem mainLost (hs : s.Sound) {p} : (State.mainLost s p).Sound :=
  ⟨hs.hostMem, rfl, Nat.zero_le _, Nat.zero_le _, hs.pkg⟩

theorem descentEnd (hs : s.Sound) : (State.descentEnd s).Sound :=
  ite (same (hs.mainLost (p := .p3)) rfl) hs

theorem pwrGoodDeassert (hs : s.Sound) : (State.pwrGoodDeassert s).Sound :=
  ite (same (hs.mainLost (p := .off))) hs

theorem started (hs : s.Sound) : (State.started s).Sound :=
  same (hs.mainLost (p := .p0))

theorem coldReset (hs : s.Sound) {straps} : (State.coldReset s straps).Sound :=
  same hs.started

theorem warmReset (hs : s.Sound) {held} : (State.warmReset s held).Sound :=
  ite (same hs.started rfl) hs

theorem assayClears (hs : s.Sound) : (State.assayClears s).Sound :=
  hs.same

theorem startAssay (hs : s.Sound) {r} : (State.startAssay s r).Sound := by
  unfold State.startAssay
  refine ite hs ?_
  have confirmed : State.Sound { s with ao := { s.ao with confirmed := true } } := hs.same
  split
  · refine logEv ?_
    exact same confirmed.assayClears rfl
  · exact confirmed.enterSafe
  · exact confirmed.logEv.enterSafe

theorem thermalReport (hs : s.Sound) {d t} : (State.thermalReport s d t).Sound := by
  unfold State.thermalReport
  refine ite hs ?_
  extract_lets power s1 w power' s2
  have h1 : s1.Sound := hs.same
  have h2 : s2.Sound := ite (logEv h1.same) (ite (logEv h1.same) h1)
  exact ite h2.enterSafe h2

theorem sidebandLimit (hs : s.Sound) : (State.sidebandLimit s).Sound :=
  ite hs (ite (logEv hs.same) hs.same)

theorem vddAoPowerOn (hs : s.Sound) {stored} : (State.vddAoPowerOn s stored).Sound :=
  ite hs hs.same

/-! ## Media -/

theorem dropWaits (hs : s.Sound) {t p} : (State.dropWaits s t p).Sound := by
  unfold State.dropWaits
  exact onCtx hs.same

theorem awaitJob (hs : s.Sound) {x} : (State.awaitJob s x).Sound :=
  hs.onSess.sendWait

theorem endSession (hs : s.Sound) {x} : (State.endSession s x).Sound := by
  unfold State.endSession
  dsimp only
  split
  · exact hs.dropWaits.onSess.finishId
  · exact hs.dropWaits.onSess

theorem mediaRecord (hs : s.Sound) {x r} : (State.mediaRecord s x r).Sound := by
  unfold State.mediaRecord
  dsimp only
  split
  · exact hs.sendSignal
  · refine sendSignal ?_
    split
    · exact hs.vaWrite.onSess.scrivCtx
    · exact same hs.vaWrite.onSess.scrivCtx

theorem jobOver (hs : s.Sound) {x} : (State.jobOver s x).Sound :=
  ite hs.onSess hs.onSess.awaitJob

theorem awaitSlot (hs : s.Sound) {x} : (State.awaitSlot s x).Sound :=
  hs.onSess.sendWait

theorem outputDone (hs : s.Sound) {x} : (State.outputDone s x).Sound := by
  unfold State.outputDone
  dsimp only
  split
  · exact hs
  · exact ite hs.mediaRecord.onSess.jobOver hs.mediaRecord.onSess.awaitSlot

theorem onDue (hs : s.Sound) {x f} : (State.onDue s x f).Sound :=
  hs.onSess

theorem nextTap (hs : s.Sound) {x} : (State.nextTap s x).Sound := by
  unfold State.nextTap
  dsimp only
  split
  · exact hs
  · split
    · exact hs.outputDone
    · split
      · next e =>
        have k0 := of_eq hs.vaRead e
        exact k0.onDue.outputDone
      · next e =>
        have k0 := of_eq hs.vaRead e
        exact ite k0.onDue.outputDone (ite k0.onDue.outputDone k0.onDue.onSess.sendWait)

theorem writePieces (hs : s.Sound) {x base ps} : (State.writePieces s x base ps).2.Sound := by
  unfold State.writePieces
  refine foldlSnd ?_ fun _ _ k0 => ?_
  · exact hs
  · split
    · exact k0.vaWrite
    · exact k0

theorem mediaOutput (hs : s.Sound) {x} : (State.mediaOutput s x).Sound := by
  unfold State.mediaOutput
  dsimp only
  split
  · exact hs
  · exact ite hs (ite hs.writePieces.onSess.onDue.nextTap hs.writePieces.onSess.onDue.outputDone)

theorem tapScale (hs : s.Sound) {x} : (State.tapScale s x).Sound := by
  unfold State.tapScale
  dsimp only
  split
  · exact hs
  · exact ite hs (ite hs.writePieces.onSess.onDue.nextTap hs.writePieces.onSess.onDue.outputDone)

theorem jobFails (hs : s.Sound) {x j status} : (State.jobFails s x j status).Sound :=
  hs.mediaRecord.jobOver

theorem jobOutputs (hs : s.Sound) {x j os} : (State.jobOutputs s x j os).Sound :=
  ite hs.jobFails hs.onSess.awaitSlot

theorem display (hs : s.Sound) {x j count} : (State.display s x j count).Sound :=
  hs.onSess.jobOutputs

theorem runDecode (hs : s.Sound) {x j k} : (State.runDecode s x j k).Sound :=
  ite hs.onSess.onSess.jobFails hs.onSess.onSess.display

theorem flushDecode (hs : s.Sound) {x j k} : (State.flushDecode s x j k).Sound :=
  hs.onSess.display

theorem writeCoded (hs : s.Sound) {x j va us} : (State.writeCoded s x j va us).Sound := by
  induction us generalizing s va with
  | nil => exact hs
  | cons u us ih =>
    unfold State.writeCoded
    exact ite (ih hs.vaWrite.mediaRecord) hs.vaWrite.mediaRecord

theorem putCoded (hs : s.Sound) {x j} : (State.putCoded s x j).Sound :=
  ite hs.jobFails (ite hs.jobFails hs.onSess.writeCoded.jobOver)

theorem runEncode (hs : s.Sound) {x j k} : (State.runEncode s x j k).Sound :=
  hs.onSess.putCoded

theorem flushEncode (hs : s.Sound) {x j k} : (State.flushEncode s x j k).Sound :=
  hs.onSess.putCoded

theorem runAudio (hs : s.Sound) {x j k} : (State.runAudio s x j k).Sound :=
  ite hs.onSess.jobFails (ite hs.onSess.jobFails (ite hs.onSess.jobFails hs.onSess.jobOutputs))

theorem runScale (hs : s.Sound) {x j v} : (State.runScale s x j v).Sound := by
  unfold State.runScale
  dsimp only
  split
  · next e => exact (of_eq hs.vaRead e).jobFails
  · next e =>
    have k := of_eq hs.vaRead e
    split
    · exact k.jobFails
    · split
      · exact k.jobFails
      · exact k.writePieces.mediaRecord.jobOver

theorem runJob (hs : s.Sound) {x j bs} : (State.runJob s x j bs).Sound := by
  unfold State.runJob
  split; exacts [hs.runDecode, hs.flushDecode, hs.runEncode, hs.flushEncode, ite hs.runAudio hs.jobFails, ite hs.onSess.runAudio hs.jobFails, hs.runScale]

theorem fillWork (hs : s.Sound) {x} : (State.fillWork s x).Sound := by
  unfold State.fillWork
  refine foldl ?_ fun _ _ k => ?_
  · exact hs
  · split
    · exact k.hbmFree
    · exact k

theorem startJob (hs : s.Sound) {x j} : (State.startJob s x j).Sound := by
  unfold State.startJob
  dsimp only
  split
  · exact hs.jobFails
  · split
    · exact hs.jobFails
    · split
      · exact hs.jobFails
      · split
        · exact hs.memFault.jobFails
        · split
          · exact hs.onSess.fillWork.runJob
          · split
            · next e =>
              have k0 := of_eq hs.onSess.vaRead e
              exact k0.jobFails
            · next e =>
              have k0 := of_eq hs.onSess.vaRead e
              exact ite k0.onSess.jobFails k0.fillWork.runJob

theorem takeJob (hs : s.Sound) {x} : (State.takeJob s x).Sound :=
  hs.same rfl

theorem mediaJob (hs : s.Sound) {row x count busy} : (State.mediaJob row x count busy s).Sound := by
  unfold State.mediaJob
  dsimp only
  split
  · exact hs
  · split
    · exact hs
    · split
      · next e =>
        have k0 := of_eq hs.onSess.vaRead e
        exact ite k0.takeJob.jobFails hs
      · next e =>
        have k0 := of_eq hs.onSess.vaRead e
        exact ite hs (ite k0.takeJob.onSess.jobFails k0.takeJob.startJob)

theorem readTaps (hs : s.Sound) {t n} : (State.readTaps s t n).2.Sound := by
  unfold State.readTaps
  refine foldlSnd ?_ fun _ _ k0 => ?_
  · exact hs
  · split
    · exact k0
    · split
      · next e =>
        have k1 := of_eq k0.vaRead e
        exact k1
      · next e =>
        have k1 := of_eq k0.vaRead e
        exact k1

theorem sessionOpen (hs : s.Sound) {f} : (State.sessionOpen f s).Sound := by
  unfold State.sessionOpen
  dsimp only
  split
  · exact hs.fail
  · split
    · exact hs.fail
    · split
      · exact hs.fail
      · split
        · next e =>
          have k0 := of_eq hs.vaRead e
          exact k0.fail
        · next e =>
          have k0 := of_eq hs.vaRead e
          split
          · exact k0.fail
          · split
            · next e =>
              have k1 := of_eq k0.readTaps e
              exact k1.fail
            · next e =>
              have k1 := of_eq k0.readTaps e
              split
              · exact k1.fail
              · split
                · exact k1.fail
                · split
                  · exact k1.fail
                  · split
                    · exact k1.fail
                    · split
                      · exact k1.fail
                      · refine finish ?_
                        refine awaitJob ?_
                        refine foldl ?_ fun _ _ k => ?_
                        · exact ite k1.onSess.applySignal k1.onSess
                        · exact k.applySignal

theorem sessionClose (hs : s.Sound) {f} : (State.sessionClose f s).Sound := by
  unfold State.sessionClose
  split; exacts [ite hs hs.fail, ite (endSession (ite hs hs.accept.onSess)) (ite hs hs.accept.onSess)]

theorem endSessions (hs : s.Sound) {p} : (State.endSessions s p).Sound :=
  hs.foldl fun _ _ k => k.endSession

theorem forceSessions (hs : s.Sound) {md} : (State.forceSessions s md).Sound := by
  unfold State.forceSessions
  refine foldl ?_ fun _ _ k => ?_
  · exact hs
  · split
    · exact k.mediaRecord.endSession
    · exact k.endSession

/-! ## Windows -/

theorem mapExport (hs : s.Sound) {f} : (State.mapExport f s).Sound := by
  unfold State.mapExport
  split
  · exact hs
  · split
    · exact hs.fail
    · split
      · exact hs.fail
      · split
        · exact hs.fail
        · exact finish hs.same

theorem mapImport (hs : s.Sound) {f} : (State.mapImport f s).Sound :=
  ite hs (ite hs.fail (ite hs.fail (by split; exacts [hs.fail, hs.onCtx.finish])))

theorem unmapExport (hs : s.Sound) {f h} : (State.unmapExport s f h).Sound :=
  ite (ite (done hs.same) hs) (ite hs.fail (ite (accept hs.same) (done hs.same)))

theorem unmapImport (hs : s.Sound) {f h} : (State.unmapImport s f h).Sound :=
  ite (ite hs.onCtx.done hs) (ite hs.fail (ite hs.onCtx.accept hs.onCtx.done))

theorem unmapWindow (hs : s.Sound) {f} : (State.unmapWindow f s).Sound :=
  ite hs.fail (ite hs.unmapExport hs.unmapImport)

theorem windowAnswer (hs : s.Sound) {die h row read data status} : (State.windowAnswer s die h row read data status).Sound :=
  hs.addPacket

theorem logPeer (hs : s.Sound) {die t h expected found} : (State.logPeer s die t h expected found).Sound :=
  hs.logEv

theorem windowRequestAt (hs : s.Sound) {k pk die r} : (State.windowRequestAt s k pk die r).Sound := by
  unfold State.windowRequestAt
  dsimp only
  split
  · exact hs.dropPacket.windowAnswer
  · split
    · exact hs.dropPacket.windowAnswer
    · split
      · exact windowAnswer (dropPacket (ite hs.logPeer hs))
      · exact ite hs hs.dropPacket.onPort

theorem windowRequest (hs : s.Sound) {k} : (State.windowRequest s k).Sound := by
  unfold State.windowRequest
  split
  · split
    · exact ite hs.windowRequestAt hs
    · exact hs
  · exact hs

theorem takeMsg (hs : s.Sound) {q n m} : (State.takeMsg s q n m).Sound :=
  ite hs.onPort (ite hs.onPort.linkSend hs.onPort.linkSend)

theorem inbound (hs : s.Sound) {q m late} : (s.inbound q m late).state.Sound := by
  unfold State.inbound
  dsimp only
  split
  · exact hs
  · split
    · unfold State.inboundBt
      split
      · exact hs
      · split
        · exact hs
        · split
          · exact hs.btPut.present
          · exact hs.btRead.present
    · unfold State.inboundHbm
      dsimp only
      split
      · exact hs.translate.memFault
      · split
        · exact hs.translate.hbmWrite
        · exact hs.translate.hbmRead

theorem inboundRow (hs : s.Sound) {q op} : (State.inboundRow s q op).Sound := by
  unfold State.inboundRow
  split
  · exact ite hs.takeMsg.inbound.linkSend hs
  · exact hs

theorem recordWindow (hs : s.Sound) {r handle data} : (State.recordWindow s r handle data).Sound := by
  unfold State.recordWindow
  split
  · split
    · exact hs.scrivCtx
    · exact hs
  · exact hs

theorem responseRow (hs : s.Sound) {q op} : (State.responseRow s q op).Sound := by
  unfold State.responseRow
  split
  · refine ite ?_ hs
    extract_lets s1
    have h1 : s1.Sound := hs.takeMsg
    split
    · exact h1
    · exact ite h1.onPort.windowAnswer (windowAnswer (ite h1.onPort.recordWindow h1.onPort))
  · exact hs

theorem credit (hs : s.Sound) {q} : (State.credit s q).Sound := by
  unfold State.credit
  split; exacts [ite hs.takeMsg.onPort hs, hs]

/-! ## Twins -/

theorem onTwin (hs : s.Sound) {f} : (State.onTwin s f).Sound :=
  hs.same

theorem endBinding (hs : s.Sound) : (State.endBinding s).Sound := by
  unfold State.endBinding
  dsimp only
  split
  · refine finishId ?_
    split
    · exact ite hs.onTwin.onCtx hs.onTwin
    · exact hs.onTwin
  · split
    · exact ite hs.onTwin.onCtx hs.onTwin
    · exact hs.onTwin

theorem twinSafe (hs : s.Sound) {step} : (State.twinSafe s step).Sound :=
  hs.sendTwin.enterSafe

theorem twinLost (hs : s.Sound) {step reason} : (State.twinLost s step reason).Sound :=
  ite hs (ite hs.logEv.twinSafe hs.logEv.endBinding)

theorem twinBind (hs : s.Sound) {f} : (State.twinBind f s).Sound :=
  ite hs (ite hs.fail (ite hs.fail (ite hs.fail (ite hs.fail hs.accept.onTwin.sendTwin))))

theorem twinPeerTimeout (hs : s.Sound) : (State.twinPeerTimeout s).Sound := by
  unfold State.twinPeerTimeout
  dsimp only
  split
  · exact ite hs.onTwin.finishId hs
  · exact hs

theorem sendUnbind (hs : s.Sound) : (State.sendUnbind s).Sound :=
  hs.sendTwin.endBinding

theorem twinUnbind (hs : s.Sound) {f} : (State.twinUnbind f s).Sound :=
  ite (ite hs.sendUnbind hs) (ite hs.fail (ite hs.accept.onTwin.sendUnbind hs.accept.onTwin))

theorem checkBound (hs : s.Sound) : (State.checkBound s).Sound := by
  unfold State.checkBound
  dsimp only
  split
  · exact ite hs.onTwin.finishId hs
  · exact hs

theorem bindRow (hs : s.Sound) : (State.bindRow s).Sound := by
  unfold State.bindRow
  split; exacts [hs, ite hs.takeMsg.twinLost (ite hs (ite hs.takeMsg.onTwin.sendTwin.onTwin.checkBound hs.takeMsg.onTwin))]

theorem twinTake (hs : s.Sound) {kind k} (hk : ∀ a1 s, s.Sound → (k a1 s).Sound) : (State.twinTake s kind k).Sound := by
  unfold State.twinTake
  split; exacts [hs, ite (ite (hk _ _ hs.takeMsg.onTwin) hs.takeMsg.twinLost) hs.takeMsg]

theorem bindAckRow (hs : s.Sound) : (State.bindAckRow s).Sound :=
  hs.twinTake (fun _ _ k => ite k.onTwin.checkBound k)

theorem followRecord (hs : s.Sound) {t x} : (State.followRecord s t x).Sound := by
  unfold State.followRecord
  refine replayRun ?_
  refine onCtx ?_
  split
  · split
    · exact hs.onCtx.onInst
    · exact hs
  · exact hs

theorem recordRow (hs : s.Sound) : (State.recordRow s).Sound := by
  unfold State.recordRow
  exact hs.twinTake (fun _ _ k => (by split; exacts [ite k.followRecord k, k]))

theorem signatureRow (hs : s.Sound) : (State.signatureRow s).Sound :=
  hs.twinTake (fun _ _ k => k.onTwin)

theorem safeRow (hs : s.Sound) : (State.safeRow s).Sound :=
  hs.twinTake (fun _ _ k => ite k.enterSafe k)

theorem unbindRow (hs : s.Sound) : (State.unbindRow s).Sound :=
  hs.twinTake (fun _ _ k => ite k.endBinding k)

theorem twinMismatch (hs : s.Sound) {o p} : (State.twinMismatch s o p).Sound := by
  unfold State.twinMismatch
  dsimp only
  split
  · exact hs.logEv.twinSafe
  · split
    · exact hs.logEv
    · split
      · refine foldl ?_ fun _ _ k => ?_
        · exact hs.logEv
        · exact k.onInst
      · exact hs.logEv

theorem twinCompare (hs : s.Sound) : (State.twinCompare s).Sound := by
  unfold State.twinCompare
  split
  · exact hs
  · split
    · exact hs
    · exact ite hs.onTwin hs.onTwin.twinMismatch

theorem twinSignatureLost (hs : s.Sound) : (State.twinSignatureLost s).Sound := by
  unfold State.twinSignatureLost
  split; exacts [ite hs.onTwin.twinLost hs, hs]

/-! ## Links -/

theorem linkConfig (hs : s.Sound) {f} : (State.linkConfig f s).Sound := by
  unfold State.linkConfig
  split
  · exact hs
  · split
    · exact hs.fail
    · exact ite hs.onEth.onPort.done hs.onEth.onPort.accept

theorem portUp (hs : s.Sound) {p} : (State.portUp s p).Sound := by
  unfold State.portUp
  dsimp only
  split
  · exact hs.onPort.finishId
  · exact hs.onPort

theorem logRetrain (hs : s.Sound) {p reason attempt} : (State.logRetrain s p reason attempt).Sound :=
  hs.logEv

theorem retrain (hs : s.Sound) {p reason} : (State.retrain s p reason).Sound :=
  hs.onPort.logRetrain

theorem portFailed (hs : s.Sound) {p reason} : (State.portFailed s p reason).Sound :=
  ite (twinLost (foldl hs.logEv.onPort fun _ _ k => k.windowAnswer)) (foldl hs.logEv.onPort fun _ _ k => k.windowAnswer)

theorem attemptFailed (hs : s.Sound) {p reason} : (State.attemptFailed s p reason).Sound :=
  ite hs.portFailed hs.onPort.logRetrain

theorem protocolError (hs : s.Sound) {p} : (State.protocolError s p).Sound := by
  unfold State.protocolError
  split; exacts [hs.retrain, hs.attemptFailed, hs.logRetrain, hs]

theorem laneSignalLoss (hs : s.Sound) {p why} : (State.laneSignalLoss s p why).Sound :=
  ite hs.retrain hs

theorem pllLock (hs : s.Sound) {p} : (State.pllLock s p).Sound := by
  unfold State.pllLock
  split
  · exact hs
  · split
    · exact hs.enterSafe
    · exact hs.enterSafe
    · refine foldl ?_ fun _ _ k => ?_
      · exact hs
      · exact k.laneSignalLoss

theorem trainingTimeout (hs : s.Sound) {p} : (State.trainingTimeout s p).Sound := by
  unfold State.trainingTimeout
  dsimp only
  split
  · exact hs
  · split
    · split
      · exact hs.onPort.finishId
      · exact hs.onPort
    · exact hs.attemptFailed
    · exact hs

theorem trainingRetry (hs : s.Sound) {p} : (State.trainingRetry s p).Sound :=
  ite hs.onPort hs

theorem autoNegotiationDone (hs : s.Sound) {p} : (State.autoNegotiationDone s p).Sound :=
  ite hs.portUp hs

theorem ident (hs : s.Sound) {p f} : (State.ident s p f).Sound :=
  ite hs (ite hs.protocolError (ite hs (ite hs.portFailed (ite hs.portFailed (ite hs.portFailed hs.onPort.portUp)))))

theorem replayLink (hs : s.Sound) {p} : (State.replayLink s p).Sound :=
  ite hs (ite hs.onPort.logEv.retrain hs.onPort.logEv)

theorem deliverMsgs (hs : s.Sound) {p ms} : (State.deliverMsgs s p ms).Sound := by
  unfold State.deliverMsgs
  exact hs.onPort

theorem askReplay (hs : s.Sound) {p} : (State.askReplay s p).Sound :=
  hs.onPort

theorem takeHeader (hs : s.Sound) {p c} : (State.takeHeader s p c).Sound :=
  ite hs.onPort.replayLink hs.onPort

theorem codewordRx (hs : s.Sound) {p c} : (State.codewordRx s p c).Sound := by
  unfold State.codewordRx
  extract_lets q s1 s2
  have h1 : s1.Sound := ite hs.onPort hs
  have h2 : s2.Sound := h1.onPort
  exact ite hs (ite hs.onPort.askReplay (ite (ite h1 h1.takeHeader) (ite h1.askReplay (ite h2.protocolError h2.deliverMsgs.takeHeader))))

theorem retryTimeout (hs : s.Sound) {p} : (State.retryTimeout s p).Sound :=
  ite hs.replayLink hs

/-! ## Ethernet -/

theorem onEthRing (hs : s.Sound) {p d f} : (State.onEthRing s p d f).Sound :=
  hs.onEth

theorem ethAwait (hs : s.Sound) {p d} : (State.ethAwait s p d).Sound :=
  ite hs.onEthRing.sendWait hs

theorem ethDisable (hs : s.Sound) {p d} : (State.ethDisable s p d).Sound :=
  hs.dropWaits.onEthRing

theorem ethCfgWrite (hs : s.Sound) {p d v} : (State.ethCfgWrite s p d v).Sound :=
  ite (ite hs hs.ethDisable) hs.onEthRing.ethAwait

theorem ethRingEnable (hs : s.Sound) {t p d v} : (State.ethRingEnable s t p d v).Sound :=
  ite hs.ethCfgWrite hs

theorem ethRingFault (hs : s.Sound) {p d index} : (State.ethRingFault s p d index).Sound :=
  hs.ethDisable.logEv

theorem sendPause (hs : s.Sound) {p} : (State.sendPause s p).Sound :=
  ite hs.onEth (ite hs.onEth hs)

theorem pauseFrame (hs : s.Sound) {p quanta} : (State.pauseFrame s p quanta).Sound :=
  ite hs.onEth hs

theorem ethFrameRx (hs : s.Sound) {p bytes fcsOk} : (State.ethFrameRx s p bytes fcsOk).Sound :=
  ite hs (ite hs.onEth (ite hs.pauseFrame (ite hs (ite hs.suppress (ite hs.onEth hs.onEth.ethAwait.sendPause)))))

theorem dropFrames (hs : s.Sound) {p} : (State.dropFrames s p).Sound :=
  hs.onEth

theorem rxNext (hs : s.Sound) {p} : (State.rxNext s p).Sound :=
  hs.onEth.ethAwait.sendPause

theorem rxDeliver (hs : s.Sound) {p f e} : (State.rxDeliver s p f e).Sound := by
  unfold State.rxDeliver
  dsimp only
  split
  · next e =>
    have k0 := of_eq (vaWrite (by split; exacts [hs.memFault, hs.vaWrite])) e
    exact k0.ethRingFault.dropFrames
  · next e =>
    have k0 := of_eq (vaWrite (by split; exacts [hs.memFault, hs.vaWrite])) e
    exact k0.onEth.sendSignal.scrivCtx.rxNext

theorem rxEntryWrite (hs : s.Sound) {p} : (State.rxEntryWrite s p).Sound := by
  unfold State.rxEntryWrite
  dsimp only
  split
  · exact hs
  · split
    · split
      · next e =>
        have k0 := of_eq hs.vaRead e
        exact k0.ethRingFault.dropFrames
      · next e =>
        have k0 := of_eq hs.vaRead e
        exact k0.rxDeliver
    · exact hs

theorem txComplete (hs : s.Sound) {p e status} : (State.txComplete s p e status).Sound := by
  unfold State.txComplete
  dsimp only
  split
  · next e =>
    have k0 := of_eq hs.onEth.vaWrite e
    exact k0.ethRingFault
  · next e =>
    have k0 := of_eq hs.onEth.vaWrite e
    exact k0.onEthRing.sendSignal.ethAwait

theorem ethTx (hs : s.Sound) {p} : (State.ethTx s p).Sound := by
  unfold State.ethTx
  dsimp only
  split
  · exact hs
  · split
    · next e =>
      have k0 := of_eq hs.vaRead e
      exact k0.ethRingFault
    · next e =>
      have k0 := of_eq hs.vaRead e
      split
      · exact k0.txComplete
      · split
        · next e =>
          have k1 := of_eq k0.vaRead e
          exact k1.txComplete
        · next e =>
          have k1 := of_eq k0.vaRead e
          exact ite k1.txComplete k1.onEth

theorem ethTxDone (hs : s.Sound) {p} : (State.ethTxDone s p).Sound := by
  unfold State.ethTxDone
  dsimp only
  split
  · exact hs
  · split
    · exact hs
    · split
      · next e =>
        have k0 := of_eq hs.vaRead e
        exact k0.onEth.ethRingFault
      · next e =>
        have k0 := of_eq hs.vaRead e
        exact k0.onEth.txComplete

/-! ## Time -/

theorem onTime (hs : s.Sound) {f} : (State.onTime s f).Sound :=
  hs.same

theorem logTime (hs : s.Sound) {code offset} : (State.logTime s code offset).Sound :=
  hs.logEv

theorem steer (hs : s.Sound) : (State.steer s).Sound := by
  unfold State.steer
  exact hs.fresh.onTime

theorem timeLock (hs : s.Sound) : (State.timeLock s).Sound :=
  hs.onTime.logTime

theorem setTimeSource (hs : s.Sound) {f} : (State.setTimeSource f s).Sound :=
  ite hs.fail (ite hs.fail hs.onTime.done)

theorem steerTo (hs : s.Sound) {target} : (State.steerTo s target).Sound :=
  hs.onTime.steer

theorem ppsInEdge (hs : s.Sound) : (State.ppsInEdge s).Sound :=
  ite hs.emit (ite hs (ite hs.onTime.steerTo (ite hs.onTime.timeLock.steerTo hs.onTime.onTime.timeLock)))

theorem loseSource (hs : s.Sound) : (State.loseSource s).Sound :=
  hs.onTime.logTime

theorem ptpSyncTimeout (hs : s.Sound) : (State.ptpSyncTimeout s).Sound :=
  ite hs.loseSource hs

theorem timeSourceReturn (hs : s.Sound) : (State.timeSourceReturn s).Sound :=
  ite (ite hs.onTime.logTime hs.onTime) hs

theorem timeRate (hs : s.Sound) : (State.timeRate s).Sound :=
  ite (logEv (onTime (ite hs.steer hs))) hs

theorem onSlip (hs : s.Sound) {d f} : (State.onSlip s d f).Sound :=
  hs.onTime

theorem gtsSync (hs : s.Sound) {d drift} : (State.gtsSync s d drift).Sound :=
  ite hs (ite hs.onSlip (ite hs.onTime hs.onTime.logEv))

theorem ppsOut (hs : s.Sound) : (State.ppsOut s).Sound :=
  ite hs.onTime hs

theorem ptpMessage (hs : s.Sound) {p e} : (State.ptpMessage s p e).Sound := by
  unfold State.ptpMessage
  split
  · exact hs
  · split
    · exact hs
    · exact hs.onTime
    · exact ite hs (ite hs.steerTo (timeLock (ite hs hs.onTime)))

end Sys2Proof.Machine.State.Sound

end

section
/-! PROOFS. Contexts, pins, domains, host registers and a cycle keep the invariant (R20, R378, R381). -/

namespace Sys2Proof.Machine.State.Sound

open Sys2Proof Sys2Proof.Machine Sys2Proof.Claims

set_option Elab.async false

variable {s : State}

/-! ## Contexts and functions -/

theorem openContext (hs : s.Sound) {f} : (State.openContext f s).Sound := by
  unfold State.openContext
  split; exacts [hs.fail, hs.onCtx.grantRegions.done]

theorem beginClose (hs : s.Sound) {t} : (State.beginClose s t).Sound :=
  foldl hs.onCtx fun _ _ k => checkStepCmd (ite k k.causeInst)

theorem endReplay (hs : s.Sound) {t} : (State.endReplay s t).Sound := by
  unfold State.endReplay
  split
  · exact hs
  · split
    · exact hs.onCtx.finishId
    · exact hs.onCtx

theorem revokeAll (hs : s.Sound) {t} : (State.revokeAll s t).Sound :=
  hs.foldl fun _ _ k => k.onPin

theorem closeRings (hs : s.Sound) {t} : (State.closeRings s t).Sound :=
  hs.foldl fun _ _ k => ite k.ethDisable.ethDisable k

theorem closeWindows (hs : s.Sound) {t} : (State.closeWindows s t).Sound :=
  onCtx hs.same

theorem closeNow (hs : s.Sound) {t} : (State.closeNow s t).Sound := by
  unfold State.closeNow
  extract_lets s1 s2 s3 s4 s5 s6
  have h1 : s1.Sound := foldl hs.endReplay fun _ _ k => k.finishUnload
  have h2 : s2.Sound := foldl h1 fun _ _ k => k.freeStream
  have h4 : s4.Sound := h2.endSessions.closeWindows.stopRecorder.onCtx
  have h5 : s5.Sound := ite h4.endBinding h4
  exact h5.revokeAll.closeRings.switchBeacons.onCtx

theorem closeContext (hs : s.Sound) {f} : (State.closeContext f s).Sound := by
  unfold State.closeContext
  extract_lets t s1 s2
  have h1 : s1.Sound := ite hs hs.accept.beginClose
  have h2 : s2.Sound := ite h1.endReplay h1
  exact ite h2.closeNow.finishId h2

theorem goOnClosing (hs : s.Sound) {t} : (State.goOnClosing s t).Sound :=
  ite (ite (closeNow (ite hs.endReplay hs)) (ite hs.endReplay hs)) hs

theorem muteRing (hs : s.Sound) {r} : (State.muteRing s r).Sound :=
  hs.same

theorem flrVf (hs : s.Sound) {t} : (State.flrVf s t).Sound := by
  have ports : (allPorts.foldl (fun a p => if a.ownsPort t p then (a.dropWaits t fun w => w = .eth p .rx || w = .eth p .tx).onEth p fun e =>
      { e with rx := {}, tx := {}, rxFrames := 0, rxDrops := 0, rxErrors := 0, txFrames := 0 } else a) s).Sound :=
    foldl hs fun _ _ k => ite k.dropWaits.onEth k
  unfold State.flrVf
  exact ite (goOnClosing (beginClose (onCtx (muteRing (same ports))))) (onCtx (muteRing (same ports)))

theorem discard {b : Bool} (hs : s.Sound) : (if b then { s with iq := s.iq.discard } else s).Sound := by
  split
  · exact ⟨hs.hostMem, hs.hbm, hs.log, Nat.zero_le _, hs.pkg⟩
  · exact hs

theorem flrPf0 (hs : s.Sound) : (State.flrPf0 s).Sound :=
  same (discard hs.muteRing)

theorem flrOf (hs : s.Sound) {f} : (State.flrOf s f).Sound := by
  refine foldl ?_ fun _ _ k => k.flrVf
  split
  · exact hs.flrPf0
  · exact hs.same
  · exact hs

theorem vfEnableClear (hs : s.Sound) {t} : (State.vfEnableClear s t).Sound :=
  ite (same hs.flrOf) hs

theorem hostLinkDown (hs : s.Sound) {port} : (State.hostLinkDown s port).Sound :=
  ite (flrOf (logEv hs.same)) hs

theorem faultResolve (hs : s.Sound) {action f} : (State.faultResolve action f s).Sound := by
  unfold State.faultResolve
  split
  · exact hs
  · split
    · exact hs.fail
    · split
      · exact hs.fail
      · exact done (ite hs.tldwRestart hs.causeAt)

/-! ## Pins and the sideband -/

theorem pinPend (hs : s.Sound) {n} : (State.pinPend s n).Sound :=
  ite hs hs.onPin.raise

theorem pinLevel (hs : s.Sound) {n} : (State.pinLevel s n).Sound :=
  ite hs.pinPend hs

theorem gpioTick (hs : s.Sound) {n pad} : (State.gpioTick s n pad).Sound :=
  ite hs (ite hs.onPin.onPin.pinLevel (ite hs.onPin.onPin.pinLevel (ite hs.onPin.onPin.pinPend hs.onPin.onPin.pinLevel)))

theorem gpioOutWrite (hs : s.Sound) {value} : (State.gpioOutWrite s value).Sound :=
  ite hs (hs.foldl fun _ _ k => ite k.onPin k.logEv)

theorem gpioConfig (hs : s.Sound) {f} : (State.gpioConfig f s).Sound :=
  ite hs.fail (ite hs.fail hs.onPin.pinLevel.done)

theorem grantPin (hs : s.Sound) {t n f} : (State.grantPin s t n f).Sound :=
  ite hs.fail (done (ite hs.onPin hs))

theorem revokePin (hs : s.Sound) {t n f} : (State.revokePin s t n f).Sound :=
  ite hs.fail hs.onPin.done

theorem gpioGrantCmd (hs : s.Sound) {withdraw f} : (State.gpioGrantCmd withdraw f s).Sound :=
  ite hs.fail (ite hs (ite hs.revokePin hs.grantPin))

theorem smbReply (hs : s.Sound) {r} : (State.smbReply s r).Sound :=
  hs.same

theorem smbLog (hs : s.Sound) {code bs} : (State.smbLog s code bs).Sound :=
  ite hs.logEv hs

theorem smbWrite (hs : s.Sound) {command x act} (hact : ∀ s, s.Sound → (act s).Sound) : (State.smbWrite s command x act).Sound :=
  ite (smbReply (hact _ hs)) hs.smbLog.smbReply

theorem smbShutdown (hs : s.Sound) {v} : (State.smbShutdown s v).Sound :=
  ite hs.smbLog (ite hs hs.enterSafe)

theorem tap (hs : s.Sound) {ir out f} : (State.tap s ir out f).Sound :=
  hs.same

theorem extestWith (hs : s.Sound) {ir outputs} : (State.extestWith s ir outputs).Sound :=
  hs.tap

/-! ## Domains and power states -/

theorem logDomain (hs : s.Sound) {code d force} : (State.logDomain s code d force).Sound :=
  hs.logEv

theorem closeDie (hs : s.Sound) {d cmd force} : (State.closeDie s d cmd force).Sound :=
  foldl hs.onDie.logDomain fun _ _ k => ite k.onTile k

theorem forceDie (hs : s.Sound) {d} : (State.forceDie s d).Sound := by
  unfold State.forceDie
  split; exacts [hs.foldl fun _ _ k => k.causeInst, hs.forceSessions, hs]

theorem domainDown (hs : s.Sound) {f} : (State.domainDown f s).Sound := by
  unfold State.domainDown
  split
  · exact hs
  · split
    · exact hs.fail
    · exact ite hs.accept.closeDie.forceDie hs.accept.closeDie

theorem returnPacket {d p} {a : List Packet × State} (ha : a.2.Sound) : (State.returnPacket s d a p).2.Sound := by
  unfold State.returnPacket
  split
  · split
    · exact ha.logDownRsp
    · exact ha
  · exact ha

theorem failPorts (hs : s.Sound) {d} : (State.failPorts s d).Sound := by
  unfold State.failPorts
  refine foldl ?_ fun _ _ k => ?_
  · exact hs
  · split
    · exact k.ethDisable.ethDisable.portFailed
    · exact k.ethDisable.ethDisable.portFailed
    · exact k.ethDisable.ethDisable

theorem drainEnd (hs : s.Sound) {d} : (State.drainEnd s d).Sound := by
  unfold State.drainEnd
  dsimp only
  split
  · exact hs
  · exact onDie (same (foldlSnd (ite hs.failPorts hs) fun _ _ k => returnPacket k))

theorem clearTiles (hs : s.Sound) {d} : (State.clearTiles s d).Sound :=
  foldl hs.same fun _ _ k => k.parkSite.onTile

theorem loseDie (hs : s.Sound) {d} : (State.loseDie s d).Sound :=
  clearTiles hs.same

theorem checkP2 (hs : s.Sound) : (State.checkP2 s).Sound :=
  ite (foldl hs.same fun _ _ k => k.finishId) hs

theorem domainOff (hs : s.Sound) {d} : (State.domainOff s d).Sound := by
  unfold State.domainOff
  dsimp only
  split
  · exact hs
  · refine checkP2 ?_
    split
    · exact hs.logDomain.onFeeder.loseDie.onDie.finishId
    · exact hs.logDomain.onFeeder.loseDie.onDie

theorem dieOn (hs : s.Sound) {d} : (State.dieOn s d).Sound :=
  hs.onDie.onFeeder.clearTiles

theorem loadDie (hs : s.Sound) {d} : (State.loadDie s d).Sound :=
  hs.foldl fun _ _ k => k.foldl fun _ _ k => k.freshSite

theorem domainUp (hs : s.Sound) {failing f} : (State.domainUp failing f s).Sound :=
  ite (ite hs (ite hs.onDie.fail hs.dieOn.loadDie.done)) (ite hs.fail (ite hs.fail (ite hs.fail hs.onDie.accept)))

theorem enterP2 (hs : s.Sound) {f} : (State.enterP2 f s).Sound :=
  ite hs (ite (ite hs.done hs.accept) (ite hs.fail (checkP2 (foldl (same hs.accept) fun _ _ k => ite k.closeDie k))))

theorem wake (hs : s.Sound) : (State.wake s).Sound :=
  checkReload (reloadAll (same (hs.foldl fun _ _ k => k.dieOn)))

theorem enterP0 (hs : s.Sound) {f} : (State.enterP0 f s).Sound := by
  refine ite hs.done (ite (ite hs.wake.done hs) (ite hs (foldl ?_ fun _ _ k => k.onDie)))
  exact same (hs.accept (f := f)) rfl

theorem setPowerState (hs : s.Sound) {n act f} (hact : ∀ a1 s, s.Sound → (act a1 s).Sound) : (State.setPowerState n act f s).Sound :=
  ite hs.fail (ite (hact _ _ hs) hs)

theorem setFclk (hs : s.Sound) {f} : (State.setFclk f s).Sound :=
  ite hs.fail (ite hs.fail (ite hs (done hs.same)))

theorem assayTiles (hs : s.Sound) : (State.assayTiles s).Sound :=
  reloadAll (hs.foldl fun _ _ k => ite (k.foldl fun _ _ k => k.parkSite) k)

theorem assayRun (hs : s.Sound) {failing source f} : (State.assayRun failing source f s).Sound := by
  refine ite (ite hs.done hs) (ite hs.fail (ite hs.fail (ite hs.fail (ite hs.finish.logEv.enterSafe ?_))))
  exact ite hs.done (ite hs.accept.assayTiles.done hs.accept.assayTiles)

/-! ## Views of a tile -/

theorem logLiveWrite (hs : s.Sound) {x writer o v} : (State.logLiveWrite s x writer o v).Sound :=
  hs.onTile.logTile

theorem haltOn (hs : s.Sound) {x} : (State.haltOn s x).Sound :=
  ite hs (ite hs.onTile (ite hs.onTile.assertSeal (ite hs.onTile.onTile hs.onTile)))

theorem haltOff (hs : s.Sound) {x} : (State.haltOff s x).Sound :=
  ite hs (ite hs.onTile hs.onTile.onTile)

theorem liveCtrl (hs : s.Sound) {x v} : (State.liveCtrl s x v).Sound :=
  ite hs.onTile.haltOn hs.onTile.haltOff

theorem activeWrite (hs : s.Sound) {x writer o v} : (State.activeWrite s x writer o v).Sound :=
  ite (ite hs (ite hs.onTile hs.onTile.logLiveWrite)) (ite hs.liveCtrl hs.onTile)

theorem shadowWrite (hs : s.Sound) {x o v} : (State.shadowWrite s x o v).Sound :=
  ite hs hs.onTile

/-! ## Host registers -/

theorem ringCfg (hs : s.Sound) {r v} : (State.ringCfg s r v).Sound :=
  discard hs.onRing

theorem ringReg (hs : s.Sound) {r o v} : (State.ringReg s r o v).Sound := by
  unfold State.ringReg
  split; exacts [hs.onRing, hs.onRing, hs.ringCfg, ite hs hs.onRing, hs]

theorem ownedWrite (hs : s.Sound) {f t off value act} (hact : ∀ s, s.Sound → (act s).Sound) : (State.ownedWrite s f t off value act).Sound := by
  unfold State.ownedWrite
  split
  · exact hs
  · split
    · exact ite (hact _ hs) hs.noTarget
    · exact ite (hact _ hs) (ite hs.cfgHostRo hs.noTarget)

theorem ringRow (hs : s.Sound) {f r v on} : (State.ringRow s f r v on).Sound :=
  ite hs (hs.ownedWrite (fun _ k => k.ringCfg))

theorem doorbell (hs : s.Sound) {r tenant off v} : (State.doorbell s r tenant off v).Sound :=
  ite hs.logDoorbellBad hs.onRing

theorem adb (hs : s.Sound) {v} : (State.adb s v).Sound :=
  hs.doorbellEvent.doorbell

theorem cdb (hs : s0.Sound) {t v} : (State.cdb s0 t v).Sound :=
  ite hs.doorbellEvent.logDoorbellBad hs.doorbellEvent.doorbell

theorem apertureHi (hs : s.Sound) {f hi} : (State.apertureHi s f hi).Sound :=
  hs.onFnRegs

theorem fnWrite (hs : s.Sound) {f o v} : (State.fnWrite s f o v).Sound := by
  unfold State.fnWrite
  split; exacts [hs.onFnRegs, hs.apertureHi, hs]

theorem answer (hs : s.Sound) {n v} : (State.answer s n v).Sound :=
  hs.same

theorem gtsRead (hs : s.Sound) {f size} : (State.gtsRead s f size).Sound :=
  ite hs.answer (ite hs.onFnRegs.answer hs.noTarget)

theorem adminWrite (hs : s.Sound) {o v} : (State.adminWrite s o v).Sound := by
  unfold State.adminWrite
  split
  · exact hs.ringReg
  · split
    · exact hs.adb
    · exact hs.same
    · exact hs.same
    · exact hs

theorem ethRingReg (hs : s.Sound) {p d o v} : (State.ethRingReg s p d o v).Sound := by
  unfold State.ethRingReg
  split; exacts [hs.onEthRing, hs.onEthRing, hs.ethCfgWrite, hs]

theorem ethWrite (hs : s.Sound) {t p o v} : (State.ethWrite s t p o v).Sound := by
  unfold State.ethWrite
  split
  · exact hs
  · split
    · exact hs.ethRingReg
    · split
      · exact hs.ethRingReg
      · split
        · exact hs.onEth
        · exact hs.onEth
        · exact hs.onEth
        · exact hs.onEth
        · exact hs

theorem ctxWrite (hs : s.Sound) {t o v} : (State.ctxWrite s t o v).Sound := by
  unfold State.ctxWrite
  split
  · exact hs.ringReg
  · split
    · exact hs.ethWrite
    · split
      · exact hs.cdb
      · exact hs.beaconDoorbell
      · exact hs.beaconDoorbell
      · exact hs

theorem msixWrite (hs : s.Sound) {f i v} : (State.msixWrite s f i v).Sound :=
  ite hs.onFnRegs.onFnRegs.sendMsix hs.onFnRegs

theorem bar0Write (hs : s.Sound) {f off v} : (State.bar0Write s f off v).Sound := by
  unfold State.bar0Write
  split; exacts [hs.fnWrite, hs.adminWrite, ite hs.ctxWrite hs.cfgHostRo, hs.msixWrite, hs, hs]

theorem pacerWrite (hs : s.Sound) {o v} : (State.pacerWrite s o v).Sound :=
  ite (ite hs.same hs.same) hs

theorem gpioWrite (hs : s.Sound) {n o v} : (State.gpioWrite s n o v).Sound := by
  unfold State.gpioWrite
  split; exacts [ite hs.onPin hs, hs.onPin, ite hs.gpioOutWrite hs, hs]

theorem laneWrite (hs : s.Sound) {p o v} : (State.laneWrite s p o v).Sound := by
  unfold State.laneWrite
  split; exacts [hs.onPort, hs.onPort, hs.onPort, hs.onPort, hs]

theorem ctlWrite (hs : s.Sound) {d u o v} : (State.ctlWrite s d u o v).Sound := by
  unfold State.ctlWrite
  split; exacts [ite hs.activeWrite hs.shadowWrite, ite hs.same hs, hs.laneWrite, hs.pacerWrite, ite hs.same hs, hs.gpioWrite, hs]

theorem bar4Write (hs : s.Sound) {f off v} : (State.bar4Write s f off v).Sound := by
  unfold State.bar4Write
  split
  · exact hs.same
  · split
    · exact hs.same
    · split
      · exact hs.ctlWrite
      · exact hs.noTarget

theorem regRead (hs : s.Sound) {four f off size} : (State.regRead s four f off size).Sound := by
  unfold State.regRead
  split
  · exact hs.noTarget
  · split
    · exact hs.gtsRead
    · split
      · exact hs.answer
      · exact hs.noTarget

theorem putWord (hs : s.Sound) {four f off v} : (State.putWord s four f off v).Sound :=
  ite hs.bar4Write hs.bar0Write

theorem regWrite (hs : s.Sound) {four f off size v} : (State.regWrite s four f off size v).Sound := by
  unfold State.regWrite
  split
  · exact hs.noTarget
  · split
    · split
      · exact hs.beaconDoorbell
      · exact hs.putWord.putWord
    · exact hs.putWord

theorem reach (hs : s.Sound) {f a n write} : (State.reach s f a n write).2.Sound := by
  unfold State.reach
  split
  · split
    · exact hs
    · split
      · next e =>
        have k0 := of_eq hs.translate e
        exact k0
      · next e =>
        have k0 := of_eq hs.translate e
        exact k0
  · exact hs

theorem reachAll (hs : s.Sound) {f write ps} : (State.reachAll s f write ps).2.Sound := by
  induction ps generalizing s with
  | nil => exact hs
  | cons p ps ih =>
    obtain ⟨a, n⟩ := p
    unfold State.reachAll
    split
    · next e =>
      have k := of_eq hs.reach e
      split
      · next e2 => exact of_eq (ih k) e2
      · exact ih k
    · next e => exact of_eq hs.reach e

theorem bar2Refuse (hs : s.Sound) {f write off e} : (State.bar2Refuse s f write off e).Sound := by
  unfold State.bar2Refuse
  split; exacts [hs.memFault.noTarget, hs.noTarget]

theorem upsetPiece (hs : s.Sound) {base us p} : (State.upsetPiece s base us p).Sound :=
  hs.foldl fun _ _ k => ite k.setBurstErr k

theorem bar2Read (hs : s.Sound) {f off n us} : (State.bar2Read s f off n us).Sound := by
  unfold State.bar2Read
  dsimp only
  split
  · next e => exact (of_eq hs.reachAll e).bar2Refuse
  · next s1 e =>
    have k : s1.Sound := of_eq hs.reachAll e
    split
    · refine pcieError (same ?_)
      exact foldlSnd₂ k fun _ _ k => k.upsetPiece.hbmRead
    · refine same ?_
      exact foldlSnd₂ k fun _ _ k => k.upsetPiece.hbmRead

theorem wf_foldl_put {es : List ((Byte × Bool) × Nat)} {p : Nat → Byte} {dpa : Nat} {m : Memory} (hm : m.wf = true) :
    (es.foldl (fun h e => if e.1.2 then Memory.put h (dpa + e.2) (e.1.1 ^^^ p (dpa + e.2)) else h) m).wf = true := by
  induction es generalizing m with
  | nil => exact hm
  | cons e es ih =>
    rw [List.foldl_cons]
    split
    · exact ih (Memory.wf_put _ _ _ hm)
    · exact ih hm

theorem hbmWriteEnabled (hs : s.Sound) {dpa bs tenant} : (State.hbmWriteEnabled s dpa bs tenant).Sound := by
  have k (on : Nat → Nat) : ((bursts dpa bs.length).foldl (fun a b => if on b = 0 then a else a.writeBurst b (on b = 64) hostSrc tenant) s).Sound :=
    hs.foldl fun _ _ k => ite k k.writeBurst
  unfold State.hbmWriteEnabled
  refine markSaved ?_
  exact ⟨(k _).hostMem, wf_foldl_put (k _).hbm, (k _).log, (k _).iq, (k _).pkg⟩

theorem bar2Write (hs : s.Sound) {f off bs us} : (State.bar2Write s f off bs us).Sound := by
  unfold State.bar2Write
  dsimp only
  split
  · next e => exact (of_eq hs.reachAll e).bar2Refuse
  · next e => exact foldl (of_eq hs.reachAll e) fun _ _ k => k.upsetPiece.hbmWriteEnabled

theorem configIds (hs : s.Sound) {p f v} : (State.configIds s p f v).Sound :=
  ite hs.same hs.same

theorem configServe (hs : s.Sound) {p r} : (State.configServe s p r).Sound := by
  unfold State.configServe
  split; exacts [hs.same, hs.configIds, hs.configIds, ite (same hs.same) hs.same]

theorem configRequest (hs : s.Sound) {p r} : (State.configRequest s p r).Sound :=
  ite hs (ite hs.configServe hs.same)

theorem completionTimeout (hs : s.Sound) {f e addr} : (State.completionTimeout s f e addr).Sound := by
  unfold State.completionTimeout
  split
  · exact hs
  · split
    · exact ite hs.fetchFailed hs.pcieError
    · exact hs.pcieError

/-! ## A cycle -/

theorem bankCycle (hs : s.Sound) {x} : (State.bankCycle s x).Sound :=
  ite hs (ite (ite hs.onTile hs) hs.onTile)

theorem weighCycle (hs : s.Sound) {x} : (State.weighCycle s x).Sound :=
  ite hs hs.same

theorem holdCycle (hs : s.Sound) {x} : (State.holdCycle s x).Sound := by
  unfold State.holdCycle
  dsimp only
  split
  · split
    · exact ite hs hs.onTile
    · exact hs
  · exact ite hs.onTile hs

theorem freezes (hs : s.Sound) : (State.freezes s).Sound :=
  hs.foldl fun _ _ k => k.onInst

theorem tick (hs : s.Sound) : (State.tick s).Sound := by
  unfold State.tick
  refine ite (foldl (freezes (same ?_)) fun _ _ k => k.goOnClosing) hs
  exact foldl (foldl (hs.foldl fun _ _ k => k.bankCycle) fun _ _ k => k.holdCycle) fun _ _ k => k.weighCycle

end Sys2Proof.Machine.State.Sound

end

section
/-! PROOFS. Every command keeps the invariant, and so does every step (R20, R378, R381). -/

namespace Sys2Proof.Machine.State.Sound

open Sys2Proof Sys2Proof.Machine Sys2Proof.Claims

set_option Elab.async false

variable {s : State}

theorem sendInsn (hs : s.Sound) {x ip ep fs} : Effect (State.sendInsn s x ip ep fs) := by
  unfold State.sendInsn
  split
  · exact hs.sendFlits
  · trivial
  · exact hs.sendClosed
  · exact hs.sendClosed

theorem gtsr (hs : s.Sound) {x sd} : Effect (State.gtsr s x sd) := by
  unfold State.gtsr
  dsimp only
  split
  · refine iteEffect hs.setGts ?_
    split
    · exact hs.diverge
    · exact hs.setGts.markApplied
  · split
    · exact hs.scriv.setGts
    · exact hs.setGts

/-- The state that an outcome goes on with, where it goes on, keeps the invariant. -/
def Kept : Res → Prop
  | .next t => t.Sound
  | _ => True

theorem execCloseStream (hs : s.Sound) {c} : Kept (Machine.execCloseStream c s) :=
  hs.serve fun _ _ k => by
    split
    · exact ite k k.closeStream
    · exact k.closeStream

theorem execStreamQuery (hs : s.Sound) {c} : Kept (Machine.execStreamQuery c s) :=
  hs.serve fun _ _ k => by
    split
    · exact k.fail
    · exact k.finishResult

theorem execRegisterWrite (hs : s.Sound) {space offset size value} : Kept (Machine.execRegisterWrite space offset size value s) := by
  cases space <;> exact ite hs.regWrite hs

theorem execBar2Read (hs : s.Sound) {f bar offset len upsets} : Kept (Machine.execBar2Read f bar offset len upsets s) := by
  refine ite hs ?_
  cases bar
  · exact ite hs.regRead hs.noTarget
  · exact ite hs hs.bar2Read
  · exact ite hs.regRead hs.noTarget

theorem execTld (hs : s.Sound) {i us} : Kept (Machine.execTld i us s) := by
  refine hs.issueM fun _ _ _ _ k => iteEffect (uncorrectable ?_) ?_
  all_goals exact foldlSnd k.upsetBt.presentRows fun _ _ k => k.tldAccess

theorem execTldw (hs : s.Sound) {i} : Kept (Machine.execTldw i s) := by
  refine hs.issueM fun _ _ _ _ k => iteEffect trivial (tldwRun (onM ?_))
  split
  · dsimp only
    split
    · exact k.onM.logRegParity
    · exact k
  · exact k

theorem execVld (hs : s.Sound) {i us} : Kept (Machine.execVld i us s) := by
  refine hs.issueV fun _ _ _ _ k => ?_
  dsimp only
  split
  · exact k.beyondView
  · refine iteEffect (uncorrectable ?_) ?_
    all_goals exact foldlSnd k.upsetBt.presentNarrow fun _ _ k => k.vldWords

theorem execVst (hs : s.Sound) {i} : Kept (Machine.execVst i s) := by
  refine hs.issueV fun _ _ _ _ k => ?_
  split
  · exact k.beyondView
  · exact foldl k.presentNarrow fun _ _ k => k.btPut

/-- Every command keeps the invariant: one lemma of its rows per command. -/
theorem exec (hs : s.Sound) : ∀ c, Kept (Machine.exec c s)
  | .identify _ => hs.serve fun _ _ k => k.finishResult
  | .getGradeMap _ => hs.serve fun _ _ k => k.finishResult
  | .openContext _ => hs.serve fun _ _ k => k.openContext
  | .closeContext _ => hs.serve fun _ _ k => k.closeContext
  | .setShares _ => hs.serve fun _ _ k => k.setShares
  | .loadLayout _ => hs.serve fun _ _ k => k.loadLayout
  | .unloadLayout _ => hs.serve fun _ _ k => k.unloadLayout
  | .step _ => hs.serve fun _ _ k => k.stepCommand
  | .yield _ => hs.serve fun _ _ k => k.preempt
  | .evict _ => hs.serve fun _ _ k => k.preempt
  | .resume _ => hs.serve fun _ _ k => k.resume
  | .setBudget _ => hs.serve fun _ _ k => k.setBudget
  | .memMap _ => hs.serve fun _ _ k => k.memMap
  | .memUnmap _ => hs.serve fun _ _ k => k.memUnmap
  | .faultResolveResume _ => hs.serve fun _ _ k => k.faultResolve
  | .faultResolveAbort _ => hs.serve fun _ _ k => k.faultResolve
  | .mapWindowExport _ => hs.serve fun _ _ k => k.mapExport
  | .mapWindowImport _ => hs.serve fun _ _ k => k.mapImport
  | .unmapWindow _ => hs.serve fun _ _ k => k.unmapWindow
  | .openStream _ => hs.serve fun _ _ k => k.openStream
  | .closeStream _ => hs.execCloseStream
  | .streamInput _ => hs.serve fun _ _ k => k.streamInput
  | .streamQuery _ => hs.execStreamQuery
  | .ledgerBind _ => hs.serve fun _ _ k => k.ledgerBind
  | .setPlacement _ => hs.serve fun _ _ k => k.setPlacement
  | .beaconConfig _ => hs.serve fun _ _ k => k.beaconConfig
  | .mediaSessionOpen _ => hs.serve fun _ _ k => k.sessionOpen
  | .mediaSessionClose _ => hs.serve fun _ _ k => k.sessionClose
  | .recordStart _ => hs.serve fun _ _ k => k.recordStart
  | .recordStop _ => hs.serve fun _ _ k => k.recordStop
  | .replayStart _ => hs.serve fun _ _ k => k.replayStart
  | .twinBind _ => hs.serve fun _ _ k => k.twinBind
  | .twinUnbind _ => hs.serve fun _ _ k => k.twinUnbind
  | .assayRun _ _ _ => hs.serve fun _ _ k => k.assayRun
  | .domainDown _ => hs.serve fun _ _ k => k.domainDown
  | .domainUp _ _ => hs.serve fun _ _ k => k.domainUp
  | .setPowerStateP0 _ => hs.serve fun _ _ k => k.setPowerState (fun _ _ k => k.enterP0)
  | .setPowerStateP2 _ => hs.serve fun _ _ k => k.setPowerState (fun _ _ k => k.enterP2)
  | .setPowerStateP3 _ => hs.serve fun _ _ k => k.setPowerState (fun _ _ k => k.enterSafe)
  | .setFclk _ => hs.serve fun _ _ k => k.setFclk
  | .setTimeSource _ => hs.serve fun _ _ k => k.setTimeSource
  | .gpioGrant _ => hs.serve fun _ _ k => k.gpioGrantCmd
  | .revoke _ => hs.serve fun _ _ k => k.gpioGrantCmd
  | .gpioConfig _ => hs.serve fun _ _ k => k.gpioConfig
  | .linkConfig _ => hs.serve fun _ _ k => k.linkConfig
  | .nopCommand _ => hs.serve fun _ _ k => k.done
  | .commandFetch _ _ => hs.commandFetch
  | .adbWrite _ _ _ => ite (hs.ownedWrite (fun _ k => k.adb)) (ite hs.noTarget hs)
  | .cdbWrite _ _ _ _ => ite (hs.ownedWrite (fun _ k => k.cdb)) (ite hs.noTarget hs)
  | .doorbellSignal _ _ _ _ => hs.beaconDoorbell
  | .doorbellTake _ _ _ _ => hs.beaconDoorbell
  | .ringEnable _ _ _ => hs.ringRow
  | .ringDisable _ _ _ => hs.ringRow
  | .ethRingEnable _ _ _ _ => hs.ethRingEnable
  | .apertureBaseWrite _ _ => ite hs.apertureHi hs
  | .gtsLoRead _ _ => ite hs.gtsRead hs
  | .cfgHostRo _ _ _ _ => ite hs.cfgHostRo hs
  | .registerWrite _ _ _ _ => hs.execRegisterWrite
  | .activeViewWrite _ _ _ _ => ite hs.activeWrite hs
  | .shadowViewWrite _ _ _ _ => ite hs.shadowWrite hs
  | .debugHaltSet _ => ite hs.haltOn hs
  | .debugHaltClear _ => ite hs.haltOff hs
  | .bar2Read _ _ _ _ _ => hs.execBar2Read
  | .bar2Write _ _ _ _ => ite hs.bar2Write hs
  | .configRequest _ _ => hs.configRequest
  | .completionTimeout _ _ _ => hs.completionTimeout
  | .flr _ => ite hs.flrOf hs
  | .vfEnableClear _ => hs.vfEnableClear
  | .hostLinkDown _ => hs.hostLinkDown
  | .coldReset _ => hs.coldReset
  | .warmReset _ => hs.warmReset
  | .pwrGoodDeassert => hs.pwrGoodDeassert
  | .startAssay _ => hs.startAssay
  | .pllLock _ => hs.pllLock
  | .thermtripN => hs.enterSafe
  | .thermalReport _ _ => hs.thermalReport
  | .sidebandLimit => hs.sidebandLimit
  | .heartbeat => ite hs.enterSafe hs
  | .lockstep => ite hs.enterSafe hs
  | .descentEnd => hs.descentEnd
  | .twinSync => ite hs.enterSafe hs
  | .ppsInEdge => hs.ppsInEdge
  | .timeHoldover => ite hs.loseSource hs
  | .ptpSyncTimeout => hs.ptpSyncTimeout
  | .timeRate => hs.timeRate
  | .gtsSync _ _ => hs.gtsSync
  | .ppsOut => hs.ppsOut
  | .eventArrival _ => hs.eventArrival
  | .watermark _ => hs.watermark
  | .commitTimeout => ite hs.commitAll hs
  | .feederSilent _ => hs.feederSilent
  | .logWrite => hs.logWrite
  | .iqCopy => hs.iqCopy
  | .pendingNotification _ => hs.pendingNotification
  | .tld _ _ => hs.execTld
  | .tst _ => hs.issueM fun _ _ _ _ k => foldl k.presentRows fun _ _ k => k.btPut
  | .tldw _ => hs.execTldw
  | .tldwFault _ => hs.tldwFaultEnd
  | .tmma _ => hs.issueM fun _ _ _ _ k => k.onM
  | .tcvt _ => hs.issueM fun _ _ _ _ k => k.onTile
  | .tlda _ => hs.issueM fun _ _ _ _ k => k.onM
  | .trel _ => hs.issueM fun _ _ _ _ k => k.onM
  | .tdma _ => hs.issueM fun _ _ _ _ k => iteEffect k.dmaPost trivial
  | .tsend _ => hs.issueM fun _ _ _ _ k => k.sendInsn
  | .wcinv _ => hs.issueM fun _ _ _ _ k => iteEffect trivial k.onM
  | .vop _ => hs.issueVec
  | .vfma _ => hs.issueVec
  | .vcmp _ => hs.issueVec
  | .vsf _ => hs.issueVec
  | .vred _ => hs.issueVec
  | .vperm _ => hs.issueVec
  | .vcvt _ => hs.issueV fun _ _ _ _ k => iteEffect k.onV.onTile k.onV
  | .vld _ _ => hs.execVld
  | .vst _ => hs.execVst
  | .vprd _ => hs.issueV fun _ _ _ _ k => iteEffect trivial k.onV
  | .vsend _ => hs.issueV fun _ _ _ _ k => k.sendInsn
  | .vmovs _ => hs.issueVec
  | .mop _ => hs.issueVec
  | .dmapost _ => hs.issueV fun _ _ _ _ k => iteEffect k.beyondView (iteEffect k.dmaPost trivial)
  | .nop _ => hs.issue fun _ _ _ _ k => k
  | .secend _ => hs.issue fun _ _ _ _ k => k.advance.onTile
  | .loop _ => hs.issue fun _ _ _ _ k => iteEffect k k
  | .br _ => hs.issue fun _ _ _ _ k => iteEffect k.countBranch k
  | .jmp _ => hs.issue fun _ _ _ _ k => k.countBranch
  | .call _ => hs.issue fun _ _ _ _ k => k.countBranch.onTile
  | .ret _ => hs.issue fun _ _ _ _ k => k.countBranch.onTile
  | .sli _ => hs.issue fun _ _ _ _ k => k.setScalar
  | .sop _ => hs.issue fun _ _ _ _ k => k.setScalar
  | .imw _ => hs.issue fun _ _ _ _ k => k.onTile
  | .ifence _ => hs.issue fun _ _ _ _ k => k
  | .openCh _ => hs.issue fun _ _ _ _ k => k.openInsn
  | .closeCh _ => hs.issue fun _ _ _ _ k => iteEffect trivial k.closeOut
  | .bsig _ => hs.issue fun _ _ _ _ k => k.tileSignal
  | .bwait _ => hs.issue fun _ _ _ _ k => k.sendWait.onTile
  | .gtsr _ => hs.issue fun _ _ _ _ k => k.gtsr
  | .copyLocal _ _ => hs.copyLocal
  | .fill _ => hs.dmaFill
  | .gridWrite _ _ => hs.gridWrite
  | .hbmRead _ => hs.dmaRead
  | .hbmWrite _ _ => hs.dmaWrite
  | .windowRead _ => hs.windowRead
  | .windowWrite _ _ => hs.dmaWrite
  | .dmaCompletion _ => ite hs.dmaCompletions hs
  | .gridWriteFlit _ => hs.gridWriteFlit
  | .gridWriteAck _ => hs.gridAcked
  | .readResponse _ => hs.readResponse
  | .hbmWriteAck _ => hs.writeAcked
  | .nakPacket _ => hs.nakPacket
  | .flowPacketHop _ _ => hs.flowHop
  | .scheduledFlit _ _ => hs.schedHop
  | .openRequest _ => hs.openRequest
  | .openReply _ => hs.openReply
  | .closeMarker _ => hs.closeMarker
  | .portFlit _ => hs.portFlit
  | .ringFlit _ => hs.ringFlit
  | .tallyFlit _ => hs.tallyFlit
  | .tallyEmit _ _ _ => hs.tallyEmit
  | .beaconSignal _ => hs.beaconSignal
  | .beaconWait _ => hs.beaconWait
  | .beaconGrant _ => hs.beaconGrant
  | .shadowLoad _ => hs.shadowLoad
  | .shadowLoadEnd _ _ => hs.shadowLoadEnd
  | .preloadWrite _ => hs.preloadWrite
  | .eccWriteBack _ => hs.eccWriteBack
  | .bankClearDone _ => hs.bankClearDone
  | .frontInject _ => hs.frontInject
  | .frontTokenArrival _ => hs.frontArrival
  | .tileSwap _ => hs.tileSwap
  | .frontExit _ => hs.frontExit
  | .sealOrigin _ => hs.sealOrigin
  | .sealCheck _ => hs.sealCheck
  | .sealStallRelease _ => hs.sealRelease
  | .pacerTick _ _ _ _ => hs.foldl fun _ _ k => k.pacerTick
  | .powerStep _ => hs.powerStep
  | .drainEnd _ => hs.drainEnd
  | .domainOff _ => hs.domainOff
  | .budgetExpiry _ => hs.budgetExpiry
  | .stepAbort _ => hs.stepAbort
  | .yieldLimit _ => hs.yieldLimit
  | .compose _ => hs.compose
  | .mediaRecordInput _ => hs.mediaRecordInput
  | .decodeAu _ _ => hs.mediaJob
  | .decodeFlush _ _ => hs.mediaJob
  | .encodeFrame _ _ => hs.mediaJob
  | .encodeFlush _ _ => hs.mediaJob
  | .audioPacket _ _ => hs.mediaJob
  | .audioConfig _ _ => hs.mediaJob
  | .scale _ _ => hs.mediaJob
  | .mediaOutput _ => hs.mediaOutput
  | .tapScale _ => hs.tapScale
  | .hbmRequest _ _ => hs.hbmRequest
  | .patrolScrub _ _ => hs.patrolScrub
  | .refresh _ => hs.refresh
  | .translation _ => hs.translation
  | .windowRequest _ => hs.windowRequest
  | .ethFrameRx _ _ _ => hs.ethFrameRx
  | .rxEntryWrite _ => hs.rxEntryWrite
  | .pauseFrame _ _ => hs.pauseFrame
  | .ethTx _ => hs.ethTx
  | .ethTxDone _ => hs.ethTxDone
  | .ptpMessage _ _ => hs.ptpMessage
  | .codewordRx _ _ => hs.codewordRx
  | .retryTimeout _ => hs.retryTimeout
  | .laneSignalLoss _ _ => hs.laneSignalLoss
  | .ident _ _ => hs.ident
  | .trainingTimeout _ => hs.trainingTimeout
  | .trainingRetry _ => hs.trainingRetry
  | .write _ => hs.inboundRow
  | .read _ => hs.inboundRow
  | .readData _ => hs.responseRow
  | .writeAck _ => hs.responseRow
  | .nak _ => hs.responseRow
  | .credit _ => hs.credit
  | .bind => hs.bindRow
  | .bindAck => hs.bindAckRow
  | .record => hs.recordRow
  | .signature => hs.signatureRow
  | .safe => hs.safeRow
  | .unbind => hs.unbindRow
  | .twinCompare => hs.twinCompare
  | .twinSignatureLost => hs.twinSignatureLost
  | .gpioTick _ _ => hs.gpioTick
  | .gpioOutWrite _ => hs.gpioOutWrite
  | .smbusIdent _ => hs.smbReply
  | .smbusState _ => hs.smbReply
  | .smbusFault _ => hs.smbReply
  | .faultClear _ => hs.smbWrite fun _ k => ite k.same k
  | .temp _ => hs.smbReply
  | .tempDie _ => hs.smbReply
  | .power _ _ => hs.smbReply
  | .startCount _ => hs.smbReply
  | .shutdown _ => hs.smbWrite fun _ k => k.smbShutdown
  | .alertResponse => hs.smbReply
  | .tapReset => hs.tap
  | .extest _ => hs.extestWith
  | .samplePreload _ _ => hs.tap
  | .idcode => hs.tap
  | .extestPulse _ => hs.extestWith
  | .extestTrain _ => hs.extestWith
  | .bypass _ => ite hs hs.tap
  | .vddAoPowerOn _ => hs.vddAoPowerOn
  | .autoNegotiationDone _ => hs.autoNegotiationDone
  | .pauseExpiry _ => hs.onEth
  | .vdd1v8Removal => hs.same
  | .timeSourceReturn => hs.timeSourceReturn
  | .twinPeerTimeout => hs.twinPeerTimeout
  | .clamp => hs.tap
  | .highz => hs.tap

theorem step (hs : s.Sound) : Kept (Machine.step s) := by
  unfold Machine.step
  split
  · exact hs.tick
  · exact exec hs.same _

end Sys2Proof.Machine.State.Sound

namespace Sys2Proof.Proofs

open Sys2Proof Sys2Proof.Machine Sys2Proof.Claims

/-- Settles O58, by one lemma per operation of the state, composed along the arms of the dispatch. -/
theorem everyStepKeepsTheInvariant : Obligations.EveryStepKeepsTheInvariant := by
  intro s t hs stepped
  have kept := hs.step
  rwa [stepped] at kept

end Sys2Proof.Proofs

end

section
/-! PROOFS. The placement of a context: what an open, and a SET_PLACEMENT, leave of it (R286). -/

namespace Sys2Proof.Proofs

open Sys2Proof Sys2Proof.Machine Sys2Proof.Claims

variable {s : State} {c : Serve} {f : Started}

/-- A command that completes where one context's placement was set completes in the state before, and the context has that placement. -/
theorem finishes_withPlacement {t : State} {p : Placement} {st : Status}
    (ends : Finishes (s.onCtx f.tenant fun k => { k with placement := p }) f st 0 t) :
    Completed s f st 0 t ∧ (t.ctx f.tenant).placement = p := by
  obtain ⟨completed, -, ctxs⟩ := ends
  refine ⟨completed_congr (u := s.onCtx f.tenant _) rfl (onCtx_complSel s _ _ rfl _) rfl completed, ?_⟩
  have own := congrArg Context.placement (ctxs f.tenant)
  rwa [State.ctx_onCtx_self] at own

theorem openContext_places_firstFree (served : Serves s c 0x03 f) (allowed : s.openRefusal f = none) :
    ∃ t, exec (.openContext c) s = .next t ∧ (t.ctx f.tenant).placement = .firstFree := by
  obtain ⟨-, -, ctxs⟩ := finishes_finish (s := withOpened s f) f OK 0 (safePending_of_serves served)
  exact ⟨_, exec_openContext_of_allowed served allowed,
    congrArg Context.placement ((ctxs f.tenant).trans (withOpened_ctx_self s f))⟩

theorem setPlacement_refuses (served : Serves s c 0x16 f) (lead : s.isFollow f.tenant = false)
    (bad : 1 < f.p 20 1 ∨ (f.p 20 1 = 1 ∧ f.p 21 1 = 0)) : ∃ t, exec (.setPlacement c) s = .next t ∧ Finishes s f E_BAD_FIELD 0 t := by
  refine ⟨_, rfl, serve_finishes served rfl ?_⟩
  simp [State.setPlacement, lead, bad, State.fail]

/-- Settles O50, from the three outcomes of SET_PLACEMENT and the placement of an opened context. -/
theorem placementIsFirstFreeOrAffinity : Obligations.PlacementIsFirstFreeOrAffinity := by
  refine ⟨fun _ _ _ => openContext_places_firstFree, fun c f s served lead kind => ?_, fun c f s served lead kind some_n => ?_,
    fun _ _ _ => setPlacement_refuses⟩
  · obtain ⟨t, goes, ends⟩ := setPlacement_firstFree served lead kind
    exact ⟨t, goes, finishes_withPlacement ends⟩
  · obtain ⟨t, goes, ends⟩ := setPlacement_affinity served lead kind some_n
    obtain ⟨completed, placed⟩ := finishes_withPlacement ends
    have byte : f.p 21 1 < 256 := p_lt f 21 1
    have limit : (BitVec.ofNat 8 (f.p 21 1)).toNat = f.p 21 1 := toNat_p f 21 1
    exact ⟨t, _, goes, completed, placed, limit, limit.symm ▸ some_n, limit.symm ▸ Nat.le_of_lt_succ byte⟩

end Sys2Proof.Proofs

end

section
/-! PROOFS. Fetches of command entries: the failed one stops its ring (R300, R308). -/

namespace Sys2Proof.Proofs

open Sys2Proof Sys2Proof.Machine Sys2Proof.Claims

theorem ring_onRing_other {q p : RingSel} (s : State) (g : Ring → Ring) (h : q ≠ p) : (s.onRing p g).ring q = s.ring q := by
  cases p with
  | asq =>
    cases q with
    | asq => exact absurd rfl h
    | _ => rfl
  | acq =>
    cases q with
    | acq => exact absurd rfl h
    | _ => rfl
  | log =>
    cases q with
    | log => exact absurd rfl h
    | _ => rfl
  | iq =>
    cases q with
    | iq => exact absurd rfl h
    | _ => rfl
  | csq t | ccq t | fault t =>
    cases q with
    | csq u | ccq u | fault u =>
      by_cases same : u = t
      · simp_all [State.onRing, State.ring]
      · simp [State.onRing, State.ring, State.ctx_onCtx_other s _ same]
    | _ => rfl

section
variable (s : State) (r : SubRing) (e : HostError)

/-- The PCIe error of a failed fetch. -/
def fetchError : State :=
  s.pcieError (ringFn (subSel r)) (hostErrorKind e) ((s.ring (subSel r)).addr (s.ring (subSel r)).cons 64)

/-- A ring's number and tenant in RING_FAULT. -/
def ringName : SubRing → Byte × Byte
  | .admin => (0, noTenant)
  | .ctx c => (4, tenantByte c)

theorem fetchFailed_eq : s.fetchFailed r e =
    (fetchError s r e).ringFault (subSel r) (ringName r).1 (ringName r).2 (s.ring (subSel r)).cons := by
  cases r <;> rfl

theorem fetchFailed_ring_self : (s.fetchFailed r e).ring (subSel r) = { s.ring (subSel r) with stopped := true, enable := false } := by
  rw [fetchFailed_eq, State.ringFault, State.logEv_ring, State.ring_onRing_self]
  cases r <;> rfl

theorem fetchFailed_ring_other {q : RingSel} (h : q ≠ subSel r) : (s.fetchFailed r e).ring q = s.ring q := by
  rw [fetchFailed_eq, State.ringFault, State.logEv_ring, ring_onRing_other _ _ h]
  cases q <;> rfl

theorem fetchFailed_host : (s.fetchFailed r e).host.started = s.host.started ∧ (s.fetchFailed r e).serving = s.serving := by
  cases r <;> exact ⟨rfl, rfl⟩

theorem commandFetch_of_failed {a : HostAnswer} (turn : s.mayFetch r = true) (failed : failedBy a = some e) :
    exec (.commandFetch r a) s = .next (s.fetchFailed r e) := by
  change Host.Outcome.next (s.commandFetch r a) = _
  unfold State.commandFetch
  rw [if_pos turn]
  cases a <;> cases failed <;> rfl

end

/-- A NOP that was served before a failed fetch completes after it. -/
theorem nopCommand_finishes {s : State} {c : Serve} {f : Started} (served : Serves s c 0x28 f) :
    ∃ u, exec (.nopCommand c) s = .next u ∧ Finishes s f OK 0 u :=
  ⟨_, rfl, serve_finishes served rfl rfl⟩

/-- Settles O51, by the ring, the log entry and the commands in progress of the failed fetch. -/
theorem aFailedFetchStopsItsRing : Obligations.AFailedFetchStopsItsRing := by
  intro r a e s turn failed
  have stopped := fetchFailed_ring_self s r e
  obtain ⟨started, serving⟩ := fetchFailed_host s r e
  refine ⟨_, commandFetch_of_failed s r e turn failed, congrArg Ring.stopped stopped, congrArg Ring.enable stopped,
    fun q other => fetchFailed_ring_other s r e other, started, ?_, fun c f served => nopCommand_finishes ?_⟩
  · cases r <;> rfl
  · rw [Serves, started, serving]
    exact served

end Sys2Proof.Proofs

end

section
/-! PROOFS. The host's rings and doorbells: PROD, DOORBELL_BAD, and what the writes that set or clear ENABLE leave (R50, R302 to R304, R381). -/

namespace Sys2Proof.Proofs

open Sys2Proof Sys2Proof.Machine Sys2Proof.Claims

/-! ## One ring changes -/

theorem onlyRing_onRing (s : State) (r : RingSel) (g : Ring → Ring) : OnlyRing r s (s.onRing r g) :=
  ⟨fun _ other => ring_onRing_other s g other, by simp, by simp, by simp⟩

@[simp] theorem doorbellEvent_ring (s : State) (port : Nat) (r : RingSel) : (s.doorbellEvent port).ring r = s.ring r := by
  cases r <;> rfl

@[simp] theorem doorbellEvent_ctx (s : State) (port : Nat) (c : Tenant) : (s.doorbellEvent port).ctx c = s.ctx c := rfl

/-! ## Doorbells (R304) -/

section
variable {s : State} {r : RingSel} {c : Tenant} {v : Word} (tenant : Byte) (off : Nat)

theorem doorbell_of_takes (takes : DoorbellTakes (s.ring r) v) : s.doorbell r tenant off v = s.onRing r fun g => { g with prod := v } := by
  refine if_neg ?_
  simpa only [Bool.or_eq_true, decide_eq_true_eq, not_or, Nat.not_lt, DoorbellTakes] using takes

theorem doorbell_of_not_takes (refused : ¬ DoorbellTakes (s.ring r) v) :
    s.doorbell r tenant off v = s.logDoorbellBad tenant off v.toNat := by
  refine if_pos ?_
  simpa only [Bool.or_eq_true, decide_eq_true_eq, DoorbellTakes, not_and_or, Nat.not_le] using refused

theorem exec_adbWrite (live : s.fnLive .pf0 = true) : exec (.adbWrite .pf0 4 v) s = .next (s.adb v) := by
  change Host.Outcome.next (s.ownedWrite .pf0 none 0x1100 v.toNat fun s => s.adb v) = _
  simp [State.ownedWrite, live]

theorem exec_cdbWrite (live : s.fnLive (.vf c) = true) : exec (.cdbWrite (.vf c) c 4 v) s = .next (s.cdb c v) := by
  change Host.Outcome.next (s.ownedWrite (.vf c) (some c) (ctxOffset c 0x0100) v.toNat fun s => s.cdb c v) = _
  simp [State.ownedWrite, live, ownPage]

/-- An ADB write whose value the admin ring takes. -/
theorem adb_of_takes (takes : DoorbellTakes (s.ring .asq) v) :
    s.adb v = (s.doorbellEvent (s.fnPort .pf0)).onRing .asq fun g => { g with prod := v } :=
  doorbell_of_takes _ _ (by rwa [doorbellEvent_ring])

/-- An ADB write whose value the admin ring does not take. -/
theorem adb_of_not_takes (refused : ¬ DoorbellTakes (s.ring .asq) v) :
    s.adb v = (s.doorbellEvent (s.fnPort .pf0)).logDoorbellBad noTenant 0x1100 v.toNat :=
  doorbell_of_not_takes _ _ (by rwa [doorbellEvent_ring])

/-- A CDB write whose value the ring of an open context takes. -/
theorem cdb_of_takes (isOpen : (s.ctx c).isOpen = true) (stays : (s.ctx c).closing = false) (takes : DoorbellTakes (s.ring (.csq c)) v) :
    s.cdb c v = (s.doorbellEvent (s.fnPort (.vf c))).onRing (.csq c) fun g => { g with prod := v } := by
  have doorbell := doorbell_of_takes (s := s.doorbellEvent (s.fnPort (.vf c))) (tenantByte c) (ctxOffset c 0x0100) (by rwa [doorbellEvent_ring])
  refine (if_neg ?_).trans doorbell
  simpa using ⟨isOpen, stays⟩

/-- A CDB write of a context that is not open, or closes. -/
theorem cdb_of_not_open (absent : (s.ctx c).isOpen = false ∨ (s.ctx c).closing = true) :
    s.cdb c v = (s.doorbellEvent (s.fnPort (.vf c))).logDoorbellBad (tenantByte c) (ctxOffset c 0x0100) v.toNat :=
  if_pos (by simpa using absent)

end

/-! ## CFG (R303, R381) -/

section
variable {s : State} {r : RingSel} {v : Word}

/-- A write of a ring's CFG that its own function makes and that asks for the ENABLE that the command sets. -/
theorem ringRow_of_owner {on : Bool} (live : s.fnLive (ringFn r) = true) (bit : bitAt v 31 = on) :
    s.ringRow (ringFn r) r v on = s.ringCfg r v := by
  have owned : s.ownedWrite (ringFn r) (ringTenant r) (ringOffset r + 8) v.toNat (fun s => s.ringCfg r v) = s.ringCfg r v := by
    cases r <;> simp_all [State.ownedWrite, ringFn, ringTenant, ownPage]
  exact (if_neg (by simp [bit])).trans owned

theorem withCfg_enables {g : Ring} {range : Nat × Nat} (idle : g.enable = false) (bit : bitAt v 31 = true) (least : range.1 ≤ bitsOf v 0 5)
    (most : bitsOf v 0 5 ≤ range.2) : g.withCfg range v =
      { g with sizeLog2 := v.extractLsb' 0 5, vector := v.extractLsb' 5 11, enable := true, stopped := false, prod := 0, cons := 0 } := by
  have size : BitVec.ofNat 5 (bitsOf v 0 5) = v.extractLsb' 0 5 := BitVec.eq_of_toNat_eq (by simp [bitsOf])
  simp [Ring.withCfg, idle, bit, least, most, size]

theorem withCfg_disables {g : Ring} {range : Nat × Nat} (on : g.enable = true) (bit : bitAt v 31 = false) :
    g.withCfg range v = { g with vector := v.extractLsb' 5 11, enable := false } := by
  simp [Ring.withCfg, on, bit]

/-- A write of CFG changes its ring, and discards what waits for the interrupt queue where it takes that ring out of use. -/
theorem ringCfg_eq (s : State) (r : RingSel) (v : Word) : s.ringCfg r v =
    { s.onRing r fun g => g.withCfg (sizeRange r) v with
      iq := if r = .iq ∧ s.host.iq.enable = true ∧ bitAt v 31 = false then s.iq.discard else s.iq } := by
  unfold State.ringCfg
  by_cases drops : r = .iq ∧ s.host.iq.enable = true ∧ bitAt v 31 = false
  · rw [if_pos drops, if_pos (by simpa [and_assoc] using drops)]
    cases r <;> rfl
  · rw [if_neg drops, if_neg (by simpa [and_assoc] using drops)]
    cases r <;> rfl

theorem onlyRing_ringCfg (s : State) (r : RingSel) (v : Word) : OnlyRing r s (s.ringCfg r v) := by
  obtain ⟨rings, tiles, mem, hostMem⟩ := onlyRing_onRing s r fun g => g.withCfg (sizeRange r) v
  rw [ringCfg_eq]
  exact ⟨fun q other => rings q other, tiles, mem, hostMem⟩

theorem ringCfg_ring_self (s : State) (r : RingSel) (v : Word) : (s.ringCfg r v).ring r = (s.ring r).withCfg (sizeRange r) v := by
  rw [ringCfg_eq]
  exact s.ring_onRing_self r _

theorem ringEnable_takes_its_values (live : s.fnLive (ringFn r) = true) (bit : bitAt v 31 = true) (idle : (s.ring r).enable = false)
    (least : (sizeRange r).1 ≤ bitsOf v 0 5) (most : bitsOf v 0 5 ≤ (sizeRange r).2) :
    ∃ t, exec (.ringEnable (ringFn r) r v) s = .next t ∧ OnlyRing r s t ∧
      t.ring r = { s.ring r with sizeLog2 := v.extractLsb' 0 5, vector := v.extractLsb' 5 11, enable := true, stopped := false, prod := 0,
                                 cons := 0 } :=
  ⟨_, congrArg Host.Outcome.next (ringRow_of_owner live bit), onlyRing_ringCfg s r v,
    (ringCfg_ring_self s r v).trans (withCfg_enables idle bit least most)⟩

theorem ringDisable_keeps_its_values (live : s.fnLive (ringFn r) = true) (bit : bitAt v 31 = false) (on : (s.ring r).enable = true) :
    ∃ t, exec (.ringDisable (ringFn r) r v) s = .next t ∧ OnlyRing r s t ∧
      t.ring r = { s.ring r with vector := v.extractLsb' 5 11, enable := false } ∧
      (r = .iq → t.iq.queue = [] ∧ t.iq.lost = addSat s.iq.lost s.iq.queue.length) ∧ (r ≠ .iq → t.iq = s.iq) := by
  refine ⟨_, congrArg Host.Outcome.next (ringRow_of_owner live bit), onlyRing_ringCfg s r v,
    (ringCfg_ring_self s r v).trans (withCfg_disables on bit), fun same => ?_, fun other => ?_⟩
  · subst same
    rw [ringCfg_eq, if_pos ⟨rfl, on, bit⟩]
    exact ⟨rfl, rfl⟩
  · rw [ringCfg_eq, if_neg fun drops => other drops.1]

end

/-- Settles O39, a doorbell write by whether its ring takes the value, a write of CFG by the ENABLE it asks for. -/
theorem ringsAndDoorbellsTakeTheirValues : Obligations.RingsAndDoorbellsTakeTheirValues := by
  refine ⟨fun v s live takes => ?_, fun v s live refused => ?_, fun c v s live isOpen stays takes => ?_, fun c v s live absent => ?_,
    fun _ _ _ live bit idle least most => ringEnable_takes_its_values live bit idle least most,
    fun _ _ _ live bit on => ringDisable_keeps_its_values live bit on, ?_⟩
  · have rang := (exec_adbWrite live).trans (congrArg Host.Outcome.next (adb_of_takes takes))
    obtain ⟨rings, tiles, mem, hostMem⟩ := onlyRing_onRing (s.doorbellEvent (s.fnPort .pf0)) .asq fun g => { g with prod := v }
    exact ⟨_, rang, ⟨fun q other => (rings q other).trans (doorbellEvent_ring s _ q), tiles, mem, hostMem⟩, rfl, rfl⟩
  · have rang := (exec_adbWrite live).trans (congrArg Host.Outcome.next (adb_of_not_takes refused))
    exact ⟨_, rang, doorbellEvent_ring s (s.fnPort .pf0), rfl, rfl⟩
  · have rang := (exec_cdbWrite live).trans (congrArg Host.Outcome.next (cdb_of_takes isOpen stays takes))
    obtain ⟨rings, tiles, mem, hostMem⟩ := onlyRing_onRing (s.doorbellEvent (s.fnPort (.vf c))) (.csq c) fun g => { g with prod := v }
    exact ⟨_, rang, ⟨fun q other => (rings q other).trans (doorbellEvent_ring s _ q), tiles, mem, hostMem⟩, State.ring_onRing_self _ _ _, rfl⟩
  · have rang := (exec_cdbWrite live).trans (congrArg Host.Outcome.next (cdb_of_not_open (v := v) absent))
    exact ⟨_, rang, doorbellEvent_ring s (s.fnPort (.vf c)), rfl, rfl⟩
  · exact ⟨rfl, rfl, rfl, rfl, fun _ => ⟨rfl, rfl, rfl⟩⟩

end Sys2Proof.Proofs

end

section
/-! PROOFS. COMMAND_FETCH: the entry that a ring's turn takes, and what doorbells and fetches do before READY (R305 to R310, R321). -/

namespace Sys2Proof.Proofs

open Sys2Proof Sys2Proof.Machine Sys2Proof.Claims

section
variable {s : State} {r : SubRing} {w : Flit}

/-- The command that a fetched entry makes. -/
def fetched (s : State) (r : SubRing) (w : Flit) : Started :=
  { id := s.host.nextId, ring := r, consAfter := (s.ring (subSel r)).cons + 1, w := w }

/-- The state with a fetched command in progress and its entry taken. -/
def withFetched (s : State) (r : SubRing) (w : Flit) : State :=
  let s1 := { s with host := { s.host with lastServed := some r } }.onRing (subSel r) fun g => { g with cons := g.cons + 1 }
  { s1 with host := { s1.host with nextId := s1.host.nextId + 1, started := s1.host.started ++ [fetched s r w] } }

theorem commandFetch_out_of_turn (a : HostAnswer) (waits : s.mayFetch r = false) : exec (.commandFetch r a) s = .next s := by
  change Host.Outcome.next (s.commandFetch r a) = _
  unfold State.commandFetch
  simp [waits]

theorem commandFetch_in_turn (turn : s.mayFetch r = true) : exec (.commandFetch r (.entry w)) s = .next (s.fetchEntry r w) :=
  congrArg Host.Outcome.next (if_pos turn)

/-- An entry that FENCE or a shared object holds back uses up the ring's turn. -/
theorem fetchEntry_waits (held : (bitAt w 9 = true ∧ 0 < s.inProgress r) ∨ s.conflicts (fetched s r w) = true) :
    s.fetchEntry r w = { s with host := { s.host with lastServed := some r } } :=
  if_pos (by simpa [fetched] using held)

/-- An entry that nothing holds back is in progress, or refused. -/
theorem fetchEntry_starts (free : bitAt w 9 = false ∨ s.inProgress r = 0) (apart : s.conflicts (fetched s r w) = false) :
    (s.refusal (fetched s r w) = none → s.fetchEntry r w = withFetched s r w) ∧
      ∀ st, s.refusal (fetched s r w) = some st → s.fetchEntry r w = (withFetched s r w).fail (fetched s r w) st := by
  have start : ¬ ((bitAt w 9 && 0 < s.inProgress r) || s.conflicts (fetched s r w)) = true := by
    obtain h | h := free <;> simp [h, apart]
  refine ⟨fun none => (if_neg start).trans ?_, fun st some => (if_neg start).trans ?_⟩
  · change (match s.refusal (fetched s r w) with | .some st => (withFetched s r w).fail (fetched s r w) st | .none => withFetched s r w) = _
    rw [none]
  · change (match s.refusal (fetched s r w) with | .some st => (withFetched s r w).fail (fetched s r w) st | .none => withFetched s r w) = _
    rw [some]

/-! ## What a fetched entry leaves -/

@[simp] theorem withFetched_started (s : State) (r : SubRing) (w : Flit) :
    (withFetched s r w).host.started = s.host.started ++ [fetched s r w] := by
  cases r <;> rfl

@[simp] theorem withFetched_safePending (s : State) (r : SubRing) (w : Flit) :
    (withFetched s r w).host.safePending = s.host.safePending := by
  cases r <;> rfl

theorem withFetched_ring (s : State) (r : SubRing) (w : Flit) (q : RingSel) :
    (withFetched s r w).ring q = (s.onRing (subSel r) fun g => { g with cons := g.cons + 1 }).ring q := by
  cases r <;> cases q <;> rfl

theorem withFetched_ring_self (s : State) (r : SubRing) (w : Flit) :
    (withFetched s r w).ring (subSel r) = { s.ring (subSel r) with cons := (s.ring (subSel r)).cons + 1 } := by
  rw [withFetched_ring, State.ring_onRing_self]

theorem complSel_ne_subSel (r q : SubRing) : complSel r ≠ subSel q := by
  cases r <;> cases q <;> exact nofun

theorem withFetched_complSel (s : State) (r q : SubRing) (w : Flit) : (withFetched s r w).ring (complSel q) = s.ring (complSel q) := by
  rw [withFetched_ring, ring_onRing_other _ _ (complSel_ne_subSel q r)]

theorem onlyRing_withFetched (s : State) (r : SubRing) (w : Flit) : OnlyRing (subSel r) s (withFetched s r w) := by
  obtain ⟨rings, -, -, -⟩ := onlyRing_onRing s (subSel r) fun g => { g with cons := g.cons + 1 }
  refine ⟨fun q other => (withFetched_ring s r w q).trans (rings q other), ?_⟩
  cases r <;> exact ⟨rfl, rfl, rfl⟩

/-- A ring whose command may start has a completion ring in use, with room. -/
theorem room_of_waitingRing (waits : s.waitingRing r = true) :
    (s.ring (complSel r)).enable = true ∧ (s.ring (complSel r)).count < (s.ring (complSel r)).size := by
  have free : 0 < s.freeEntries r := by
    simp only [State.waitingRing, Bool.and_eq_true, decide_eq_true_eq] at waits
    exact waits.2
  unfold State.freeEntries at free
  dsimp only at free
  split at free
  · next on => exact ⟨on, by omega⟩
  · exact absurd free (Nat.lt_irrefl 0)

theorem waitingRing_of_mayFetch (turn : s.mayFetch r = true) : s.serving = true ∧ s.waitingRing r = true := by
  simp only [State.mayFetch, Bool.and_eq_true, decide_eq_true_eq] at turn
  exact ⟨turn.1, List.find?_some turn.2⟩

theorem quiet_ring_subSel {s t : State} (quiet : Quiet s t) (r : SubRing) (admin : t.host.asq = s.host.asq) :
    t.ring (subSel r) = s.ring (subSel r) := by
  cases r with
  | admin => exact admin
  | ctx c => exact (congrArg Context.csq (quiet.2 c) :)

theorem ringWrite_complSel_asq (s : State) (r : SubRing) (bs : List Byte) : (s.ringWrite (complSel r) bs).host.asq = s.host.asq := by
  unfold State.ringWrite
  cases r <;> dsimp only <;> split <;> rfl

theorem finish_asq (s : State) (f : Started) (st : Status) (v : Nat) : (s.finish f st v).host.asq = s.host.asq := by
  obtain ⟨-, e⟩ | ⟨-, -, e⟩ | ⟨-, e | e⟩ := finish_cases s f st v <;> rw [e]
  · rfl
  · exact ringWrite_complSel_asq _ _ _
  · rw [State.raise_host]
    exact ringWrite_complSel_asq _ _ _

/-- A fetched entry that is refused completes in the room that its ring keeps for it. -/
theorem withFetched_fail (live : s.host.safePending = false) (waits : s.waitingRing r = true) (st : Status) :
    Gone (fetched s r w) ((withFetched s r w).fail (fetched s r w) st) ∧
      (((withFetched s r w).fail (fetched s r w) st).ring (subSel r)).cons = (s.ring (subSel r)).cons + 1 ∧
      (((withFetched s r w).fail (fetched s r w) st).ring (complSel r)).prod = (s.ring (complSel r)).prod + 1 ∧
      Memory.read ((withFetched s r w).fail (fetched s r w) st).host.mem
        ((s.ring (complSel r)).addr (s.ring (complSel r)).prod 32) 32 = finishEntry (withFetched s r w) (fetched s r w) st 0 := by
  obtain ⟨⟨started, lands⟩, quiet⟩ := finishes_finish (fetched s r w) st 0 ((withFetched_safePending s r w).trans live)
  obtain ⟨on, room⟩ := room_of_waitingRing waits
  have ring : (withFetched s r w).ring (complSel (fetched s r w).ring) = s.ring (complSel r) := withFetched_complSel s r r w
  rw [ring] at lands
  obtain ⟨prod, entry⟩ := lands on rfl room
  refine ⟨fun g there => ?_, ?_, prod, ?_⟩
  · have kept : g ∈ (withFetched s r w).host.started.filter fun g => g.id != (fetched s r w).id := started ▸ there
    simpa using (List.mem_filter.mp kept).2
  · have same := quiet_ring_subSel quiet r (finish_asq _ _ _ _)
    exact (congrArg Ring.cons same).trans (congrArg Ring.cons (withFetched_ring_self s r w))
  · rw [finishEntry, ring]
    exact entry

end

end Sys2Proof.Proofs

end

section
/-! PROOFS. The records of IDENTIFY and GET_GRADE_MAP, and the results that they write (R26, R306, Table HL-9). -/

namespace Sys2Proof.Proofs

open Sys2Proof Sys2Proof.Machine Sys2Proof.Claims

/-! ## Results -/

section
variable {s : State} {c : Serve} {op : Nat} {f : Started} {bs : List Byte}

/-- A served command whose result has no more bytes than it may write completes with it. -/
theorem serve_writes_result (record : State → Started → List Byte) (served : Serves s c op f) (ok : c.resultOk = true) (some_bytes : 0 < f.p 16 4)
    (fits : (record s f).length ≤ f.p 16 4) :
    Finishes (s.hostWrite (f.p 8 8) (record s f)) f OK 0 (s.serve c op fun f s => s.finishResult f c.resultOk OK 0 (record s f)) := by
  refine serve_of_serves served _ ▸ ?_
  rw [State.finishResult, if_neg (Nat.ne_of_gt some_bytes), if_pos ok, List.take_of_length_le fits]
  exact finishes_finish f OK 0 (safePending_of_serves served)

theorem serve_fails_result (record : State → Started → List Byte) (served : Serves s c op f) (bad : c.resultOk = false) (some_bytes : 0 < f.p 16 4) :
    Finishes s f E_HOST_FAULT 0 (s.serve c op fun f s => s.finishResult f c.resultOk OK 0 (record s f)) := by
  refine serve_finishes served rfl ?_
  rw [State.finishResult, if_neg (Nat.ne_of_gt some_bytes), if_neg (by simp [bad])]

end

/-! ## The records -/

theorem identifyRecord_length (s : State) (g : Fn) : (s.identifyRecord g).length = 256 := by
  simp only [State.identifyRecord, List.length_append, leBytes_length, List.length_cons, List.length_nil, List.length_replicate]

theorem gradeRecord_length (s : State) (d : Nat) : (s.gradeRecord d).length = 128 := by
  simp [State.gradeRecord, State.siteBits]

theorem take_append_of_length {α : Type} {n : Nat} (a b : List α) (h : a.length = n) : (a ++ b).take n = a := by
  rw [← h, List.take_left]

theorem drop_append_of_length {α : Type} {n : Nat} (a b : List α) (h : a.length = n) : (a ++ b).drop n = b := by
  rw [← h, List.drop_left]

theorem identifyRecord_identity (s : State) (g : Fn) : (s.identifyRecord g).take 12 =
    leBytes 8 s.pkg.packageId.toNat ++ leBytes 2 0x1D2B ++ leBytes 2 (deviceId s.pkg.variant) := by
  unfold State.identifyRecord
  generalize List.replicate 200 (0 : Byte) = zeros
  simp [vendorId, List.take_append, List.take_of_length_le]

theorem drop_append_add {α : Type} {n : Nat} (a b : List α) (k : Nat) (h : a.length = n) : (a ++ b).drop (n + k) = b.drop k := by
  rw [← List.drop_drop, drop_append_of_length a b h]

/-- Behind the identity and twelve bytes of the package's kind comes the rest of the record. -/
theorem identifyRecord_drop (s : State) (g : Fn) (k : Nat) : (s.identifyRecord g).drop (24 + k) =
    (leBytes 4 s.ao.startCount.toNat ++ (leBytes 4 0 ++ (leBytes 8 (hbmTotal s.pkg.variant) ++ (leBytes 8 s.hbmUncommitted ++
      (leBytes 4 2097152 ++ (leBytes 2 16 ++ (leBytes 2 4096 ++ List.replicate 200 0))))))).drop k := by
  rw [show 24 + k = 8 + (2 + (2 + (12 + k))) by omega]
  simp only [State.identifyRecord, List.append_assoc]
  rw [drop_append_add _ _ _ (leBytes_length 8 _), drop_append_add _ _ _ (leBytes_length 2 _), drop_append_add _ _ _ (leBytes_length 2 _)]
  exact drop_append_add (n := 12) _ _ k rfl

theorem identifyRecord_startCount (s : State) (g : Fn) : ((s.identifyRecord g).drop 24).take 4 = leBytes 4 s.ao.startCount.toNat := by
  rw [identifyRecord_drop s g 0, List.drop_zero, take_append_of_length _ _ (leBytes_length 4 _)]

theorem identifyRecord_uncommitted (s : State) (g : Fn) : ((s.identifyRecord g).drop 40).take 8 = leBytes 8 s.hbmUncommitted := by
  rw [identifyRecord_drop s g 16, drop_append_add _ _ 12 (leBytes_length 4 _), drop_append_add _ _ 8 (leBytes_length 4 _),
    drop_append_of_length _ _ (leBytes_length 8 _), take_append_of_length _ _ (leBytes_length 8 _)]

/-- Records of one length, one after another: behind the first of them begins the next one. -/
theorem drop_flatMap_of_length {α : Type} {n : Nat} (f : Nat → List α) (len : ∀ d, (f d).length = n) (a m d : Nat) (h : d ≤ m) :
    ((List.range' a m).flatMap f).drop (n * d) = (List.range' (a + d) (m - d)).flatMap f := by
  induction d generalizing a m with
  | zero => rfl
  | succ d ih =>
    obtain ⟨m, rfl⟩ : ∃ k, m = k + 1 := ⟨m - 1, by omega⟩
    rw [List.range'_succ, List.flatMap_cons, Nat.mul_succ, Nat.add_comm (n * d), ← List.drop_drop, drop_append_of_length _ _ (len a),
      ih (a + 1) m (by omega)]
    congr 2 <;> omega

theorem gradeRecords_of_die {d : Nat} (s : State) (h : d < 16) : (((List.range 16).flatMap s.gradeRecord).drop (128 * d)).take 6 =
    [BitVec.ofNat 8 d, 1, 0, 0] ++ leBytes 2 (s.goodCount d .m) := by
  rw [List.range_eq_range', drop_flatMap_of_length s.gradeRecord (gradeRecord_length s) 0 16 d (by omega)]
  obtain ⟨k, rest⟩ : ∃ k, 16 - d = k + 1 := ⟨15 - d, by omega⟩
  rw [rest, List.range'_succ, List.flatMap_cons, Nat.zero_add]
  simp [State.gradeRecord]

/-! ## The commands -/

theorem fetch_of_entry {s : State} {r : SubRing} {w : Flit} {f : Started} (turn : s.mayFetch r = true) (e : f = fetched s r w)
    (free : bitAt w 9 = false ∨ s.inProgress r = 0) (apart : s.conflicts f = false) :
    (s.refusal f = none → ∃ t, exec (.commandFetch r (.entry w)) s = .next t ∧ t.host.started = s.host.started ++ [f] ∧
      t.host.nextId = s.host.nextId + 1 ∧ t.host.lastServed = some r ∧ OnlyRing (subSel r) s t ∧
      t.ring (subSel r) = { s.ring (subSel r) with cons := (s.ring (subSel r)).cons + 1 }) ∧
    (∀ st : Status, s.refusal f = some st → ∃ t, exec (.commandFetch r (.entry w)) s = .next t ∧ Gone f t ∧
      (t.ring (subSel r)).cons = (s.ring (subSel r)).cons + 1 ∧ (t.ring (complSel r)).prod = (s.ring (complSel r)).prod + 1 ∧
      Memory.read t.host.mem ((s.ring (complSel r)).addr (s.ring (complSel r)).prod 32) 2 = leBytes 2 st.toNat) := by
  subst e
  obtain ⟨starts, refuses⟩ := fetchEntry_starts free apart
  have fetches := commandFetch_in_turn (w := w) turn
  refine ⟨fun none => ⟨withFetched s r w, fetches.trans (congrArg Host.Outcome.next (starts none)), withFetched_started s r w, ?_, ?_,
    onlyRing_withFetched s r w, withFetched_ring_self s r w⟩, fun st some => ?_⟩
  · cases r <;> rfl
  · cases r <;> rfl
  · obtain ⟨serving, waits⟩ := waitingRing_of_mayFetch turn
    have live : s.host.safePending = false := by
      simp only [State.serving, Bool.and_eq_true, Bool.not_eq_true'] at serving
      exact serving.2
    obtain ⟨gone, cons, prod, entry⟩ := withFetched_fail (w := w) live waits st
    refine ⟨_, fetches.trans (congrArg Host.Outcome.next (refuses st some)), gone, cons, prod, ?_⟩
    rw [Memory.read_take _ _ 2 32 (by omega), entry]
    simp [finishEntry, completionEntry]

theorem commandsAreFetchedInTurn : CommandsAreFetchedInTurn := by
  refine ⟨fun _ a _ waits => commandFetch_out_of_turn a waits, fun _ _ _ _ turn e free apart => fetch_of_entry turn e free apart,
    fun r w s f turn e held => ?_, fun r a s turn other => ?_⟩
  · subst e
    exact (commandFetch_in_turn turn).trans (congrArg Host.Outcome.next (fetchEntry_waits held))
  · obtain ⟨e, failed⟩ : ∃ e, failedBy a = some e := by
      cases a with
      | entry w => exact absurd rfl (other w)
      | timeout | abort | unsupported => exact ⟨_, rfl⟩
    have stopped := fetchFailed_ring_self s r e
    refine ⟨_, commandFetch_of_failed s r e turn failed, ⟨fun q => fetchFailed_ring_other s r e, ?_⟩, congrArg Ring.stopped stopped,
      congrArg Ring.enable stopped, (fetchFailed_host s r e).1⟩
    cases r <;> exact ⟨rfl, rfl, rfl⟩

theorem reportingCommandsChangeNothingElse : ReportingCommandsChangeNothingElse := by
  refine ⟨fun _ _ _ => nopCommand_finishes, fun c f s served ok bytes => ?_, fun c f s served bad bytes => ?_,
    fun c f s served ok bytes => ?_⟩
  · have fits := (identifyRecord_length s (subFn f.ring)).trans_le bytes
    exact ⟨_, _, rfl, serve_writes_result (fun s f => s.identifyRecord (subFn f.ring)) served ok (by omega) fits, identifyRecord_length _ _,
      identifyRecord_identity _ _, identifyRecord_startCount _ _, identifyRecord_uncommitted _ _⟩
  · exact ⟨_, rfl, serve_fails_result (fun s f => s.identifyRecord (subFn f.ring)) served bad (by omega)⟩
  · have length : ((List.range 16).flatMap s.gradeRecord).length = 2048 := by
      simp [List.length_flatMap, gradeRecord_length]
    exact ⟨_, _, rfl, serve_writes_result (fun s _ => (List.range 16).flatMap s.gradeRecord) served ok (by omega) (length.trans_le bytes),
      length, fun d inside => gradeRecords_of_die s inside⟩

/-- Settles O49, by the fetch of an entry in its ring's turn and the records of the reporting commands. -/
theorem commandsAreFetchedInTurnAndReport : Obligations.CommandsAreFetchedInTurnAndReport :=
  ⟨commandsAreFetchedInTurn, reportingCommandsChangeNothingElse⟩

end Sys2Proof.Proofs

end

section
/-! PROOFS. Doorbells and fetches before READY, and the first fetch after it (R321). -/

namespace Sys2Proof.Proofs

open Sys2Proof Sys2Proof.Machine Sys2Proof.Claims

section
variable {s : State}

theorem mayFetch_of_not_ready (r : SubRing) (early : s.host.ready = false) : s.mayFetch r = false := by
  simp [State.mayFetch, State.serving, early]

/-- The state that a start assay without failure leaves. -/
def assayed (s : State) (us : Word) : State :=
  let confirmed := { s with ao := { s.ao with confirmed := true } }
  { confirmed.assayClears with host := { s.host with ready := true } }.logEv assaySrc ASSAY_PASS noTenant
    (leBytes 4 us.toNat ++ leBytes 2 0x1FF)

theorem startAssay_passes (us : Word) (alive : s.alive = true) (early : s.host.ready = false) (safe : s.host.safePending = false)
    (straps : s.host.straps.testModeN = true) : exec (.startAssay (.pass us)) s = .next (assayed s us) :=
  congrArg Host.Outcome.next (if_neg (by simp [alive, early, safe, straps]))

/-- With no command in progress and no ring served yet, the admin ring's turn comes first. -/
theorem mayFetch_admin (serving : s.serving = true) (waits : s.waitingRing .admin = true) (first : s.host.lastServed = none) :
    s.mayFetch .admin = true := by
  simp [State.mayFetch, serving, State.turnOrder, first, roundOrder, waits]

/-- The admin ring's fetch with no command in progress: the command is in progress, or refused in its ring's room. -/
theorem first_fetch {w : Flit} (serving : s.serving = true) (waits : s.waitingRing .admin = true) (idle : s.host.started = [])
    (first : s.host.lastServed = none) :
    ∃ u, exec (.commandFetch .admin (.entry w)) s = .next u ∧ (u.ring .asq).cons = (s.ring .asq).cons + 1 ∧
      ((∃ f, u.host.started = [f] ∧ f.w = w ∧ f.ring = .admin) ∨ (u.ring .acq).prod = (s.ring .acq).prod + 1) := by
  have free : s.inProgress .admin = 0 := by simp [State.inProgress, idle]
  have apart : s.conflicts (fetched s .admin w) = false := by simp [State.conflicts, idle]
  obtain ⟨starts, refuses⟩ := fetch_of_entry (mayFetch_admin serving waits first) rfl (.inr free) apart
  cases status : s.refusal (fetched s .admin w) with
  | none =>
    obtain ⟨u, fetches, started, -, -, -, ring⟩ := starts status
    rw [idle] at started
    exact ⟨u, fetches, congrArg Ring.cons ring, .inl ⟨_, started, rfl, rfl⟩⟩
  | some st =>
    obtain ⟨u, fetches, -, cons, prod, -⟩ := refuses st status
    exact ⟨u, fetches, cons, .inr prod⟩

end

/-- Settles O52: doorbells do not ask for READY, fetches do, and the start assay sets it. -/
theorem doorbellsBeforeReadyWait : Obligations.DoorbellsBeforeReadyWait := by
  refine ⟨fun v s live early takes => ?_, fun c v s live early isOpen stays takes => ?_,
    fun r a s early => commandFetch_out_of_turn a (mayFetch_of_not_ready r early),
    fun us w s alive early safe straps waits idle first => ?_⟩
  · exact ⟨_, (exec_adbWrite live).trans (congrArg Host.Outcome.next (adb_of_takes takes)), rfl, early⟩
  · refine ⟨_, (exec_cdbWrite live).trans (congrArg Host.Outcome.next (cdb_of_takes isOpen stays takes)), State.ring_onRing_self _ _ _, early⟩
  · have serving : (assayed s us).serving = true := by
      have running : s.clk.running = true := alive
      simp [State.serving, assayed, State.assayClears, running, safe]
    have waiting : (assayed s us).waitingRing .admin = true := waits
    obtain ⟨u, fetches, cons, ends⟩ := first_fetch (w := w) serving waiting idle first
    exact ⟨_, u, startAssay_passes us alive early safe straps, fetches, cons, ends⟩

end Sys2Proof.Proofs

end

section
/-! PROOFS. What the end of a step and of a budget changes of the loaded layouts, and what a yield past its limit changes (R288 to R290, R384). -/

namespace Sys2Proof.Proofs

open Sys2Proof Sys2Proof.Machine Sys2Proof.Claims

variable {s t : State}

/-! ## The beacon store leaves the loaded layouts -/

theorem deliverGrant_insts (s : State) (c : Tenant) (i : BitVec 12) (n : BitVec 16) (w : Waiter) : (s.deliverGrant c i n w).insts = s.insts := by
  unfold State.deliverGrant
  split <;> simp

theorem grantHeads_insts (k : Nat) (s : State) (c : Tenant) (i : BitVec 12) : (State.grantHeads k s c i).insts = s.insts := by
  induction k generalizing s with
  | zero => rfl
  | succ k ih =>
    unfold State.grantHeads
    dsimp only
    split
    · rfl
    · split
      · rw [ih, deliverGrant_insts]
        exact (((AccessOnly.refl s).onCtx c _).recordOp ..).insts
      · rfl

theorem applySignal_insts (s : State) (c : Tenant) (i : BitVec 12) (count : Nat) (src : Src) (origin : Nat × DWord) :
    (s.applySignal c i count src origin).insts = s.insts :=
  (grantHeads_insts ..).trans (((AccessOnly.refl s).addSignal c i count src).recordOp ..).insts

theorem finishId_insts (s : State) (id : Nat) (st : Status) (v : Nat) : (s.finishId id st v).insts = s.insts := by
  obtain ⟨e, -⟩ | ⟨f, -, e⟩ := finishId_cases s id st v <;> rw [e]
  exact s.finish_insts f st v

theorem parkSite_insts (s : State) (x : Site) : (s.parkSite x).insts = s.insts :=
  (parkSite_keeps (part := State.insts) (fun a n f => a.onPin_insts n f) s x).trans (s.onTile_insts x _)

/-! ## What the end of a step leaves of a loaded layout -/

/-- What a loaded layout has of its steps: the number of the next one, the one that runs, the open batch, the ends so far, and the unload that
waits. -/
def stepsOf (i : Instance) : Nat × Run × Map Slot × Nat × Option Nat := (i.stepNo, i.run, i.batch, i.normal, i.unloadCmd)

/-- The loaded layouts are those of before, with the same steps. -/
structure SameSteps (s t : State) : Prop where
  same : ∀ l, (t.inst? l).map stepsOf = (s.inst? l).map stepsOf

namespace SameSteps

theorem refl (s : State) : SameSteps s s := ⟨fun _ => rfl⟩

theorem trans {u : State} (first : SameSteps s t) (second : SameSteps t u) : SameSteps s u := ⟨fun l => (second.same l).trans (first.same l)⟩

theorem of_insts (same : t.insts = s.insts) : SameSteps s t := ⟨fun l => by rw [State.inst?, same, State.inst?]⟩

theorem onInst (s : State) (l : BitVec 8) {f : Instance → Instance} (keeps : ∀ i, stepsOf (f i) = stepsOf i) :
    SameSteps s (s.onInst l f) := by
  refine ⟨fun m => ?_⟩
  by_cases same : m = l
  · rw [same, State.inst_onInst_self, Option.map_map]
    exact Option.map_congr fun i _ => keeps i
  · rw [State.inst_onInst_other s f same]

theorem foldl {α : Type} {f : State → α → State} (each : ∀ a x, SameSteps a (f a x)) (l : List α) (s : State) : SameSteps s (l.foldl f s) :=
  List.foldlRecOn (motive := SameSteps s) l f (.refl s) fun _ kept x _ => kept.trans (each _ x)

theorem eventEntry (s : State) (l : BitVec 8) (kind : Byte) (st : Status) (handle step : Nat) (position : Word) (code : BitVec 16) :
    SameSteps s (s.eventEntry l kind st handle step position code) := by
  unfold State.eventEntry
  split
  · exact .refl s
  · split
    · exact .refl s
    · split
      · exact .refl s
      · refine .trans (.trans (of_insts (accessOnly_vaWrite ..).insts) (onInst _ l fun _ => ?_)) (of_insts (applySignal_insts ..))
        rfl

theorem checkStepCmd (s : State) (l : BitVec 8) : SameSteps s (s.checkStepCmd l) := by
  unfold State.checkStepCmd
  split
  · exact .refl s
  · split
    · exact .refl s
    · dsimp only
      split
      · refine .trans (onInst s l fun _ => ?_) (of_insts (finishId_insts ..))
        rfl
      · exact .refl s

theorem look_map (g : Instance → Instance) (m : Map Instance) (l : Nat) :
    Map.look (m.map fun e => (e.1, g e.2)) l = (Map.look m l).map g := by
  induction m with
  | nil => rfl
  | cons e m ih =>
    obtain ⟨k, i⟩ := e
    simp only [List.map_cons, Map.look]
    split
    · rfl
    · exact ih

/-- A loaded layout after a stream has become ready. -/
def rearmed (st : Stream) (i : Instance) : Instance :=
  match i.binding with
  | some b =>
    if i.composing && tenantByte i.tenant = st.tenant && b.model = st.model then
      { i with composing := false, cutoff := some (st.readyGts, st.readySource) }
    else i
  | none => i

theorem rearm_insts (s : State) (n : Nat) : (s.rearm n).insts = s.insts.map fun e => (e.1, rearmed (s.stream n) e.2) := by
  refine List.map_congr_left fun e _ => ?_
  obtain ⟨k, i⟩ := e
  cases bound : i.binding with
  | none => simp only [rearmed, bound]
  | some b =>
    simp only [rearmed, bound]
    split <;> rfl

theorem rearm (s : State) (n : Nat) : SameSteps s (s.rearm n) := by
  refine ⟨fun l => ?_⟩
  rw [State.inst?, rearm_insts, look_map, Option.map_map]
  refine Option.map_congr fun i _ => ?_
  simp only [Function.comp, rearmed]
  split
  · split <;> rfl
  · rfl

theorem freeStream (s : State) (n : Nat) : SameSteps s (s.freeStream n) := by
  unfold State.freeStream
  dsimp only
  split
  · exact of_insts (finishId_insts ..)
  · exact of_insts rfl

theorem endStream (s : State) (l : BitVec 8) (step n : Nat) (state : Byte) (st : Status) (code : BitVec 16) :
    SameSteps s (s.endStream l step n state st code) := by
  unfold State.endStream
  extract_lets s1 x s2
  have told : SameSteps s s2 := .trans (t := s1) (of_insts rfl) (eventEntry ..)
  split
  · exact told.trans (freeStream ..)
  · exact told

theorem returnStream (s : State) (l : BitVec 8) (step : Nat) (st : Status) (own : Bool) (e : Nat × Slot) :
    SameSteps s (s.returnStream l step st own e) := by
  unfold State.returnStream
  extract_lets n s1
  have back : SameSteps s s1 := of_insts rfl
  split
  · exact .refl s
  · split
    · exact back.trans (endStream ..)
    · split
      · exact back.trans (freeStream ..)
      · exact back.trans (rearm ..)

theorem returnBatches (s : State) (i : Instance) (st : Status) : SameSteps s (s.returnBatches i st) :=
  (foldl (fun _ _ => returnStream ..) _ _).trans (foldl (fun _ _ => returnStream ..) _ _)

theorem flushNet (s : State) (c : Tenant) (xs : List Site) : SameSteps s (s.flushNet c xs) :=
  of_insts (State.onCtx_insts ..)

theorem freshRegion (s : State) (l : BitVec 8) : SameSteps s (s.freshRegion l) := by
  unfold State.freshRegion
  split
  · exact .refl s
  · refine (flushNet ..).trans (foldl (fun a x => of_insts ?_) _ _)
    unfold State.freshSite State.startLoad
    dsimp only
    split <;> simp only [State.onTile_insts, parkSite_insts]

theorem quarantine (s : State) (c : Tenant) (l : BitVec 8) (step : Nat) : SameSteps s (s.quarantine c l step) := by
  unfold State.quarantine
  extract_lets s1 ids s2 s3
  have marked : SameSteps s s1 := of_insts rfl
  have told : SameSteps s s2 := marked.trans (foldl (fun _ _ => eventEntry ..) _ _)
  exact .trans (t := s3) (told.trans (of_insts rfl)) (foldl (fun _ _ => checkStepCmd ..) _ _)

theorem writeHeader (s : State) (c : Tenant) (full : Bool) : SameSteps s (s.writeHeader c full) := by
  unfold State.writeHeader
  split
  · exact of_insts (accessOnly_vaWrite ..).insts
  · exact .refl s

end SameSteps

/-! ## STEP_ABORT (R288, R384) -/

/-- A step ends by its first cause: its number is consumed, nothing of it runs, its batch is gone, and the steps that ended before count as they did. -/
theorem finishAbort_steps {l : BitVec 8} {i : Instance} {n b k} {r : Run} (c : Cause) (found : s.inst? l = some i)
    (steps : stepsOf i = (n, r, b, k, none)) :
    ((s.finishAbort l c).inst? l).map stepsOf = some (n + 1, {}, [], k, none) := by
  unfold State.finishAbort
  rw [found]
  dsimp -zeta only
  extract_lets t step s1 s2 s3 s4 s5 s6 s7
  have before : SameSteps s s3 := .trans (t := s1.dropLedgerWait t l) (.of_insts rfl) ((SameSteps.eventEntry ..).trans (.returnBatches ..))
  have ended : (s4.inst? l).map stepsOf = some (n + 1, {}, [], k, none) := by
    have kept := before.same l
    rw [found, Option.map_some, steps] at kept
    obtain ⟨j, there, own⟩ := Option.map_eq_some_iff.mp kept
    simp only [stepsOf, Prod.mk.injEq] at own steps
    obtain ⟨-, -, -, normal, unload⟩ := own
    simp only [s4, State.inst_onInst_self, there]
    simp [stepsOf, normal, unload, step, steps]
  have after : SameSteps s4 s7 := by
    have fresh : SameSteps s4 s5 := (SameSteps.freshRegion ..).trans (.of_insts rfl)
    have counted : SameSteps s4 s6 := by
      unfold s6
      split
      · exact fresh.trans (.quarantine ..)
      · exact fresh
    exact counted.trans ((SameSteps.checkStepCmd ..).trans (.writeHeader ..))
  have last := (after.same l).trans ended
  obtain ⟨j, there, own⟩ := Option.map_eq_some_iff.mp last
  have stays : j.unloadCmd.isSome = false := by
    simp only [stepsOf, Prod.mk.injEq] at own
    simp [own]
  rw [there]
  simp [stays, last]

/-- A transfer as an abort leaves it: one that has not begun is over. -/
def abortedDma (d : Dma) : Dma := if d.phase = .queued then { d with phase := .finished, status := E_ABORTED, failRow := 0xFFFF } else d

theorem abortedDma_phase (d : Dma) : (abortedDma d).phase ≠ .queued := by
  unfold abortedDma
  split
  · exact nofun
  · assumption

/-- A tile as an abort leaves it. -/
def abortedTile (k : Tile) : Tile := { k with b := { k.b with dmas := k.b.dmas.map abortedDma } }

/-- A loaded layout whose step is being aborted. -/
def abortingInst (i : Instance) : Instance :=
  { i with run := { i.run with aborting := true, freezeAt := none, releaseAt := none, frozenSince := none } }

theorem beginAbort_eq (s : State) (i : Instance) :
    s.beginAbort i = (s.instSites i).foldl (fun a x => a.onTile x abortedTile) (s.onInst i.id abortingInst) := rfl

theorem beginAbort_inst {i : Instance} (found : s.inst? i.id = some i) : (s.beginAbort i).inst? i.id = some (abortingInst i) := by
  rw [beginAbort_eq]
  refine (part_foldl (part := fun a => a.inst? i.id) (fun a x => a.onTile_inst x _ _) _ _).trans ?_
  rw [State.inst_onInst_self, found, Option.map_some]

/-- What a change of the tiles of a list leaves at each of them. -/
theorem foldl_onTile_holds {P : Tile → Prop} {g : Tile → Tile} (sets : ∀ k, P (g k)) (l : List Site) (s : State) {x : Site}
    (h : P (s.tile x) ∨ x ∈ l) : P ((l.foldl (fun a y => a.onTile y g) s).tile x) := by
  induction l generalizing s with
  | nil => exact h.resolve_right (List.not_mem_nil)
  | cons y l ih =>
    refine ih _ ?_
    by_cases same : x = y
    · rw [same, State.tile_onTile_self]
      exact .inl (sets _)
    · rw [State.tile_onTile_other _ _ same]
      exact h.imp id fun there => (List.mem_cons.mp there).resolve_left same

theorem beginAbort_queued {i : Instance} {x : Site} (own : x ∈ s.instSites i) {d : Dma} (there : d ∈ ((s.beginAbort i).tile x).b.dmas) :
    d.phase ≠ .queued := by
  have none (k : Tile) : ∀ d ∈ (abortedTile k).b.dmas, d.phase ≠ .queued := by
    intro d there
    obtain ⟨e, -, rfl⟩ := List.mem_map.mp there
    exact abortedDma_phase e
  exact foldl_onTile_holds (P := fun k => ∀ d ∈ k.b.dmas, d.phase ≠ .queued) none _ _ (.inr own) d there

/-- A part of the state that neither a loaded layout nor a tile's transfers can change. -/
theorem beginAbort_keeps {β : Type} {part : State → β} (inst : ∀ a l f, part (State.onInst a l f) = part a)
    (tile : ∀ a x, part (State.onTile a x abortedTile) = part a) (s : State) (i : Instance) : part (s.beginAbort i) = part s :=
  (part_foldl tile _ _).trans (inst s _ _)

theorem abortedTile_idle (k : Tile) : (abortedTile k).b.dmas.isEmpty = k.b.dmas.isEmpty := List.isEmpty_map

theorem beginAbort_dmaQuiet (s : State) (i : Instance) : (s.beginAbort i).dmaQuiet i = s.dmaQuiet i := by
  have region (c : Tenant) (x : Site) : (s.beginAbort i).inRegion c x = s.inRegion c x :=
    beginAbort_keeps (part := fun a => a.inRegion c x) (fun a l f => a.onInst_inRegion l f c x) (fun a y => a.onTile_inRegion y _ c x) s i
  have idle (x : Site) : ((s.beginAbort i).tile x).b.dmas.isEmpty = (s.tile x).b.dmas.isEmpty := by
    refine beginAbort_keeps (part := fun a => (a.tile x).b.dmas.isEmpty) (fun a l f => by rw [State.onInst_tile]) (fun a y => ?_) s i
    rw [State.tile_onTile]
    split
    · next same => rw [same, abortedTile_idle]
    · rfl
  simp only [State.dmaQuiet, State.instSites, region, idle]

section
variable {i : Instance} {c : Cause}

/-- The state in which an abort of a layout's step is under way. -/
def aborting (s : State) (i : Instance) : State := if i.run.aborting then s else s.beginAbort i

theorem aborting_inst (found : s.inst? i.id = some i) : ∃ r, (aborting s i).inst? i.id = some { i with run := r } := by
  unfold aborting
  split
  · exact ⟨i.run, found⟩
  · exact ⟨_, beginAbort_inst found⟩

theorem aborting_dmaQuiet (s : State) (i : Instance) : (aborting s i).dmaQuiet i = s.dmaQuiet i := by
  unfold aborting
  split
  · rfl
  · exact beginAbort_dmaQuiet s i

/-- A step with a cause aborts, where its tenant is not preempted: its transfers end, and once the engines are quiet the step does. -/
theorem exec_stepAbort (found : s.inst? i.id = some i) (first : firstCause i.run.causes = some c) (works : s.working = true)
    (runs : i.run.running = true) (stays : (s.ctx i.tenant).preempted = false) :
    exec (.stepAbort i.id) s = .next (if s.dmaQuiet i then (aborting s i).finishAbort i.id c else aborting s i) := by
  rw [← aborting_dmaQuiet]
  change Host.Outcome.next (s.stepAbort i.id) = _
  unfold State.stepAbort
  simp only [found, first, works, runs, stays, Bool.not_true, Bool.or_self, Bool.false_eq_true, if_false, aborting]
  rfl

theorem stepAbort_ends_the_step (found : s.inst? i.id = some i) (first : firstCause i.run.causes = some c) (works : s.working = true)
    (runs : i.run.running = true) (stays : (s.ctx i.tenant).preempted = false) (quiet : s.dmaQuiet i = true) (loaded : i.unloadCmd = none) :
    ∃ t j, exec (.stepAbort i.id) s = .next t ∧ t.inst? i.id = some j ∧ j.stepNo = i.stepNo + 1 ∧ j.run.running = false ∧
      j.run.causes = [] ∧ j.batch = [] ∧ j.normal = i.normal := by
  obtain ⟨r, found'⟩ := aborting_inst found
  have ended := finishAbort_steps (n := i.stepNo) (r := r) (b := i.batch) (k := i.normal) c found' (by rw [stepsOf, loaded])
  obtain ⟨j, there, own⟩ := Option.map_eq_some_iff.mp ended
  simp only [stepsOf, Prod.mk.injEq] at own
  obtain ⟨stepNo, run, batch, normal, -⟩ := own
  refine ⟨_, j, exec_stepAbort found first works runs stays, ?_, stepNo, by rw [run], by rw [run], batch, normal⟩
  rwa [if_pos quiet]

theorem stepAbort_ends_the_transfers (found : s.inst? i.id = some i) (first : firstCause i.run.causes = some c) (works : s.working = true)
    (runs : i.run.running = true) (stays : (s.ctx i.tenant).preempted = false) (new : i.run.aborting = false) (busy : s.dmaQuiet i = false) :
    ∃ t j, exec (.stepAbort i.id) s = .next t ∧ t.inst? i.id = some j ∧ j.run.aborting = true ∧ j.run.running = true ∧ j.stepNo = i.stepNo ∧
      ∀ x ∈ s.instSites i, ∀ d ∈ (t.tile x).b.dmas, d.phase ≠ .queued := by
  have begins : aborting s i = s.beginAbort i := if_neg (by simp [new])
  refine ⟨s.beginAbort i, abortingInst i, ?_, beginAbort_inst found, rfl, runs, rfl, fun x own d there => beginAbort_queued own there⟩
  rw [exec_stepAbort found first works runs stays, busy, begins]
  rfl

/-! ## BUDGET_EXPIRY and YIELD_LIMIT (R289, R290) -/

theorem budgetExpiry_causes {e : Nat} (found : s.inst? i.id = some i) (ends : i.run.expiry = some e) (works : s.working = true)
    (runs : i.run.running = true) (stays : (s.ctx i.tenant).preempted = false) (new : ∀ c ∈ i.run.causes, c.status ≠ E_OVERRUN)
    (past : e < s.clk.gts.toNat) :
    ∃ t j, exec (.budgetExpiry i.id) s = .next t ∧ t.inst? i.id = some j ∧
      j = { i with run := { i.run with causes := i.run.causes ++ [⟨E_OVERRUN, BitVec.ofNat 64 e, stewardSrc⟩] } } ∧ t.tiles = s.tiles := by
  have unknown : (i.run.causes.any fun c => c.status = E_OVERRUN) = false := by simpa using new
  have goes : exec (.budgetExpiry i.id) s = .next (s.onInst i.id fun i =>
      { i with run := { i.run with causes := i.run.causes ++ [⟨E_OVERRUN, BitVec.ofNat 64 e, stewardSrc⟩] } }) := by
    change Host.Outcome.next (s.budgetExpiry i.id) = _
    unfold State.budgetExpiry
    simp only [found, ends, works, runs, stays, unknown, past, Bool.not_false, Bool.and_self, decide_true, if_true]
  refine ⟨_, _, goes, ?_, rfl, s.onInst_tiles i.id _⟩
  rw [State.inst_onInst_self, found, Option.map_some]

end

/-- The start of an evict changes tiles only. -/
theorem evictStart_keeps {β : Type} {part : State → β} (tile : ∀ a x f, part (State.onTile a x f) = part a) (s : State) (c : Tenant) :
    part (s.evictStart c) = part s := by
  refine part_foldl (fun a x => ?_) _ _
  split
  · exact tile ..
  · rfl

theorem yieldLimit_goes_on {c : Tenant} {p : Preempting} (yields : (s.ctx c).preempting = some p) (works : s.working = true)
    (first : p.evict = false) (past : p.since.toNat + 1000 * p.limit ≤ s.clk.gts.toNat) :
    ∃ u, exec (.yieldLimit c) s = .next u ∧ u.ctx c = { s.ctx c with preempting := some { p with evict := true } } ∧
      (∀ v, v ≠ c → u.ctx v = s.ctx v) ∧ u.insts = s.insts := by
  have goes : exec (.yieldLimit c) s =
      .next ((s.onCtx c fun k => { k with preempting := some { p with evict := true } }).evictStart c) := by
    change Host.Outcome.next (s.yieldLimit c) = _
    unfold State.yieldLimit
    simp only [yields, works, first, past, Bool.not_false, Bool.and_self, decide_true, if_true]
  have ctxs (v : Tenant) := evictStart_keeps (part := fun a => a.ctx v) (fun a x f => a.onTile_ctx x f v)
    (s.onCtx c fun k => { k with preempting := some { p with evict := true } }) c
  refine ⟨_, goes, (ctxs c).trans (s.ctx_onCtx_self c _), fun v other => (ctxs v).trans (s.ctx_onCtx_other _ other), ?_⟩
  exact evictStart_keeps (part := State.insts) (fun a x f => a.onTile_insts x f) _ c

theorem yieldLimit_waits {c : Tenant} {p : Preempting} (yields : (s.ctx c).preempting = some p)
    (within : s.clk.gts.toNat < p.since.toNat + 1000 * p.limit) : exec (.yieldLimit c) s = .next s := by
  change Host.Outcome.next (s.yieldLimit c) = _
  unfold State.yieldLimit
  simp [yields, within]

/-- Settles O25, one lemma for each way in which a yield, a budget or a step ends. -/
theorem yieldsGoOnAndBudgetsExpire : Obligations.YieldsGoOnAndBudgetsExpire :=
  ⟨⟨fun _ _ _ yields works first past => yieldLimit_goes_on yields works first past, fun _ _ _ yields within => yieldLimit_waits yields within⟩,
    fun _ _ _ found ends works runs stays new past => budgetExpiry_causes found ends works runs stays new past,
    fun _ _ _ found first works runs stays quiet loaded => stepAbort_ends_the_step found first works runs stays quiet loaded,
    fun _ _ _ found first works runs stays new busy => stepAbort_ends_the_transfers found first works runs stays new busy⟩

end Sys2Proof.Proofs

end

section
/-! PROOFS. Pins: what a tick edge and a write of GPIO_OUT change (R398 to R400). -/

namespace Sys2Proof.Proofs

open Sys2Proof Sys2Proof.Machine Sys2Proof.Claims

variable {s t u : State} {n : Nat}

/-! ## PEND -/

theorem onlyPin_trans (first : OnlyPin n s t) (second : OnlyPin n t u) : OnlyPin n s u := by
  obtain ⟨pins, tiles, host, smb, jtag⟩ := first
  obtain ⟨pins', tiles', host', smb', jtag'⟩ := second
  exact ⟨fun m other => (pins' m other).trans (pins m other), tiles'.trans tiles, host'.trans host, smb'.trans smb, jtag'.trans jtag⟩

theorem onlyPin_refl (n : Nat) (s : State) : OnlyPin n s s := ⟨fun _ _ => rfl, rfl, rfl, rfl, rfl⟩

theorem onlyPin_onPin (s : State) (n : Nat) (f : Pin → Pin) : OnlyPin n s (s.onPin n f) :=
  ⟨fun _ other => s.pin_onPin_other f other, rfl, rfl, rfl, rfl⟩

theorem onlyPin_pinPend (s : State) (n : Nat) : OnlyPin n s (s.pinPend n) := by
  unfold State.pinPend
  split
  · exact onlyPin_refl n s
  · refine onlyPin_trans (onlyPin_onPin s n fun p => { p with pend := true }) ?_
    unfold State.raise
    split
    · exact onlyPin_refl n _
    · exact ⟨fun _ _ => rfl, rfl, rfl, rfl, rfl⟩

theorem pinPend_pin (s : State) (n : Nat) : (s.pinPend n).pin n = { s.pin n with pend := true } := by
  unfold State.pinPend
  split
  · next pends => rw [← pends]
  · rw [State.raise_pin, State.pin_onPin_self]

/-- A raise follows where PEND was 0 and the vector raises. -/
theorem pinPend_merger (new : (s.pin n).pend = false) (vector : (s.pin n).vector ≠ 0x7FF) :
    (s.pinPend n).merger = (s.emit (pinSrc n) (.irq .pf0 (s.pin n).vector 4)).merger := by
  unfold State.pinPend State.raise
  rw [if_neg (by simp [new]), if_neg vector]
  rfl

/-- A level trigger that is met sets PEND, and one that is not changes nothing. -/
theorem pinLevel_cases (s : State) (n : Nat) :
    ((s.pin n).levelMet = true ∧ s.pinLevel n = s.pinPend n) ∨ ((s.pin n).levelMet = false ∧ s.pinLevel n = s) := by
  unfold State.pinLevel
  split
  · next met => exact .inl ⟨met, rfl⟩
  · next unmet => exact .inr ⟨by simpa using unmet, rfl⟩

theorem onlyPin_pinLevel (s : State) (n : Nat) : OnlyPin n s (s.pinLevel n) := by
  obtain ⟨-, e⟩ | ⟨-, e⟩ := pinLevel_cases s n <;> rw [e]
  · exact onlyPin_pinPend s n
  · exact onlyPin_refl n s

theorem pinLevel_pin (s : State) (n : Nat) : (s.pinLevel n).pin n = { s.pin n with pend := (s.pin n).pend || (s.pin n).levelMet } := by
  obtain ⟨met, e⟩ | ⟨unmet, e⟩ := pinLevel_cases s n
  · rw [e, pinPend_pin, met, Bool.or_true]
  · rw [e, unmet, Bool.or_false]

theorem levelMet_of_trig_lt {p : Pin} (edge : p.trig < 4) : p.levelMet = false := by
  simp [Pin.levelMet, show p.trig ≠ 4 by omega, show p.trig ≠ 5 by omega]

/-! ## GPIO_TICK (R399) -/

/-- A pin whose pad has been sampled. -/
def sampled (s : State) (n : Nat) (pad : Bool) : State := s.onPin n fun p => { p with pad := pad }

/-- A sampled pin that changes its count. -/
def counted (s : State) (n : Nat) (pad : Bool) (f : Nat → Nat) : State :=
  (sampled s n pad).onPin n fun p => { p with count := f p.count }

/-- A sampled pin whose level changes. -/
def turned (s : State) (n : Nat) : State :=
  (sampled s n (!(s.pin n).level)).onPin n fun p => { p with level := !(s.pin n).level, count := 0, edges := addSat p.edges 1 }

theorem counted_pin (s : State) (n : Nat) (pad : Bool) (f : Nat → Nat) :
    (counted s n pad f).pin n = { s.pin n with pad := pad, count := f (s.pin n).count } := by
  rw [counted, State.pin_onPin_self, sampled, State.pin_onPin_self]

theorem turned_pin (s : State) (n : Nat) : (turned s n).pin n =
    { s.pin n with pad := !(s.pin n).level, level := !(s.pin n).level, count := 0, edges := addSat (s.pin n).edges 1 } := by
  rw [turned, State.pin_onPin_self, sampled, State.pin_onPin_self]

theorem onlyPin_counted (s : State) (n : Nat) (pad : Bool) (f : Nat → Nat) : OnlyPin n s (counted s n pad f) :=
  onlyPin_trans (onlyPin_onPin s n _) (onlyPin_onPin _ n _)

theorem onlyPin_turned (s : State) (n : Nat) : OnlyPin n s (turned s n) :=
  onlyPin_trans (onlyPin_onPin s n _) (onlyPin_onPin _ n _)

theorem sampled_pin (s : State) (n : Nat) (pad : Bool) : (sampled s n pad).pin n = { s.pin n with pad := pad } := s.pin_onPin_self n _

theorem gpioTick_agrees (alive : s.alive = true) : s.gpioTick n (s.pin n).level = (counted s n (s.pin n).level fun _ => 0).pinLevel n := by
  simp [State.gpioTick, alive, counted, sampled]

theorem gpioTick_counts (alive : s.alive = true) (early : (s.pin n).count < (s.pin n).debounce.toNat) :
    s.gpioTick n (!(s.pin n).level) = (counted s n (!(s.pin n).level) (· + 1)).pinLevel n := by
  simp [State.gpioTick, alive, counted, sampled, early]

/-- Whether a change of a pin's level fires its trigger: an edge trigger, or the level trigger of the new level. -/
def fires (s : State) (n : Nat) : Bool := (s.pin n).edgeFires (!(s.pin n).level) || ((turned s n).pin n).levelMet

theorem gpioTick_turns (alive : s.alive = true) (long : (s.pin n).debounce.toNat ≤ (s.pin n).count) :
    s.gpioTick n (!(s.pin n).level) = if fires s n then (turned s n).pinPend n else turned s n := by
  have edge : ((sampled s n (!(s.pin n).level)).pin n).edgeFires (!(s.pin n).level) = (s.pin n).edgeFires (!(s.pin n).level) := by
    rw [sampled_pin]
    rfl
  have run : s.gpioTick n (!(s.pin n).level) =
      if (s.pin n).edgeFires (!(s.pin n).level) then (turned s n).pinPend n else (turned s n).pinLevel n := by
    rw [← edge]
    simp [State.gpioTick, alive, sampled, turned, Nat.not_lt.mpr long]
  rw [run, State.pinLevel, fires]
  cases (s.pin n).edgeFires (!(s.pin n).level) <;> rfl

theorem gpioTick_of_agreeing_pad (alive : s.alive = true) : OnlyPin n s (s.gpioTick n (s.pin n).level) ∧
    (s.gpioTick n (s.pin n).level).pin n = { s.pin n with
      pad := (s.pin n).level, count := 0, pend := (s.pin n).pend || (s.pin n).levelMet } := by
  rw [gpioTick_agrees alive]
  refine ⟨onlyPin_trans (onlyPin_counted ..) (onlyPin_pinLevel ..), ?_⟩
  rw [pinLevel_pin, counted_pin]
  rfl

theorem gpioTick_of_counted_pad (alive : s.alive = true) (early : (s.pin n).count < (s.pin n).debounce.toNat) :
    OnlyPin n s (s.gpioTick n (!(s.pin n).level)) ∧ (s.gpioTick n (!(s.pin n).level)).pin n = { s.pin n with
      pad := !(s.pin n).level, count := (s.pin n).count + 1, pend := (s.pin n).pend || (s.pin n).levelMet } := by
  rw [gpioTick_counts alive early]
  refine ⟨onlyPin_trans (onlyPin_counted ..) (onlyPin_pinLevel ..), ?_⟩
  rw [pinLevel_pin, counted_pin]
  rfl

/-- A pin whose level has turned: a trigger that fires sets PEND. -/
theorem gpioTick_of_turned_level (alive : s.alive = true) (long : (s.pin n).debounce.toNat ≤ (s.pin n).count) :
    OnlyPin n s (s.gpioTick n (!(s.pin n).level)) ∧ (s.gpioTick n (!(s.pin n).level)).pin n =
      { s.pin n with pad := !(s.pin n).level, level := !(s.pin n).level, count := 0, edges := addSat (s.pin n).edges 1,
                     pend := (s.pin n).pend || fires s n } := by
  rw [gpioTick_turns alive long]
  split
  · next fired =>
    refine ⟨onlyPin_trans (onlyPin_turned s n) (onlyPin_pinPend ..), ?_⟩
    rw [pinPend_pin, turned_pin, fired, Bool.or_true]
  · next quiet =>
    refine ⟨onlyPin_turned s n, ?_⟩
    rw [turned_pin, Bool.eq_false_iff.mpr quiet, Bool.or_false]

/-- An event follows where a trigger that fires finds PEND at 0. -/
theorem gpioTick_raises (alive : s.alive = true) (long : (s.pin n).debounce.toNat ≤ (s.pin n).count) (fired : fires s n = true)
    (new : (s.pin n).pend = false) (vector : (s.pin n).vector ≠ 0x7FF) :
    (s.gpioTick n (!(s.pin n).level)).merger = (s.emit (pinSrc n) (.irq .pf0 (s.pin n).vector 4)).merger := by
  have own := turned_pin s n
  rw [gpioTick_turns alive long, if_pos fired, pinPend_merger (by rw [own]; exact new) (by rw [own]; exact vector), own]
  rfl

theorem fires_of_no_trigger (none : (s.pin n).trig = 0) : fires s n = false := by
  have trig : ((turned s n).pin n).trig = 0 := by
    rw [turned_pin]
    exact none
  simp [fires, Pin.edgeFires, Pin.levelMet, none, trig]

theorem fires_of_edge (edge : (s.pin n).trig = 3 ∨ ((s.pin n).trig = 1 ∧ (s.pin n).level = false) ∨ ((s.pin n).trig = 2 ∧ (s.pin n).level = true)) :
    fires s n = true := by
  obtain trig | ⟨trig, level⟩ | ⟨trig, level⟩ := edge
  · simp [fires, Pin.edgeFires, trig]
  · simp [fires, Pin.edgeFires, trig, level]
  · simp [fires, Pin.edgeFires, trig, level]

/-! ## GPIO_OUT_WRITE (R398) -/

/-- What a write of GPIO_OUT does to one pin. -/
def outWritten (v : Word) (a : State) (k : Nat) : State :=
  if (a.pin k).owner = .steward then a.onPin k fun p => { p with out := bitAt v k }
  else a.logEv stewardSrc PIN_WRITE_IGNORED noTenant [BitVec.ofNat 8 k]

theorem outWritten_keeps {β : Type} {part : State → β} (pin : ∀ a k f, part (State.onPin a k f) = part a)
    (logs : ∀ a src code c p, part (State.logEv a src code c p) = part a) (v : Word) (a : State) (k : Nat) :
    part (outWritten v a k) = part a := by
  unfold outWritten
  split
  · exact pin ..
  · exact logs ..

theorem outWritten_pin_other {v : Word} {a : State} {k m : Nat} (h : m ≠ k) : (outWritten v a k).pin m = a.pin m := by
  unfold outWritten
  split
  · exact a.pin_onPin_other _ h
  · rfl

theorem outWritten_pin_self (v : Word) (a : State) (k : Nat) :
    (outWritten v a k).pin k = if (a.pin k).owner = .steward then { a.pin k with out := bitAt v k } else a.pin k := by
  unfold outWritten
  split
  · exact a.pin_onPin_self k _
  · rfl

/-- After a write that names each pin of a list once, a pin of the list has taken its bit where the steward owns it. -/
theorem foldl_outWritten_pin (v : Word) (l : List Nat) (once : l.Nodup) (a : State) {m : Nat} :
    (l.foldl (outWritten v) a).pin m =
      if m ∈ l ∧ (a.pin m).owner = .steward then { a.pin m with out := bitAt v m } else a.pin m := by
  induction l generalizing a with
  | nil => simp
  | cons k l ih =>
    obtain ⟨new, once⟩ := List.nodup_cons.mp once
    rw [List.foldl_cons, ih once]
    by_cases same : m = k
    · subst same
      simp [new, outWritten_pin_self]
    · simp [same, outWritten_pin_other same]

theorem exec_gpioOutWrite (v : Word) (alive : s.alive = true) :
    exec (.gpioOutWrite v) s = .next ((List.range 24).foldl (outWritten v) s) :=
  congrArg Host.Outcome.next (if_neg (by simp [alive]))

/-- Settles O37: the three outcomes of a tick edge, and the latches that a write of GPIO_OUT reaches. -/
theorem pinsSampleTriggerAndLatch : Obligations.PinsSampleTriggerAndLatch := by
  refine ⟨fun n s alive => ?_, fun n s alive early => ?_, fun n s alive long => ?_, fun v s alive => ?_⟩
  · obtain ⟨only, own⟩ := gpioTick_of_agreeing_pad (n := n.val) alive
    refine ⟨_, rfl, only, ?_⟩
    rw [own]
    exact ⟨rfl, rfl, rfl, rfl, fun edge => by rw [levelMet_of_trig_lt edge, Bool.or_false]⟩
  · obtain ⟨only, own⟩ := gpioTick_of_counted_pad (n := n.val) alive early
    refine ⟨_, rfl, only, ?_⟩
    rw [own]
    exact ⟨rfl, rfl, rfl, rfl⟩
  · obtain ⟨only, own⟩ := gpioTick_of_turned_level (n := n.val) alive long
    have pends (fired : fires s n.val = true) : ((s.gpioTick n.val (!(s.pin n.val).level)).pin n.val).pend = true := by
      rw [own, fired, Bool.or_true]
    refine ⟨_, rfl, only, by rw [own], by rw [own], by rw [own], fun none => ?_, fun trig => pends (fires_of_edge (.inl trig)),
      fun trig level => pends (fires_of_edge (.inr (.inl ⟨trig, level⟩))), fun trig level => pends (fires_of_edge (.inr (.inr ⟨trig, level⟩))),
      fun new set vector => gpioTick_raises alive long ?_ new vector⟩
    · have quiet := fires_of_no_trigger none
      refine ⟨by rw [own, quiet, Bool.or_false], ?_⟩
      rw [gpioTick_turns alive long, quiet]
      rfl
    · rwa [own, new, Bool.false_or] at set
  · refine ⟨_, exec_gpioOutWrite v alive, part_foldl (part := State.tiles) (fun a k => ?_) _ _, part_foldl (part := State.host) (fun a k => ?_) _ _,
      fun n inside own => ?_, fun n inside other => ?_⟩
    · exact outWritten_keeps (part := State.tiles) (fun a k f => a.onPin_tiles k f) (fun a src code c p => a.logEv_tiles src code c p) v a k
    · exact outWritten_keeps (part := State.host) (fun a k f => a.onPin_host k f) (fun a src code c p => a.logEv_host src code c p) v a k
    · rw [foldl_outWritten_pin v _ List.nodup_range, if_pos ⟨List.mem_range.mpr inside, own⟩]
    · rw [foldl_outWritten_pin v _ List.nodup_range, if_neg fun both => other both.2]

end Sys2Proof.Proofs

end

section
/-! PROOFS. The safe state: what a cause records and what it begins (R388 to R390). -/

namespace Sys2Proof.Proofs

open Sys2Proof Sys2Proof.Machine Sys2Proof.Claims

variable {s : State} {cause detail : Nat} {src : Src}

/-- A log entry of the entry to the safe state leaves everything but the events on their way. -/
theorem logSafeEntry_eq (s : State) (cause detail : Nat) : ∃ m, s.logSafeEntry cause detail = { s with merger := m } := by
  unfold State.logSafeEntry
  split
  · exact ⟨_, rfl⟩
  · exact ⟨s.merger, rfl⟩

/-- The state in which the descent to the safe state begins for a cause. -/
def descending (s : State) (cause detail : Nat) (src : Src) : State :=
  { s with ao := s.ao.record cause detail src s.clk.gts
           host := { s.host with safePending := true }
           power := { s.power with descent := true, twinSyncOut := s.safeBound } }

theorem enterSafe_begins (may : MayEnterSafe s) : s.enterSafe cause detail src = (descending s cause detail src).logSafeEntry cause detail := by
  obtain ⟨good, early, up⟩ := may
  simp [State.enterSafe, good, early, up, descending]

/-- The first cause begins the descent, and nothing but the record, the host's side and the events on their way shows it. -/
theorem enterSafe_eq (may : MayEnterSafe s) : ∃ m, s.enterSafe cause detail src = { descending s cause detail src with merger := m } := by
  rw [enterSafe_begins may]
  exact logSafeEntry_eq ..

theorem entersSafe_enterSafe (may : MayEnterSafe s) : EntersSafe s (s.enterSafe cause detail src) cause detail src := by
  obtain ⟨m, e⟩ := enterSafe_eq (cause := cause) (detail := detail) (src := src) may
  rw [e]
  exact ⟨rfl, rfl, rfl⟩

/-- A cause after the first is only recorded. -/
theorem enterSafe_records (good : s.power.pwrGood = true) (later : s.host.safePending = true ∨ s.power.pstate = .p3) :
    s.enterSafe cause detail src = { s with ao := s.ao.record cause detail src s.clk.gts } := by
  simp [State.enterSafe, good, later]

end Sys2Proof.Proofs

end

section
/-! PROOFS. The SMBus target and the test access port (R390, R404, R405). -/

namespace Sys2Proof.Proofs

open Sys2Proof Sys2Proof.Machine Sys2Proof.Claims

variable {s : State}

/-! ## The SMBus target (R404) -/

theorem tempsKnown_off (off : s.alive = false) : s.tempsKnown = [] := by
  simp [State.tempsKnown, off]

theorem temp_off (x : SmbXfer) (off : s.alive = false) : SmbAnswers (.temp x) s (.word 0x8000) := by
  have word : s.smbTemp = 0x8000 := by rw [State.smbTemp, tempsKnown_off off]
  exact congrArg (fun w => Host.Outcome.next (s.smbReply (.word w))) word

theorem tempDie_off (x : SmbXfer) (off : s.alive = false) : SmbAnswers (.tempDie x) s (.block (List.replicate 40 0x80)) := by
  have bytes : s.smbTempDie = List.replicate 40 0x80 := by
    rw [State.smbTempDie, tempsKnown_off off]
    rfl
  exact congrArg (fun bs => Host.Outcome.next (s.smbReply (.block bs))) bytes

theorem power_word (x : SmbXfer) (w : Option (BitVec 16)) :
    SmbAnswers (.power x w) s (.word (if s.alive then w.getD 0xFFFF else 0xFFFF)) := rfl

/-- The bits of STATE's byte in a power state that is not P0. -/
theorem smbState_bits (s : State) (n : Nat) (number : s.pstateNum = n) (two : n < 4) :
    bitsOf s.smbState 0 2 = n ∧ bitAt s.smbState 2 = s.host.ready ∧ bitAt s.smbState 3 = s.host.safePending ∧
      bitAt s.smbState 4 = s.power.limiterOpen ∧ bitAt s.smbState 5 = !s.host.straps.testModeN := by
  unfold State.smbState
  rw [number]
  cases s.host.ready <;> cases s.host.safePending <;> cases s.power.limiterOpen <;> cases s.host.straps.testModeN <;> interval_cases n <;> decide

theorem pstateNum_p2 (p2 : s.power.pstate = .p2) : s.pstateNum = 2 := by
  simp [State.pstateNum, p2]

theorem alertResponse_alerts (valid : s.ao.valid = true) :
    SmbAnswers .alertResponse s (.byte (0x58 + (if s.host.straps.smbAddr1 then 2 else 0) + (if s.host.straps.smbAddr0 then 1 else 0))) := by
  have alerts : s.smbAlert = true := by simp [State.smbAlert, valid]
  have address : BitVec.ofNat 8 (smbAddress s.host.straps) =
      0x58 + (if s.host.straps.smbAddr1 then 2 else 0) + (if s.host.straps.smbAddr0 then 1 else 0) := by
    unfold smbAddress
    cases s.host.straps.smbAddr1 <;> cases s.host.straps.smbAddr0 <;> rfl
  rw [← address]
  exact congrArg (fun r => Host.Outcome.next (s.smbReply r)) (if_pos alerts)

theorem faultClear_ignores {b : Byte} (other : b ≠ 0xC0) : SmbAnswers (.faultClear { pecOk := true, data := b }) s .ack :=
  congrArg (fun a => Host.Outcome.next (State.smbReply a .ack)) (if_neg other)

theorem faultClear_ends (a : AlwaysOn) : a.clear 0xC0000000 = { a with valid := false, more := false } := by
  simp [AlwaysOn.clear, bitAt]

theorem shutdown_enters (may : MayEnterSafe s) :
    ∃ t, exec (.shutdown { pecOk := true, data := 0xA5 }) s = .next t ∧ t.pins.smb = .ack ∧ EntersSafe s t 7 0 0x6060 := by
  have run : s.smbShutdown 0xA5 = s.enterSafe 7 0 0x6060 := (if_neg (by simp)).trans (if_neg may.2.2)
  refine ⟨_, congrArg (fun a => Host.Outcome.next (State.smbReply a .ack)) run, rfl, ?_⟩
  exact entersSafe_enterSafe may

/-- A write with a wrong PEC is logged where the merger runs, and is not acknowledged. -/
theorem smbWrite_refuses (s : State) (command b : Byte) (act : State → State) :
    (s.smbWrite command { pecOk := false, data := b } act).pins.smb = .nack ∧ (s.smbWrite command { pecOk := false, data := b } act).ao = s.ao ∧
      (s.smbWrite command { pecOk := false, data := b } act).power = s.power ∧ (s.smbWrite command { pecOk := false, data := b } act).host = s.host := by
  have run : s.smbWrite command { pecOk := false, data := b } act = (s.smbLog SMBUS_PEC [command]).smbReply .nack := if_neg (by simp)
  rw [run, State.smbLog]
  split <;> exact ⟨rfl, rfl, rfl, rfl⟩

theorem theSidebandTargetAnswers : TheSidebandTargetAnswers := by
  refine ⟨fun x s l36 => ?_, fun x s => rfl, fun x s => rfl, fun x s off => temp_off x off, fun x s off => tempDie_off x off,
    fun x w s alive => ?_, fun x w s off => ?_, fun x s p2 => ?_, fun s valid => alertResponse_alerts valid, fun s => ?_,
    fun b s other => faultClear_ignores other, fun s may => shutdown_enters may, fun b s => ⟨⟨_, rfl, smbWrite_refuses ..⟩, ⟨_, rfl, smbWrite_refuses ..⟩⟩⟩
  · have bytes : smbIdentBytes s.pkg.variant = [0x2B, 0x1D, 0x36, 0x70, 0xB0, 2, 4, 2] := by rw [l36]; decide
    exact congrArg (fun bs => Host.Outcome.next (s.smbReply (.block bs))) bytes
  · have word := power_word (s := s) x (some w)
    rwa [alive] at word
  · have word := power_word (s := s) x w
    rwa [off] at word
  · exact ⟨_, rfl, smbState_bits s 2 (pstateNum_p2 p2) (by omega)⟩
  · refine ⟨_, rfl, rfl, ?_, rfl, rfl⟩
    exact faultClear_ends s.ao

/-! ## The test access port (R405) -/

theorem bitList_getD (w n v : Nat) (h : n < w) : (bitList w v).getD n false = v.testBit n := by
  induction w generalizing n v with
  | zero => omega
  | succ w ih =>
    cases n with
    | zero => simp [bitList, Nat.testBit_zero]
    | succ n => rw [bitList, List.getD_cons_succ, ih n _ (by omega), Nat.testBit_succ]

theorem bitList_length (w v : Nat) : (bitList w v).length = w := by
  induction w generalizing v with
  | zero => rfl
  | succ w ih => rw [bitList, List.length_cons, ih]

/-- The port as an instruction leaves it in P0, before what the instruction itself puts there. -/
def selected (s : State) (ir : Byte) (out : List Bool) : Jtag := { s.pins.jtag with ir := ir, pins := none, hiZ := false, out := out }

theorem tap_p0 {i : Instr} {ir : Byte} {out : List Bool} {f : Jtag → Jtag} (runs : exec i s = .next (s.tap ir out f))
    (p0 : s.power.pstate = .p0) : TapGives i s (f (selected s ir out)) := by
  rw [TapGives, runs, State.tap, p0]
  rfl

theorem drivePins_in_test {j : Jtag} (test : InTestMode s) : s.drivePins j = { j with pins := some j.boundary } :=
  if_pos (by simp [State.testMode, test.1, test.2])

theorem drivePins_in_use {j : Jtag} (use : s.host.straps.testModeN = true) : s.drivePins j = j :=
  if_neg (by simp [State.testMode, use])

theorem extestWith_p0 {i : Instr} {ir : Byte} {bs : List Bool} (runs : exec i s = .next (s.extestWith ir bs)) (p0 : s.power.pstate = .p0)
    (test : InTestMode s) : TapGives i s { ir := ir, boundary := bs, pins := some bs, hiZ := false, out := s.pins.jtag.boundary } := by
  have gives := tap_p0 (f := fun j => s.drivePins { j with boundary := bs }) runs p0
  rwa [drivePins_in_test test] at gives

theorem extestWith_in_use {i : Instr} {ir : Byte} {bs : List Bool} (runs : exec i s = .next (s.extestWith ir bs))
    (use : s.host.straps.testModeN = true) : ∃ j, TapGives i s j ∧ j.boundary = bs ∧ j.pins = none :=
  ⟨_, runs, (congrArg Jtag.boundary (drivePins_in_use use) :), (congrArg Jtag.pins (drivePins_in_use use) :)⟩

theorem clamp_p0 (p0 : s.power.pstate = .p0) (test : InTestMode s) : TapGives .clamp s
    { ir := 0x05, boundary := s.pins.jtag.boundary, pins := some s.pins.jtag.boundary, hiZ := false, out := [false] } := by
  have gives := tap_p0 (i := .clamp) rfl p0
  rwa [drivePins_in_test test] at gives

theorem highz_p0 (p0 : s.power.pstate = .p0) (test : InTestMode s) : TapGives .highz s
    { ir := 0x06, boundary := s.pins.jtag.boundary, pins := none, hiZ := true, out := [false] } := by
  have gives := tap_p0 (i := .highz) rfl p0
  have mode : s.testMode = true := by simp [State.testMode, test.1, test.2]
  rwa [mode] at gives

theorem testMode_in_use (use : s.host.straps.testModeN = true) : s.testMode = false := by
  simp [State.testMode, use]

theorem idcode_p0 (p0 : s.power.pstate = .p0) (n40 : s.pkg.variant = .n40) :
    ∃ j, TapGives .idcode s j ∧ j.ir = 0x02 ∧ j.pins = none ∧ j.out.length = 32 ∧
      ∀ n, n < 32 → j.out.getD n false = bitAt (0x170415AB : Word) n := by
  refine ⟨_, tap_p0 rfl p0, rfl, rfl, bitList_length 32 _, fun n inside => (bitList_getD 32 n _ inside).trans ?_⟩
  rw [n40]
  rfl

theorem bypass_p0 {code : BitVec 8} (beyond : 6 < code.toNat) (p0 : s.power.pstate = .p0) : TapGives (.bypass code) s
    { ir := code, boundary := s.pins.jtag.boundary, pins := none, hiZ := false, out := [false] } :=
  tap_p0 (f := fun j => j) (congrArg Host.Outcome.next (if_neg (Nat.not_le.mpr beyond))) p0

theorem theTestPortReachesOnlyThePins : TheTestPortReachesOnlyThePins :=
  ⟨fun _ => ⟨_, rfl, rfl, rfl, rfl, rfl⟩, fun _ p0 n40 => idcode_p0 p0 n40,
    fun _ sh _ p0 => tap_p0 (f := fun j => { j with boundary := sh }) rfl p0,
    fun _ _ p0 test => ⟨extestWith_p0 rfl p0 test, extestWith_p0 rfl p0 test, extestWith_p0 rfl p0 test, clamp_p0 p0 test, highz_p0 p0 test⟩,
    fun _ _ use => ⟨extestWith_in_use rfl use, extestWith_in_use rfl use, extestWith_in_use rfl use,
      ⟨_, rfl, (congrArg Jtag.pins (drivePins_in_use use) :)⟩, ⟨_, rfl, testMode_in_use use⟩⟩,
    fun _ _ beyond p0 => bypass_p0 beyond p0⟩

/-- Settles O38, a clause for each command of the target and each instruction of the port. -/
theorem theSidebandAndTheTestPortAnswer : Obligations.TheSidebandAndTheTestPortAnswer :=
  ⟨theSidebandTargetAnswers, theTestPortReachesOnlyThePins⟩

end Sys2Proof.Proofs

end

section
/-! PROOFS. Where a table holds an entry that breaks Table MM-3, a MEM_MAP leaves the page it maps without a translation. -/

namespace Sys2Proof.Proofs

open Sys2Proof Sys2Proof.Machine Sys2Proof.Claims

/-! ## An entry with a reserved bit -/

/-- MEM_MAP, in progress, of the page at 0 to the DPA 0, which the command names, for reads and writes. -/
def mapOfPage0 : Started := { id := 3, ring := .ctx 0, consAfter := 1, w := BitVec.ofNat 512 (0x0C + 0x23 * 2 ^ 160 + 0x10000 * 2 ^ 256) }

/-- Tenant 0 maps the page at 64 KiB to the frame at DPA 0. Its entry of level 1 points to a table and has the reserved bit 48 set. -/
def reservedBitSet : State :=
  { State.reset with
    host := { ready := true, started := [mapOfPage0] }
    ctxs := [(0, { isOpen := true, pt := [(ptKey 1 0, BitVec.ofNat 64 (2 ^ 48 + 1)), (ptKey 4 0x10000, leafEntry 0 3)] })] }

theorem reservedBitSet_serves : Serves reservedBitSet ⟨3, true⟩ 0x0C mapOfPage0 := ⟨by decide +kernel, by decide +kernel⟩

theorem reservedBitSet_mapOk : MapOk reservedBitSet mapOfPage0 := by unfold MapOk; decide +kernel

/-- The frame that the command names is one that the context holds, and there is room for the four tables of the page. -/
theorem reservedBitSet_frame_and_room :
    (∀ i, i < mapOfPage0.p 32 8 / 65536 → mapOfPage0.p 40 8 / 65536 + i ∈ (own mapOfPage0 reservedBitSet).frameSet) ∧
      RoomForTables reservedBitSet (3 * (mapOfPage0.p 32 8 / 65536) + 1) := by
  unfold RoomForTables
  decide +kernel

/-- The command keeps the entry of level 1, since it points to a table; the walk of the page ends there, with CAUSE 6. -/
theorem reservedBitSet_faults :
    ((reservedBitSet.memMap mapOfPage0).ctx 0).walk (mapOfPage0.p 24 8) { write := false } = .fault 6 1 := by decide +kernel

/-- Refutes O60: its clause of MEM_MAP fails in a state whose tables hold an entry with a reserved bit set, as no command writes one. -/
theorem not_servedCommandsAndStartsHaveTheirEffect : ¬ Obligations.ServedCommandsAndStartsHaveTheirEffect := by
  unfold Obligations.ServedCommandsAndStartsHaveTheirEffect
  rintro ⟨-, ⟨map, -⟩, -⟩
  obtain ⟨frames, room⟩ := reservedBitSet_frame_and_room
  obtain ⟨t, run, -, leads⟩ := map ⟨3, true⟩ mapOfPage0 reservedBitSet reservedBitSet_serves
    ⟨reservedBitSet_mapOk, by decide +kernel, by decide +kernel, by decide +kernel, frames, room⟩
  have mapped : t = reservedBitSet.memMap mapOfPage0 := by
    change Host.Outcome.next (reservedBitSet.serve ⟨3, true⟩ 0x0C State.memMap) = _ at run
    rw [serve_of_serves reservedBitSet_serves] at run
    exact (Host.Outcome.next.inj run).symm
  have tenant0 : mapOfPage0.tenant = 0 := by decide +kernel
  have walked := leads { write := false }
  rw [mapped, own, tenant0, reservedBitSet_faults] at walked
  exact absurd walked (by decide +kernel)

end Sys2Proof.Proofs
end

section
/-! PROOFS. The way of every safe-state cause to P3 (R389). -/

namespace Sys2Proof.Proofs

open Sys2Proof Sys2Proof.Machine Sys2Proof.Claims

variable {s : State}

/-! ## The descent -/

theorem onlyDie_descent {d : Nat} {t : State} (only : OnlyDie d s t) : t.power.descent = s.power.descent := by
  obtain ⟨same, -⟩ := only
  rw [← same]

/-- In the descent a field die takes the step that is due, and the descent goes on. -/
theorem descent_step {d : Die} (descent : s.power.descent = true) (alive : s.alive = true) (due : s.stepDue d.val = true) (field : d.val < 16)
    (quiet : ∀ e, e < 16 → s.tilesQuiet e = true) (left : 0 < stepsLeft s d.val) :
    ∃ u, exec (.powerStep d) s = .next u ∧ u.power.descent = true ∧ stepsLeft u d.val + 1 = stepsLeft s d.val ∧
      ∀ e, e ≠ d.val → u.die e = s.die e := by
  obtain ⟨u, run, only, total, -⟩ := die_opens ⟨alive, due, quiet _ field⟩ (.inl ⟨descent, quiet⟩)
  refine ⟨u, run, (onlyDie_descent only).trans descent, ?_, only.2⟩
  unfold stepsLeft at left ⊢
  omega

/-- With no step left on any field die the descent ends in P3. -/
theorem descent_ends (descent : s.power.descent = true) (off : ∀ d, d < 16 → stepsLeft s d = 0) :
    ∃ u, exec .descentEnd s = .next u ∧ u.power.pstate = .p3 := by
  have descended : s.descended = true := by
    simp only [State.descended, List.all_eq_true, List.mem_range, Bool.and_eq_true, decide_eq_true_eq]
    exact fun d field => Nat.add_eq_zero_iff.mp (off d field)
  have ends : s.descentEnd.power.pstate = .p3 := by simp [State.descentEnd, descent, descended, State.mainLost]
  exact ⟨_, rfl, ends⟩

theorem descentReachesP3 : DescentReachesP3 :=
  ⟨fun _ _ field descent alive due quiet left => descent_step descent alive due field quiet left, fun _ descent off => descent_ends descent off⟩

/-! ## The commands that raise a cause -/

/-- A command that raises a cause enters the safe state for it; what else it leaves is SMBus's answer. -/
theorem exec_of_raises {i : Instr} {cause : Nat} (raises : Raises i s cause) :
    cause ≤ 7 ∧ ∃ src r, exec i s = .next { s.enterSafe cause 0 src with pins := r } := by
  unfold Raises at raises
  split at raises
  · subst raises
    exact ⟨by omega, _, _, rfl⟩
  · obtain ⟨alive, rfl⟩ := raises
    exact ⟨by omega, stewardSrc, _, congrArg Host.Outcome.next (if_pos alive)⟩
  · obtain ⟨alive, rfl⟩ := raises
    exact ⟨by omega, 0x6407, _, congrArg Host.Outcome.next (if_pos alive)⟩
  · obtain ⟨alive, rfl⟩ := raises
    exact ⟨by omega, 0x6005, _, congrArg Host.Outcome.next (if_neg (by simp [alive]))⟩
  · obtain ⟨alive, rfl⟩ := raises
    exact ⟨by omega, stewardSrc, _, congrArg Host.Outcome.next (if_neg (by simp [alive]))⟩
  · obtain ⟨alive, bound, rfl⟩ := raises
    exact ⟨by omega, twinSrc, _, congrArg Host.Outcome.next (if_pos (by simp [alive, bound]))⟩
  · obtain ⟨pec, data, up, rfl⟩ := raises
    have enters : s.smbShutdown 0xA5 = s.enterSafe 7 0 smbSrc := (if_neg (by simp)).trans (if_neg up)
    have acts : exec (.shutdown _) s = .next ((s.smbShutdown _).smbReply .ack) := congrArg Host.Outcome.next (if_pos pec)
    rw [data, enters] at acts
    exact ⟨by omega, smbSrc, _, acts⟩
  · exact raises.elim

/-- The record holds the first cause, and stays valid. -/
theorem record_holds (a : AlwaysOn) (cause detail : Nat) (src : Src) (gts : DWord) (small : cause ≤ 7) :
    (a.record cause detail src gts).valid = true ∧ (a.valid = false → (a.record cause detail src gts).cause.toNat = cause) := by
  unfold AlwaysOn.record
  split
  · next valid => exact ⟨valid, fun invalid => absurd (valid.symm.trans invalid) (by decide)⟩
  · exact ⟨rfl, fun _ => by simp only [BitVec.toNat_ofNat]; omega⟩

/-- After the first cause another one sets MORE alone. -/
theorem enterSafe_more {cause detail : Nat} {src : Src} (good : s.power.pwrGood = true) (pending : s.host.safePending = true)
    (valid : s.ao.valid = true) : s.enterSafe cause detail src = { s with ao := { s.ao with more := true } } := by
  rw [enterSafe_records good (.inl pending), AlwaysOn.record, if_pos valid]

/-- Settles O53: the descent by the steps that its dies take, the commands by the entry to the safe state that each of them is. -/
theorem everyCauseLeadsToP3 : Obligations.EveryCauseLeadsToP3 := by
  unfold Obligations.EveryCauseLeadsToP3
  refine ⟨descentReachesP3, fun _ _ _ _ may => entersSafe_enterSafe may, fun _ _ _ _ good pending valid => enterSafe_more good pending valid,
    fun i cause s raises may => ?_, fun i cause s raises good pending valid => ?_⟩
  · obtain ⟨small, src, r, run⟩ := exec_of_raises raises
    obtain ⟨pending, descent, ao⟩ := entersSafe_enterSafe (cause := cause) (detail := 0) (src := src) may
    obtain ⟨valid, first⟩ := record_holds s.ao cause 0 src s.clk.gts small
    exact ⟨_, run, pending, descent, (congrArg AlwaysOn.valid ao).trans valid,
      fun invalid => (congrArg (fun a : AlwaysOn => a.cause.toNat) ao).trans (first invalid)⟩
  · obtain ⟨-, src, r, run⟩ := exec_of_raises raises
    rw [enterSafe_more good pending valid] at run
    exact ⟨_, run, rfl, rfl, rfl, rfl, rfl⟩

end Sys2Proof.Proofs

end

section
/-! PROOFS. Ethernet rings: what a frame, an entry and a write of CFG leave of their port (R327 to R330). -/

namespace Sys2Proof.Proofs

open Sys2Proof Sys2Proof.Machine Sys2Proof.Claims

variable {s t u : State} {p : PortRef}

/-! ## What the operations of a port leave -/

theorem onlyEth_refl (p : PortRef) (s : State) : OnlyEth p s s := ⟨fun _ _ => rfl, rfl, rfl⟩

theorem onlyEth_trans (first : OnlyEth p s t) (second : OnlyEth p t u) : OnlyEth p s u := by
  obtain ⟨eth1, ports1, tiles1⟩ := first
  obtain ⟨eth2, ports2, tiles2⟩ := second
  exact ⟨fun q other => (eth2 q other).trans (eth1 q other), ports2.trans ports1, tiles2.trans tiles1⟩

theorem onlyEth_onEth (p : PortRef) (s : State) (f : EthPort → EthPort) : OnlyEth p s (s.onEth p f) :=
  ⟨fun _ other => s.ethPort_onEth_other f other, rfl, rfl⟩

theorem AccessOnly.links (only : AccessOnly s u) : u.links = s.links := (congrArg State.links only.rest :)

theorem AccessOnly.ethPort (only : AccessOnly s u) (q : PortRef) : u.ethPort q = s.ethPort q := by
  rw [State.ethPort, only.links, State.ethPort]

theorem AccessOnly.port (only : AccessOnly s u) (q : PortRef) : u.port q = s.port q := by
  rw [State.port, only.links, State.port]

theorem AccessOnly.portHalf (only : AccessOnly s u) (q : PortRef) : u.portHalf q = s.portHalf q := by
  rw [State.portHalf, only.pkg, State.portHalf]

theorem AccessOnly.localGts (only : AccessOnly s u) (d : Nat) : u.localGts d = s.localGts d := by
  have time : u.time = s.time := (congrArg State.time only.rest :)
  rw [State.localGts, only.clk, time, State.localGts]

theorem AccessOnly.onlyEth (only : AccessOnly s u) (p : PortRef) : OnlyEth p s u :=
  ⟨fun q _ => only.ethPort q, congrArg Links.ports only.links, (congrArg State.tiles only.rest :)⟩

theorem accessOnly_of_vaWrite {c : Tenant} {half : Fin 2} {va : Nat} {bs : List Byte} {i : FaultInfo} {r : Bool}
    (wrote : s.vaWrite c half va bs i = (r, u)) : AccessOnly s u := by
  have only := accessOnly_vaWrite s c half va bs i
  rwa [wrote] at only

/-- A port's slot with other marks of what it waits for and of the PAUSE frames it sent. -/
def marked (e : EthPort) (rx tx sent : Bool) (out : List (BitVec 16)) : EthPort :=
  { e with rx := { e.rx with waiting := rx }, tx := { e.tx with waiting := tx }, pauseSent := sent, pausesOut := out }

/-- From one state to another a port at most came to wait or sent a PAUSE frame; no other port and no byte of HBM has changed. -/
def OnlyMarks (p : PortRef) (s t : State) : Prop :=
  OnlyEth p s t ∧ t.mem = s.mem ∧ ∃ rx tx sent out, t.ethPort p = marked (s.ethPort p) rx tx sent out

theorem onlyMarks_of_ethPort (only : OnlyEth p s t) (mem : t.mem = s.mem) (same : t.ethPort p = s.ethPort p) : OnlyMarks p s t :=
  ⟨only, mem, (s.ethPort p).rx.waiting, (s.ethPort p).tx.waiting, (s.ethPort p).pauseSent, (s.ethPort p).pausesOut, same⟩

theorem OnlyMarks.trans (first : OnlyMarks p s t) (second : OnlyMarks p t u) : OnlyMarks p s u := by
  obtain ⟨only1, mem1, _, _, _, _, marks1⟩ := first
  obtain ⟨only2, mem2, rx, tx, sent, out, marks2⟩ := second
  exact ⟨onlyEth_trans only1 only2, mem2.trans mem1, rx, tx, sent, out, by rw [marks2, marks1]; rfl⟩

theorem onlyMarks_sendSignal (p : PortRef) (s : State) (c : Tenant) (i : BitVec 12) (n : Nat) (src : Src) :
    OnlyMarks p s (s.sendSignal c i n src) := onlyMarks_of_ethPort (onlyEth_refl p s) rfl rfl

theorem onlyMarks_scrivCtx (p : PortRef) (s : State) (c : Tenant) (kind : Byte) (src : Src) (bs : List Byte) (origin : Nat × DWord) :
    OnlyMarks p s (s.scrivCtx c kind src bs origin) := by
  have only : AccessOnly s (s.scrivCtx c kind src bs origin) := (AccessOnly.refl s).scrivCtx ..
  refine onlyMarks_of_ethPort (only.onlyEth p) ?_ (only.ethPort p)
  unfold State.scrivCtx State.scriv
  split <;> split <;> rfl

/-- A port either waits already, or has nothing to wait for, or comes to wait. -/
theorem ethAwait_cases (s : State) (p : PortRef) (d : EthDir) : s.ethAwait p d = s ∨
    ∃ beacon, s.ethAwait p d =
      (s.onEthRing p d fun g => { g with waiting := true }).sendWait (s.port p).tenant beacon 1 (portSrc p) (.eth p d) := by
  unfold State.ethAwait
  cases d <;> dsimp only <;> split
  · exact .inr ⟨_, rfl⟩
  · exact .inl rfl
  · exact .inr ⟨_, rfl⟩
  · exact .inl rfl

theorem onlyMarks_ethAwait (p : PortRef) (s : State) (d : EthDir) : OnlyMarks p s (s.ethAwait p d) := by
  obtain stays | ⟨beacon, waits⟩ := ethAwait_cases s p d
  · rw [stays]
    exact onlyMarks_of_ethPort (onlyEth_refl p s) rfl rfl
  · rw [waits]
    have only : OnlyEth p s (s.onEthRing p d fun g => { g with waiting := true }) := onlyEth_onEth p s _
    refine ⟨only, rfl, ?_⟩
    cases d with
    | rx =>
      have slot : (s.onEthRing p .rx fun g => { g with waiting := true }).ethPort p = _ := s.ethPort_onEth_self p _
      exact ⟨true, (s.ethPort p).tx.waiting, (s.ethPort p).pauseSent, (s.ethPort p).pausesOut, slot⟩
    | tx =>
      have slot : (s.onEthRing p .tx fun g => { g with waiting := true }).ethPort p = _ := s.ethPort_onEth_self p _
      exact ⟨(s.ethPort p).rx.waiting, true, (s.ethPort p).pauseSent, (s.ethPort p).pausesOut, slot⟩

theorem onlyMarks_sendPause (p : PortRef) (s : State) : OnlyMarks p s (s.sendPause p) := by
  have marks (sent : Bool) (out : BitVec 16) : OnlyMarks p s (s.onEth p fun e => { e with pauseSent := sent, pausesOut := e.pausesOut ++ [out] }) :=
    ⟨onlyEth_onEth p s _, rfl, (s.ethPort p).rx.waiting, (s.ethPort p).tx.waiting, sent, (s.ethPort p).pausesOut ++ [out],
      s.ethPort_onEth_self p _⟩
  unfold State.sendPause
  dsimp only
  split
  · exact marks true 0xFFFF
  · split
    · exact marks false 0
    · exact onlyMarks_of_ethPort (onlyEth_refl p s) rfl rfl

/-! ## Frames on the wire (R328, R330) -/

/-- A frame with an error is counted. -/
theorem frame_counts_error (bs : List Byte) (up : EthUp s p) :
    s.ethFrameRx p bs false = s.onEth p fun e => { e with rxErrors := addSat e.rxErrors 1 } := by
  obtain ⟨alive, eth, link⟩ := up
  simp [State.ethFrameRx, alive, eth, link]

/-- A good frame for the ring goes on to it. -/
theorem frame_for_ring {bs : List Byte} (up : EthUp s p) (frame : RingFrame s p bs) :
    s.ethFrameRx p bs true =
      if !s.ethStarts p || !(s.ethPort p).rx.enable || 262144 < (s.ethPort p).buffered + bs.length then
        s.onEth p fun e => { e with rxDrops := addSat e.rxDrops 1 }
      else
        ((s.onEth p fun e => { e with buffer := e.buffer ++ [{ bytes := bs, gts := s.localGts (xdDie p.xd.val) }] }).ethAwait p .rx).sendPause p := by
  obtain ⟨alive, eth, link⟩ := up
  obtain ⟨long, short, pause, ptp, replaying⟩ := frame
  have length : ¬ (bs.length + 4 < 64) ∧ ¬ (9216 < bs.length + 4) := by omega
  have other : (s.ptpTakes p && isPtpFrame bs) = false := by
    rw [Bool.and_eq_false_imp]
    exact ptp
  simp [State.ethFrameRx, alive, eth, link, length, pause, other, replaying]

theorem frame_is_kept {bs : List Byte} (up : EthUp s p) (frame : RingFrame s p bs) (starts : s.ethStarts p = true)
    (enable : (s.ethPort p).rx.enable = true) (room : (s.ethPort p).buffered + bs.length ≤ 262144) :
    ∃ t, exec (.ethFrameRx p bs true) s = .next t ∧ OnlyEth p s t ∧ (t.ethPort p).rxDrops = (s.ethPort p).rxDrops ∧
      (t.ethPort p).buffer = (s.ethPort p).buffer ++ [{ bytes := bs, gts := s.localGts (xdDie p.xd.val) }] := by
  have run := (frame_for_ring up frame).trans (if_neg (by simp [starts, enable, Nat.not_lt.mpr room]))
  obtain ⟨only, -, _, _, _, _, slot⟩ := (onlyMarks_ethAwait p
    (s.onEth p fun e => { e with buffer := e.buffer ++ [{ bytes := bs, gts := s.localGts (xdDie p.xd.val) }] }) .rx).trans (onlyMarks_sendPause p _)
  rw [State.ethPort_onEth_self] at slot
  exact ⟨_, congrArg Host.Outcome.next run, onlyEth_trans (onlyEth_onEth p s _) only, by rw [slot]; rfl, by rw [slot]; rfl⟩

theorem frame_without_ring_is_dropped {bs : List Byte} (up : EthUp s p) (frame : RingFrame s p bs)
    (unusable : s.ethStarts p = false ∨ (s.ethPort p).rx.enable = false) :
    s.ethFrameRx p bs true = s.onEth p fun e => { e with rxDrops := addSat e.rxDrops 1 } := by
  refine (frame_for_ring up frame).trans (if_pos ?_)
  obtain off | off := unusable <;> simp [off]

theorem pauseFrame_is_obeyed (quanta : BitVec 16) (up : EthUp s p) (pause : (s.port p).pause = true) :
    s.pauseFrame p quanta = s.onEth p fun e => { e with paused := quanta ≠ 0 } := by
  obtain ⟨alive, eth, link⟩ := up
  simp [State.pauseFrame, alive, eth, link, pause]

theorem frame_that_pauses {bs : List Byte} (up : EthUp s p) (long : 60 ≤ bs.length) (short : bs.length ≤ 9212)
    (pause : isPauseFrame bs = true) :
    s.ethFrameRx p bs true = s.pauseFrame p (BitVec.ofNat 16 (frameField bs 16 2)) := by
  obtain ⟨alive, eth, link⟩ := up
  have length : ¬ (bs.length + 4 < 64) ∧ ¬ (9216 < bs.length + 4) := by omega
  simp [State.ethFrameRx, alive, eth, link, length, pause]

/-! ## Entries (R328, R329) -/

/-- A frame whose buffer and entry are written is counted, DONE_BEACON is signalled, the frame is recorded, and the ring goes on. -/
theorem rxDeliver_ends {f : Frame} {bs : List Byte} {w x : State}
    (allowed : (s.ctx (s.port p).tenant).rangeFault (rd bs 0 8) (f.bytes.take (rd bs 8 4)).length true = none)
    (data : s.vaWrite (s.port p).tenant (s.portHalf p) (rd bs 0 8) (f.bytes.take (rd bs 8 4)) (portAccess p) = (true, w))
    (done : w.vaWrite (s.port p).tenant (s.portHalf p) (s.ethPort p).rx.entryVa
      (rxEntry bs f.bytes.length OK f.gts (portSrc p) (rd bs 8 4 < f.bytes.length)) (portAccess p) = (true, x)) :
    s.rxDeliver p f bs =
      (((x.onEth p fun e => { e with rxFrames := addSat e.rxFrames 1 }).sendSignal (s.port p).tenant (s.ethPort p).rx.beaconB 1 (portSrc p)).scrivCtx
        (s.port p).tenant 6 (portSrc p) (rxEntry bs f.bytes.length OK f.gts (portSrc p) (rd bs 8 4 < f.bytes.length) ++ f.bytes)).rxNext p := by
  unfold State.rxDeliver
  dsimp only
  rw [allowed]
  dsimp only [Option.isSome_none, Bool.false_eq_true, if_false]
  rw [data]
  simp only [Bool.false_eq_true, if_false]
  rw [done]
  rfl

/-- With an entry whose buffer and address can be written, the oldest frame is delivered. -/
theorem rxEntryWrite_delivers {f : Frame} {fs : List Frame} {bs : List Byte} {v w x : State} (ready : RxReady s p f fs bs v w x) :
    AccessOnly s x ∧ s.rxEntryWrite p =
      (((x.onEth p fun e => { e with rxFrames := addSat e.rxFrames 1 }).sendSignal (s.port p).tenant (s.ethPort p).rx.beaconB 1 (portSrc p)).scrivCtx
        (s.port p).tenant 6 (portSrc p) (rxEntry bs f.bytes.length OK f.gts (portSrc p) (rd bs 8 4 < f.bytes.length) ++ f.bytes)).rxNext p := by
  obtain ⟨starts, buffer, enable, granted, entry, allowed, data, done⟩ := ready
  have read := accessOnly_of_vaRead entry
  have goes : s.rxEntryWrite p = v.rxDeliver p f bs := by
    simp [State.rxEntryWrite, buffer, starts, enable, granted, entry]
  refine ⟨(read.trans (accessOnly_of_vaWrite data)).trans (accessOnly_of_vaWrite done), goes.trans ?_⟩
  rw [← read.port p] at allowed data done ⊢
  rw [← read.portHalf p] at data done
  rw [← read.ethPort p] at done ⊢
  exact rxDeliver_ends allowed data done

theorem entry_takes_oldest_frame {f : Frame} {fs : List Frame} {bs : List Byte} {v w x : State} (ready : RxReady s p f fs bs v w x) :
    ∃ t, exec (.rxEntryWrite p) s = .next t ∧ OnlyEth p s t ∧ (t.ethPort p).buffer = fs ∧ t.mem.hbm = x.mem.hbm ∧
      (t.ethPort p).rxFrames = addSat (s.ethPort p).rxFrames 1 ∧ (t.ethPort p).rx.next = (s.ethPort p).rx.next + 1 := by
  have buffer : (s.ethPort p).buffer = f :: fs := ready.2.1
  obtain ⟨only, run⟩ := rxEntryWrite_delivers ready
  obtain ⟨only1, mem1, _, _, _, _, slot1⟩ :=
    (onlyMarks_sendSignal p (x.onEth p fun e => { e with rxFrames := addSat e.rxFrames 1 }) (s.port p).tenant
        (s.ethPort p).rx.beaconB 1 (portSrc p)).trans
      (onlyMarks_scrivCtx p _ (s.port p).tenant 6 (portSrc p) (rxEntry bs f.bytes.length OK f.gts (portSrc p) (rd bs 8 4 < f.bytes.length) ++ f.bytes) _)
  rw [State.ethPort_onEth_self, only.ethPort] at slot1
  obtain ⟨only2, mem2, _, _, _, _, slot2⟩ := (onlyMarks_ethAwait p (State.onEth _ p fun e =>
    { e with buffer := e.buffer.drop 1, rx := { e.rx with next := e.rx.next + 1, granted := false } }) .rx).trans (onlyMarks_sendPause p _)
  rw [State.ethPort_onEth_self, slot1] at slot2
  refine ⟨_, congrArg Host.Outcome.next run, onlyEth_trans (onlyEth_trans (onlyEth_trans (only.onlyEth p) (onlyEth_onEth p x _)) only1) (onlyEth_trans (onlyEth_onEth p _ _) only2), ?_, ?_, ?_, ?_⟩
  · exact (congrArg EthPort.buffer slot2).trans (congrArg (List.drop 1) buffer)
  · exact congrArg MemState.hbm (mem2.trans mem1)
  · exact congrArg EthPort.rxFrames slot2
  · exact congrArg (fun e : EthPort => e.rx.next) slot2

theorem tx_takes_next_frame {bs data : List Byte} (ready : TxReady s p bs data u) :
    ∃ t, exec (.ethTx p) s = .next t ∧ OnlyEth p s t ∧ t.ethPort p = { s.ethPort p with sending := some data } := by
  obtain ⟨starts, enable, granted, paused, free, link, ok, v, entry, frame⟩ := ready
  have read := accessOnly_of_vaRead entry
  have only := read.trans (accessOnly_of_vaRead frame)
  have run : s.ethTx p = u.onEth p fun e => { e with sending := some data } := by
    simp [State.ethTx, starts, enable, granted, paused, free, link, entry, ok, frame]
  exact ⟨_, congrArg Host.Outcome.next run, onlyEth_trans (only.onlyEth p) (onlyEth_onEth p u _), by rw [State.ethPort_onEth_self, only.ethPort]⟩

/-- The slot of a port whose frame has gone out. -/
def sentFrame (e : EthPort) (data : List Byte) : EthPort :=
  { e with wire := e.wire ++ [data], txFrames := addSat e.txFrames 1, sending := none }

theorem tx_ends {v w : State} {bs data : List Byte} {bad : Bool} (sending : (s.ethPort p).sending = some data) (alive : s.alive = true)
    (link : (s.port p).state = .up)
    (entry : s.vaRead (s.port p).tenant (s.portHalf p) (s.ethPort p).tx.entryVa 32 (portAccess p) = (some (bs, bad), v))
    (done : ((v.onEth p fun e => { e with wire := e.wire ++ [data], txFrames := addSat e.txFrames 1 }).onEth p fun e => { e with sending := none }).vaWrite
      (s.port p).tenant (s.portHalf p) (s.ethPort p).tx.entryVa (txEntry bs OK (s.localGts (xdDie p.xd.val)) (portSrc p)) (portAccess p) =
      (true, w)) :
    ∃ t, exec (.ethTxDone p) s = .next t ∧ OnlyEth p s t ∧ (t.ethPort p).sending = none ∧
      (t.ethPort p).wire = (s.ethPort p).wire ++ [data] ∧ (t.ethPort p).txFrames = addSat (s.ethPort p).txFrames 1 ∧
      (t.ethPort p).tx.next = (s.ethPort p).tx.next + 1 ∧ t.mem.hbm = w.mem.hbm := by
  have read := accessOnly_of_vaRead entry
  have wrote : AccessOnly _ w := accessOnly_of_vaWrite done
  have slot : w.ethPort p = sentFrame (s.ethPort p) data := by
    rw [wrote.ethPort, State.ethPort_onEth_self, State.ethPort_onEth_self, read.ethPort]
    rfl
  have only : OnlyEth p s w :=
    onlyEth_trans (onlyEth_trans (read.onlyEth p) (onlyEth_trans (onlyEth_onEth p v _) (onlyEth_onEth p _ _))) (wrote.onlyEth p)
  have gts : v.localGts (xdDie p.xd.val) = s.localGts (xdDie p.xd.val) := by rw [read.localGts]
  have run : s.ethTxDone p = ((w.onEthRing p .tx fun g => { g with next := g.next + 1, granted := false }).sendSignal (s.port p).tenant
      (s.ethPort p).tx.beaconB 1 (portSrc p)).ethAwait p .tx := by
    simp only [State.ethTxDone, sending, alive, link, entry]
    simp only [Bool.not_true, ne_eq, not_true_eq_false, decide_false, Bool.or_false, Bool.false_eq_true, if_false]
    unfold State.txComplete
    simp only [State.port_onEth, State.onEth_localGts, State.ethPort_onEth_self, read.port, read.ethPort, gts, State.portHalf, State.onEth_pkg, read.pkg]
    rw [State.portHalf] at done
    simp only [done]
  obtain ⟨only2, mem2, _, _, _, _, slot2⟩ :=
    (onlyMarks_sendSignal p (w.onEthRing p .tx fun g => { g with next := g.next + 1, granted := false }) (s.port p).tenant
      (s.ethPort p).tx.beaconB 1 (portSrc p)).trans (onlyMarks_ethAwait p _ .tx)
  rw [State.onEthRing, State.ethPort_onEth_self, slot] at slot2
  exact ⟨_, congrArg Host.Outcome.next run, onlyEth_trans only (onlyEth_trans (onlyEth_onEth p w _) only2), congrArg EthPort.sending slot2,
    congrArg EthPort.wire slot2, congrArg EthPort.txFrames slot2, congrArg (fun e : EthPort => e.tx.next) slot2, congrArg MemState.hbm mem2⟩

/-! ## CFG (R327) -/

/-- The ring of a slot that came to wait is the same but for that mark. -/
theorem ring_marked (e : EthPort) (rx tx sent : Bool) (out : List (BitVec 16)) (d : EthDir) :
    ∃ b, (marked e rx tx sent out).ring d = { e.ring d with waiting := b } := by
  cases d with
  | rx => exact ⟨rx, rfl⟩
  | tx => exact ⟨tx, rfl⟩

theorem ring_onEthRing (s : State) (p : PortRef) (d : EthDir) (f : EthRing → EthRing) :
    ((s.onEthRing p d f).ethPort p).ring d = f ((s.ethPort p).ring d) := by
  rw [State.onEthRing, State.ethPort_onEth_self]
  cases d <;> rfl

theorem cfg_sets_ring_up {c : Tenant} {d : EthDir} {v : Word} (live : s.fnLive (.vf c) = true) (owns : s.ownsPort c p = true)
    (sets : bitAt v 31 = true) (low : 4 ≤ bitsOf v 24 5) (high : bitsOf v 24 5 ≤ 14) (idle : ((s.ethPort p).ring d).enable = false) :
    ∃ t, exec (.ethRingEnable c p d v) s = .next t ∧ OnlyEth p s t ∧ ((t.ethPort p).ring d).enable = true ∧
      ((t.ethPort p).ring d).next = 0 ∧ ((t.ethPort p).ring d).sizeLog2.toNat = bitsOf v 24 5 ∧
      ((t.ethPort p).ring d).beaconA.toNat = bitsOf v 12 12 ∧ ((t.ethPort p).ring d).beaconB.toNat = bitsOf v 0 12 := by
  have run : s.ethRingEnable c p d v = (s.onEthRing p d fun g => g.withCfg v).ethAwait p d := by
    simp [State.ethRingEnable, live, owns, sets, State.ethCfgWrite, idle]
  obtain ⟨only, -, rx, tx, sent, out, slot⟩ := onlyMarks_ethAwait p (s.onEthRing p d fun g => g.withCfg v) d
  obtain ⟨b, ring⟩ := ring_marked ((s.onEthRing p d fun g => g.withCfg v).ethPort p) rx tx sent out d
  rw [← slot, ring_onEthRing] at ring
  refine ⟨_, congrArg Host.Outcome.next run, onlyEth_trans (onlyEth_onEth p s _) only, ?_⟩
  rw [ring]
  have a : bitsOf v 12 12 < 4096 := Nat.mod_lt _ (by decide)
  have b : bitsOf v 0 12 < 4096 := Nat.mod_lt _ (by decide)
  simp only [EthRing.withCfg, sets, low, high, decide_true, Bool.and_self, if_true, BitVec.toNat_ofNat, true_and]
  omega

/-- Settles O33: each frame and each entry by what it makes of the slot of its port, up to the marks that a wait and a PAUSE frame leave. -/
theorem ethernetRingsCarryFrames : Obligations.EthernetRingsCarryFrames := by
  unfold Obligations.EthernetRingsCarryFrames
  have slot (s : State) (p : PortRef) (f : EthPort → EthPort) : OnlyEth p s (s.onEth p f) ∧ (s.onEth p f).ethPort p = f (s.ethPort p) :=
    ⟨onlyEth_onEth p s f, s.ethPort_onEth_self p f⟩
  refine ⟨fun _ _ _ up frame starts enable room => frame_is_kept up frame starts enable room,
    fun _ bs _ up => ⟨_, congrArg Host.Outcome.next (frame_counts_error bs up), slot ..⟩,
    fun _ _ _ up frame unusable => ⟨_, congrArg Host.Outcome.next (frame_without_ring_is_dropped up frame unusable), slot ..⟩,
    fun _ _ _ up long short pause obeys => ⟨_,
      congrArg Host.Outcome.next ((frame_that_pauses up long short pause).trans (pauseFrame_is_obeyed _ up obeys)), slot ..⟩,
    fun _ _ _ _ _ _ _ _ ready => entry_takes_oldest_frame ready, fun _ _ _ _ _ ready => tx_takes_next_frame ready,
    fun _ _ _ _ _ _ _ sending alive link entry done => tx_ends sending alive link entry done,
    fun _ quanta _ up obeys => ⟨_, congrArg Host.Outcome.next (pauseFrame_is_obeyed quanta up obeys), slot ..⟩,
    fun _ _ => ⟨_, rfl, slot ..⟩, fun _ _ _ _ _ live owns sets low high idle => cfg_sets_ring_up live owns sets low high idle⟩

end Sys2Proof.Proofs

end

section
/-! PROOFS. FLR, VF Enable and the loss of a host link (R301, R407). -/

namespace Sys2Proof.Proofs

open Sys2Proof Sys2Proof.Machine Sys2Proof.Claims

variable {s t u : State} {c d : Tenant}

/-! ## The registers and rings of a VF -/

/-- From one state to another the host's side and the other contexts are the same, and tenant `c`'s context is open and closes as before. -/
structure SparesHost (c : Tenant) (s u : State) : Prop where
  host : u.host = s.host
  others : ∀ d, d ≠ c → u.ctx d = s.ctx d
  isOpen : (u.ctx c).isOpen = (s.ctx c).isOpen
  closing : (u.ctx c).closing = (s.ctx c).closing

theorem sparesHost_refl (c : Tenant) (s : State) : SparesHost c s s := ⟨rfl, fun _ _ => rfl, rfl, rfl⟩

theorem SparesHost.trans (first : SparesHost c s t) (second : SparesHost c t u) : SparesHost c s u where
  host := second.host.trans first.host
  others d other := (second.others d other).trans (first.others d other)
  isOpen := second.isOpen.trans first.isOpen
  closing := second.closing.trans first.closing

theorem sparesHost_onCtx (s : State) {g : Context → Context} (isOpen : (g (s.ctx c)).isOpen = (s.ctx c).isOpen)
    (closing : (g (s.ctx c)).closing = (s.ctx c).closing) : SparesHost c s (s.onCtx c g) where
  host := rfl
  others _ other := State.ctx_onCtx_other _ _ other
  isOpen := by rw [State.ctx_onCtx_self, isOpen]
  closing := by rw [State.ctx_onCtx_self, closing]

theorem sparesHost_dropWaits (c : Tenant) (s : State) (w : Waiter → Bool) : SparesHost c s (s.dropWaits c w) := by
  have net (n : Net) : SparesHost c s { s with net := n } := ⟨rfl, fun _ _ => rfl, rfl, rfl⟩
  simp only [State.dropWaits]
  exact (net _).trans (sparesHost_onCtx _ rfl rfl)

/-- The Ethernet rings of a tenant return to their reset values; the counters of errors on the line and the buffers stay. -/
def resetEthRings (s : State) (c : Tenant) : State :=
  allPorts.foldl (fun a p => if a.ownsPort c p then (a.dropWaits c fun w => w = .eth p .rx || w = .eth p .tx).onEth p fun e =>
    { e with rx := {}, tx := {}, rxFrames := 0, rxDrops := 0, rxErrors := 0, txFrames := 0 } else a) s

theorem sparesHost_resetEthRings (s : State) (c : Tenant) : SparesHost c s (resetEthRings s c) := by
  refine List.foldlRecOn (motive := SparesHost c s) allPorts _ (sparesHost_refl c s) fun a spares p _ => spares.trans ?_
  split
  · exact (sparesHost_dropWaits c a _).trans ⟨rfl, fun _ _ => rfl, rfl, rfl⟩
  · exact sparesHost_refl c a

/-- What an FLR of a VF makes of its registers and rings, before its context closes. -/
def resetVf (s : State) (c : Tenant) : State :=
  ({ resetEthRings s c with host := { (resetEthRings s c).host with vfs := Map.del (resetEthRings s c).host.vfs c.val } }.muteRing (.ctx c)).onCtx c
    fun k => { k with csq := {}, ccq := {}, fault := {}, notes := [], muted := k.isOpen || k.closing }

theorem flrVf_eq (s : State) (c : Tenant) : s.flrVf c =
    if ((resetVf s c).ctx c).isOpen && !((resetVf s c).ctx c).closing then ((resetVf s c).beginClose c).goOnClosing c else resetVf s c := by
  unfold State.flrVf resetVf resetEthRings
  dsimp only

theorem resetVf_ctx_self (s : State) (c : Tenant) : ∃ k : Context, k.isOpen = (s.ctx c).isOpen ∧ k.closing = (s.ctx c).closing ∧
    (resetVf s c).ctx c = { k with csq := {}, ccq := {}, fault := {} } := by
  have spares := sparesHost_resetEthRings s c
  unfold resetVf
  generalize resetEthRings s c = u at spares
  exact ⟨{ u.ctx c with notes := [], muted := (u.ctx c).isOpen || (u.ctx c).closing }, spares.isOpen, spares.closing, State.ctx_onCtx_self ..⟩

theorem resetVf_ctx_other (s : State) (other : d ≠ c) : (resetVf s c).ctx d = s.ctx d := by
  have spares := (sparesHost_resetEthRings s c).others d other
  unfold resetVf
  generalize resetEthRings s c = u at spares
  exact (State.ctx_onCtx_other _ _ other).trans spares

/-- Of the host's side the reset of a VF changes its registers and the marks of its commands alone. -/
theorem resetVf_host (s : State) (c : Tenant) :
    ∃ started, (resetVf s c).host = { s.host with vfs := Map.del s.host.vfs c.val, started := started } := by
  have host := (sparesHost_resetEthRings s c).host
  unfold resetVf
  generalize resetEthRings s c = u at host
  rw [← host]
  exact ⟨_, rfl⟩

/-! ## The close that an FLR begins -/

theorem closing_onCtx (s : State) (c : Tenant) (g : Context → Context) : ((s.onCtx c g).ctx c).closing = (g (s.ctx c)).closing := by
  rw [State.ctx_onCtx_self]

theorem finishId_closing (s : State) (id : Nat) (st : Status) (v : Nat) (c : Tenant) :
    ((s.finishId id st v).ctx c).closing = (s.ctx c).closing := (congrArg Context.closing ((quiet_finishId s id st v).2 c) :)

theorem checkStepCmd_closing (s : State) (l : BitVec 8) (c : Tenant) : ((s.checkStepCmd l).ctx c).closing = (s.ctx c).closing := by
  simp only [State.checkStepCmd]
  split
  · rfl
  · split
    · rfl
    · split
      · rw [finishId_closing, State.onInst_ctx]
      · rfl

theorem beginClose_closing (s : State) (c : Tenant) : ((s.beginClose c).ctx c).closing = true := by
  refine List.foldlRecOn (motive := fun a => (a.ctx c).closing = true) _ _ (closing_onCtx s c fun k => { k with closing := true })
    fun (a : State) closing i _ => ?_
  rw [checkStepCmd_closing]
  split
  · exact closing
  · rwa [State.causeInst_ctx]

theorem endReplay_closing (s : State) (c : Tenant) : ((s.endReplay c).ctx c).closing = (s.ctx c).closing := by
  have dropped : ((s.onCtx c fun k => { k with replay := none }).ctx c).closing = (s.ctx c).closing :=
    closing_onCtx s c _
  unfold State.endReplay
  split
  · rfl
  · dsimp only
    split
    · rw [finishId_closing, dropped]
    · exact dropped

theorem closeNow_isOpen (s : State) (c : Tenant) : ((s.closeNow c).ctx c).isOpen = false := by
  unfold State.closeNow
  dsimp only
  rw [State.ctx_onCtx_self]

/-- A close that goes on ends the replay where no step runs, and then may be over. -/
theorem goOnClosing_cases (s : State) (c : Tenant) :
    ∃ u, (u = s.endReplay c ∨ u = s) ∧ (s.goOnClosing c = u.closeNow c ∨ s.goOnClosing c = u) := by
  unfold State.goOnClosing
  split
  · refine ⟨if (s.instsOf c).all fun i => !i.run.running then s.endReplay c else s, ?_, ?_⟩
    · split
      · exact .inl rfl
      · exact .inr rfl
    · dsimp only
      generalize (if (s.instsOf c).all fun i => !i.run.running then s.endReplay c else s) = u
      split
      · exact .inl rfl
      · exact .inr rfl
  · exact ⟨s, .inr rfl, .inr rfl⟩

/-- A close goes on, or is over. -/
theorem goOnClosing_closes (closing : (s.ctx c).closing = true) :
    ((s.goOnClosing c).ctx c).closing = true ∨ ((s.goOnClosing c).ctx c).isOpen = false := by
  obtain ⟨u, before, after⟩ := goOnClosing_cases s c
  have still : (u.ctx c).closing = true := by
    obtain rfl | rfl := before
    · rwa [endReplay_closing]
    · exact closing
  obtain ended | goes := after
  · exact .inr (by rw [ended, closeNow_isOpen])
  · exact .inl (by rw [goes, still])

theorem flrVf_closes (isOpen : (s.ctx c).isOpen = true) : ((s.flrVf c).ctx c).closing = true ∨ ((s.flrVf c).ctx c).isOpen = false := by
  obtain ⟨k, still, -, self⟩ := resetVf_ctx_self s c
  have there : ((resetVf s c).ctx c).isOpen = true := by rw [self, ← isOpen, ← still]
  rw [flrVf_eq]
  split
  · exact goOnClosing_closes (beginClose_closing ..)
  · next already =>
    rw [there, Bool.true_and, Bool.not_eq_true', Bool.not_eq_false] at already
    exact .inl already

/-- Where the context is not open an FLR resets the VF and does no more. -/
theorem flrVf_of_closed (closed : (s.ctx c).isOpen = false) : s.flrVf c = resetVf s c := by
  obtain ⟨k, still, -, self⟩ := resetVf_ctx_self s c
  have there : ((resetVf s c).ctx c).isOpen = false := by rw [self, ← closed, ← still]
  rw [flrVf_eq, there, Bool.false_and, if_neg Bool.false_ne_true]

/-! ## The functions -/

theorem exec_flr {f : Fn} (live : s.fnLive f = true) : exec (.flr f) s = .next (s.flrOf f) := congrArg Host.Outcome.next (if_pos live)

theorem exec_flr_vf (live : s.fnLive (.vf c) = true) : exec (.flr (.vf c)) s = .next (s.flrVf c) := by
  rw [exec_flr live, State.flrOf, State.vfsOf]
  dsimp only [List.foldl_cons, List.foldl_nil]

theorem vf_is_reset (closed : (s.ctx c).isOpen = false) :
    (s.flrVf c).fnRegs (.vf c) = {} ∧ (s.flrVf c).ring (.csq c) = {} ∧ (s.flrVf c).ring (.ccq c) = {} ∧ (s.flrVf c).ring (.fault c) = {} ∧
      (∀ d, d ≠ c → (s.flrVf c).ctx d = s.ctx d ∧ (s.flrVf c).fnRegs (.vf d) = s.fnRegs (.vf d)) ∧
      (s.flrVf c).host.asq = s.host.asq ∧ (s.flrVf c).host.log = s.host.log := by
  obtain ⟨k, -, -, self⟩ := resetVf_ctx_self s c
  obtain ⟨started, host⟩ := resetVf_host s c
  have others (d : Tenant) (other : d ≠ c) := resetVf_ctx_other s other
  rw [flrVf_of_closed closed]
  generalize resetVf s c = u at self host others
  have vfs : u.host.vfs = Map.del s.host.vfs c.val := (congrArg HostLink.vfs host :)
  have regs (d : Tenant) : u.fnRegs (.vf d) = Map.get {} (Map.del s.host.vfs c.val) d.val :=
    congrArg (fun m : Map FnRegs => Map.get ({} : FnRegs) m d.val) vfs
  exact ⟨(regs c).trans (Map.get_del_self ..), congrArg Context.csq self, congrArg Context.ccq self, congrArg Context.fault self,
    fun d other => ⟨others d other, (regs d).trans (Map.get_del_other _ _ fun same => other (Fin.ext same))⟩,
    (congrArg HostLink.asq host :), (congrArg HostLink.log host :)⟩

/-- No context is open, and of the host's side nothing but the registers of VFs and the commands in progress differs from `h`. -/
def ClosedWith (h : HostLink) (u : State) : Prop :=
  (∀ c, (u.ctx c).isOpen = false) ∧ { u.host with vfs := h.vfs, started := h.started } = h

theorem closedWith_flrVf {h : HostLink} (closed : ClosedWith h s) (c : Tenant) : ClosedWith h (s.flrVf c) := by
  obtain ⟨none, rest⟩ := closed
  obtain ⟨k, still, -, self⟩ := resetVf_ctx_self s c
  obtain ⟨started, host⟩ := resetVf_host s c
  rw [flrVf_of_closed (none c)]
  refine ⟨fun d => ?_, by rw [host]; exact rest⟩
  by_cases same : d = c
  · rw [same, self, ← none c, ← still]
  · rw [resetVf_ctx_other s same, none d]

/-- PF0's side of the host after its FLR. -/
def pf0Reset (h : HostLink) : HostLink := { h with asq := {}, acq := {}, log := {}, iq := {}, pf0 := {}, dbgBase := 0 }

theorem flrPf0_closedWith (none : ∀ c, (s.ctx c).isOpen = false) : ClosedWith (pf0Reset s.host) s.flrPf0 := by
  unfold State.flrPf0
  dsimp only
  split <;> exact ⟨none, rfl⟩

/-- Where no context is open an FLR of PF0 resets its own side and that of its VFs. -/
theorem flrOf_pf0 (none : ∀ c, (s.ctx c).isOpen = false) : ClosedWith (pf0Reset s.host) (s.flrOf .pf0) :=
  List.foldlRecOn (motive := ClosedWith (pf0Reset s.host)) (s.vfsOf .pf0) State.flrVf (flrPf0_closedWith none)
    fun _ closed c _ => closedWith_flrVf closed c

theorem clearedBit {w : Nat} (x : BitVec w) (i : Nat) : (x &&& ~~~((1 : BitVec w) <<< i)).getLsbD i = false := by
  simp only [BitVec.getLsbD_and, BitVec.getLsbD_not, BitVec.getLsbD_shiftLeft]
  grind

theorem fnLive_vf_false (off : s.host.vfEnabled.getLsbD c.val = false) : s.fnLive (.vf c) = false := by
  simp only [State.fnLive, off, Bool.and_false]

theorem vf_is_disabled (live : s.fnLive (.vf c) = true) :
    ∃ t, exec (.vfEnableClear c) s = .next t ∧ t.host.vfEnabled.getLsbD c.val = false ∧ t.fnLive (.vf c) = false := by
  have off := clearedBit (s.flrOf (.vf c)).host.vfEnabled c.val
  exact ⟨_, congrArg Host.Outcome.next (if_pos live), off, fnLive_vf_false off⟩

/-- The host's side when the link of port 0 has gone down. -/
def withoutLink (h : HostLink) : HostLink :=
  { h with linkUp := h.linkUp &&& ~~~((1 : BitVec 2) <<< 0), configReady := h.configReady &&& ~~~((1 : BitVec 2) <<< 0) }

theorem host_link_is_lost (alive : s.alive = true) (up : s.host.linkUp.getLsbD 0 = true) (none : ∀ c, (s.ctx c).isOpen = false) :
    ∃ t, exec (.hostLinkDown 0) s = .next t ∧ t.host.linkUp.getLsbD 0 = false ∧ t.host.configReady.getLsbD 0 = false ∧ t.fnLive .pf0 = false ∧
      (t.ring .asq).enable = false ∧ (t.ring .log).enable = false := by
  obtain ⟨-, rest⟩ := flrOf_pf0 (s := { s with host := withoutLink s.host }.logEv stewardSrc HOST_LINK_DOWN noTenant [0]) none
  have run : exec (.hostLinkDown 0) s =
      .next (({ s with host := withoutLink s.host }.logEv stewardSrc HOST_LINK_DOWN noTenant [0]).flrOf .pf0) :=
    congrArg Host.Outcome.next (if_pos (by simp [alive, up]))
  generalize State.flrOf _ _ = t at rest run
  have link : t.host.linkUp.getLsbD 0 = false := (congrArg (fun h : HostLink => h.linkUp.getLsbD 0) rest).trans (clearedBit ..)
  have pf0 : t.fnLive .pf0 = false := by simp only [State.fnLive, State.fnPort, link, Bool.and_false, Bool.false_and]
  exact ⟨t, run, link, (congrArg (fun h : HostLink => h.configReady.getLsbD 0) rest).trans (clearedBit ..), pf0,
    congrArg (fun h : HostLink => h.asq.enable) rest, congrArg (fun h : HostLink => h.log.enable) rest⟩

/-- Settles O42: an FLR of a VF by what it resets and the close it begins; where no context is open, one of PF0 resets VF after VF. -/
theorem functionsAreResetWithTheirContexts : Obligations.FunctionsAreResetWithTheirContexts := by
  unfold Obligations.FunctionsAreResetWithTheirContexts
  refine ⟨fun c s live closed => ⟨_, exec_flr_vf live, vf_is_reset closed⟩, fun c s live isOpen => ⟨_, exec_flr_vf live, flrVf_closes isOpen⟩,
    fun s live none => ?_, fun c s live => vf_is_disabled live, fun s alive up none => host_link_is_lost alive up none⟩
  obtain ⟨-, rest⟩ := flrOf_pf0 none
  refine ⟨_, exec_flr live, ?_⟩
  generalize s.flrOf .pf0 = u at rest
  exact ⟨congrArg (fun h : HostLink => h.asq.enable) rest, congrArg (fun h : HostLink => h.acq.enable) rest,
    congrArg (fun h : HostLink => h.log.enable) rest, congrArg (fun h : HostLink => h.iq.enable) rest, congrArg HostLink.pf0 rest,
    congrArg HostLink.dbgBase rest⟩

end Sys2Proof.Proofs

end
